-- ==== Sys2Proof/Word.lean ====
section
/-! DEFINITION. The plain carriers of the model: bytes, sparse byte memories, and the raw words that cross a face. -/

namespace Sys2Proof

/-- One byte. -/
abbrev Byte := BitVec 8

/-- A byte memory: address and byte pairs, addresses strictly rising, no entry equal to what an unlisted address reads as. -/
abbrev Mem := List Host.Cell

/-- A 64-byte submission entry (R165), byte 0 least significant (R9). -/
abbrev Entry := BitVec 512

/-- Bytes on the move: a length and the bytes that are not zero (R9). -/
structure Payload where
  len : Nat
  data : Mem
deriving DecidableEq, Repr

end Sys2Proof
end

