-- ==== Sys2Proof/Config.lean ====
section
/-! DEFINITION. What an implementation fixes, the closed sets of names of the spec, and the free values: constants without
a body that stand for what the spec leaves open, so that no proof can lean on a choice. -/

namespace Sys2Proof

/-- The variants of Table 00-2. -/
inductive Variant where
  | t16 | t08 | t04
deriving DecidableEq, Repr

/-- The temperature grades of Table 00-1. -/
inductive Grade where
  | c | i
deriving DecidableEq, Repr

/-- The islands of Table 01-2, a channel island by its number. -/
inductive Island where
  | hostP | hostN | nib | scribe | res | ductus | map | ch (n : Fin 16) | ldpc | par | boot | lig | fault | aon
deriving DecidableEq, Repr

/-- The two boot flash banks (Table 13-1). -/
inductive BankId where
  | a | b
deriving DecidableEq, Repr

/-- The host faces (R89). -/
inductive Face where
  | none | pcie | narrow
deriving DecidableEq, Repr

/-- The lands of Table 02-2, those of one row together. -/
inductive Land where
  | lanes | refclk | clkreqn | nclk | ncmdNd | resetn | alive | wpsw | ejectn | act | straps | ligature | debugIn | tdo | rsvd | vhu
deriving DecidableEq, Repr

/-- What the module does at a land (R32): off is no receiver, no drive and no pull. -/
inductive LandState where
  | off | pullUp
  | active        -- in use, no pull
  | activePullUp  -- in use, with the internal pull-up
  | drivenLow | input | toggling
  | sensing       -- the sense current of a strap land
  | ignored       -- sampled and ignored, no pull
  | charged | discharged
deriving DecidableEq, Repr

/-- The link errors of Table 06-10 that the module reports to itself. -/
inductive LinkErr where
  | corrected        -- receiver error, FEC-corrected symbol, bad TLP or flit corrected by replay
  | replay           -- replay number rollover, replay timer timeout
  | surpriseDown     -- surprise link down
  | fatal (down : Bool) -- protocol errors, receiver overflow, malformed TLP; whether the link then goes down
  | poisonedRequest (posted : Bool) -- poisoned request, or request to an unclaimed address, received
  | unsupported (posted : Bool)     -- a request that needs a capability the module does not support (R142)
deriving DecidableEq, Repr

/-- Settings of configuration space that the host makes by configuration writes, for which the table has no row
(log entry 6). -/
structure HostCfg where
  /-- Command register of Table 06-3 -/
  command : BitVec 16
  /-- address in BAR0 and BAR1 of Table 06-3; its bits below 128 KiB are not kept -/
  bar : BitVec 64
  msixEnable : Bool
  msixMask : Bool
  /-- Max Payload Size in bytes -/
  mps : Nat
  /-- Max Read Request Size in bytes -/
  mrrs : Nat
  relaxed : Bool
  aspmL1 : Bool
  l11 : Bool
  l12 : Bool
  ltr : Bool
  /-- Device Control [3:0]: reporting of correctable, non-fatal, fatal errors and of unsupported requests -/
  report : BitVec 4
  /-- Advanced Error Reporting: Uncorrectable Error Mask and Severity, Correctable Error Mask -/
  uncorMask : BitVec 32
  severity : BitVec 32
  corMask : BitVec 32
deriving DecidableEq, Repr

/-- What a fault report or a scrub hits: the unit whose word is bad (Table 15-3, R406, R348, R350). -/
inductive Hit where
  | none
  | write (ruling block : Nat)       -- a staged word of a write, by its ruling and its storage block
  | read (ruling block : Nat)        -- a staged word of a read, by its ruling and the block presented to the host
  | pair (q : Nat)                   -- the state of a queue pair
  | task                             -- the state of the narrow-bus task
  | control                          -- control state of Table 15-4
  | stroke (n : Nat) (ok : Bool)     -- a map word of a stroke, and whether R336 can rebuild it
  | cache (block : Nat)              -- a block of the read cache
  | table                            -- block state and threshold tables
  | gate (partition well : Nat) (ruling : Nat) -- a refused internal access of a host command (ruling 0: the module's own)
  | die (d : Nat)
  | channel (c : Nat)
  | decoder (d : Nat)
  | core (k : Nat)
deriving DecidableEq, Repr

/-- The class tables of a die (R288, R289, Table 13-5): the offsets of V1 to V7 for each of 64 classes in TLC mode and of V1 in single-level mode, in
steps of 10 mV, and the cross-temperature coefficients of V1 to V7, then of V1 in single-level mode, in 0.01 step per °C. -/
structure DieTable where
  die : Nat
  tlc : List (List Int)
  slc : List Int
  cross : List Int
deriving DecidableEq, Repr

namespace Config

/-- FREE VALUE (log entry 5): a word that the spec leaves open, the n-th of the run. -/
opaque freeWord : Nat → BitVec 32
/-- FREE VALUE (log entry 5): a byte that the spec leaves open, the n-th of the run, at an offset. -/
opaque freeByte : Nat → Nat → Byte
/-- FREE VALUE (log entry 5): a yes or no that the spec leaves to the module (a pulse between two limits, an outcome). -/
opaque freeBool : Nat → Bool
/-- FREE VALUE (log entry 5): the four classes, 6 bits each, that a swatch probe reads at, by the power-on time and the number of the probe (R290). -/
opaque probeClasses : Nat → Nat → BitVec 24
/-- FREE VALUE (log entry 9): the debug challenge, 32 bytes (R393). -/
opaque freeChallenge : Nat → BitVec 256
/-- FIPS 202 SHAKE256 with 64 bytes of output, over the bytes given (log entry 8). -/
opaque shake256 : List Byte → BitVec 512
/-- FIPS 204 ML-DSA-65 signature of a report by the identity key, 3,309 bytes (R377, log entry 8). -/
opaque attestSignature : List Byte → List Byte
/-- Whether the image in a bank carries a key whose hash is the ROM's and a signature that verifies (items 4 and 5 of R365). -/
opaque imageAuthentic : Mem → Bool
/-- SHAKE256 of the recovery ROM (Table 13-11), fixed per die stepping. -/
opaque romMeasurement : BitVec 512
/-- The bytes of the calibration row that the spec does not state (Table 13-5). -/
opaque calibrationByte : Nat → Byte
/-- The bytes of the default trims that the recovery ROM holds in place of a calibration row that fails its check (R357). -/
opaque romTrimByte : Nat → Byte
/-- The hash of the identity public key, as the identity row holds it (Table 13-6). -/
opaque identityByte : Nat → Byte
/-- The sequence that scrambles the data of a slot, seeded by die, block, page and slot (R274); the spec gives no sequence. -/
opaque scramble : Nat → Nat → Nat → Nat → BitVec 32768
/-- The parity of the LDPC code over offsets 0000h to 101Fh of a codeword (R274); the spec gives no code. -/
opaque ldpcParity : BitVec 33024 → BitVec 3840
/-- The bytes of the certificate of the unit with a serial and an ordering code (R375). -/
opaque certificateByte : List Nat → List Nat → Nat → Byte

end Config

end Sys2Proof
end

