-- ==== Sys2Proof/Syntax.lean ====
section
/-! DEFINITION. The commands of the block: one constructor per row of the opcode table, in the table's order. A row of
Table 08-1 names the queue pair whose oldest unadmitted entry is ruled (pair 0 where the Pairs column allows no other);
a narrow-bus frame carries its tag and argument; an event carries what the outside world adds to it. -/

namespace Sys2Proof

inductive Instr where
  /-- R76; whether AON's marker and CRC16 are found good (R98). -/
  | powerOnReset (aonGood : Bool)
  | powerLoss                                            -- R76
  /-- R51; whether the bank ran out first (R344), whether VCC3 stands above the threshold, AON as in R98. -/
  | dumpComplete (ranOut vcc3Up aonGood : Bool)
  | pinReset                                             -- R77
  | sequencerRowRead (calGood : Bool)                    -- R84, R357
  | strapSample (microvolts : List Nat)                  -- R60: the nine land voltages
  | faultIslandRelease                                   -- R86
  | resetStretchEnd (vccqMv : Nat)                       -- R81
  | vccqSettled (vccqMv : Nat)                           -- R37
  /-- R81; whether EJECTn stands high, the cores and decoders that fail their start test (R318, R319). -/
  | resetRelease (ejectHigh : Bool) (badCores badDecoders : List Nat)
  | islandRelease (isl : Island) (wpswLow : Bool)        -- R85, R387
  | islandClockTimeout (isl : Island)                    -- R87
  | faceSelection (ts1 frame : Bool)                     -- R89: the events of one sample
  | imageCheck                                           -- R95
  | dramTrained                                          -- R366
  | adminReady                                           -- R90
  /-- R336; per die and block probed, the bit errors at the four classes read (R290); the log page that does not decode (R339). -/
  | recovery (errors : List (List (List Nat))) (badPage : Option Nat)
  | ioReady                                              -- R93
  | failedStartLimit                                     -- R95
  | narrowIdReady                                        -- R120
  /-- R146; whether training has assigned physical lane 1 as logical lane 0 (R145). -/
  | linkTrained (speed width : Nat) (reversed : Bool) (host : HostCfg)
  | bootstrapEnable                                      -- R155
  | bootstrapEnableClear                                 -- R156
  | shutdownRequest                                      -- R157
  | shutdownComplete                                     -- R341
  | bar0RegisterWrite (off len : Nat) (value : BitVec 64) -- R151
  | bar0OversizedRead (off len : Nat)                    -- R151
  | submissionTailDoorbell (q : Nat) (value : BitVec 32) -- R169
  | pair0ResumeDoorbell (value : BitVec 32)              -- R192
  | completionHeadDoorbell (q : Nat) (value : BitVec 32) -- R169
  | msixVectorUnmask (v : Nat)                           -- R159
  | hotReset                                             -- R163
  | linkDown                                             -- R163
  | functionLevelReset                                   -- R163
  | d3hotEntry                                           -- R162
  | d3hotExit                                            -- R163
  /-- R164; the status bits that AER gives the error, and the header of the packet at fault (zeros where it has none). -/
  | linkError (e : LinkErr) (aer : BitVec 32) (header : BitVec 128)
  /-- R164; the command (0: the module's read of the ring of pair q, or of what the pair's front command names), and the status bits. -/
  | moduleRequestFailure (ruling q : Nat) (aer : BitVec 32)
  | clkreqnHostAssert                                    -- R161
  /-- R175; the entries that host memory holds from the fetch position of the ring served. -/
  | fetchTurn (entries : List Entry)
  | admissionStallEnd                                    -- R179
  | rangeLockGranted (ruling : Nat)                      -- R184
  /-- R494; the data in host order, and the lengths of the segment list where there is one (R166). -/
  | writeDataReceived (ruling : Nat) (data : Mem) (segments : List Nat)
  /-- R185; the lengths of the segment list where there is one (R166). -/
  | readDataDelivered (ruling : Nat) (segments : List Nat)
  | write (q : Nat)                                      -- R186
  | read (q : Nat)                                       -- R209
  | flush (q : Nat)                                      -- R187
  | release (q : Nat)                                    -- R209
  | verify (q : Nat)                                     -- R209
  | planeRead (q : Nat)                                  -- R214
  | precisionRead (q : Nat)                              -- R215
  | createQueuePair                                      -- R171
  | deleteQueuePair                                      -- R196
  | resumeQueue                                          -- R191
  | cancelCommand                                        -- R195
  | controllerRestart                                    -- R197
  | awaitEvent                                           -- R218
  | identify (q : Nat) (segments : List Nat)             -- R220; with the lengths of the segment list, as in the next rows (R166)
  | getLogPage (q : Nat) (segments : List Nat)           -- R221
  | getLogPageClear (q : Nat) (segments : List Nat)      -- R221
  | getLogPageAcknowledge (q : Nat) (segments : List Nat) -- R403
  | setTime                                              -- R225
  | powerHint                                            -- R226
  | powerHintExpiry                                      -- R226
  | createPartition                                      -- R212
  | deletePartition                                      -- R217
  | cap                                                  -- R386
  | uncap                                                -- R388
  | fix                                                  -- R386
  | setAccess                                            -- R380
  | sanitizeDevice                                       -- R230
  | sanitizeComplete                                     -- R74
  | selfTest                                             -- R230
  | selfTestSegmentDone (ok : Bool)                      -- R298
  | calibrate                                            -- R230
  /-- R299; the class tables and coefficients fitted, die by die. -/
  | calibrationComplete (tables : List DieTable)
  | operationSuspend                                     -- R229
  | operationResume                                      -- R229
  | operationCancel                                      -- R229
  | longOperationSuspended (handle : Nat)                -- R301
  | rebuildComplete (handle : Nat)                       -- R313
  | firmwareDownload (data : Mem) (segments : List Nat)  -- R231: the bytes of the piece
  | bootFlashOperationComplete (ok : Bool)               -- R356
  | firmwareActivateNextReset                            -- R369
  | firmwareActivateImmediate                            -- R198
  | firmwareActivationRestart                            -- R198
  | firmwareActivateOtherBank                            -- R369
  | attest (segments : List Nat)                         -- R376
  | epochCommit                                          -- R433
  | epochResolve                                         -- R442
  | selectVersion (tag : BitVec 3) (arg : BitVec 32)     -- R109
  | versionEffective                                     -- R110
  | identificationPhaseEntry                             -- R107
  | readStatus (tag : BitVec 3) (arg : BitVec 32)        -- R116
  | writeTaskRegister (tag : BitVec 3) (arg : BitVec 32) -- R121
  | readTaskRegister (tag : BitVec 3) (arg : BitVec 32)  -- R116
  | writeTaskBlock (tag : BitVec 3) (arg : BitVec 32)    -- R131
  | readTaskBlock (tag : BitVec 3) (arg : BitVec 32)     -- R131
  | executeTask (tag : BitVec 3) (arg : BitVec 32)       -- R123
  | writeData (tag : BitVec 3) (arg : BitVec 32)         -- R133
  /-- R132; the bytes of the block and the CRC16 received on each line in use, ND0 first. -/
  | hostDataBlock (data : Mem) (crcs : List (BitVec 16))
  | readData (tag : BitVec 3) (arg : BitVec 32)          -- R133
  | resumeTask (tag : BitVec 3) (arg : BitVec 32)        -- R125
  | cancelTask (tag : BitVec 3) (arg : BitVec 32)        -- R126
  | sendTuningBlock (tag : BitVec 3) (arg : BitVec 32)   -- R134
  | busReset (tag : BitVec 3) (arg : BitVec 32)          -- R118
  | malformedCommandFrame (frame : BitVec 52)            -- R114
  | channelDispatch (c : Nat)                            -- R26
  | nestedSuspendLimit (die : Nat)                       -- R283
  /-- R277; whether the die reports pass, used more than 90% of its loop limit, reads back clean where read, and the plane
at fault where it does not pass. -/
  | dieProgramComplete (die : Nat) (pass overLoop readBack : Bool) (plane : Nat)
  | dieEraseComplete (die : Nat) (pass : Bool) (plane : Nat) -- R279; the plane at fault
  /-- R289; where a swatch is read, the bit errors against its pattern (R290). -/
  | dieReadComplete (die errors : Nat)
  /-- R293; the read's number, the decoder, the bits corrected (none: not decoded), and whether the CRC32C matches. -/
  | ldpcDecodeComplete (read decoder : Nat) (corrected : Option Nat) (crcOk : Bool)
  | decoderTimeout (decoder : Nat)                       -- R319
  | dieReadyTimeout (die : Nat)                          -- R281
  | dieResetWaitExpiry (die : Nat)                       -- R281
  | dieSlowDiversion (die : Nat)                         -- R309
  | failureHoldbackExpiry (die : Nat)                    -- R308
  | logPageFill                                          -- R247
  | logPageVerified                                      -- R327
  | checkpointStart                                      -- R248
  | garbageCollectionStart                               -- R260
  | settledWaitExpiry                                    -- R334
  | foldStart                                            -- R255
  | demotion (stroke : Nat)                              -- R241
  | wearLevelling                                        -- R263
  | patrol (band : Nat)                                  -- R296
  | agingClockTick (temps : List Int)                    -- R286: die temperatures in tenths of a degree
  | ejectionWarning                                      -- R345
  | wpswPinEvent (low : Bool)                            -- R44
  | bankReady (millivolts : Nat)                         -- R50: VHU as measured
  | bankReadyLost (millivolts : Nat)                     -- R487
  | bankFaultTimeout (millivolts : Nat)                  -- R487
  /-- R395; the source, the class, the detail word, and what is hit. -/
  | faultReport (source cls : Nat) (detail : BitVec 64) (hit : Hit)
  | wireFault (source : Nat)                             -- R396
  | islandStall (source requester : Nat)                 -- R18, R19
  | lockstepDisagreement                                 -- R413
  | safeLevelEnd                                         -- R408
  | scribeWatchdogExpiry (core : Nat)                    -- R410
  | deviceWatchdogExpiry                                 -- R411
  | brownOut (millivolts : Nat)                          -- R399
  | vccqOutOfRange (millivolts : Nat)                    -- R37
  /-- R412; the address scrubbed, whether it is DRAM, the bits found wrong, and what is hit. -/
  | memoryScrub (dram : Bool) (address : Nat) (wrongBits : Nat) (hit : Hit)
  | aliveEdge                                            -- R418
  | actHoldExpiry                                        -- R56
  | dbgaddr (value : BitVec 36)                          -- R390
  | dbgdata (value : BitVec 33)                          -- R392
  | dbgchal                                              -- R393
  /-- R393; the scope byte and the key engine's verdict on the signature. -/
  | dbgunlk (scope : BitVec 8) (verifies : Bool)
  | extest (levels : List (Nat × Bool))                  -- R390: boundary cells, by position
  | leaderLckWatchEnd (toggled : Bool)                   -- R420
  | leaderTickTimer                                      -- R426
  | leaderCallTimer                                      -- R427
  | musterTimer                                          -- R427
  /-- R422; the bit (47 the first) at which the line differs from the bit sent, if any does (R421). -/
  | ligatureFrameSend (differs : Option Nat)
  | tick (source : Nat) (value : BitVec 29)              -- R426
  | call (source : Nat) (value : BitVec 29)              -- R427
  | present (source : Nat) (value : BitVec 29)           -- R427
  | muster (source : Nat) (value : BitVec 29)            -- R427
  | prepare (source : Nat) (value : BitVec 29)           -- R425
  | members (source : Nat) (value : BitVec 29)           -- R425
  | ready (source : Nat) (value : BitVec 29)             -- R433
  | refuse (source : Nat) (value : BitVec 29)            -- R433
  | commit (source : Nat) (value : BitVec 29)            -- R431
  | abort (source : Nat) (value : BitVec 29)             -- R433
  | query (source : Nat) (value : BitVec 29)             -- R440
  | state (source : Nat) (value : BitVec 29)             -- R441
  | ligatureFrameError (frame : BitVec 48)               -- R424
  | tickLossTimeout                                      -- R427
  | lrdyRise                                             -- R433
  | preparePersistent                                    -- R433
  | commitPersistent                                     -- R433
  | prepareTimeout                                       -- R433
  | commitReleaseTimeout                                 -- R433
  | leaderDecisionTimer                                  -- R436
  | preparedQueryTimer                                   -- R437
  | indoubtQueryWindowEnd                                -- R441
  | ps2Entry                                             -- R446
  | ps3Entry                                             -- R446
  | ps4Entry                                             -- R446
  | ps4EntryComplete                                     -- R450
  | wakeEvent                                            -- R449
  | temperatureReading (junction nand : Int)             -- R456: tenths of a degree
  | throttleLeave                                        -- R456
  | thermalSafeExit                                      -- R458
  | ejectnRise                                           -- R46
  /-- R281; the identification reads of the channel's dies, by group. -/
  | interfaceTrainingComplete (c : Nat) (ok : Bool) (ids : List Nat)
  | minimumRunAfterResumeExpiry (die : Nat)              -- R283
  | ruleEpochDrainLimit                                  -- R385
  | reservedIndexFrame (tag : BitVec 3) (index : BitVec 5) (arg : BitVec 32) -- R115
  | invalidOpcodeCommand (q : Nat)                       -- R201
deriving DecidableEq, Repr

end Sys2Proof
end

