-- ==== Sys2Proof/Decode.lean ====
section
/-! DEFINITION. How bits are read: byte memories, bit fields, check codes, and the word of a table row. -/

namespace Sys2Proof

/-! ## Byte memories (an unlisted address reads as `d`) -/

def Mem.get (d : Byte) : Mem → Nat → Byte
  | [], _ => d
  | (k, v) :: m, a => if k = a then v else Mem.get d m a

/-- Writing `d` removes the entry, so equal memories are equal lists. -/
def Mem.set (d : Byte) : Mem → Nat → Byte → Mem
  | [], a, v => if v = d then [] else [(a, v)]
  | (k, w) :: m, a, v =>
    if a < k then (if v = d then (k, w) :: m else (a, v) :: (k, w) :: m)
    else if a = k then (if v = d then m else (a, v) :: m)
    else (k, w) :: Mem.set d m a v

/-- Addresses strictly rising from `lo`, no entry equal to `d`. -/
def Mem.wfFrom (d : Byte) : Nat → Mem → Bool
  | _, [] => true
  | lo, (k, v) :: m => decide (lo ≤ k) && decide (v ≠ d) && Mem.wfFrom d (k + 1) m

/-- The canonical form. -/
def Mem.wf (d : Byte) (m : Mem) : Bool := Mem.wfFrom d 0 m

/-- The canonical form of bytes that come from outside, cut to `n` bytes. -/
def Mem.norm (d : Byte) (n : Nat) (m : Mem) : Mem :=
  m.foldl (fun acc c => if c.1 < n then Mem.set d acc c.1 c.2 else acc) []

/-- The cells from address `a` on, `n` of them, moved to address 0. -/
def Mem.slice (a n : Nat) : Mem → Mem
  | [] => []
  | (k, v) :: m => if a ≤ k ∧ k < a + n then (k - a, v) :: Mem.slice a n m else Mem.slice a n m

/-- The same cells `a` higher. -/
def Mem.raise (a : Nat) (m : Mem) : Mem := m.map (fun c => (c.1 + a, c.2))

/-- `base` with its bytes from `a` to `a + n` replaced by those of `m` from 0 to `n`. -/
def Mem.patch (base m : Mem) (a n : Nat) : Mem :=
  base.filter (fun c => c.1 < a) ++ Mem.raise a (m.filter (fun c => c.1 < n)) ++ base.filter (fun c => a + n ≤ c.1)

/-- `n` bytes at `a`, byte 0 least significant (R9). -/
def Mem.getLE (d : Byte) (m : Mem) (a : Nat) : Nat → Nat
  | 0 => 0
  | n + 1 => (Mem.get d m a).toNat + 256 * Mem.getLE d m (a + 1) n

/-- `n` bytes of `x` at `a`, byte 0 least significant (R9). -/
def Mem.setLE (d : Byte) (m : Mem) (a : Nat) : Nat → Nat → Mem
  | 0, _ => m
  | n + 1, x => Mem.setLE d (Mem.set d m a (BitVec.ofNat 8 x)) (a + 1) n (x / 256)

/-- The first `n` bytes. -/
def Mem.bytes (d : Byte) (m : Mem) (n : Nat) : List Byte := (List.range n).map (Mem.get d m)

/-- A field of a structure: offset, width in bytes, value. -/
abbrev Field := Nat × Nat × Nat

/-- A structure of fields in zeros, each cut to its width. -/
def Mem.ofFields (fs : List Field) : Mem := fs.foldl (fun m f => Mem.setLE 0 m f.1 f.2.1 f.2.2) []

/-- Bytes in order, as a memory over zeros. -/
def Mem.ofBytes (a : Nat) : List Byte → Mem
  | [] => []
  | b :: bs => if b = 0 then Mem.ofBytes (a + 1) bs else (a, b) :: Mem.ofBytes (a + 1) bs

/-! ## Bit fields -/

/-- `n` bits of `x` from bit `lo`. -/
def bits (x lo n : Nat) : Nat := (x >>> lo) % 2 ^ n

/-- One bit of `x`. -/
def bit (x i : Nat) : Bool := bits x i 1 = 1

/-- 1 at bit `i` where the flag holds. -/
def flag (b : Bool) (i : Nat) : Nat := if b then 2 ^ i else 0

/-- A value of `w` bits in two's complement. -/
def signed (w x : Nat) : Int := if 2 ^ (w - 1) ≤ x % 2 ^ w then (x % 2 ^ w : Int) - 2 ^ w else x % 2 ^ w

/-- `x` as `w` bits in two's complement. -/
def unsigned (w : Nat) (x : Int) : Nat := (x % (2 ^ w : Nat)).toNat

/-- Saturation at the largest value of `w` bits. -/
def sat (w x : Nat) : Nat := min x (2 ^ w - 1)

/-- `n` bytes of a submission entry from offset `off` (R165). -/
def Entry.field (e : Entry) (off n : Nat) : Nat := bits e.toNat (8 * off) (8 * n)

/-- An entry with the `n` bytes from `off` replaced. -/
def Entry.put (e : Entry) (off n x : Nat) : Entry :=
  let old := Entry.field e off n
  BitVec.ofNat 512 (e.toNat - old * 2 ^ (8 * off) + (x % 2 ^ (8 * n)) * 2 ^ (8 * off))

/-! ## Check codes -/

/-- A CRC of width `w` with polynomial `poly`, most significant bit first, from `init`. -/
def crc (w poly init : Nat) (bs : List Bool) : Nat :=
  bs.foldl (fun r b =>
    let top := bit r (w - 1) != b
    ((2 * r) % 2 ^ w) ^^^ (if top then poly else 0)) init

/-- The `n` bits of `x`, most significant first. -/
def msbFirst (x : Nat) : Nat → List Bool
  | 0 => []
  | n + 1 => bit x n :: msbFirst x n

/-- The 8 bits of a byte, least significant first. -/
def lsbFirst (b : Byte) : List Bool := (List.range 8).map (fun i => b.getLsbD i)

/-- CRC32C in its usual reflected form (log entry 13). -/
def crc32c (bs : List Byte) : Nat :=
  let step := fun (r : Nat) (b : Bool) => (r / 2) ^^^ (if bit r 0 != b then 0x82F63B78 else 0)
  (bs.flatMap lsbFirst).foldl step 0xFFFFFFFF ^^^ 0xFFFFFFFF

/-! ## The table's words -/

/-- The table gives no row any bits, so no word spells a command. -/
def decodeTableWord (_nbits _w : Nat) : Option Instr := none

end Sys2Proof
end

