-- ==== Sys2Proof/Machine/State.lean ====
section
/-! DEFINITION. The state of the module as plain data, group by group, and its value right after the first power-on reset
is taken (`State.reset`). Each field's comment gives its width, the rule that names it and its reset value; the reset
value of a field that names none is the zero, false, none or empty list of `State.reset` (log entry 3). -/

namespace Sys2Proof.Machine

open Sys2Proof

/-- No path of the model stops with a fault: what the hardware does on an error is an effect on State (the blotter, a
status code, a reset). The type has no constructor, so a fault is impossible by its type. Safe: nothing is hidden. -/
inductive Fault where
deriving DecidableEq, Repr

/-- Why a command has no meaning. -/
inductive Refusal where
  /-- Raised by exec's arm alone, for a row without a meaning yet. Safe: the model stops. -/
  | notModelled (mnemonic : String)
deriving DecidableEq, Repr

/-! ## Small records -/

/-- Where the module stands between power-off and operation (R76, R81, R37, R51). -/
inductive Phase where
  | off | dump | stretch | extended | waitRelease | run
deriving DecidableEq, Repr

/-- Start mode, as bits [13:12] of Table 04-7. -/
inductive Mode where
  | normal | recStrap | recCount
deriving DecidableEq, Repr

/-- Release of one island (R85, R87). -/
inductive IslState where
  | held | retried | released | failed
deriving DecidableEq, Repr

/-- A blotter entry (Table 15-6), with the slot it stands in. -/
structure Blot where
  slot : Nat
  seq : Nat
  resetNo : Nat
  kind : Nat
  cls : Nat
  level : Nat
  escalated : Bool
  acked : Bool
  hostAcked : Bool
  earlier : Bool
  source : Nat
  count : Nat
  time : Nat
  detail : BitVec 64
deriving DecidableEq, Repr

/-- An unacknowledged fault: class, level and sequence (R401, R403). -/
structure Unack where
  cls : Nat
  level : Nat
  seq : Nat
deriving DecidableEq, Repr

/-- One event type (R218, R224). -/
structure Ev where
  pending : Bool
  level : Nat
  count : Nat
  seq : Nat
  time : Nat
deriving DecidableEq, Repr

/-- Why the device is read-only (R408). -/
inductive SafeCause where
  | supply | escalation (cls : Nat) | thermal | lowChannels | worn
deriving DecidableEq, Repr

/-- A partition (Tables 08-2 and 08-5): region, presentation, layout, rights, protection. -/
structure Part where
  id : Nat
  base : Nat
  size : Nat
  sector : Bool
  layout : Nat
  width : Nat
  planes : Nat
  owner : Nat
  rd : BitVec 64
  wr : BitVec 64
  capped : Bool
  fixed : Bool
  /-- ruling of its Create Partition (R430, R337) -/
  born : Nat
deriving DecidableEq, Repr

/-- A stroke entry (Table 09-1): its stroke, kind (0 unmapped, 1 stroke-mapped, 2 overlaid, 3 hairline-only) and location. -/
structure Stroke where
  n : Nat
  kind : Nat
  loc : Nat
deriving DecidableEq, Repr

/-- A hairline entry (Table 09-2); no slot: released. -/
structure Hair where
  block : Nat
  slot : Option Nat
deriving DecidableEq, Repr

/-- States of a block in the block state table (R275). -/
inductive BlkSt where
  | retired | erased | opened | closed | closedEarly | erasing
deriving DecidableEq, Repr

/-- States of a band (R249, R261): in the free pool, open, closed, being erased, or dissolved. -/
inductive BandSt where
  | free | opened | closed | closedEarly | erasing | dissolved
deriving DecidableEq, Repr

/-- A zone stamp (Table 10-9): wall time in ms, aging clock in minutes, power-on time in seconds. -/
structure Stamp where
  zone : Nat
  wall : Nat
  aging : Nat
  power : Nat
deriving DecidableEq, Repr

/-- What a record of types 04h to 07h changes besides the map (R337), and what a band state record (0Ah) says (R275, R303, R309). -/
inductive Change where
  | none
  | create (p : Part)
  | delete (id : Nat)
  | move (regions : List (Nat × Nat))   -- one move: partitions and their new first blocks (R238)
  | capPart (id : Nat) (on : Bool)
  | capCard (on : Bool)
  | fixPart (id : Nat)
  | fixCard
  | access (id : Nat) (rd wr : BitVec 64)
  | format (profile : Nat)
  /-- a band, its state, its channels, and of each block its place (die * 4 + plane), state, TLC mode and next wordline -/
  | band (n : Nat) (st : BandSt) (chans : List Nat) (blks : List (Nat × BlkSt × Bool × Nat))
  | die (d : Nat)                       -- a die found failed
deriving DecidableEq, Repr

/-- A map log record (Table 09-5): the type is the code of the table. -/
structure MapRec where
  ruling : Nat
  typ : Nat
  last : Bool
  poisoned : Bool
  count : Nat
  part : Nat
  block : Nat
  slot : Option Nat
  seq : Nat
  chg : Change
deriving DecidableEq, Repr

/-- The stored state that the map and the media records give: the map, the partitions, the protection (R321). -/
structure MapState where
  /-- stroke entries by stroke number; sparse; 09 R239; reset none -/
  strokes : List Stroke
  /-- hairline entries by device block; sparse; 09 R239; reset none -/
  hair : List Hair
  /-- partitions, at most 64; 08 R212, 09 R237; reset none -/
  parts : List Part
  /-- card capped by command; 14 R386; reset false -/
  cardCap : Bool
  /-- card fixed; 14 R386; reset false -/
  cardFix : Bool
deriving DecidableEq, Repr

/-- A log page (Table 12-3). -/
structure LogPage where
  seq : Nat
  clean : Bool
  opened : Bool
  dump : Bool
  recs : List MapRec
  settled : Nat
  ceiling : Nat
  wall : Nat
  powerOn : Nat
  cpSlot : Option Nat
  cpStart : Nat
  replay : Nat
  cpRuling : Nat
  aging : List Nat
deriving DecidableEq, Repr

/-- The threshold tables of a band as a checkpoint holds them (R287): its erase count, its zone stamps, and of each block its place, its read count and
the temperatures of its zones. -/
structure BandTh where
  n : Nat
  erases : Nat
  stamps : List Stamp
  blks : List (Nat × Nat × List (Nat × Int))
deriving DecidableEq, Repr

/-- A checkpoint slot (R333): the map after every item up to Cs; with it the aging clocks in minutes and the threshold tables (R286, R287). -/
structure Checkpoint where
  slot : Nat
  cs : Nat
  start : Nat
  replay : Nat
  valid : Bool
  map : MapState
  aging : List Nat
  tables : List BandTh
deriving DecidableEq, Repr

/-- A codeword (Table 10-3): the fields that travel with the block's data. -/
structure Codeword where
  block : Nat
  ruling : Nat
  part : Nat
  pad : Bool
  poisoned : Bool
  relocated : Bool
  system : Bool
  stream : Nat
  temp : Int
  wall : Nat
  aging : Nat
  data : Mem
deriving DecidableEq, Repr

/-- A slot of the flash and what is programmed there (R239). -/
structure Slot where
  n : Nat
  cw : Codeword
deriving DecidableEq, Repr

/-- A staged block of a write in the reservoir (R22, R24, R277): device block in storage order. -/
structure Staged where
  ruling : Nat
  part : Nat
  /-- hairline entries reserved for its write, on the write's first block (R242) -/
  hair : Nat
  block : Nat
  stream : Nat
  epoch : Nat
  poisoned : Bool
  placed : Option Nat
  verified : Bool
  data : Mem
deriving DecidableEq, Repr

/-- Threshold state of one zone of a block (Table 10-10): the die's temperature in °C at the zone's first program, and the class learned since
the start (its Measured bit) with the class that R288 gave then. -/
structure ZoneTh where
  zone : Nat
  temp : Int
  learned : Option (Nat × Nat)
deriving DecidableEq, Repr

/-- A block: its entry in the block state table (R270, R272, R275) and its threshold state (Table 10-10). -/
structure Blk where
  /-- die * 4 + plane -/
  key : Nat
  /-- its number in the plane -/
  no : Nat
  st : BlkSt
  tlc : Bool
  /-- the next wordline of an open block -/
  nextWl : Nat
  /-- wear units -/
  wear : Nat
  /-- page reads since the last erase, saturating -/
  reads : Nat
  zones : List ZoneTh
deriving DecidableEq, Repr

/-- A band (R249, R287): its blocks, its channels, where its next data goes, and its zone stamps. -/
structure Band where
  n : Nat
  tlc : Bool
  st : BandSt
  chans : List Nat
  nextPos : Nat
  /-- the next wordline to be programmed; 768 stands for swatch B, 769 for a band whose wordlines are all programmed -/
  nextWl : Nat
  erases : Nat
  cache : Bool
  closedAt : Nat
  stamps : List Stamp
  blks : List Blk
  refresh : Option Nat
  /-- blocks (die * 4 + plane) that needed soft decode since the erase, and those of the refresh before (Table 10-5) -/
  soft : List Nat
  softBefore : List Nat
  /-- blocks to retire once the band is refreshed and erased (Table 10-5) -/
  retireAfter : List Nat
  eraseWait : List Nat
deriving DecidableEq, Repr

/-- A write point (Table 09-6): kind 0 default, 1 host stream, 2 relocation, 3 fold; its mode, rotation and open bands. -/
structure WritePoint where
  kind : Nat
  stream : Nat
  tlc : Bool
  group : Nat
  open_ : List (Nat × Nat)
  lastUse : Nat
deriving DecidableEq, Repr

/-- A wordline program of a band: the dies still to report and what it writes (R271, R277). Wordline 768 stands for swatch A, 769 for swatch B. -/
structure Prog where
  id : Nat
  band : Nat
  wl : Nat
  tlc : Bool
  cls : Nat
  wait : List Nat
  /-- it has begun on some die: the stamps of its stripes are taken (R274, R287) -/
  begun : Bool
  slots : List Slot
deriving DecidableEq, Repr

/-- Kinds of die operation (Table 01-5). -/
inductive OpKind where
  | read (rd : Nat) | probe (pr : Nat) | program (pg : Nat) | erase (band : Nat)
deriving DecidableEq, Repr

/-- A die operation, queued or issued (R26): its class, and whether its minimum run after a resume still lasts (R283). -/
structure DieOp where
  die : Nat
  cls : Nat
  kind : OpKind
  minRun : Bool
  /-- milliseconds since reset release when it was queued (R312) -/
  since : Nat := 0
  /-- a rebuild's operation that was served as class 2 because it had waited (R312) -/
  raised : Bool := false
deriving DecidableEq, Repr

/-- One die (R281, R283, R308, R309): what it runs, what it holds suspended, and the test of failure. -/
structure Die where
  n : Nat
  active : Option DieOp
  /-- reads of other planes in flight beside the active read, oldest first (R271) -/
  more : List DieOp
  susp : List DieOp
  timeouts : Nat
  resetWait : Bool
  slow : Bool
  failed : Bool
  holdback : Bool
  /-- reads that were queued when the operation was suspended (Table 10-7) -/
  owed : List Nat
deriving DecidableEq, Repr

/-- A codeword read under way (R293): the command or background work it serves, its slot and its step of the ladder. -/
structure Rd where
  id : Nat
  ruling : Nat
  block : Nat
  slot : Nat
  /-- the die that is read: that of the slot, or for a peer of a reconstruction that of its page of the stripe (R306) -/
  die : Nat
  /-- the read that a peer is to reconstruct -/
  parent : Option Nat
  step : Nat
  cls : Nat
  tried : List Nat
  /-- read thresholds loaded for the last die read, one list of offsets in steps of 10 mV for each sense (R289) -/
  thr : List (List Int)
  /-- class that the swatch probe of step 1 measured -/
  probed : Option Nat
  staged : Bool
  done : Bool
  bad : Bool
  recon : Bool
  epoch : Nat
  /-- the decoder that reported a success without a CRC32C match (R319) -/
  falsely : Option Nat
  /-- 0 a command's, 1 a copy for an emptying band, 2 patrol, 3 a copy of a whole stroke, 4 a peer of a reconstruction, 5 a merge, 6 self-test -/
  use : Nat
deriving DecidableEq, Repr

/-- A probe of a block's swatch A (R290, R292): the read it serves (none: the sweep), the classes still to read, and the bit errors found. -/
structure Probe where
  id : Nat
  die : Nat
  band : Nat
  plane : Nat
  rd : Option Nat
  cls : Nat
  todo : List Nat
  found : List (Nat × Nat)
  /-- self-test's or calibration's own (R298, R299) -/
  test : Bool := false
deriving DecidableEq, Repr

/-- A copy under way (R261): the slot read, the slot written (once placed), the stroke it is copied with as a whole, the block that named the slot. -/
structure Move where
  old : Nat
  new : Option Nat
  cls : Nat
  stroke : Option Nat
  block : Nat
deriving DecidableEq, Repr

/-- Work that empties a band (R261, R334): collection, folding, wear levelling, refresh or rebuild. -/
structure Emptying where
  band : Nat
  /-- 0 collection, 1 folding, 2 wear levelling, 3 refresh, 4 rebuild, 5 after a failed program -/
  kind : Nat
  cls : Nat
  /-- every copy is logged, before the record of this sequence -/
  logged : Bool
  logSeq : Nat
  /-- bytes copied to empty it (R264) -/
  copied : Nat
  dueStale : Nat
  waited : Bool
  /-- slots that could not be read (R317) -/
  lost : List Nat
deriving DecidableEq, Repr

/-- An extent in the range-lock table (R182, R183): partition 0 is the device; a wide lock names the whole partition. -/
structure Lock where
  part : Nat
  wide : Bool
  lo : Nat
  hi : Nat
deriving DecidableEq, Repr

/-- What an outstanding command waits for. -/
inductive Wait where
  | lock      -- its range lock (R184)
  | data      -- data to or from the host (R123, R185)
  | merge     -- the stored data of a merge (R258)
  | persist   -- persistence (R205, R327)
  | media     -- I/O ready (R90)
  | turn      -- earlier work of the module on which it depends (R196, R237, R337, R367)
  | event     -- an event (R218)
  | boot      -- the boot flash (R367)
  | ligature  -- the commit sequence (R433)
  | sanitize  -- the format (R230)
  | shutdown  -- the shutdown sequence (R343)
  | restart   -- an immediate activation (R198)
deriving DecidableEq, Repr

/-- A ruled command that has not completed (R181). On the narrow bus the pair is 0 and `narrow` holds. -/
structure Item where
  ruling : Nat
  narrow : Bool
  q : Nat
  slot : Nat
  entry : Entry
  well : Nat
  epoch : Nat
  lock : Option Lock
  past : Bool
  wait : Wait
  resClaim : Nat
  hairClaim : Nat
  retries : Nat
  result : Nat
  /-- the status that its evaluation at the ruling gives it at execution, 0 for none (R181) -/
  verdict : Nat
  /-- the command whose completion it awaits (R195) -/
  after : Option Nat
  /-- served by the fast lane (R23) -/
  fast : Bool
  /-- lengths of its segment list, where the command's row gives them (R166) -/
  segs : List Nat
deriving DecidableEq, Repr

/-- A fetched command that is not ruled (R174), in fetch order; `stalled`: it waits on a resource (R179). -/
structure Fetched where
  narrow : Bool
  q : Nat
  slot : Nat
  entry : Entry
  stalled : Bool
  /-- failed reads of what it names in host memory (R164) -/
  retries : Nat
deriving DecidableEq, Repr

/-- A queue pair (R165 to R175, R189, R406). -/
structure Pair where
  id : Nat
  well : Nat
  vector : Nat
  burst : Nat
  sqBase : Nat
  cqBase : Nat
  sqSize : Nat
  cqSize : Nat
  tail : Nat
  head : Nat
  cqHead : Nat
  cqTail : Nat
  phase : Bool
  frozen : Option Nat
  /-- the module's read of this ring has failed once and been reissued (R164) -/
  refetch : Bool
  /-- slots of freezing entries that a Resume Queue gave to be read again, oldest first (R191) -/
  retry : List Nat
  contained : Bool
  deleting : Bool
deriving DecidableEq, Repr

/-- A version of the gate table (R385): the rule epoch and the partitions as its rules have them. -/
structure GateVer where
  epoch : Nat
  parts : List Part
deriving DecidableEq, Repr

/-- Pending entries of an epoch: the records that its writes will enter at the commit (R429). -/
structure Pending where
  ruling : Nat
  part : Nat
  block : Nat
  slot : Nat
  poisoned : Bool
deriving DecidableEq, Repr

/-- An epoch on this card (Tables 16-3 and 16-8). -/
structure Epoch where
  n : Nat
  state : Nat
  initiated : Bool
  atLimit : Bool
  contradictory : Bool
  resolved : Bool
  members : BitVec 24
  prepRuling : Nat
  outcomeRuling : Nat
  /-- the prepared record is persistent (R495) -/
  prepared : Bool
  pend : List Pending
deriving DecidableEq, Repr

/-- A long operation (R228). -/
structure LongOp where
  handle : Nat
  typ : Nat
  state : Nat
  progress : Nat
  outcome : Nat
  detail : Nat
  ruling : Nat
  started : Nat
  active : Nat
  target : Nat
  /-- states that the accepted Operation Control commands ask for and that have not taken effect, oldest first (R229) -/
  wants : List Nat
  /-- a rebuild that has met lost blocks (R317) -/
  lost : Bool
  /-- a rebuild's bands at its creation (R313) -/
  total : Nat
  /-- dies that a calibration has read (R301) -/
  doneDies : List Nat
  /-- the test has issued the operations of its present segment or die (R298, R299) -/
  begun : Bool
  /-- the present segment has found what fails it (R298) -/
  found : Bool
deriving DecidableEq, Repr

/-- An error log entry (Table 08-7). -/
structure ErrEntry where
  slot : Nat
  count : Nat
  ruling : Nat
  q : Nat
  cid : Nat
  pos : Nat
  status : Nat
  opcode : Nat
  part : Nat
  well : Nat
  face : Nat
  cls : Nat
  detail : Nat
  block : Nat
  time : Nat
  wall : Nat
deriving DecidableEq, Repr

/-- A swap record (Table 13-7). -/
structure SwapRec where
  seq : Nat
  active : BankId
  trial : Bool
  revoked : BitVec 4
  floor : Nat
  cause : Nat
deriving DecidableEq, Repr

/-- A boot flash bank: bytes (an erased byte reads FFh), whether it holds an image, and whether key hash and signature
verify for those bytes (R363, R365, R368). -/
structure Bank where
  bytes : Mem
  present : Bool
  authentic : Bool
deriving DecidableEq, Repr

/-- A download in progress (R231, R368): the offset of the next piece, whether the image is complete, the piece being
programmed, the offset in it that comes next, and the failures of margin verify, sector by sector (R356). -/
structure Download where
  next : Nat
  complete : Bool
  piece : Mem
  pieceLen : Nat
  pieceOff : Nat
  at_ : Nat
  fails : List (Nat × Nat)
deriving DecidableEq, Repr

/-- A swap record being written for a command (R362): the record, the failures of its slot, the command. -/
structure SwapWork where
  rec_ : SwapRec
  fails : Nat
  ruling : Nat
deriving DecidableEq, Repr

/-- A frame of the ligature: source, type and value (Table 16-1). -/
structure LigFrame where
  source : Nat
  typ : Nat
  value : BitVec 29
deriving DecidableEq, Repr

/-- What the module sends on its lands and to host memory. -/
inductive Out where
  | completion (address : Nat) (entry : BitVec 128)   -- R167
  /-- R150: data into the command's buffer, whether with Relaxed Ordering, and the size of each write -/
  | hostData (q cid : Nat) (p : Payload) (relaxed : Bool) (sizes : List Nat)
  | hostRead (q : Nat) (sizes : List Nat)             -- R150: memory reads for a pair, the size of each request
  | undefinedBuffer (q cid : Nat)                     -- R194, R211
  | msix (vector : Nat)                               -- R159
  | reissue (ruling : Nat)                            -- R164
  | barData (value : Nat)                             -- R151
  | completerAbort                                    -- R151
  | response (frame : BitVec 52)                      -- R112
  | token (bits : BitVec 7)                           -- R132
  /-- R128: the bits of a block on each line in use at both edges of every clock, ND0 first; its bytes, for the reader -/
  | block (lines : List (List (Bool × Bool))) (p : Payload)
  | ligFrame (bits : BitVec 48)                       -- R423
  | ltr (microseconds : Nat)                          -- R452
  | linkL1 (sub : Nat)                                -- R452
  | retrain                                           -- R164
  | unsupportedRequest                                -- R142, R164: the completion of a non-posted request
  | errMessage (severity : Nat)                       -- R164: AER's message: 0 correctable, 1 non-fatal, 2 fatal
  | tdo (bits : Nat)                                  -- R390
deriving DecidableEq, Repr

/-! ## Groups of state -/

/-- Factory data of the unit (R1, R3, R359): fixed over its life. -/
structure UnitInfo where
  /-- variant; 00 R1; DESIGN CHOICE 16T (log 4) -/
  variant : Variant
  /-- grade; 00 R2; DESIGN CHOICE C (log 4) -/
  grade : Grade
  /-- serial, 12 codes of 0 to 31; 13 R359; DESIGN CHOICE 3Q8M-0417-7720 of the spec's example (log 4) -/
  serial : List Nat
  /-- controller die stepping, 8 bits; 06 R148; DESIGN CHOICE 0 (log 4) -/
  revision : Nat
  /-- bands of each stripe group, at least 1,828: the fewest good blocks of its planes; 09 R249; DESIGN CHOICE 1,828, the minimum (log 4) -/
  groupBands : List Nat
  /-- factory bad-block table: runs of blocks bad in every plane of a group: group, first block, blocks; 10 R280; DESIGN CHOICE 36 from 1,828 on (log 4) -/
  factoryBad : List (Nat × Nat × Nat)
  /-- factory record of each die's identification read; 10 R281; DESIGN CHOICE 0 (log 4) -/
  dieIds : List Nat
  /-- strap sense current in nA; 13 Table 13-5; DESIGN CHOICE 10,000 (log 4) -/
  senseNa : Nat
  /-- certificate length; 13 R358; DESIGN CHOICE 4,096 (log 4) -/
  certLen : Nat
deriving DecidableEq, Repr

/-- Reset, bring-up and start (chapter 04). -/
structure Rst where
  /-- power-off, dump, stretch, extended stretch, waiting for RESETn high, running; 04 R76, R81; reset stretch -/
  phase : Phase
  /-- the reset in progress is a power-on reset; 04 R76; reset true -/
  power : Bool
  /-- milliseconds since reset release; 08 R222; reset 0 -/
  timeMs : Nat
  /-- calibration and identity rows read; 04 R84; reset false -/
  rowsRead : Bool
  /-- calibration row passed its check; 13 R357; reset false -/
  calGood : Bool
  /-- OSC50 started; 04 R84; reset false -/
  osc50 : Bool
  /-- strap readings taken in this stretch, in ohms, sample by sample; 03 R60; reset none -/
  samples : List (List Nat)
  /-- FAULT island released; 04 R86; reset false -/
  faultReleased : Bool
  /-- release of each other island; 04 R85; reset all held -/
  islands : List (Island × IslState)
  /-- face selected; 04 R89; reset none -/
  face : Face
  /-- PCIe face armed; 04 R89; reset false -/
  armedPcie : Bool
  /-- narrow face armed; 04 R89; reset false -/
  armedNarrow : Bool
  /-- image checked and running; 04 R88; reset false -/
  imageRuns : Bool
  /-- DRAM trained; 13 R366; reset false -/
  dram : Bool
  /-- map rebuilt; 12 R336; reset false -/
  recovered : Bool
  /-- admin ready; 04 R90; reset false -/
  admin : Bool
  /-- I/O ready; 04 R93; reset false -/
  io : Bool
  /-- start mode; 04 R102; reset normal -/
  mode : Mode
  /-- failed-start count read at release; 04 R102 Start count, 4 bits; reset 0 -/
  startCount : Nat
  /-- bank of the running image; 13 R369; reset A -/
  bank : BankId
  /-- bank booted at this reset release; 04 R102; reset A -/
  booted : BankId
  /-- fall-back start; 04 R102; reset false -/
  fallback : Bool
  /-- clean-shutdown mark found; 04 R102; reset false -/
  clean : Bool
  /-- AON valid at this start; 04 R102; reset false -/
  aonValid : Bool
deriving DecidableEq, Repr

/-- The strap record (Table 03-7) and the VCCQ classification. -/
structure Strap where
  /-- Codes of SA0 to SA8; 03 R71; reset 0 until decided -/
  codes : List Nat
  /-- Fault map, 16 bits; 03 R71; reset 0 -/
  faults : BitVec 16
  /-- Mismatch map, 8 bits; 03 R71; reset 0 -/
  mismatch : BitVec 8
  /-- State, 8 bits; 03 R71; reset 0 -/
  state : BitVec 8
  /-- Readings in units of 100 ohms; 03 R71; reset 0 until decided -/
  readings : List Nat
  /-- Recorded profile, 8 bits; 03 R71; reset 0 -/
  recorded : BitVec 8
  /-- VCCQ class: some true 1.8 V, some false 3.3 V; 02 R37; reset none -/
  vccq18 : Option Bool
  /-- VCCQ at its classification in mV; 19 R477; reset 0 -/
  vccqMv : Nat
deriving DecidableEq, Repr

/-- The always-on domain (R94, R98, R102, R417). -/
structure Aon where
  /-- failed-start counter, 4 bits, saturating; 04 R94; reset 0 (AON lost) -/
  failed : Nat
  /-- blotter tail, 8 entries; 15 R417; reset empty (AON lost) -/
  tail : List Blot
  /-- copies waiting for AON, at most 8; 15 R417; reset empty -/
  queue : List Blot
  /-- sticky power-on bit of each well; 04 R102; reset all ones -/
  por : BitVec 64
  /-- sticky pin bit of each well; 04 R102; reset 0 -/
  pin : BitVec 64
  /-- reset number, 16 bits; 04 R102; reset 1 (AON lost) -/
  resetNo : Nat
  /-- sequence of the next blotter entry; 15 R415; reset 1 (AON lost) -/
  nextSeq : Nat
deriving DecidableEq, Repr

/-- State of the hold-up bank, as the health page codes it (R223). -/
inductive BankState where
  | notFitted | charging | ready | fault
deriving DecidableEq, Repr

/-- Supplies and input lands (chapters 02 and 19). -/
structure Supply where
  /-- brown-out check armed, VCC3 has reached 3.0 V; 19 R479; reset true (log 10) -/
  brownArmed : Bool
  /-- both supplies in range; 15 R408; reset true -/
  inRange : Bool
  /-- hold-up bank; 02 R50; reset not fitted -/
  bank : BankState
  /-- VHU in mV, as the ready events give it; 08 R223; reset 0 -/
  vhuMv : Nat
  /-- EJECTn has stood high since reset release; 02 R46; reset false -/
  ejectArmed : Bool
  /-- ejection warning taken, with its ruling; 02 R46; reset none -/
  warning : Option Nat
  /-- WPSW low after the filter; 02 R44; reset false -/
  wpswLow : Bool
  /-- a reservoir drain after a warning is under way; 12 R345; reset false -/
  draining : Bool
deriving DecidableEq, Repr

/-- Modes of ALIVE (Table 15-8). -/
inductive Alive where
  | low | khz1 | hz8
deriving DecidableEq, Repr

/-- Output lands (R32, R56, R160, R418). -/
structure Lands where
  /-- RESETn driven low by the module; 02 R34; reset true -/
  resetLow : Bool
  /-- ALIVE mode; 15 R418; reset low -/
  alive : Alive
  /-- ALIVE level; 15 R418; reset low -/
  aliveHigh : Bool
  /-- ACT sinks; 02 R56; reset false -/
  act : Bool
  /-- the 20 ms minimum of the present ACT period has passed; 02 R56; reset false -/
  actHeld : Bool
  /-- CLKREQn driven low; 06 R160; reset false -/
  clkreqLow : Bool
  /-- boundary cells driven by EXTEST; 14 R390; reset none -/
  extest : Option (List (Nat × Bool))
deriving DecidableEq, Repr

/-- Boot flash (chapter 13). -/
structure Boot where
  /-- bank A, 4 MiB; 13 R351; DESIGN CHOICE holds an authentic image, header of log 4 -/
  bankA : Bank
  /-- bank B, 4 MiB; 13 R351; DESIGN CHOICE erased (log 4) -/
  bankB : Bank
  /-- swap slot 0; 13 R360; DESIGN CHOICE names A (log 4) -/
  swap0 : Option SwapRec
  /-- swap slot 1; 13 R360; DESIGN CHOICE none (log 4) -/
  swap1 : Option SwapRec
  /-- download in progress, held in SRAM; 13 R368; reset none -/
  dl : Option Download
  /-- bank that BOOT is erasing or programming; 13 R354; reset none -/
  busy : Option BankId
  /-- swap record being written; 13 R362; reset none -/
  swapWork : Option SwapWork
  /-- data of downloads that wait for their turn, by ruling; 13 R367; reset none -/
  held : List (Nat × Mem)
  /-- no valid record at this start, so one is written at ready; 13 R361; reset false -/
  rebuild : Bool
  /-- running image: Security version; 13 R376; reset 0 -/
  runSecurity : Nat
  /-- running image: Revoke; 13 R370; reset 0 -/
  runRevoke : BitVec 4
  /-- running image: Version, 16 bytes; 08 Table 08-4; reset 0 -/
  runVersion : Nat
  /-- running image: measurement, 64 bytes; 13 R376; reset 0 -/
  runMeasure : BitVec 512
  /-- ready has been reached, and its swap record, if it writes one, is not yet in force; 13 R97, R361, R370; reset false -/
  owed : Bool
  /-- immediate activation drains; 08 R198; reset false -/
  activating : Bool
deriving DecidableEq, Repr

/-- The PCIe face (chapter 06). -/
structure Pcie where
  /-- link speed code, 0 when down; 06 R146; reset 0 -/
  speed : Nat
  /-- link width; 06 R146; reset 0 -/
  width : Nat
  /-- physical lane that runs as logical lane 0; 06 R145; reset 0 -/
  lane0 : Nat
  /-- Status register as far as events set it; 06 R148; reset 0 -/
  status : BitVec 16
  /-- AER Uncorrectable Error Status; 06 R164; reset 0 (base specification, log 6) -/
  aerUncor : BitVec 32
  /-- AER Correctable Error Status; 06 R164; reset 0 (base specification, log 6) -/
  aerCor : BitVec 32
  /-- AER Header Log, 4 DW; 06 R149; reset 0 (base specification, log 6) -/
  aerHeader : BitVec 128
  /-- memory writes that wait in the transmit path, oldest first; 06 R159; reset none -/
  tx : List Out
  /-- configuration made by the host; 06 R148; reset to Table 06-3, 128 B, 512 B (base specification, log 6) -/
  host : HostCfg
  /-- bootstrap Request, 8 bits; 06 R153; reset 0 -/
  request : Nat
  /-- bootstrap Granted, 8 bits; 06 R153; reset 0 -/
  granted : Nat
  /-- Control bit 0; 06 R153; reset 0 -/
  enable : Bool
  /-- Control bit 1; 06 R153; reset 0 -/
  shutReq : Bool
  /-- Status bit 0; 06 R153; reset 0 -/
  ready : Bool
  /-- Status bit 1; 06 R153; reset 0 -/
  refused : Bool
  /-- Status bits 3:2; 06 R153; reset 00b -/
  shutdown : Nat
  /-- Status bit 4; 06 R153; reset 0 -/
  stopped : Bool
  /-- admin submission base, 64 bits; 06 R153; reset 0 -/
  asq : Nat
  /-- admin completion base, 64 bits; 06 R153; reset 0 -/
  acq : Nat
  /-- admin submission entries, 16 bits; 06 R153; reset 0 -/
  asqSize : Nat
  /-- admin completion entries, 16 bits; 06 R153; reset 0 -/
  acqSize : Nat
  /-- MSI-X table, 32 KiB; 06 R151; reset every vector masked (base specification, log 6) -/
  msixTable : Mem
  /-- MSI-X pending bits, 2,048; 06 R159; reset none -/
  msixPending : List Nat
  /-- Enable has been cleared and commands past their cancel point still complete; 06 R156; reset false -/
  clearing : Bool
  /-- function in D3hot; 06 R162; reset false -/
  d3hot : Bool
  /-- D3hot is asked for and waits for the effect of clearing Enable; 06 R162; reset false -/
  d3Next : Bool
  /-- link in L1 substate: 0 L0, 1 L1, 2 L1.1, 3 L1.2; 06 R161; reset 0 -/
  l1 : Nat
deriving DecidableEq, Repr

/-- Task states, coded as status bits [2:0] (R117). -/
inductive Task where
  | idle | admitting | dataIn | dataOut | busy | done | frozen
deriving DecidableEq, Repr

/-- The narrow bus (chapter 05). -/
structure Narrow where
  /-- identification string ready; 05 R120; reset false -/
  idReady : Bool
  /-- version: 0 identification phase, 1 N1, 2 N2, 3 N3; 05 R107; reset 0 -/
  version : Nat
  /-- four lines; 05 R107; reset false -/
  wide : Bool
  /-- granted version and width not yet in effect; 05 R110; reset none -/
  grantedNext : Option (Nat × Bool)
  /-- identification phase entered eight clocks after a Bus Reset; 05 R107; reset false -/
  idNext : Bool
  /-- task entry, 64 B; 05 R121; reset 0 -/
  entry : Entry
  /-- completion area, 16 B; 05 R121; reset 0 -/
  completion : BitVec 128
  /-- ruling of the task, 64 bits; 05 R121; reset 0 -/
  ruling : Nat
  /-- blocks remaining, 16 bits; 05 R121; reset 0 -/
  remaining : Nat
  /-- task state; 05 R117; reset idle -/
  task : Task
  /-- frame check error, status bit 3; 05 R117; reset 0 -/
  frameErr : Bool
  /-- data check error, status bit 4; 05 R117; reset 0 -/
  dataErr : Bool
  /-- illegal frame, status bit 5; 05 R117; reset 0 -/
  illegal : Bool
  /-- a Write Task Block waits for its 64-B block; 05 R131; reset false -/
  taskBlock : Bool
  /-- slots left of the Write Data grant; 05 R133; reset 0 -/
  slots : Nat
  /-- number of the slot in the grant, from 1; 05 R132; reset 0 -/
  slotNo : Nat
  /-- data received in this data phase, host order; 05 R132; reset none -/
  inData : Mem
  /-- bytes received; 05 R132; reset 0 -/
  inLen : Nat
  /-- data to send, once staged; 05 R133; reset none -/
  outData : Option Payload
  /-- blocks sent for the first time; 05 R133; reset 0 -/
  sent : Nat
  /-- the frozen task was frozen by a contain reaction; 15 R406; reset false -/
  contained : Bool
deriving DecidableEq, Repr

/-- The admission unit (chapters 07 and 14). -/
structure Nib where
  /-- next ruling number, 64 bits; 07 R177; reset 1 (log 4: media never used) -/
  next : Nat
  /-- ruling ceiling of the newest verified page; 12 R329; reset 0 -/
  ceiling : Nat
  /-- ruling and fetching stopped; 15 R409, 12 R344; reset false -/
  stopped : Bool
  /-- fetching paused by restart, activation or shutdown; 07 R174; reset false -/
  paused : Bool
  /-- queue pairs; 07 R171; reset none -/
  pairs : List Pair
  /-- fetched, not ruled, in fetch order; 07 R174; reset none -/
  fetched : List Fetched
  /-- ruled, not completed, in ruling order: with their locks the range-lock table; 07 R184; reset none -/
  items : List Item
  /-- well served last; 07 R175; reset 63 -/
  wellTurn : Nat
  /-- pair served last in each well; 07 R175; reset none -/
  pairTurn : List (Nat × Nat)
  /-- partitions and protection as the items ruled leave them; 07 R181; reset none -/
  adm : MapState
  /-- time since reset release in ms when a write was last admitted; 09 R255; reset 0 -/
  lastWrite : Nat
  /-- rule epoch, 32 bits; 14 R384; reset 1 -/
  epoch : Nat
  /-- older versions of the gate table still held; 14 R385; reset none -/
  versions : List GateVer
  /-- rulings of items that change stored state and are not settled; 12 R325; reset none -/
  unsettled : List Nat
deriving DecidableEq, Repr

/-- The reservoir (R22, R179). -/
structure Res where
  /-- staged blocks, oldest first; 07 R22; reset none -/
  staged : List Staged
  /-- bytes claimed by admitted writes; 07 R179; reset 0 -/
  claimed : Nat
deriving DecidableEq, Repr

/-- The map log (chapters 09 and 12). -/
structure MapLog where
  /-- records waiting in the buffers, oldest first; 09 R246; reset none -/
  buf : List MapRec
  /-- pages assembled and not verified; 12 R331; reset none -/
  inflight : List LogPage
  /-- programs of the pages under way: page sequence and program; 12 R331; reset none -/
  progs : List (Nat × Nat)
  /-- pages on the media that passed verify, oldest first; 12 R330; reset none (log 4) -/
  pages : List LogPage
  /-- sequence of the next record, modulo 2^32; 09 Table 09-5; reset 0 -/
  nextSeq : Nat
  /-- page sequence of the next page; 12 Table 12-3; reset 1 -/
  nextPage : Nat
  /-- checkpoint slots, at most two; 09 R248; reset none -/
  cps : List Checkpoint
  /-- checkpoint being written; 09 R248; reset none -/
  cpWriting : Option Checkpoint
  /-- an Opened page is due before the next change of the media; 12 R332; reset true -/
  needOpened : Bool
  /-- the shutdown sequence's Clean page is due; 12 R341; reset false -/
  closing : Bool
deriving DecidableEq, Repr

/-- Bands, write points and collection (chapter 09). -/
structure Ftl where
  /-- bands that are not in their state at shipment; 09 R249; reset none -/
  bands : List Band
  /-- programmed slots; 09 R239; reset none -/
  slots : List Slot
  /-- slots assigned, not yet in a program; 09 R250; reset none -/
  fill : List Slot
  /-- wordline programs under way; 10 R277; reset none -/
  progs : List Prog
  /-- write points; 09 R250; reset none -/
  wps : List WritePoint
  /-- bands being emptied; 09 R261; reset none -/
  emptying : List Emptying
  /-- copies under way; 09 R261; reset none -/
  moves : List Move
  /-- read cache: device blocks held, most recent first; 09 R245; reset none -/
  cache : List Nat
  /-- pacing below the reserve floor: on, and the credit in bytes; 09 R264; reset off -/
  pacing : Option Nat
  /-- collection from twice the reserve floor up to three times; 09 R260; reset false -/
  collecting : Bool
  /-- blocks retired, factory and grown; 10 R280; DESIGN CHOICE 9,216: 36 in each of the 256 planes (log 4) -/
  retired : Nat
  /-- spare blocks of the planes; 09 R249; DESIGN CHOICE none (log 4) -/
  spares : List Blk
  /-- bands of the system region; 09 R249; reset 0 to 15 -/
  system : List Nat
  /-- cache size as last worked out; 09 R253; reset none worked out yet -/
  cacheHeld : Option Nat
  /-- strokes written or released, with the power-on time in ms; 09 R241; reset none -/
  touched : List (Nat × Nat)
  /-- demotion from above 48 Mi hairline entries down to 40 Mi; 09 R241; reset false -/
  demoting : Bool
  /-- wear units and erases of the bands that are not listed; 10 R272; reset 0 -/
  freshWear : Nat
  freshErases : Nat
  /-- XOR codewords on the media: band, stripe codeword within it, 4,608 bytes; 11 R305; reset none -/
  xors : List (Nat × Nat × BitVec 36864)
  /-- band of segment 8 of a self-test, and the step it has reached; 10 R298; reset none -/
  testBand : Option (Nat × Nat)
  /-- number of the next program; reset 0 -/
  nextProg : Nat
  /-- order of closing; 09 R260; reset 0 -/
  closeNo : Nat
deriving DecidableEq, Repr

/-- Dies, decoders and thresholds (chapters 10 and 11). -/
structure Dies where
  /-- die operations waiting, in arrival order; 01 R26; reset none -/
  queue : List DieOp
  /-- dies that are not idle and healthy; 10 R281; reset none -/
  dies : List Die
  /-- codeword reads under way; 10 R293; reset none -/
  reads : List Rd
  /-- dies that have not been reset since the start; 10 R282; reset 0 to 63 -/
  cold : List Nat
  /-- time since reset release in ms when host work was last queued, by die; 10 R300; reset none -/
  hostAt : List (Nat × Nat)
  /-- milliseconds in which a channel served a rebuild as class 2: channel and time; 11 R312; reset none -/
  raisedMs : List (Nat × Nat)
  /-- number of the next read or probe; reset 0 -/
  nextRd : Nat
  /-- swatch probes under way; 10 R290; reset none -/
  probes : List Probe
  /-- blocks that the sweep has still to probe: die, band, plane; 10 R292; reset none -/
  sweep : List (Nat × Nat × Nat)
  /-- temperature of each die in tenths of a degree; 10 R286; reset 250 (log 4) -/
  temps : List Int
  /-- decoders in service; 11 R319; reset 8 -/
  decoders : List Nat
  /-- aging clock of each die in units of 2^-32 min; 10 R286; reset 0 -/
  aging : List Nat
  /-- channels whose training has failed once; 10 R281; reset none -/
  trainFailed : List Nat
  /-- channels left in local reset; 04 R87; reset none -/
  chHeld : List Nat
  /-- successes reported falsely, with the power-on time in ms, by decoder; 11 R319; reset none -/
  falseOk : List (Nat × Nat)
  /-- grown bad blocks, with the power-on time in ms, by die; 10 R281; reset none -/
  grown : List (Nat × Nat)
deriving DecidableEq, Repr

/-- Media records of the system region and what is kept with them (chapters 03, 09, 11, 16). -/
structure MediaRec where
  /-- SA3 code of the format; 03 R72; reset 0 (factory, SA3 code 7) -/
  profile : Nat
  /-- worn read-only; 09 R267; reset false -/
  worn : Bool
  /-- fewer than 9 channels in a group; 11 R314; reset false -/
  lowChannels : Bool
  /-- failed dies; 11 R308; reset none -/
  failedDies : List Nat
  /-- failed channels; 11 R308; reset none -/
  failedChannels : List Nat
  /-- ruling of a Sanitize recorded and not complete; 12 R323; reset none -/
  sanitize : Option Nat
  /-- rebuilds not finished: type and target; 11 R313; reset none -/
  rebuilds : List (Nat × Nat)
  /-- class tables and coefficients written by calibration, die by die; 10 R299; reset none: those of the calibration row hold -/
  tables : List DieTable
  /-- epochs; 16 R443; reset none -/
  epochs : List Epoch
  /-- wall time at the last page before the outage; 10 R291; reset 0 -/
  lastWall : Nat
  /-- outage estimate of each die in minutes; 10 R290; reset none -/
  estimates : List Nat
deriving DecidableEq, Repr

/-- Health counters kept on the media (Table 08-8), each saturating. -/
structure Health where
  /-- Host data read, MiB in bytes; 08 R223; reset 0 -/
  readBytes : Nat
  /-- Host data written in bytes; 08 R223; reset 0 -/
  writtenBytes : Nat
  /-- Media data written in bytes; 08 R223; reset 0 -/
  mediaBytes : Nat
  /-- Host commands completed; 08 R223; reset 0 -/
  commands : Nat
  /-- Power-on time in ms; 08 R223; reset 0 -/
  powerOnMs : Nat
  /-- Starts that reached ready; 08 R223; reset 0 -/
  starts : Nat
  /-- Unclean starts; 08 R223; reset 0 -/
  unclean : Nat
  /-- Uncorrectable reads; 08 R223; reset 0 -/
  uncorrectable : Nat
  /-- Link errors corrected; 08 R223; reset 0 -/
  linkErrors : Nat
  /-- Fault counts FC0 to FC15; 08 R223; reset 0 -/
  faults : List Nat
deriving DecidableEq, Repr

/-- The fault collector (chapter 15). -/
structure Flt where
  /-- blotter in FAULT, newest first, at most 32; 15 R415; reset empty -/
  blotter : List Blot
  /-- slot of the next entry; 15 R415; reset 0 -/
  nextSlot : Nat
  /-- unacknowledged faults since reset release; 15 R401; reset none -/
  unack : List Unack
  /-- faults of each class since reset release; 15 Table 15-6; reset 0 -/
  counts : List Nat
  /-- events; 08 R218; reset none pending -/
  events : List Ev
  /-- causes of the safe level; 15 R407; reset none -/
  safe : List SafeCause
  /-- the stop sequence has begun; 15 R409; reset false -/
  stopping : Bool
  /-- contained partitions and the sequence of the entry that caused it; 15 R406; reset none -/
  containedParts : List (Nat × Nat)
  /-- sources not sampled after a wire fault; 15 R396; reset none -/
  mutedSources : List Nat
  /-- scribe cores in service; 11 R318; reset 0 to 9 -/
  cores : List Nat
  /-- power-on times in ms of the resets of each core; 11 R318; reset none -/
  coreResets : List (Nat × Nat)
  /-- units taken out of service by contain, and AON (01h) while a crossing into it has stalled: source codes; 15 R405, 01 R19; reset none -/
  out : List Nat
  /-- highest ruling assigned when the safe level was last entered: the settled ruling is to reach it; 15 R407; reset 0 -/
  raiseTo : Nat
  /-- SRAM rows of 1 KiB remapped to a spare row of their macro, by address / 1024; 15 Table 15-3; reset none -/
  sramRows : List Nat
  /-- DRAM rows of 2 KiB remapped to a row of the read cache, by address / 2048; 15 Table 15-3; reset none -/
  dramRows : List Nat
deriving DecidableEq, Repr

/-- Long operations (R227). -/
structure LongOps where
  /-- the page, at most 16 entries, oldest first; 08 R227; reset empty -/
  list : List LongOp
  /-- handle counter; 08 R227; reset 1 -/
  next : Nat
  /-- rebuilds created and waiting for an entry: type and target; 08 R227; reset none -/
  queued : List (Nat × Nat)
deriving DecidableEq, Repr

/-- The ligature (chapter 16). -/
structure Lig where
  /-- 0 standalone, 1 not joined, 2 joined, 3 duplicate; 16 R443; reset 0 -/
  state : Nat
  /-- leader drives LCK; 16 R420; reset false -/
  drivesLck : Bool
  /-- joined map, 24 bits; 16 R443; reset 0 -/
  joined : BitVec 24
  /-- addresses that answered the present Call; 16 R427; reset 0 -/
  answered : BitVec 24
  /-- addresses that answered the Call before; 16 R427; reset 0 -/
  answeredLast : BitVec 24
  /-- ligature time, 24 bits; 16 R426; reset 0 -/
  time : Nat
  /-- frames received; 16 R443; reset 0 -/
  frames : Nat
  /-- check errors; 16 R443; reset 0 -/
  errors : Nat
  /-- members dropped; 16 R443; reset 0 -/
  dropped : Nat
  /-- frames waiting to be sent, oldest first; 16 R422; reset none -/
  sendQ : List LigFrame
  /-- Prepare received and waiting for its Members frame: source and epoch; 16 R425; reset none -/
  held : Option (Nat × Nat)
  /-- a prepare is open on the ligature: initiator and epoch; 16 R433; reset none -/
  open_ : Option (Nat × Nat)
  /-- participants of the open prepare; 16 R433; reset 0 -/
  parts : BitVec 24
  /-- Ready frames received for it; 16 R433; reset 0 -/
  readies : BitVec 24
  /-- a Refuse was received for it; 16 R433; reset false -/
  refused : Bool
  /-- this card pulls LRDY low; 16 R433; reset false -/
  pulls : Bool
  /-- LRDY stands high; 16 R433; reset true -/
  lrdyHigh : Bool
  /-- epoch this card commits and the step of Table 16-4 (0 waiting, 3, 5, 6); 16 R433; reset none -/
  initiating : Option (Nat × Nat)
  /-- the leader's query in the initiator's place is out; 16 R436; reset false -/
  leaderAsked : Bool
  /-- a State answer reported committed to the leader's query; 16 R436; reset false -/
  sawCommitted : Bool
  /-- epoch queried while in doubt; 16 R440; reset none -/
  querying : Option Nat
  /-- State answers to that query: address and state; 16 R440; reset none -/
  answers : List (Nat × Nat)
deriving DecidableEq, Repr

/-- Power states, hints and temperature (chapter 17). -/
structure Pwr where
  /-- power state PS0 to PS4; 17 R446; reset 0 -/
  ps : Nat
  /-- entering PS4, shutdown steps running; 17 R450; reset false -/
  entering4 : Bool
  /-- power hint in force, 0 none; 17 R451; reset 0 -/
  hint : Nat
  /-- throttle step; 17 R456; reset 0 -/
  step : Nat
  /-- controller junction temperature in tenths; 17 R455; reset 250 (log 4) -/
  junction : Int
  /-- hottest die temperature in tenths; 17 R455; reset 250 (log 4) -/
  nand : Int
  /-- thermal safe state; 17 R458; reset false -/
  thermalSafe : Bool
  /-- row of Table 17-5 of the last LTR message: 1 PS0 with commands, 2 PS0 idle, 3 PS1, 4 PS2, 5 PS3, 6 PS4; 17 R452; reset 0, none sent -/
  ltr : Nat
  /-- the 10 ms window in which host data was last read from the flash; 17 R445; reset 0 -/
  readWindow : Nat
  /-- bytes that count against the read data ceiling in that window; 17 R445; reset 0 -/
  readBytes : Nat
  /-- the 10 ms window in which a write was last admitted; 17 R445; reset 0 -/
  writeWindow : Nat
  /-- bytes that count against the write admission ceiling in that window; 17 R445; reset 0 -/
  writeBytes : Nat
deriving DecidableEq, Repr

/-- The debug port (R390 to R394). -/
structure Dbg where
  /-- address register, 36 bits; 14 R390; reset 0 -/
  addr : Nat
  /-- unlocked; 14 R390 DBGSTAT bit 0; reset false -/
  unlocked : Bool
  /-- scope bits; 14 R390 DBGSTAT bits 2:1; reset 0 -/
  scope : BitVec 2
  /-- an access met a locked region; 14 R390 DBGSTAT bit 3; reset false -/
  met : Bool
  /-- failed attempts, 0 to 3; 14 R390; reset 0 -/
  fails : Nat
  /-- DBGUNLK refused until the next reset; 14 R393, 15 R399; reset false -/
  refused : Bool
  /-- challenge in force; 14 R393; reset none -/
  challenge : Option (BitVec 256)
  /-- unlocked since reset release; 13 Table 13-11; reset false -/
  everUnlocked : Bool
  /-- words written through the port, by debug address; 14 R391; reset none -/
  written : List (Nat × BitVec 32)
  /-- a debug write has changed state outside the ruling; 14 R394; reset false -/
  dirty : Bool
deriving DecidableEq, Repr

/-- The error log (R222). -/
structure ErrLog where
  /-- entries, newest first, at most 256; 08 R222; reset empty -/
  list : List ErrEntry
  /-- entries made since reset release; 08 R222; reset 0 -/
  count : Nat
deriving DecidableEq, Repr

/-- The whole module. -/
structure State where
  unit : UnitInfo
  rst : Rst
  strap : Strap
  aon : Aon
  sup : Supply
  lands : Lands
  boot : Boot
  pcie : Pcie
  nb : Narrow
  nib : Nib
  res : Res
  map : MapState
  log : MapLog
  ftl : Ftl
  dies : Dies
  rec_ : MediaRec
  health : Health
  flt : Flt
  lops : LongOps
  lig : Lig
  pwr : Pwr
  dbg : Dbg
  elog : ErrLog
  /-- wall time in ms, none when not set; 08 R225; reset none -/
  wall : Option Nat
  /-- what the last command made the module send; 05, 06, 16; reset nothing -/
  out : List Out
  /-- the MODEL's own: numbers the free values drawn so far; DESIGN CHOICE 0 (log 5) -/
  drawn : Nat
  /-- the MODEL's own: commands waiting, first in first out; reset empty -/
  pending : List Instr
deriving DecidableEq, Repr

/-! ## The state after reset -/

/-- Every island but FAULT and AON, held (R84). -/
def allIslands : List Island :=
  [.boot, .scribe, .res, .map, .nib, .ductus, .par, .ldpc,
   .ch 0, .ch 1, .ch 2, .ch 3, .ch 4, .ch 5, .ch 6, .ch 7, .ch 8, .ch 9, .ch 10, .ch 11, .ch 12, .ch 13, .ch 14, .ch 15,
   .hostP, .hostN, .lig]

def Rst.init : Rst :=
  { phase := .stretch, power := true, timeMs := 0, rowsRead := false, calGood := false, osc50 := false, samples := []
    faultReleased := false, islands := allIslands.map (·, .held), face := .none, armedPcie := false, armedNarrow := false
    imageRuns := false, dram := false, recovered := false, admin := false, io := false, mode := .normal, startCount := 0
    bank := .a, booted := .a, fallback := false, clean := false, aonValid := false }

def Strap.init : Strap :=
  { codes := List.replicate 9 0, faults := 0, mismatch := 0, state := 0, readings := List.replicate 9 0, recorded := 0
    vccq18 := none, vccqMv := 0 }

def Aon.lost : Aon := { failed := 0, tail := [], queue := [], por := BitVec.allOnes 64, pin := 0, resetNo := 1, nextSeq := 1 }

def Supply.init : Supply :=
  { brownArmed := true, inRange := true, bank := .notFitted, vhuMv := 0, ejectArmed := false, warning := none
    wpswLow := false, draining := false }

def Lands.init : Lands :=
  { resetLow := true, alive := .low, aliveHigh := false, act := false, actHeld := false, clkreqLow := false, extest := none }

/-- The factory image's header (R363): marker, layout, length, load length, entry, security version 1, key 0, every variant,
version "1.00.00" (log entry 4). -/
def factoryImage : Mem :=
  [(0x00, 0x53#8), (0x01, 0x58#8), (0x02, 0x46#8), (0x03, 0x57#8), (0x04, 0x01#8), (0x05, 0x00#8), (0x06, 0x00#8), (0x07, 0x00#8),
   (0x08, 0x00#8), (0x09, 0x50#8), (0x0A, 0x00#8), (0x0B, 0x00#8), (0x0C, 0x00#8), (0x0D, 0x01#8), (0x0E, 0x00#8), (0x0F, 0x00#8),
   (0x10, 0x00#8), (0x11, 0x00#8), (0x12, 0x00#8), (0x13, 0x00#8), (0x14, 0x01#8), (0x15, 0x00#8), (0x16, 0x00#8), (0x17, 0x00#8),
   (0x18, 0x00#8), (0x19, 0x00#8), (0x1A, 0x07#8), (0x1B, 0x00#8), (0x1C, 0x00#8), (0x1D, 0x00#8), (0x1E, 0x00#8), (0x1F, 0x00#8),
   (0x20, 0x31#8), (0x21, 0x2E#8), (0x22, 0x30#8), (0x23, 0x30#8), (0x24, 0x2E#8), (0x25, 0x30#8), (0x26, 0x30#8), (0x27, 0x20#8),
   (0x28, 0x20#8), (0x29, 0x20#8), (0x2A, 0x20#8), (0x2B, 0x20#8), (0x2C, 0x20#8), (0x2D, 0x20#8), (0x2E, 0x20#8), (0x2F, 0x20#8),
   (0x30, 0x00#8), (0x31, 0x00#8), (0x32, 0x00#8), (0x33, 0x00#8)]

def Boot.init : Boot :=
  { bankA := { bytes := factoryImage, present := true, authentic := true }
    bankB := { bytes := [], present := false, authentic := false }
    swap0 := some { seq := 1, active := .a, trial := false, revoked := 0, floor := 0, cause := 1 }
    swap1 := none, dl := none, busy := none, swapWork := none, held := [], rebuild := false, runSecurity := 0, runRevoke := 0, runVersion := 0
    runMeasure := 0, owed := false, activating := false }

def HostCfg.init : HostCfg :=
  { command := 0, bar := 0, msixEnable := false, msixMask := false, mps := 128, mrrs := 512, relaxed := true, aspmL1 := false
    l11 := false, l12 := false, ltr := false, report := 0, uncorMask := 0, severity := 0x00062030, corMask := 0x2000 }

def Pcie.init : Pcie :=
  { speed := 0, width := 0, lane0 := 0, status := 0, aerUncor := 0, aerCor := 0, aerHeader := 0, tx := [], host := HostCfg.init, request := 0, granted := 0, enable := false, shutReq := false, ready := false
    refused := false, shutdown := 0, stopped := false, asq := 0, acq := 0, asqSize := 0, acqSize := 0, msixTable := []
    msixPending := [], clearing := false, d3hot := false, d3Next := false, l1 := 0 }

def Narrow.init : Narrow :=
  { idReady := false, version := 0, wide := false, grantedNext := none, idNext := false, entry := 0, completion := 0, ruling := 0
    remaining := 0, task := .idle, frameErr := false, dataErr := false, illegal := false, taskBlock := false, slots := 0
    slotNo := 0, inData := [], inLen := 0, outData := none, sent := 0, contained := false }

def MapState.empty : MapState := { strokes := [], hair := [], parts := [], cardCap := false, cardFix := false }

def Nib.init : Nib :=
  { next := 1, ceiling := 0, stopped := false, paused := false, pairs := [], fetched := [], items := [], wellTurn := 63
    pairTurn := [], adm := MapState.empty, lastWrite := 0, epoch := 1, versions := [], unsettled := [] }

def Res.init : Res := { staged := [], claimed := 0 }

def MapLog.init : MapLog :=
  { buf := [], inflight := [], progs := [], pages := [], nextSeq := 0, nextPage := 1, cps := [], cpWriting := none, needOpened := true
    closing := false }

def Ftl.init : Ftl :=
  { bands := [], slots := [], fill := [], progs := [], wps := [], emptying := [], moves := [], cache := [], pacing := none, collecting := false, retired := 9216
    spares := [], system := List.range 16, cacheHeld := none, touched := [], demoting := false, freshWear := 0, freshErases := 0, xors := [], testBand := none
    nextProg := 0, closeNo := 0 }

def Dies.init : Dies :=
  { queue := [], dies := [], reads := [], cold := List.range 64, hostAt := [], raisedMs := [], nextRd := 0, probes := [], sweep := [], temps := List.replicate 64 250, decoders := [0, 1, 2, 3, 4, 5, 6, 7], aging := List.replicate 64 0
    trainFailed := [], chHeld := [], falseOk := [], grown := [] }

def MediaRec.init : MediaRec :=
  { profile := 0, worn := false, lowChannels := false, failedDies := [], failedChannels := [], sanitize := none, rebuilds := []
    tables := [], epochs := [], lastWall := 0, estimates := [] }

def Health.init : Health :=
  { readBytes := 0, writtenBytes := 0, mediaBytes := 0, commands := 0, powerOnMs := 0, starts := 0, unclean := 0
    uncorrectable := 0, linkErrors := 0, faults := List.replicate 16 0 }

def Ev.none : Ev := { pending := false, level := 0, count := 0, seq := 0, time := 0 }

def Flt.init : Flt :=
  { blotter := [], nextSlot := 0, unack := [], counts := List.replicate 16 0, events := List.replicate 16 Ev.none, safe := []
    stopping := false, containedParts := [], mutedSources := [], cores := [0, 1, 2, 3, 4, 5, 6, 7, 8, 9], coreResets := []
    out := [], raiseTo := 0, sramRows := [], dramRows := [] }

def LongOps.init : LongOps := { list := [], next := 1, queued := [] }

def Lig.init : Lig :=
  { state := 0, drivesLck := false, joined := 0, answered := 0, answeredLast := 0, time := 0, frames := 0, errors := 0
    dropped := 0, sendQ := [], held := none, open_ := none, parts := 0, readies := 0, refused := false, pulls := false
    lrdyHigh := true, initiating := none, leaderAsked := false, sawCommitted := false, querying := none, answers := [] }

def Pwr.init : Pwr :=
  { ps := 0, entering4 := false, hint := 0, step := 0, junction := 250, nand := 250, thermalSafe := false, ltr := 0, readWindow := 0, readBytes := 0, writeWindow := 0
    writeBytes := 0 }

def Dbg.init : Dbg :=
  { addr := 0, unlocked := false, scope := 0, met := false, fails := 0, refused := false, challenge := none
    everUnlocked := false, written := [], dirty := false }

def ErrLog.init : ErrLog := { list := [], count := 0 }

/-- The factory data of the unit modelled (log entry 4). -/
def UnitInfo.example_ : UnitInfo :=
  { variant := .t16, grade := .c, serial := [3, 24, 8, 21, 0, 4, 1, 7, 7, 7, 2, 0], revision := 0, groupBands := [1828, 1828, 1828, 1828]
    factoryBad := [(0, 1828, 36), (1, 1828, 36), (2, 1828, 36), (3, 1828, 36)], dieIds := List.replicate 64 0, senseNa := 10000, certLen := 4096 }

/-- The module at the moment its first power-on reset has been taken: the reset stretch has begun, AON was lost, and the
media are as they left the factory (R72, R81, R92, R98). -/
def State.reset : State :=
  { unit := UnitInfo.example_, rst := Rst.init, strap := Strap.init, aon := Aon.lost, sup := Supply.init, lands := Lands.init
    boot := Boot.init, pcie := Pcie.init, nb := Narrow.init, nib := Nib.init, res := Res.init, map := MapState.empty
    log := MapLog.init, ftl := Ftl.init, dies := Dies.init, rec_ := MediaRec.init, health := Health.init, flt := Flt.init
    lops := LongOps.init, lig := Lig.init, pwr := Pwr.init, dbg := Dbg.init, elog := ErrLog.init, wall := none, out := []
    drawn := 0, pending := [] }

end Sys2Proof.Machine
end

