-- ==== Sys2Proof/Machine/Ops.lean ====
section
/-! DEFINITION. The shared operations every family uses: the answer of a meaning, what the module sends, the settings that
the straps give, geometry, and the completion of a command (log, freeze, completion entry, message). -/

namespace Sys2Proof.Machine

open Sys2Proof

/-! ## The answer of a meaning -/

/-- Every meaning answers a next state; the list of what the module sends starts empty. -/
def answer (s : State) (f : State → State) : Host.Outcome State Fault Refusal := .next (f { s with out := [] })

/-- The effect where the event can happen; otherwise nothing (log entry 1). -/
def onlyIf (c : Bool) (f : State → State) (s : State) : State := if c then f s else s

def emit (o : Out) (s : State) : State := { s with out := s.out ++ [o] }

def emits (os : List Out) (s : State) : State := { s with out := s.out ++ os }

/-- The index of the next free value, and the state that has drawn it (log entry 5). -/
def draw (s : State) : State := { s with drawn := s.drawn + 1 }

/-! ## Lists of records -/

/-- `f` applied to the members that satisfy `p`. -/
def mapIf {α : Type} (p : α → Bool) (f : α → α) (l : List α) : List α := l.map (fun x => if p x then f x else x)

/-- `a` put in place of the members with its key, or added at the end. -/
def upsert {α : Type} (key : α → Nat) (a : α) (l : List α) : List α :=
  if l.any (fun x => key x = key a) then mapIf (fun x => key x = key a) (fun _ => a) l else l ++ [a]

def without (x : Nat) (l : List Nat) : List Nat := l.filter (· ≠ x)

def withNat (x : Nat) (l : List Nat) : List Nat := if x ∈ l then l else l ++ [x]

/-! ## Geometry of the unit (R1, R3) -/

def State.groups (s : State) : Nat := match s.unit.variant with | .t16 => 4 | .t08 => 2 | .t04 => 1

def State.dieCount (s : State) : Nat := 16 * s.groups

/-- Die d = channel × 4 + group (Table 15-1). -/
def dieOf (c g : Nat) : Nat := c * 4 + g

def dieChannel (d : Nat) : Nat := d / 4

def dieGroup (d : Nat) : Nat := d % 4

/-- A die that this variant fits. -/
def State.dieFits (s : State) (d : Nat) : Bool := d < 64 ∧ dieGroup d < s.groups

/-! ## Settings of the straps (R65, Table 03-4) -/

/-- The code applied for a land, open (7) on SA0 to SA5 and SA8 taken as its default. -/
def State.code (s : State) (n : Nat) : Nat := s.strap.codes.getD n 0

/-- SA0: 0 auto PCIe, 1 auto narrow, 2 PCIe only, 3 narrow only, 4 auto N2, 5 narrow N2. -/
def State.sa0 (s : State) : Nat := if s.code 0 = 7 then 0 else s.code 0

/-- SA1 code of Table 06-2. -/
def State.sa1 (s : State) : Nat := if s.code 1 = 7 then 0 else s.code 1

/-- Power class in watts. -/
def State.powerClass (s : State) : Nat := if s.code 2 = 7 then 8 else 4 + 2 * s.code 2

/-- Capacity profile, 0 to 5. -/
def State.profile (s : State) : Nat := if s.code 3 = 7 then 0 else s.code 3

/-- Suspend policy: 0 none, 1 unlimited, 2 nested. -/
def State.suspendPolicy (s : State) : Nat := if s.code 4 = 7 then 2 else s.code 4

/-- SA5 setting, 0 to 3. -/
def State.sa5 (s : State) : Nat := if s.code 5 = 7 then 1 else s.code 5

def State.holdupFitted (s : State) : Bool := s.sa5 = 2 ∨ s.sa5 = 3

def State.ejectUsed (s : State) : Bool := s.sa5 = 1 ∨ s.sa5 = 3

/-- A strap fault is recorded (R69). -/
def State.strapFault (s : State) : Bool := s.strap.faults ≠ 0

/-- The ligature address, none when standalone or when either land is in fault (R67, R493). -/
def State.ligAddress (s : State) : Option Nat :=
  if s.strapFault then none
  else if 8 * s.code 6 + s.code 7 < 24 then some (8 * s.code 6 + s.code 7) else none

/-- SA8 setting applied, 0 to 3. -/
def State.sa8 (s : State) : Nat := if s.code 8 = 7 then 1 else s.code 8

def State.debugOn (s : State) : Bool := s.sa8 = 2 ∨ s.sa8 = 3

def State.updateAllowed (s : State) : Bool := s.sa8 = 1 ∨ s.sa8 = 2

/-- Minimal recovery mode (R99). -/
def State.recovery (s : State) : Bool := s.rst.mode ≠ .normal

/-- The strap record's State reads 02h (R73). -/
def State.mismatch (s : State) : Bool := s.strap.state = 2

/-- Stroke-only profile (R268). -/
def State.strokeOnly (s : State) : Bool := s.profile = 3 ∨ s.profile = 4

def State.hybrid (s : State) : Bool := s.profile ≤ 2

/-- Marketed capacity of a profile in GB for the 16T (Table 03-5). -/
def profileGb (p : Nat) : Nat := match p with | 0 => 14000 | 1 => 13000 | 2 => 12000 | 3 => 14000 | 4 => 12000 | _ => 4000

/-- R4: capacity in bytes divided by 4,096, rounded down. -/
def State.logicalBlocks (s : State) : Nat := profileGb s.profile * s.groups / 4 * 1000000000 / 4096

/-- The reservoir's size in bytes (R179). -/
def reservoirBytes : Nat := 16777216

/-! ## Running state -/

/-- The module runs: after reset release and not in the stop sequence. -/
def State.running (s : State) : Bool := s.rst.phase = .run

/-- The nib can rule: FAULT has not stopped it (R409) and a ruling lies below the verified ceiling (R329). -/
def State.canRule (s : State) : Bool :=
  s.running && !s.nib.stopped && s.rst.admin && (s.recovery || s.nib.next < s.nib.ceiling)

/-- Pulls of the stretch stand until a face is selected: then no land but the debug inputs keeps one (R35). -/
def State.unselected (s : State) : Bool := s.rst.face = .none

/-- A land in the reset stretch (Table 02-2, third column). -/
def stretchLand (l : Land) : LandState :=
  match l with
  | .clkreqn | .nclk | .ncmdNd | .wpsw | .ejectn | .ligature | .debugIn => .pullUp
  | .resetn | .alive => .drivenLow
  | .straps => .sensing
  | .vhu => .discharged
  | _ => .off

/-- A land of a host face in operation: off where the other face is selected; a face still armed listens, its pull in place (R35, R89, log entry
114). -/
def faceLand (mine armed pulled : Bool) (face : Face) : LandState :=
  if face = .none then (if armed then (if pulled then .activePullUp else .active) else if pulled then .pullUp else .off)
  else if mine then .active else .off

/-- A land in operation (Table 02-2, last column). -/
def State.runLand (s : State) (l : Land) : LandState :=
  match l with
  | .lanes | .refclk => faceLand (s.rst.face = .pcie) s.rst.armedPcie false s.rst.face
  | .clkreqn => faceLand (s.rst.face = .pcie) s.rst.armedPcie true s.rst.face
  | .nclk | .ncmdNd => faceLand (s.rst.face = .narrow) s.rst.armedNarrow true s.rst.face
  | .resetn => if s.lands.resetLow then .drivenLow else .input
  | .alive => if s.lands.alive = .low then .drivenLow else .toggling
  | .wpsw => if s.unselected then .activePullUp else .active
  | .ejectn => if s.unselected then .activePullUp else if s.ejectUsed then .active else .ignored
  | .act => .active
  | .straps | .rsvd => .off
  | .ligature => if s.ligAddress.isNone || s.recovery then .off else if s.unselected then .activePullUp else .active
  | .debugIn => if s.debugOn then .activePullUp else .off
  | .tdo => if s.debugOn then .active else .off
  | .vhu => if s.holdupFitted then .charged else .discharged

/-- What the module does at each land (Table 02-2, R32, R35). -/
def State.landState (s : State) (l : Land) : LandState :=
  match s.rst.phase with
  | .off => if l = .vhu then .discharged else .off
  | .stretch | .extended => stretchLand l
  | .waitRelease => if l = .resetn then .input else stretchLand l
  | .dump | .run => s.runLand l

/-- Host commands are ruled in PS0 and PS1 only: from PS2 on, a wake event comes first (R449, R454). -/
def State.awake (s : State) : Bool := s.pwr.ps < 2

/-- Face code of the identify data (Table 08-4). -/
def State.faceCode (s : State) : Nat := match s.rst.face with | .none => 0 | .pcie => 1 | .narrow => 2

/-- Whether any host command is outstanding or any long operation runs (R56). -/
def State.busy (s : State) : Bool :=
  s.nib.items ≠ [] || s.nib.fetched ≠ [] || s.lops.list.any (fun o => o.state = 1)

/-- ACT sinks while the module is busy, at least 20 ms at a time, and never in the stretch or in minimal recovery mode (R56). -/
def actUpdate (s : State) : State :=
  if !s.running || s.recovery then { s with lands := { s.lands with act := false } }
  else if s.busy && !s.lands.act then { s with lands := { s.lands with act := true, actHeld := false } }
  else if !s.busy && s.lands.act && s.lands.actHeld then { s with lands := { s.lands with act := false } }
  else s

/-- Work of a host ends idleness: an entry into PS4 that still runs its shutdown steps is given up (R447, Table 17-3). -/
def touch (s : State) : State := { s with pwr := { s.pwr with entering4 := false } }

/-! ## Items and pairs -/

def State.item? (s : State) (r : Nat) : Option Item := s.nib.items.find? (fun i => i.ruling = r)

def setItem (i : Item) (s : State) : State :=
  { s with nib := { s.nib with items := mapIf (fun j => j.ruling = i.ruling) (fun _ => i) s.nib.items } }

def dropItem (r : Nat) (s : State) : State :=
  { s with nib := { s.nib with items := s.nib.items.filter (fun i => i.ruling ≠ r) } }

def State.pair? (s : State) (q : Nat) : Option Pair := s.nib.pairs.find? (fun p => p.id = q)

def modPair (q : Nat) (f : Pair → Pair) (s : State) : State :=
  { s with nib := { s.nib with pairs := mapIf (fun p => p.id = q) f s.nib.pairs } }

def dropPair (q : Nat) (s : State) : State :=
  { s with nib := { s.nib with pairs := s.nib.pairs.filter (fun p => p.id ≠ q) } }

/-- A ruling that needs no more settling: it changes no stored state, failed or was aborted (R325). -/
def settle (r : Nat) (s : State) : State := { s with nib := { s.nib with unsettled := without r s.nib.unsettled } }

/-- Staged data of a write that takes no effect leaves the reservoir. -/
def dropStaged (r : Nat) (s : State) : State :=
  { s with res := { s.res with staged := s.res.staged.filter (fun b => b.ruling ≠ r) } }

/-! ## MSI-X (R159) -/

/-- The table as the host reads it: kept as the difference from its reset contents, every vector masked (log entry 6). -/
def msixByte (t : Mem) (a : Nat) : Byte := Mem.get 0 t a ^^^ (if a % 16 = 12 then 1 else 0)

def State.vectorMasked (s : State) (v : Nat) : Bool := (msixByte s.pcie.msixTable (16 * v + 12)).getLsbD 0

def State.msixOn (s : State) : Bool := s.pcie.host.msixEnable && !s.pcie.host.msixMask

/-- The module may write and read host memory: Bus Master is enabled (R148). -/
def State.busMaster (s : State) : Bool := s.pcie.host.command.getLsbD 2

/-- A memory write of the module: it goes out at once, or waits in the transmit path while Bus Master is 0 (R148, R159). -/
def post (o : Out) (s : State) : State := if s.busMaster then emit o s else { s with pcie := { s.pcie with tx := s.pcie.tx ++ [o] } }

/-- The transmit path empties, oldest first. -/
def drainTx (s : State) : State := if s.busMaster then { emits s.pcie.tx s with pcie := { s.pcie with tx := [] } } else s

/-- The message of a vector is sent, or its pending bit set where the vector is masked; a message that waits in the transmit path stands for further
entries of its vector (R159). -/
def sendMsix (v : Nat) (s : State) : State :=
  if !s.msixOn then s
  else if s.vectorMasked v then { s with pcie := { s.pcie with msixPending := withNat v s.pcie.msixPending } }
  else if .msix v ∈ s.pcie.tx then s
  else post (.msix v) s

/-! ## Requests to host memory (R150) -/

/-- The sizes of the requests that move some bytes, none larger than the limit; all but the last have its size (DESIGN CHOICE: R150 gives the limit
alone, log entry 121). -/
def cut (limit n : Nat) : List Nat := List.replicate (n / limit) limit ++ (if n % limit = 0 then [] else [n % limit])

/-- The largest memory read request: Max Read Request Size, and never more than 4 KiB (R150). -/
def State.readMax (s : State) : Nat := min s.pcie.host.mrrs 4096

/-! ## Error log (R190, R222) -/

def logError (e : ErrEntry) (s : State) : State :=
  let n := s.elog.count + 1
  let e := { e with count := n, slot := (n - 1) % 256, time := s.rst.timeMs, wall := s.wall.getD 0, face := s.faceCode }
  { s with elog := { list := (e :: s.elog.list).take 256, count := n } }

/-! ## Completion -/

/-- A completion entry (Table 07-3). -/
def completionEntry (result ruling head q cid : Nat) (phase : Bool) (status : Nat) : BitVec 128 :=
  BitVec.ofNat 128 (result % 2 ^ 32 + ruling % 2 ^ 32 * 2 ^ 32 + head % 2 ^ 16 * 2 ^ 64 + q % 2 ^ 16 * 2 ^ 80
    + cid % 2 ^ 16 * 2 ^ 96 + (flag phase 0 + status % 256 * 256) * 2 ^ 112)

/-- The entry is written at the pair's completion tail, then the message of its vector is sent (R159, R168). -/
def postCompletion (q cid result ruling status : Nat) (s : State) : State :=
  match s.pair? q with
  | none => s
  | some p =>
    let s := post (.completion (p.cqBase + 16 * p.cqTail) (completionEntry result ruling p.head q cid p.phase status)) s
    let wraps := p.cqTail + 1 = p.cqSize
    let s := modPair q (fun p => { p with cqTail := if wraps then 0 else p.cqTail + 1, phase := p.phase != wraps }) s
    sendMsix p.vector s

/-- Opcode, command identifier and partition of an entry (Table 07-1). -/
def Entry.opcode (e : Entry) : Nat := Entry.field e 0x00 1
def Entry.cid (e : Entry) : Nat := Entry.field e 0x02 2
def Entry.part (e : Entry) : Nat := Entry.field e 0x04 1
def Entry.start (e : Entry) : Nat := Entry.field e 0x20 8

/-- Why a command does not succeed: the status (0: it succeeds), the error log's Detail, Fault class and Block. -/
structure Fail where
  status : Nat
  detail : Nat
  cls : Nat
  block : Option Nat
deriving DecidableEq, Repr

def Fail.of (status : Nat) : Fail := { status := status, detail := 0, cls := 255, block := none }

def Fail.aborted : Fail := Fail.of 7

/-- The host-transfer status of a failed module request, with its fault class (R164). -/
def Fail.hostTransfer : Fail := { Fail.of 9 with cls := 8 }

/-- What ends a command, ruled (ruling > 0) or not: who sent it, its entry and its outcome. -/
structure Ending where
  ruling : Nat
  narrow : Bool
  q : Nat
  slot : Nat
  entry : Entry
  well : Nat
  /-- the failure freezes the ring (false for the aborted completions of a Controller Restart on pair 0, R197) -/
  freezes : Bool
deriving DecidableEq, Repr

def Ending.ofItem (i : Item) : Ending :=
  { ruling := i.ruling, narrow := i.narrow, q := i.q, slot := i.slot, entry := i.entry, well := i.well, freezes := true }

def State.wellOf (s : State) (q : Nat) : Nat := match s.pair? q with | some p => p.well | none => 0

def Ending.ofFetched (s : State) (f : Fetched) : Ending :=
  { ruling := 0, narrow := f.narrow, q := f.q, slot := f.slot, entry := f.entry
    well := if f.narrow then 0 else s.wellOf f.q, freezes := true }

/-- The error log entry of a failure (R190, Table 08-7). -/
def Ending.err (e : Ending) (f : Fail) : ErrEntry :=
  { slot := 0, count := 0, ruling := e.ruling, q := e.q, cid := Entry.cid e.entry, pos := e.slot, status := f.status
    opcode := Entry.opcode e.entry, part := Entry.part e.entry, well := e.well, face := 0, cls := f.cls, detail := f.detail
    block := f.block.getD (Entry.start e.entry), time := 0, wall := 0 }

/-- Freezing of a ring by a failed completion; a frozen ring keeps its freezing entry (R189). -/
def freezeRing (q slot : Nat) (s : State) : State :=
  modPair q (fun p => { p with frozen := p.frozen.or (some slot) }) s

/-- The completion of a task: the completion area, its phase bit and the task's state (R122, R125); a contained task stays frozen (R406). -/
def completeTask (e : Ending) (status result : Nat) (s : State) : State :=
  { s with nb := { s.nb with
      completion := completionEntry result e.ruling 0 0 (Entry.cid e.entry) true status
      task := if status = 0 ∧ !s.nb.contained then .done else .frozen
      outData := none, slots := 0, slotNo := 0, inData := [], inLen := 0 } }

/-- The completion of a command on its face: error log entry, freeze, completion entry and message (R189, R190). -/
def complete (e : Ending) (f : Fail) (result : Nat) (s : State) : State :=
  let s := if f.status = 0 then s else logError (e.err f) s
  let s := { s with health := { s.health with commands := sat 64 (s.health.commands + 1)
                                              uncorrectable := sat 32 (s.health.uncorrectable + (if f.status = 0x0B then 1 else 0)) } }
  let s := if e.narrow then completeTask e f.status result s
    else
      let s := if f.status ≠ 0 ∧ e.freezes then freezeRing e.q e.slot s else s
      postCompletion e.q (Entry.cid e.entry) result e.ruling f.status s
  actUpdate s

/-- An item leaves the nib with its lock, its reservoir claim and its hairline claim; a failure settles its ruling and takes its
staged data (R185, R325). -/
def removeItem (i : Item) (failed : Bool) (s : State) : State :=
  let s := dropItem i.ruling s
  let s := { s with res := { s.res with claimed := s.res.claimed - i.resClaim } }
  let s := { s with dies := { s.dies with reads := s.dies.reads.filter (fun r => r.ruling ≠ i.ruling) } }
  if failed then settle i.ruling (dropStaged i.ruling s) else s

/-- The end of a ruled command: it leaves the nib, then completes. -/
def finish (i : Item) (f : Fail) (result : Nat) (s : State) : State :=
  complete (Ending.ofItem i) f (if f.status = 0 then result else 0) (removeItem i (f.status ≠ 0) s)

def succeed (i : Item) (result : Nat) (s : State) : State := finish i (Fail.of 0) result s

def failWith (i : Item) (status : Nat) (s : State) : State := finish i (Fail.of status) 0 s

end Sys2Proof.Machine
end

