-- ==== Sys2Proof/Machine/Operands.lean ====
section
/-! DEFINITION. What a submission entry says: the table of commands (Table 08-1), the field checks (Tables 07-1, 07-4 and 08-2),
the extents of locks, and the geometry of layout partitions. -/

namespace Sys2Proof.Machine

open Sys2Proof

/-! ## Table 08-1 -/

/-- A row of Table 08-1. Pairs: 0 pair 0, 1 I/O, 2 any. State: 0 none, 1 P, 2 S. Lock: 0 none, 1 range, 2 partition-wide,
3 as Cap, 4 device-wide. Data: 0 none, 1 in, 2 out. Cancel point: 0 none, 1 ruling, 2 all data in the reservoir. -/
structure CmdInfo where
  pairs : Nat
  kq1 : Bool
  state : Nat
  lock : Nat
  data : Nat
  cancel : Nat
deriving DecidableEq, Repr

def cmdInfo (op : Nat) : Option CmdInfo :=
  match op with
  | 0x01 => some ⟨1, true, 1, 1, 1, 2⟩    -- Write
  | 0x02 => some ⟨1, true, 0, 1, 2, 0⟩    -- Read
  | 0x03 => some ⟨2, true, 0, 0, 0, 0⟩    -- Flush
  | 0x04 => some ⟨1, true, 1, 1, 0, 1⟩    -- Release
  | 0x05 => some ⟨1, true, 0, 1, 0, 0⟩    -- Verify
  | 0x06 => some ⟨1, false, 0, 1, 2, 0⟩   -- Plane Read
  | 0x07 => some ⟨1, false, 0, 1, 2, 0⟩   -- Precision Read
  | 0x80 => some ⟨0, true, 0, 0, 0, 1⟩    -- Create Queue Pair
  | 0x81 => some ⟨0, true, 0, 0, 0, 1⟩    -- Delete Queue Pair
  | 0x82 => some ⟨0, true, 0, 0, 0, 1⟩    -- Resume Queue
  | 0x83 => some ⟨0, true, 0, 0, 0, 1⟩    -- Cancel Command
  | 0x84 => some ⟨0, true, 0, 0, 0, 1⟩    -- Controller Restart
  | 0x85 => some ⟨0, true, 0, 0, 0, 0⟩    -- Await Event
  | 0x88 => some ⟨2, true, 0, 0, 2, 0⟩    -- Identify
  | 0x89 => some ⟨2, true, 0, 0, 2, 0⟩    -- Get Log Page
  | 0x8A => some ⟨0, true, 0, 0, 0, 1⟩    -- Set Time
  | 0x8B => some ⟨0, true, 0, 0, 0, 1⟩    -- Power Hint
  | 0x90 => some ⟨0, true, 1, 2, 0, 1⟩    -- Create Partition
  | 0x91 => some ⟨0, true, 1, 2, 0, 1⟩    -- Delete Partition
  | 0x92 => some ⟨0, true, 2, 3, 0, 1⟩    -- Cap
  | 0x93 => some ⟨0, true, 2, 3, 0, 1⟩    -- Uncap
  | 0x94 => some ⟨0, true, 2, 3, 0, 1⟩    -- Fix
  | 0x95 => some ⟨0, false, 2, 2, 0, 1⟩   -- Set Access
  | 0x98 => some ⟨0, true, 2, 4, 0, 1⟩    -- Sanitize Device
  | 0x99 => some ⟨0, true, 0, 0, 0, 1⟩    -- Self-test
  | 0x9A => some ⟨0, false, 0, 0, 0, 1⟩   -- Calibrate
  | 0x9B => some ⟨0, true, 0, 0, 0, 1⟩    -- Operation Control
  | 0xA0 => some ⟨0, true, 0, 0, 1, 1⟩    -- Firmware Download
  | 0xA1 => some ⟨0, true, 0, 0, 0, 1⟩    -- Firmware Activate
  | 0xA2 => some ⟨0, false, 0, 0, 2, 0⟩   -- Attest
  | 0xA8 => some ⟨0, false, 0, 0, 0, 1⟩   -- Epoch Commit
  | 0xA9 => some ⟨0, false, 2, 4, 0, 1⟩   -- Epoch Resolve
  | _ => none

/-- A block command (Pairs column "I/O"). -/
def isBlockCmd (op : Nat) : Bool := 1 ≤ op && op ≤ 7 && op ≠ 3

/-- Commands that change the gate table (R384). -/
def isGateChange (op : Nat) : Bool := op = 0x90 || op = 0x91 || op = 0x95

/-! ## Fields of an entry (Tables 07-1, 07-4, 08-2) -/

namespace Entry
def durable (e : Sys2Proof.Entry) : Bool := bit (Entry.field e 0x01 1) 0
def segmented (e : Sys2Proof.Entry) : Bool := bit (Entry.field e 0x01 1) 1
def pointer (e : Sys2Proof.Entry) : Nat := Entry.field e 0x08 8
def length (e : Sys2Proof.Entry) : Nat := Entry.field e 0x10 4
def segments (e : Sys2Proof.Entry) : Nat := Entry.field e 0x14 2
def aux (e : Sys2Proof.Entry) : Nat := Entry.field e 0x18 8
def count (e : Sys2Proof.Entry) : Nat := Entry.field e 0x28 4
/-- command-specific fields -/
def b2C (e : Sys2Proof.Entry) : Nat := Entry.field e 0x2C 1
def b2D (e : Sys2Proof.Entry) : Nat := Entry.field e 0x2D 1
def b2E (e : Sys2Proof.Entry) : Nat := Entry.field e 0x2E 1
def h2C (e : Sys2Proof.Entry) : Nat := Entry.field e 0x2C 2
def h2E (e : Sys2Proof.Entry) : Nat := Entry.field e 0x2E 2
def w2C (e : Sys2Proof.Entry) : Nat := Entry.field e 0x2C 4
def d2C (e : Sys2Proof.Entry) : Nat := Entry.field e 0x2C 8
def w30 (e : Sys2Proof.Entry) : Nat := Entry.field e 0x30 4
def h30 (e : Sys2Proof.Entry) : Nat := Entry.field e 0x30 2
def h32 (e : Sys2Proof.Entry) : Nat := Entry.field e 0x32 2
def b30 (e : Sys2Proof.Entry) : Nat := Entry.field e 0x30 1
def b34 (e : Sys2Proof.Entry) : Nat := Entry.field e 0x34 1
def b35 (e : Sys2Proof.Entry) : Nat := Entry.field e 0x35 1
def b36 (e : Sys2Proof.Entry) : Nat := Entry.field e 0x36 1
def b37 (e : Sys2Proof.Entry) : Nat := Entry.field e 0x37 1
def b38 (e : Sys2Proof.Entry) : Nat := Entry.field e 0x38 1
def d34 (e : Sys2Proof.Entry) : Nat := Entry.field e 0x34 8
end Entry

/-- Commands served under KQ1 (Table 06-8): the PCIe face with Granted 01h. -/
def State.kq1 (s : State) (narrow : Bool) : Bool := !narrow && s.pcie.granted = 1

/-- Which commands name a partition of their own (R203). -/
def needsPartition (op : Nat) (e : Entry) : Bool :=
  match cmdInfo op with
  | some i => i.lock = 1 || i.lock = 2 || (op = 0x88 && Entry.b2C e = 1)
  | none => false

/-- A command that needs the media before I/O ready (R90). -/
def needsMedia (e : Entry) : Bool :=
  let op := Entry.opcode e
  match cmdInfo op with
  | none => false
  | some i => i.lock ≠ 0 || i.state ≠ 0 || op = 0xA8 || op = 0x99 || op = 0x9A
      || (op = 0x88 && (Entry.b2C e = 1 || Entry.b2C e = 2))
      || (op = 0x89 && (Entry.b2C e = 2 || Entry.b2C e = 6 || Entry.b2C e = 8))

/-- The layout unit in blocks (R213). -/
def layoutUnit (layout width planes : Nat) : Nat :=
  if layout = 1 then width * planes else if layout = 2 then width else 1

/-- An offending field: its offset, and whether it is at fault. -/
abbrev Check := Nat × Bool

/-- The fields that every command of a kind shares (Table 07-1, R202, R203). -/
def sharedChecks (narrow : Bool) (e : Entry) (i : CmdInfo) : List Check :=
  let op := Entry.opcode e
  let data := i.data ≠ 0
  let n := Entry.length e
  [ (0x04, needsPartition op e && (Entry.part e = 0 || Entry.part e > 64)),
    (0x04, i.lock = 3 && Entry.part e > 64),
    (0x04, op = 0x98 && Entry.part e ≠ 0),
    (0x10, data && n > 0x1000000),
    (0x10, data && narrow && n % 64 ≠ 0),
    (0x08, data && !narrow && Entry.segmented e && Entry.pointer e % 16 ≠ 0),
    (0x14, data && !narrow && Entry.segmented e && (Entry.segments e = 0 || Entry.segments e > 4096)),
    (0x08, data && !narrow && !Entry.segmented e && (Entry.pointer e % 4 ≠ 0 || (n = 0 && Entry.pointer e ≠ 0))),
    (0x14, data && !narrow && !Entry.segmented e && Entry.segments e ≠ 0),
    (0x28, i.lock = 1 && (Entry.count e = 0 || Entry.count e > 32768)) ]

/-- Create Partition's fields (Table 08-2, R212). -/
def createPartitionChecks (kq1 : Bool) (e : Entry) : List Check :=
  let size := Entry.d2C e
  let lay := Entry.b35 e
  let w := Entry.b36 e
  let p := Entry.b37 e
  let unit := max 1 (layoutUnit lay w p)
  [ (0x2C, size < unit || size % 32 ≠ 0 || size % unit ≠ 0),
    (0x34, Entry.b34 e > 1),
    (0x35, lay > 2 || (kq1 && lay ≠ 0) || (Entry.b34 e = 1 && lay ≠ 0)),
    (0x36, (lay = 1 && (w = 0 || w > 8)) || (lay = 2 && (w = 0 || w > 4)) || (lay ≠ 1 && lay ≠ 2 && w ≠ 0)),
    (0x37, (lay = 1 && (p < 2 || p > 64)) || (lay ≠ 1 && p ≠ 0)),
    (0x38, if kq1 then Entry.b38 e ≠ 0 else Entry.b38 e > 63) ]

/-- Create Queue Pair's fields (Table 07-4, R171). -/
def createPairChecks (kq1 : Bool) (e : Entry) : List Check :=
  let top := if kq1 then 255 else 2047
  [ (0x08, Entry.pointer e % 4096 ≠ 0),
    (0x18, Entry.aux e % 4096 ≠ 0),
    (0x2C, Entry.h2C e = 0 || Entry.h2C e > top),
    (0x2E, Entry.h2E e < 2 || Entry.h2E e > 4096),
    (0x30, Entry.h30 e < 2 || Entry.h30 e > 4096),
    (0x32, Entry.h32 e > top),
    (0x34, !kq1 && Entry.b34 e > 63),
    (0x35, Entry.b35 e % 8 > 5) ]

/-- A ruled Create or Delete Queue Pair of a pair that waits for an earlier one of the same pair (R181, R196). -/
def Item.pairCmd (q : Nat) (i : Item) : Bool :=
  !i.narrow && (Entry.opcode i.entry = 0x80 || Entry.opcode i.entry = 0x81) && Entry.h2C i.entry = q

/-- The pair exists as the items ruled so far leave it: the latest ruled Create or Delete of it that has not completed decides (R181). -/
def State.pairRuled (s : State) (q : Nat) : Bool :=
  match (s.nib.items.filter (Item.pairCmd q)).getLast? with
  | some i => Entry.opcode i.entry = 0x80
  | none => (s.pair? q).isSome

/-- The command-specific fields (Table 08-2, R221, R226, R231, R234); `reportLen`: the length of an Attest report. -/
def commandChecks (s : State) (narrow : Bool) (reportLen : Nat) (e : Entry) : List Check :=
  let kq1 := s.kq1 narrow
  match Entry.opcode e with
  | 0x01 => [ (0x2C, Entry.b2C e > 63),
              (0x30, Entry.w30 e ≠ 0 && (kq1 || s.ligAddress.isNone || Entry.w30 e ≥ 2 ^ 24)) ]
  | 0x07 => [ (0x2D, Entry.b2D e > 1) ]
  | 0x80 => createPairChecks kq1 e
  | 0x81 => [ (0x2C, Entry.h2C e = 0 || Entry.h2C e > 2047 || !s.pairRuled (Entry.h2C e)) ]
  | 0x82 => [ (0x2C, Entry.h2C e = 0 || Entry.h2C e > 2047), (0x2E, Entry.b2E e > 1) ]
  | 0x83 => [ (0x2C, Entry.h2C e = 0 || Entry.h2C e > 2047) ]
  | 0x88 => [ (0x2C, Entry.b2C e > 2) ]
  | 0x89 =>
    let log := Entry.b2C e
    [ (0x2C, log = 0 || log > 8),
      (0x2D, (bit (Entry.b2D e) 0 && log ≠ 4 && log ≠ 5) || (bit (Entry.b2D e) 1 && log ≠ 3)),
      (0x30, Entry.w30 e % 4 ≠ 0) ]
  | 0x8A => [ (0x2C, Entry.d2C e = 0) ]
  | 0x8B => [ (0x2C, Entry.b2C e > 3),
              (0x30, if Entry.b2C e = 0 then Entry.w30 e ≠ 0 else (Entry.w30 e = 0 || Entry.w30 e > 600000)) ]
  | 0x90 => createPartitionChecks kq1 e
  | 0x94 => [ (0x2C, Entry.h2C e ≠ 0xA55A) ]
  | 0x98 => [ (0x2C, Entry.h2C e ≠ 0x5AA5) ]
  | 0x99 => [ (0x2C, Entry.b2C e = 0 || Entry.b2C e > 2) ]
  | 0x9A => [ (0x2C, Entry.b2C e > 1), (0x2D, Entry.b2C e = 1 && Entry.b2D e ≥ s.dieCount) ]
  | 0x9B => [ (0x2C, Entry.h2C e = 0), (0x2E, Entry.b2E e = 0 || Entry.b2E e > 3) ]
  | 0xA0 => [ (0x10, Entry.length e < 4096 || Entry.length e > 1048576 || Entry.length e % 4096 ≠ 0),
              (0x2C, Entry.w2C e % 4096 ≠ 0 || Entry.w2C e + Entry.length e > 4194304) ]
  | 0xA1 => [ (0x2C, Entry.b2C e > 2) ]
  | 0xA2 => [ (0x10, Entry.length e < reportLen) ]
  | 0xA8 => [ (0x2C, Entry.w2C e = 0 || Entry.w2C e ≥ 2 ^ 24),
              (0x30, match s.ligAddress with | some a => !bit (Entry.w30 e) a | none => false) ]
  | 0xA9 => [ (0x2C, Entry.w2C e = 0 || Entry.w2C e ≥ 2 ^ 24), (0x30, Entry.b30 e = 0 || Entry.b30 e > 2) ]
  | _ => []

/-- What the row of a command brings from host memory: the bytes of a Firmware Download and the lengths of a segment list (R166, R231); and the reads
of them that have failed (R164). -/
structure Given where
  data : Mem
  segs : List Nat
  retries : Nat
deriving DecidableEq, Repr

def Given.nothing : Given := ⟨[], [], 0⟩

/-- The lengths of a segment list sum to the transfer (R166). -/
def segmentsFit (e : Entry) (segs : List Nat) : Bool := !Entry.segmented e || segs.sum = Entry.length e

/-- The failure of a segment list whose lengths do not sum to the transfer (R166). -/
def Fail.segments : Fail := { Fail.of 0x02 with detail := 0x10 }

/-- The segment list of a ruled command fits its transfer; the narrow bus uses none (R122, R166). -/
def Item.listFits (i : Item) : Bool := i.narrow || segmentsFit i.entry i.segs

/-- The lowest offset among the offending fields (R222). -/
def lowest (cs : List Check) : Option Nat :=
  cs.foldl (fun acc c => if c.2 then (match acc with | some o => some (min o c.1) | none => some c.1) else acc) none

/-! ## Layouts (R213, R256) -/

/-- Blocks of a group (Table 09-8). -/
def Part.group (p : Part) : Nat :=
  match p.layout with
  | 1 => p.width * p.planes
  | 2 => 8 * p.width
  | _ => 1

def Part.unit (p : Part) : Nat := layoutUnit p.layout p.width p.planes

/-- Bytes of a presented block. -/
def Part.blockBytes (p : Part) : Nat := if p.sector then 512 else 4096

/-- Presented blocks of the partition. -/
def Part.presented (p : Part) : Nat := if p.sector then 8 * p.size else p.size

/-- The quantum to which ranges are widened: whole groups, and in a stroke-only profile whole strokes with them (R182, R257). -/
def Part.quantum (p : Part) (strokeOnly : Bool) : Nat := if strokeOnly then Nat.lcm p.group 32 else p.group

/-- A range of presented blocks as 4 KiB blocks of the partition, widened outward to whole quanta (R182, R257). -/
def Part.extent (p : Part) (strokeOnly : Bool) (start count : Nat) : Nat × Nat :=
  let lo := if p.sector then start / 8 else start
  let hi := if p.sector then (start + count + 7) / 8 else start + count
  let q := max 1 (p.quantum strokeOnly)
  (lo / q * q, (hi + q - 1) / q * q)

/-- The host byte that storage byte `k` of an interleave partition holds (Table 09-8). -/
def interleaveHost (E P k : Nat) : Nat :=
  let g := E * P * 4096
  let r := k % g
  let plane := r / (E * 4096)
  let frame := r % (E * 4096) / E
  k / g * g + frame * (E * P) + plane * E + r % (E * 4096) % E

/-- The storage byte that holds host byte `k` of an interleave partition. -/
def interleaveStore (E P k : Nat) : Nat :=
  let g := E * P * 4096
  let r := k % g
  let frame := r / (E * P)
  let plane := r % (E * P) / E
  k / g * g + plane * (E * 4096) + frame * E + r % E

/-- The storage bit that holds host bit `k` of a bit-plane partition of sample width S (Table 09-8). -/
def planeStore (S k : Nat) : Nat :=
  let g := 8 * S * 32768
  let r := k % g
  k / g * g + (8 * S - 1 - r % (8 * S)) * 32768 + r / (8 * S)

/-- The host bit that storage bit `k` holds. -/
def planeHost (S k : Nat) : Nat :=
  let g := 8 * S * 32768
  let r := k % g
  k / g * g + r % 32768 * (8 * S) + (8 * S - 1 - r / 32768)

/-- Bytes moved by a permutation of byte addresses. -/
def permuteBytes (f : Nat → Nat) (m : Mem) : Mem := m.foldl (fun acc c => Mem.set 0 acc (f c.1) c.2) []

/-- Bits moved by a permutation of bit addresses. -/
def permuteBits (f : Nat → Nat) (m : Mem) : Mem :=
  m.foldl (fun acc c => (List.range 8).foldl (fun acc i =>
    if c.2.getLsbD i then
      let t := f (8 * c.1 + i)
      Mem.set 0 acc (t / 8) (Mem.get 0 acc (t / 8) ||| BitVec.ofNat 8 (2 ^ (t % 8)))
    else acc) acc) []

/-- Host order to storage order, over bytes that begin at a group (R256). -/
def Part.toStore (p : Part) (m : Mem) : Mem :=
  match p.layout with
  | 1 => permuteBytes (interleaveStore p.width p.planes) m
  | 2 => permuteBits (planeStore p.width) m
  | _ => m

/-- Storage order to host order. -/
def Part.toHost (p : Part) (m : Mem) : Mem :=
  match p.layout with
  | 1 => permuteBytes (interleaveHost p.width p.planes) m
  | 2 => permuteBits (planeHost p.width) m
  | _ => m

/-- The storage blocks (relative to the first block of the widened range `lo`) that a command reads (R259). -/
def readBlocks (p : Part) (e : Entry) (lo hi : Nat) : List Nat :=
  let all := (List.range (hi - lo)).map (lo + ·)
  match Entry.opcode e, p.layout with
  | 0x06, 1 => all.filter (fun b => b % p.group / p.width = Entry.b2C e)
  | 0x07, 2 => all.filter (fun b => b % p.group < Entry.b2C e)
  | _, _ => all

/-- One plane's elements, in frame order: `m` holds the storage bytes from unit `u0` on (R214). -/
def planeData (p : Part) (plane units : Nat) (m : Mem) : Mem :=
  let e := p.width * 4096
  (List.range units).foldl (fun acc i =>
    acc ++ Mem.raise (i * e) (Mem.slice ((i * p.planes + plane) * e) e m)) []

/-- The top planes of each unit, packed: `m` holds the storage bytes from the group of unit `u0` on (R215). -/
def packedPlanes (p : Part) (nbits u0 units : Nat) (m : Mem) : Mem :=
  let g0 := u0 / 8
  (List.range (units * nbits)).foldl (fun acc i =>
    let u := u0 + i / nbits
    let blk := (u / 8 - g0) * p.group + i % nbits
    acc ++ Mem.raise (i * 512) (Mem.slice (blk * 4096 + u % 8 * 512) 512 m)) []

/-- Samples at full width with the bits below the planes asked for set to 0 (R215). -/
def expandedSamples (p : Part) (nbits : Nat) (m : Mem) : Mem :=
  let low := 8 * p.width - nbits
  (m.map (fun c =>
    let b := 8 * (c.1 % p.width)
    let drop := min 8 (low - b)
    (c.1, BitVec.ofNat 8 (c.2.toNat / 2 ^ drop * 2 ^ drop)))).filter (fun c => c.2 ≠ 0)

/-! ## Locks (R183) -/

/-- Two locks overlap (R183); partition 0 stands for the device. -/
def Lock.overlaps (a b : Lock) : Bool :=
  a.part = 0 || b.part = 0 || (a.part = b.part && (a.wide || b.wide || (a.lo < b.hi && b.lo < a.hi)))

/-- The lock of a command; its range is widened by the partition as the items ruled before leave it. -/
def lockOf (p : Option Part) (strokeOnly : Bool) (e : Entry) (i : CmdInfo) : Option Lock :=
  match i.lock with
  | 1 =>
    match p with
    | some p =>
      let x := p.extent strokeOnly (Entry.start e) (Entry.count e)
      some { part := p.id, wide := false, lo := x.1, hi := x.2 }
    | none => none
  | 2 => some { part := Entry.part e, wide := true, lo := 0, hi := 0 }
  | 3 => some { part := Entry.part e, wide := true, lo := 0, hi := 0 }
  | 4 => some { part := 0, wide := true, lo := 0, hi := 0 }
  | _ => none

/-- Hairline entries that a write of the blocks lo to hi can need (R242). -/
def hairNeed (lo hi : Nat) : Nat :=
  if hi ≤ lo then 0
  else
    let first := if lo % 32 = 0 && (lo + 32 ≤ hi) then 0 else min (hi - lo) (32 - lo % 32)
    let last := if hi % 32 = 0 || hi / 32 = lo / 32 then 0 else hi % 32
    first + last

end Sys2Proof.Machine
end

