-- ==== Sys2Proof/Machine/MapOps.lean ====
section
/-! DEFINITION. The stored state (chapters 09, 12, 14): map lookups, the change that each map log record describes (R241, R337),
regions, protection, and the view that admission has of the items ruled before (R181). -/

namespace Sys2Proof.Machine

open Sys2Proof

/-! ## Locations and lookups (R239, R240) -/

/-- Slots of one band. -/
def bandSlots : Nat := 552960

/-- The first slot of a stroke location. -/
def slotOfLocation (l : Nat) : Nat := l / 17280 * bandSlots + l % 17280 * 32

/-- The stroke location of a slot that begins one. -/
def locationOfSlot (s : Nat) : Nat := s / bandSlots * 17280 + s % bandSlots / 32

def bandOfSlot (s : Nat) : Nat := s / bandSlots

def MapState.stroke? (m : MapState) (n : Nat) : Option Stroke := m.strokes.find? (fun x => x.n = n)

def MapState.hair? (m : MapState) (b : Nat) : Option Hair := m.hair.find? (fun x => x.block = b)

/-- The slot that holds a device block; none: it reads as zeros (R240). -/
def MapState.lookup (m : MapState) (b : Nat) : Option Nat :=
  match m.stroke? (b / 32) with
  | none => none
  | some x =>
    match x.kind with
    | 1 => some (slotOfLocation x.loc + b % 32)
    | 2 => match m.hair? b with
      | some h => h.slot
      | none => some (slotOfLocation x.loc + b % 32)
    | 3 => match m.hair? b with
      | some h => h.slot
      | none => none
    | _ => none

/-- The device block whose map entry names a slot. -/
def MapState.blockOfSlot (m : MapState) (sl : Nat) : Option Nat :=
  match m.hair.find? (fun h => h.slot = some sl) with
  | some h => some h.block
  | none =>
    match m.strokes.find? (fun x => (x.kind = 1 || x.kind = 2) && slotOfLocation x.loc ≤ sl && sl < slotOfLocation x.loc + 32) with
    | some x =>
      let b := 32 * x.n + (sl - slotOfLocation x.loc)
      if m.lookup b = some sl then some b else none
    | none => none

def MapState.setStroke (m : MapState) (x : Stroke) : MapState :=
  let rest := m.strokes.filter (fun y => y.n ≠ x.n)
  { m with strokes := if x.kind = 0 then rest else rest.filter (fun y => y.n < x.n) ++ x :: rest.filter (fun y => x.n < y.n) }

def MapState.setHair (m : MapState) (h : Hair) : MapState :=
  let rest := m.hair.filter (fun y => y.block ≠ h.block)
  { m with hair := rest.filter (fun y => y.block < h.block) ++ h :: rest.filter (fun y => h.block < y.block) }

def MapState.freeHair (m : MapState) (lo n : Nat) : MapState :=
  { m with hair := m.hair.filter (fun h => h.block < lo || lo + n ≤ h.block) }

def MapState.hairCount (m : MapState) (stroke : Nat) : Nat := (m.hair.filter (fun h => h.block / 32 = stroke)).length

def setHairs (lo n : Nat) (slot : Nat → Option Nat) (m : MapState) : MapState :=
  (List.range n).foldl (fun m i => m.setHair { block := lo + i, slot := slot i }) m

/-- A write of blocks lo to lo+n of one stroke at consecutive slots (Table 09-3). -/
def MapState.writeStroke (m : MapState) (k lo n slot : Nat) : MapState :=
  if n = 32 && slot % bandSlots % 32 = 0 then
    (m.freeHair (32 * k) 32).setStroke { n := k, kind := 1, loc := locationOfSlot slot }
  else
    let m := match m.stroke? k with
      | none => m.setStroke { n := k, kind := 3, loc := 0 }
      | some x => if x.kind = 1 then m.setStroke { x with kind := 2 } else if x.kind = 0 then m.setStroke { x with kind := 3 } else m
    setHairs lo n (fun i => some (slot + i)) m

/-- A release of blocks lo to lo+n of one stroke (Table 09-3). -/
def MapState.releaseStroke (m : MapState) (k lo n : Nat) : MapState :=
  match m.stroke? k with
  | none => m
  | some x =>
    if n = 32 then (m.freeHair (32 * k) 32).setStroke { x with kind := 0 }
    else if x.kind = 1 || x.kind = 2 then setHairs lo n (fun _ => none) (m.setStroke { x with kind := 2 })
    else
      let m := m.freeHair lo n
      if m.hairCount k = 0 then m.setStroke { x with kind := 0 } else m

/-- The strokes that a run of blocks touches, with the part of the run in each: stroke, first block, blocks. -/
def strokeParts (b n : Nat) : List (Nat × Nat × Nat) :=
  if n = 0 then []
  else (List.range ((b + n - 1) / 32 + 1 - b / 32)).map (fun i =>
    let k := b / 32 + i
    let lo := max b (32 * k)
    (k, lo, min (b + n) (32 * k + 32) - lo))

def MapState.writeRun (m : MapState) (b n slot : Nat) : MapState :=
  (strokeParts b n).foldl (fun m x => m.writeStroke x.1 x.2.1 x.2.2 (slot + (x.2.1 - b))) m

def MapState.releaseRun (m : MapState) (b n : Nat) : MapState :=
  (strokeParts b n).foldl (fun m x => m.releaseStroke x.1 x.2.1 x.2.2) m

/-- A relocation changes only the blocks whose entries still name the slots read (R243, R262): old slots by block. -/
def MapState.relocate (m : MapState) (b slot : Nat) (old : List Nat) : MapState :=
  (List.range old.length).foldl (fun m' i =>
    if m.lookup (b + i) = some (old.getD i 0) then m'.writeRun (b + i) 1 (slot + i) else m') m

/-- A whole stroke moved to a new location where every one of its blocks still names the slot read; otherwise Kind 10b with the
new location under the newer entries (R243). Where no block still names its slot, nothing of the copy is left to apply. -/
def MapState.demote (m : MapState) (k slot : Nat) (old : List (Option Nat)) : MapState :=
  let blocks := (List.range 32).map (32 * k + ·)
  let fresh := blocks.filter (fun b => m.lookup b ≠ (old.getD (b % 32) none))
  let now := fresh.map (fun b => (b, m.lookup b))
  if fresh.length = 32 then m else
  let m := (m.freeHair (32 * k) 32).setStroke
    { n := k, kind := if fresh = [] then 1 else 2, loc := locationOfSlot slot }
  now.foldl (fun m x => m.setHair { block := x.1, slot := x.2 }) m

/-! ## Partitions -/

def MapState.part? (m : MapState) (id : Nat) : Option Part := m.parts.find? (fun p => p.id = id)

def MapState.modPart (m : MapState) (id : Nat) (f : Part → Part) : MapState :=
  { m with parts := mapIf (fun p => p.id = id) f m.parts }

def MapState.addPart (m : MapState) (p : Part) : MapState :=
  { m with parts := m.parts.filter (fun x => x.id < p.id) ++ p :: m.parts.filter (fun x => p.id < x.id) }

def MapState.dropPart (m : MapState) (id : Nat) : MapState := { m with parts := m.parts.filter (fun p => p.id ≠ id) }

def MapState.allocated (m : MapState) : Nat := (m.parts.map (·.size)).sum

/-- A region's map entries move `by` blocks down: map entries only, no data (R237). -/
def MapState.moveRegion (m : MapState) (id newBase : Nat) : MapState :=
  match m.part? id with
  | none => m
  | some p =>
    let inside := fun b => p.base ≤ b ∧ b < p.base + p.size
    let at_ := fun b => b - p.base + newBase
    let ss := m.strokes.filter (fun x => inside (32 * x.n))
    let hs := m.hair.filter (fun h => inside h.block)
    let m0 := { m with strokes := m.strokes.filter (fun x => !decide (inside (32 * x.n)))
                       hair := m.hair.filter (fun h => !decide (inside h.block)) }
    let m1 := ss.foldl (fun m x => m.setStroke { x with n := at_ (32 * x.n) / 32 }) m0
    let m2 := hs.foldl (fun m h => m.setHair { h with block := at_ h.block }) m1
    m2.modPart id (fun p => { p with base := newBase })

/-- The regions of one move, in ascending order of address (R237, R238). -/
def MapState.moveRegions (m : MapState) (l : List (Nat × Nat)) : MapState := l.foldl (fun m x => m.moveRegion x.1 x.2) m

/-- Every block of a region reads as zeros (R217). -/
def MapState.clearRegion (m : MapState) (base size : Nat) : MapState :=
  { m with strokes := m.strokes.filter (fun x => 32 * x.n < base || base + size ≤ 32 * x.n)
           hair := m.hair.filter (fun h => h.block < base || base + size ≤ h.block) }

def MapState.deletePart (m : MapState) (id : Nat) : MapState :=
  match m.part? id with
  | none => m
  | some p => (m.clearRegion p.base p.size).dropPart id

/-- The lowest-addressed gap for a region (R237). -/
def findGap (limit size : Nat) : Nat → List Part → Option Nat
  | lo, [] => if lo + size ≤ limit then some lo else none
  | lo, p :: ps => if lo + size ≤ p.base then some lo else findGap limit size (max lo (p.base + p.size)) ps

/-- Regions in ascending order of base. -/
def insertByBase (p : Part) : List Part → List Part
  | [] => [p]
  | x :: xs => if p.base ≤ x.base then p :: x :: xs else x :: insertByBase p xs

def byBase (ps : List Part) : List Part := ps.foldr insertByBase []

/-- The moves that close every gap: identifier and new base (R237). -/
def packing : Nat → List Part → List (Nat × Nat)
  | _, [] => []
  | lo, p :: ps => if p.base = lo then packing (lo + p.size) ps else (p.id, lo) :: packing (lo + p.size) ps

/-- Where a new region goes, and the moves made first (R237): regions start at multiples of 32 blocks. -/
def placeRegion (limit size : Nat) (ps : List Part) : Option (Nat × List (Nat × Nat)) :=
  let sorted := byBase ps
  match findGap limit size 0 sorted with
  | some b => some (b, [])
  | none =>
    let total := (sorted.map (·.size)).sum
    if total + size ≤ limit then some (total, packing 0 sorted) else none

/-! ## Records (R246, R337) -/

def Change.apply (c : Change) (m : MapState) : MapState :=
  match c with
  | .none => m
  | .create p => m.addPart p
  | .delete id => m.deletePart id
  | .move l => m.moveRegions l
  | .capPart id on => m.modPart id (fun p => { p with capped := on })
  | .capCard on => { m with cardCap := on }
  | .fixPart id => m.modPart id (fun p => { p with fixed := true })
  | .fixCard => { m with cardFix := true }
  | .access id rd wr => m.modPart id (fun p => { p with rd := rd, wr := wr })
  | .format _ => { strokes := [], hair := [], parts := [], cardCap := false, cardFix := m.cardFix }
  | .band _ _ _ _ | .die _ => m

/-- The change a record describes, as replay repeats it (R337). -/
def applyRec (m : MapState) (r : MapRec) : MapState :=
  match r.typ with
  | 0x01 | 0x03 =>
    match r.slot with
    | some sl => if r.part = 0 || (m.part? r.part).isSome then m.writeRun r.block r.count sl else m
    | none => m
  | 0x02 => if r.part = 0 || (m.part? r.part).isSome then m.releaseRun r.block r.count else m
  | 0x04 | 0x05 | 0x06 | 0x07 => r.chg.apply m
  | _ => m

/-- The order of replay: by ruling, then by sequence (R336). -/
def MapRec.le (a b : MapRec) : Bool := a.ruling < b.ruling || (a.ruling = b.ruling && a.seq ≤ b.seq)

def insertRec (r : MapRec) : List MapRec → List MapRec
  | [] => [r]
  | x :: xs => if r.le x then r :: x :: xs else x :: insertRec r xs

def sortRecs (l : List MapRec) : List MapRec := l.foldr insertRec []

def replay (m : MapState) (l : List MapRec) : MapState := (sortRecs l).foldl applyRec m

/-! ## Protection and access -/

/-- The protection states that apply to a partition, or to the card (R386). -/
def writeProtected (s : State) (m : MapState) (p : Option Part) : Bool :=
  m.cardCap || m.cardFix || s.sup.wpswLow || (match p with | some p => p.capped || p.fixed | none => false)

/-- Protection byte of the partition identify data (Table 08-5). -/
def protectionByte (s : State) (m : MapState) (p : Part) : Nat :=
  flag p.capped 0 + flag m.cardCap 1 + flag s.sup.wpswLow 2 + flag p.fixed 3 + flag m.cardFix 4

def wellBit (m : BitVec 64) (w : Nat) : Bool := m.getLsbD w

/-! ## Content of blocks -/

/-- The newest staged block of a device block (R24). -/
def State.staged? (s : State) (b : Nat) : Option Staged :=
  s.res.staged.foldl (fun acc x =>
    if x.block = b && x.epoch = 0 then
      (match acc with | some y => if y.ruling ≤ x.ruling then some x else acc | none => some x)
    else acc) none

def State.slot? (s : State) (n : Nat) : Option Slot := s.ftl.slots.find? (fun x => x.n = n)

/-- A block's bytes and its poisoned flag as the latest write left them (R24, R209, R240). -/
def State.content (s : State) (b : Nat) : Mem × Bool :=
  match s.staged? b with
  | some x => (x.data, x.poisoned)
  | none =>
    match s.map.lookup b with
    | none => ([], false)
    | some sl => match s.slot? sl with
      | some x => (x.cw.data, x.cw.poisoned)
      | none => ([], false)

/-- The bytes of consecutive device blocks, from byte 0. -/
def State.region (s : State) (lo n : Nat) : Mem :=
  (List.range n).foldl (fun acc i => acc ++ Mem.raise (4096 * i) (s.content (lo + i)).1) []

/-- Device blocks of a partition that are written and not since released (Table 08-5). -/
def State.mappedIn (s : State) (p : Part) : Nat :=
  let inside := fun b => p.base ≤ b ∧ b < p.base + p.size
  let ss := s.map.strokes.filter (fun x => inside (32 * x.n))
  let whole := (ss.filter (fun x => x.kind = 1 || x.kind = 2)).length * 32
  let hs := s.map.hair.filter (fun h => inside h.block)
  let laid := fun (h : Hair) => match s.map.stroke? (h.block / 32) with | some x => decide (x.kind = 2) | none => false
  let gone := (hs.filter (fun h => laid h && h.slot.isNone)).length
  let more := (hs.filter (fun h => !laid h && h.slot.isSome)).length
  let st := ((s.res.staged.filter (fun x => x.epoch = 0)).map (·.block)).eraseDups.filter (fun b => inside b ∧ (s.map.lookup b).isNone)
  whole - gone + more + st.length

/-- A partition holds poisoned blocks (Condition bit 1). -/
def State.poisonedIn (s : State) (p : Part) : Bool :=
  let inside := fun b => decide (p.base ≤ b) && decide (b < p.base + p.size)
  s.res.staged.any (fun x => inside x.block && x.poisoned && (match s.staged? x.block with | some y => y.ruling = x.ruling | none => false))
  || s.ftl.slots.any (fun x => x.cw.poisoned && (match s.map.blockOfSlot x.n with
      | some b => inside b && (s.staged? b).isNone
      | none => false))

/-- A partition holds in-doubt ranges (Condition bit 2): entries of an epoch in state 04h (R438, R439). -/
def State.doubtIn (s : State) (p : Part) : Bool :=
  s.rec_.epochs.any (fun e => e.state = 4 && e.pend.any (fun x => x.part = p.id))

/-- A block of a partition lies in an in-doubt epoch (R439). -/
def State.blockInDoubt (s : State) (part b : Nat) : Bool :=
  s.rec_.epochs.any (fun e => e.state = 4 && e.pend.any (fun x => x.part = part && x.block = b))

end Sys2Proof.Machine
end

