-- ==== Sys2Proof/Machine/Ftl.lean ====
section
/-! DEFINITION. Placement (chapters 09 to 11): bands, write points, wordline programs, the map log's records, and the entry of a
write's records once its data is verified. -/

namespace Sys2Proof.Machine

open Sys2Proof

/-! ## Bands (R249, R303, R304) -/

/-- Bands of a stripe group by number, and the group of a band. -/
def bandGroup (b : Nat) : Nat := b / 1864

def State.band? (s : State) (n : Nat) : Option Band := s.ftl.bands.find? (fun b => b.n = n)

def setBand (b : Band) (s : State) : State := { s with ftl := { s.ftl with bands := upsert (·.n) b s.ftl.bands } }

def modBand (n : Nat) (f : Band → Band) (s : State) : State :=
  { s with ftl := { s.ftl with bands := mapIf (fun b => b.n = n) f s.ftl.bands } }

/-- A die that has failed or lies on a failed channel (R308). -/
def State.dieDead (s : State) (d : Nat) : Bool :=
  d ∈ s.rec_.failedDies || dieChannel d ∈ s.rec_.failedChannels || dieChannel d ∈ s.dies.chHeld
  || s.dies.dies.any (fun x => x.n = d && x.failed)

/-- A die whose failure is recorded, by its own or by its channel's record (R308). -/
def State.recordedDead (s : State) (d : Nat) : Bool := d ∈ s.rec_.failedDies || dieChannel d ∈ s.rec_.failedChannels

/-- Channels in service in a stripe group. -/
def State.channelsIn (s : State) (g : Nat) : List Nat := (List.range 16).filter (fun c => !s.dieDead (dieOf c g))

/-- Slots of one data wordline, and of one stripe (R304). -/
def wordlineSlots (tlc : Bool) : Nat := if tlc then 720 else 240

def bandEnd (tlc : Bool) : Nat := if tlc then 552960 else 184320

/-- A position that a band of n channels uses (R304). -/
def usable (b : Band) (pos : Nat) : Bool := pos / 4 % 15 + 1 < b.chans.length

/-- The wordline of a position. -/
def wordlineOf (tlc : Bool) (pos : Nat) : Nat := pos / wordlineSlots tlc

/-- The die that holds a slot (R303): its channel by the XOR position of the wordline and the data index. -/
def dieOfSlot (b : Band) (slot : Nat) : Nat :=
  let pos := slot % bandSlots
  let w := wordlineOf b.tlc pos
  let n := max 1 b.chans.length
  let x := (w + b.n) % n
  let d := pos / 4 % 15
  dieOf (b.chans.getD (if d < x then d else d + 1) 0) (bandGroup b.n)

def State.dieOfSlot (s : State) (slot : Nat) : Nat :=
  match s.band? (bandOfSlot slot) with | some b => Sys2Proof.Machine.dieOfSlot b slot | none => 0

/-- Bands of a stripe group: the fewest good blocks of any of its planes (R249). -/
def State.bandsIn (s : State) (g : Nat) : Nat := s.unit.groupBands.getD g 0

/-- Host bands at shipment, and the reserve floor (2%, rounded up). -/
def State.hostBands (s : State) : Nat := ((List.range s.groups).map s.bandsIn).sum - 16

def State.reserveFloor (s : State) : Nat := (2 * s.hostBands + 99) / 100

/-- A band of the system region (R249). -/
def State.isSystem (s : State) (n : Nat) : Bool := s.ftl.system.contains n

def State.isHostBand (s : State) (n : Nat) : Bool := !s.isSystem n && n / 1864 < s.groups && n % 1864 < s.bandsIn (n / 1864)

/-- Bands of the free pool: erased and not open. -/
def State.freeBands (s : State) : Nat :=
  s.hostBands - (s.ftl.bands.filter (fun b => b.st ≠ .free && s.isHostBand b.n)).length

def State.cacheBands (s : State) : Nat := (s.ftl.bands.filter (fun b => b.cache && b.st ≠ .free && b.st ≠ .dissolved)).length

/-- Host data mapped, in bytes. -/
def State.mappedBytes (s : State) : Nat := 4096 * (s.map.parts.map s.mappedIn).sum

/-- The cache size that R253 gives now. -/
def State.cacheNow (s : State) : Nat :=
  let units := (s.mappedBytes + 2264924160 - 1) / 2264924160
  let gone := (s.ftl.bands.filter (fun b => b.st = .dissolved)).length
  max 92 (12 * (s.hostBands - gone - units - s.reserveFloor - s.cacheBands) / 100)

/-- The cache size as last worked out, when a band entered or left the free pool (R253). -/
def State.cacheSize (s : State) : Nat := s.ftl.cacheHeld.getD s.cacheNow

/-- A band has entered or left the free pool: the cache size is worked out again (R253). -/
def resizeCache (s : State) : State := { s with ftl := { s.ftl with cacheHeld := some s.cacheNow } }

/-- Bands that a profile's full capacity needs (Table 09-9): 2,160 MiB each, 720 MiB in the single-level profile. -/
def State.capacityBands (s : State) : Nat :=
  let unit := if s.profile = 5 then 754974720 else 2264924160
  (s.logicalBlocks * 4096 + unit - 1) / unit

/-- Host bands of a group still in being, each counted at (n − 1)/15 by the failures recorded (R315); in fifteenths. -/
def State.groupFifteenths (s : State) (g : Nat) : Nat :=
  let gone := (s.ftl.bands.filter (fun b => b.st = .dissolved && bandGroup b.n = g)).length
  (s.bandsIn g - (if g = 0 then 16 else 0) - gone) * (((List.range 16).filter (fun c => !s.recordedDead (dieOf c g))).length - 1)

/-- The spare count (R265, R315). -/
def State.spareCount (s : State) : Nat :=
  ((List.range s.groups).map s.groupFifteenths).sum / 15
    - (s.capacityBands + s.reserveFloor + (if s.hybrid then 92 else 0))

/-- The spare count of the module as shipped, for its profile. -/
def State.spareAtShipment (s : State) : Nat :=
  s.hostBands - (s.capacityBands + s.reserveFloor + (if s.hybrid then 92 else 0))

/-- SA5 has a hold-up dump or a drain program into a band of the free pool (R470). -/
def State.keepsBand (s : State) : Bool := (s.holdupFitted && s.sup.bank = .ready) || s.ejectUsed

/-- The last band of a group that was never used. -/
def State.lastFresh (s : State) (base : Nat) : Nat → Option Nat
  | 0 => none
  | k + 1 => if s.isHostBand (base + k) && (s.band? (base + k)).isNone then some (base + k) else s.lastFresh base k

/-- The band of the free pool for dumps and drains: one whose blocks are erased in single-level mode, else one that was never used (R470). -/
def State.singleBand (s : State) : Option Nat :=
  match s.ftl.bands.find? (fun b => b.st = .free && s.isHostBand b.n && bandGroup b.n = 0 && b.blks.all (fun x => !x.tlc)) with
  | some b => some b.n
  | none => s.lastFresh 0 (s.bandsIn 0)

/-- The free band of a group with the lowest erase count, the lowest number among equals (R250); the band kept for dumps
and drains stays in the pool (R470). Bands not listed have never been used. -/
def State.freeBandIn (s : State) (g : Nat) : Option Nat :=
  let base := g * 1864
  let kept := if s.keepsBand then s.singleBand else none
  let fresh := ((List.range (s.ftl.bands.length + s.ftl.system.length + 1)).map (base + ·)).find?
    (fun n => s.isHostBand n && (s.band? n).isNone && kept ≠ some n)
  let listed := (s.ftl.bands.filter (fun b => b.st = .free && bandGroup b.n = g && kept ≠ some b.n)).map (fun b => (b.erases, b.n))
  let pool := match fresh with | some n => (s.ftl.freshErases, n) :: listed | none => listed
  (pool.foldl (fun (acc : Option (Nat × Nat)) b => match acc with
    | none => some b
    | some a => if b.1 < a.1 || (b.1 = a.1 && b.2 < a.2) then some b else some a) none).map (·.2)

/-- Aging clock of a die in minutes (R286). -/
def State.agingMin (s : State) (d : Nat) : Nat := s.dies.aging.getD d 0 / 2 ^ 32

/-- Temperature of a die in whole °C: tenths rounded down (R286, R289; DESIGN CHOICE, log entry 123: the spec gives no rounding). -/
def State.dieTemp (s : State) (d : Nat) : Int := s.dies.temps.getD d 250 / 10

/-! ## Blocks (R249, R275) -/

/-- The block of a plane that belongs to the i-th band of a group: the i-th that the factory bad-block table does not name (R249, R280). -/
def State.goodBlock (s : State) (g i : Nat) : Nat :=
  (s.unit.factoryBad.filter (fun x => x.1 = g)).foldl (fun k x => if x.2.1 ≤ k then k + x.2.2 else k) i

/-- The blocks of a band on some channels while the band is not listed; the format of a Sanitize wears them too (R272). -/
def State.freshBlks (s : State) (n : Nat) (chans : List Nat) : List Blk :=
  chans.flatMap (fun c => (List.range 4).map (fun p =>
    { key := 4 * dieOf c (bandGroup n) + p, no := s.goodBlock (bandGroup n) (n % 1864), st := .erased, tlc := true, nextWl := 0, wear := s.ftl.freshWear
      reads := 0, zones := [] }))

def modBlks (n : Nat) (p : Blk → Bool) (f : Blk → Blk) (s : State) : State := modBand n (fun b => { b with blks := mapIf p f b.blks }) s

/-- The blocks of a band on a die. -/
def Band.on (b : Band) (d : Nat) : List Blk := b.blks.filter (fun x => x.key / 4 = d)

/-- Die operations join their channel's queue; class 0 to 2 are host work of their dies (R26, R300, R312). -/
def enqueue (ops : List DieOp) (s : State) : State :=
  let host := (ops.filter (fun o => o.cls < 3)).map (fun o => (o.die, s.rst.timeMs))
  { s with dies := { s.dies with queue := s.dies.queue ++ ops.map (fun o => { o with since := s.rst.timeMs })
                                 hostAt := host.foldl (fun l x => upsert (·.1) x l) s.dies.hostAt } }

/-- The dies of a band. -/
def Band.dies (b : Band) : List Nat := b.chans.map (fun c => dieOf c (bandGroup b.n))

/-- The erase of a band's blocks is queued for some dies. -/
def queueErase (n cls : Nat) (dies : List Nat) (s : State) : State :=
  enqueue (dies.map (fun d => { die := d, cls := cls, kind := .erase n, minRun := false })) (modBand n (fun b => { b with eraseWait := dies }) s)

/-- A program of one wordline of a band is queued for every die of the band (R271). -/
def launch (n wl cls : Nat) (slots : List Slot) (s : State) : State :=
  match s.band? n with
  | none => s
  | some b =>
    let id := s.ftl.nextProg
    let pg : Prog := { id := id, band := n, wl := wl, tlc := b.tlc, cls := cls, wait := b.dies, begun := false, slots := slots }
    enqueue (b.dies.map (fun d => { die := d, cls := cls, kind := .program id, minRun := false }))
      { s with ftl := { s.ftl with progs := s.ftl.progs ++ [pg], nextProg := id + 1 } }

/-- The data wordlines of a block; as the wordline of a program the number stands for swatch A, and the next one for swatch B. -/
def swatchA : Nat := 768

def swatchB : Nat := 769

/-! ## Records of bands (R246, R275) -/

def addRec (r : MapRec) (s : State) : State :=
  { s with log := { s.log with buf := s.log.buf ++ [{ r with seq := s.log.nextSeq }], nextSeq := (s.log.nextSeq + 1) % 2 ^ 32 } }

def mkRec (ruling typ part : Nat) (chg : Change) : MapRec :=
  { ruling := ruling, typ := typ, last := true, poisoned := false, count := 0, part := part, block := 0, slot := none, seq := 0, chg := chg }

/-- What a band state record says of a band: its state, its channels (R303), and its blocks (R275). -/
def Band.change (b : Band) : Change := .band b.n b.st b.chans (b.blks.map (fun x => (x.key, x.st, x.tlc, x.nextWl)))

/-- A band state record is entered (R275). -/
def noteBand (n : Nat) (s : State) : State := match s.band? n with | some b => addRec (mkRec 0 0x0A 0 b.change) s | none => s

/-- A band is opened: its mode and its channel set are fixed (R270, R303), its blocks open; it leaves the free pool. -/
def formBand (n : Nat) (tlc cache : Bool) (s : State) : State :=
  let old := s.band? n
  let chans := s.channelsIn (bandGroup n)
  let blks := match old with | some b => b.blks | none => s.freshBlks n chans
  resizeCache (setBand
    { n := n, tlc := tlc, st := .opened, chans := chans, nextPos := 0, nextWl := 0
      erases := (match old with | some b => b.erases | none => s.ftl.freshErases), cache := cache, closedAt := 0, stamps := []
      blks := (blks.filter (fun x => !s.dieDead (x.key / 4))).map (fun x => { x with st := .opened, tlc := tlc, nextWl := 0, reads := 0, zones := [] })
      refresh := none, soft := [], softBefore := (match old with | some b => b.softBefore | none => []), retireAfter := [], eraseWait := [] } s)

/-- The blocks of a free band were erased for the other mode, so that they must be erased again (R270); a band that was never used runs in the mode
it is first opened in. -/
def State.wrongMode (s : State) (n : Nat) (tlc : Bool) : Bool := match s.band? n with | some b => b.st ≠ .free || b.blks.any (fun x => x.tlc ≠ tlc) | none => false

/-- A band is opened for data: its blocks erased first where their erase was for the other mode, and swatch A programmed before the data (R270,
R275, Tables 10-4, 10-6). -/
def openBand (n : Nat) (tlc cache : Bool) (cls : Nat) (s : State) : State :=
  let again := s.wrongMode n tlc
  let s := noteBand n (formBand n tlc cache s)
  let s := match s.band? n with | some b => if again then queueErase n cls b.dies s else s | none => s
  launch n swatchA cls [] s

/-! ## Write points (R250) -/

def setWp (w : WritePoint) (s : State) : State :=
  { s with ftl := { s.ftl with wps := w :: s.ftl.wps.filter (fun x => x.kind ≠ w.kind || x.stream ≠ w.stream) } }

/-- How many write points of a kind there are with a stream of their own (Table 09-6). -/
def wpLimit (kind : Nat) : Option Nat := if kind = 1 then some 16 else if kind = 3 then some 17 else none

/-- The write point that a new stream of a kind takes over, where every one is bound: the least recently written (R250). -/
def State.wpDisplaced (s : State) (kind stream : Nat) : Option WritePoint :=
  let mine := s.ftl.wps.filter (fun x => x.kind = kind)
  let full := match wpLimit kind with | some n => decide (n ≤ mine.length) | none => false
  if !full || mine.any (fun x => x.stream = stream) then none
  else mine.foldl (fun (acc : Option WritePoint) w => match acc with
    | none => some w
    | some a => if w.lastUse < a.lastUse then some w else some a) none

/-- The write point of a kind and stream. -/
def State.wpFor (s : State) (kind stream : Nat) : WritePoint :=
  match s.ftl.wps.find? (fun x => x.kind = kind && x.stream = stream) with
  | some w => w
  | none => { kind := kind, stream := stream, tlc := false, group := 0, open_ := [], lastUse := 0 }

/-- Incoming writes go through the single-level cache (R253, R254). -/
def State.cached (s : State) (kind : Nat) : Bool := s.hybrid && kind ≤ 1

/-- The mode for which bands are erased: single-level in the single-level profile, and while the cache is below its size (R270; that the module
foresees the next use so is a DESIGN CHOICE, log entry 124). -/
def State.nextMode (s : State) : Bool := !(s.profile = 5 || (s.hybrid && s.cacheBands < s.cacheSize))

/-- The mode for which a band is erased: single-level too where the free pool holds no band for a dump or drain (R470). -/
def State.eraseMode (s : State) : Bool := s.nextMode && !(s.keepsBand && s.singleBand.isNone)

/-- The next position of a band for one block, or for a whole stroke at a stroke position, no earlier than `pos`. -/
def nextFit (b : Band) (whole : Bool) : Nat → Nat → Option Nat
  | 0, _ => none
  | fuel + 1, pos =>
    if whole then
      let p := (pos + 31) / 32 * 32
      if p + 32 > bandEnd b.tlc then none
      else if (List.range 32).all (fun i => usable b (p + i)) then some p else nextFit b whole fuel (p + 1)
    else if pos ≥ bandEnd b.tlc then none
    else if usable b pos then some pos else nextFit b whole fuel (pos + 1)

/-- The stamp of a zone (Table 10-9), taken when its first stripe is programmed: a zone is 96 consecutive data wordlines (R287). -/
def stampZone (n wl : Nat) (s : State) : State :=
  let z := wl / 96
  modBand n (fun b =>
    if b.stamps.any (fun x => x.zone = z) then b
    else
      let ages := b.dies.map s.agingMin
      { b with stamps := b.stamps ++ [{ zone := z, wall := s.wall.getD 0, aging := ages.foldl min (ages.headD 0), power := s.health.powerOnMs / 1000 }] }) s

/-- The temperature of a die at the first program of a zone of its blocks (Table 10-10). -/
def stampTemp (n wl d : Nat) (s : State) : State :=
  let z := wl / 96
  modBlks n (fun x => x.key / 4 = d && !x.zones.any (fun y => y.zone = z))
    (fun x => { x with zones := x.zones ++ [{ zone := z, temp := s.dieTemp d, learned := none }] }) s

/-- The stamps of a codeword (Table 10-3): wall time and aging clock when its stripe's program begins, the temperature when its die's does. -/
def State.stampStripe (s : State) (x : Slot) : Slot :=
  { x with cw := { x.cw with wall := s.wall.getD 0, aging := s.agingMin (s.dieOfSlot x.n) } }

def State.stampDie (s : State) (d : Nat) (x : Slot) : Slot :=
  if s.dieOfSlot x.n = d then { x with cw := { x.cw with temp := s.dieTemp d } } else x

def padCodeword : Codeword :=
  { block := 0xFFFFFFFF, ruling := 0, part := 0, pad := true, poisoned := false, relocated := false, system := false, stream := 0, temp := 0, wall := 0
    aging := 0, data := [] }

def dataCodeword (block ruling part stream : Nat) (poisoned relocated : Bool) (data : Mem) : Codeword :=
  { block := block, ruling := ruling, part := part, pad := false, poisoned := poisoned, relocated := relocated, system := false, stream := stream
    temp := 0, wall := 0, aging := 0, data := if poisoned then [] else data }

def addFill (slot : Nat) (c : Codeword) (s : State) : State :=
  { s with ftl := { s.ftl with fill := s.ftl.fill ++ [{ n := slot, cw := c }] } }

/-- Pad codewords at the usable positions from `lo` to `hi` of a band (R251). -/
def padTo (n lo hi : Nat) (s : State) : State :=
  match s.band? n with
  | none => s
  | some b => (List.range (hi - lo)).foldl (fun s i =>
      if usable b (lo + i) then addFill (n * bandSlots + (lo + i)) padCodeword s else s) s

/-! ## Codewords and the stripe parity (R274, R305) -/

/-- The 4,608 bytes of a codeword as programmed in a slot of a die's block: the data scrambled, the fields, and the LDPC parity (Table 10-3). -/
def Codeword.image (c : Codeword) (die block page k : Nat) : BitVec 36864 :=
  let plain := Mem.bytes 0 c.data 4096
  let fields := Mem.getLE 0 (Mem.ofFields [(0x00, 4, c.block), (0x04, 8, c.ruling), (0x0C, 4, crc32c plain), (0x10, 1, c.part),
    (0x11, 1, flag c.pad 0 + flag c.poisoned 1 + flag c.relocated 2 + flag c.system 3), (0x12, 1, c.stream), (0x13, 1, unsigned 8 c.temp),
    (0x14, 8, c.wall), (0x1C, 4, c.aging)]) 0 32
  let body := BitVec.ofNat 256 fields ++ (BitVec.ofNat 32768 (Mem.getLE 0 c.data 0 4096) ^^^ Config.scramble die block page k)
  Config.ldpcParity body ++ body

/-- A slot's codeword as it is programmed: the block of its plane, its page 3w + t (R270), its place in the page. -/
def State.image (s : State) (x : Slot) : BitVec 36864 :=
  let pos := x.n % bandSlots
  let d := s.dieOfSlot x.n
  let key := 4 * d + pos / 60 % 4
  let no := match (s.band? (bandOfSlot x.n)).bind (fun b => b.blks.find? (fun y => y.key = key)) with | some y => y.no | none => 0
  x.cw.image d no (pos / 240) (pos % 4)

/-- The stripe codeword of a slot within its band: page, plane and place in the page. -/
def stripeOf (slot : Nat) : Nat := slot % bandSlots / 60 * 4 + slot % bandSlots % 4

/-- PAR's accumulators: the XOR of the codewords of each stripe, folded slot by slot (R305). -/
def State.accumulate (s : State) (l : List Slot) : List (Nat × BitVec 36864) :=
  l.foldl (fun acc x =>
    let k := stripeOf x.n
    match acc.find? (fun y => y.1 = k) with
    | some y => upsert (·.1) (k, y.2 ^^^ s.image x) acc
    | none => acc ++ [(k, s.image x)]) []

/-! ## Programs (R271, R277) -/

/-- The program of one data wordline of a band, on every die of the band: data and XOR pages (R251, R303, R305). -/
def programWordline (n wl cls : Nat) (s : State) : State :=
  match s.band? n with
  | none => s
  | some b =>
    let inWl := fun (x : Slot) => bandOfSlot x.n = n && wordlineOf b.tlc (x.n % bandSlots) = wl
    let slots := s.ftl.fill.filter inWl
    let s := { s with ftl := { s.ftl with fill := s.ftl.fill.filter (fun x => !inWl x) } }
    launch n wl cls slots
      (modBand n (fun b => { b with nextWl := max b.nextWl (wl + 1), nextPos := max b.nextPos ((wl + 1) * wordlineSlots b.tlc) }) s)

/-- The wordlines of a band that its fill has completed are programmed. -/
def programComplete (n cls : Nat) : Nat → State → State
  | 0, s => s
  | fuel + 1, s =>
    match s.band? n with
    | none => s
    | some b =>
      if (b.nextWl + 1) * wordlineSlots b.tlc ≤ b.nextPos then programComplete n cls fuel (programWordline n b.nextWl cls s) else s

/-- The open stripes of a band closed with pad pages and programmed (R251). -/
def closeBandStripes (n cls : Nat) (s : State) : State :=
  match s.band? n with
  | none => s
  | some b =>
    let per := wordlineSlots b.tlc
    if b.nextWl * per < b.nextPos then
      programWordline n b.nextWl cls (padTo n b.nextPos ((b.nextWl + 1) * per) s)
    else s

/-- The open stripes with some of the assigned slots are closed (R251). -/
def closeStripesOf (p : Slot → Bool) (s : State) : State :=
  (((s.ftl.fill.filter p).map (fun x => bandOfSlot x.n)).eraseDups).foldl (fun s n => closeBandStripes n 2 s) s

/-- Every open stripe that holds data is closed (R251, R341). -/
def closeStripes (s : State) : State := closeStripesOf (fun _ => true) s

/-- Items that wait on persistence close the stripes that hold data of theirs, or of writes ruled before them (R251, R328). -/
def pushStripes (s : State) : State :=
  let due := ((s.nib.items.filter (fun i => i.wait = .persist)).map (·.ruling)).foldl max 0
  closeStripesOf (fun x => !x.cw.pad && !x.cw.relocated && x.cw.ruling ≤ due) s

/-- The write point is bound for a write or a copy. The stripe of one that it takes over is closed first, so that no stripe mixes data of two streams;
the bands and the rotation pass to the new stream (R250). -/
def bindWp (kind stream : Nat) (s : State) : State :=
  match s.wpDisplaced kind stream with
  | some w =>
    let s := w.open_.foldl (fun s x => closeBandStripes x.2 2 s) s
    let w := s.wpFor w.kind w.stream
    setWp { w with stream := stream, lastUse := s.nib.next }
      { s with ftl := { s.ftl with wps := s.ftl.wps.filter (fun x => x.kind ≠ w.kind || x.stream ≠ w.stream) } }
  | none => setWp { s.wpFor kind stream with lastUse := s.nib.next } s

/-- The position for the next stroke or block in the write point's open band of its present group, of the cache or not. -/
def State.fitIn (s : State) (w : WritePoint) (whole cache : Bool) : Option (Nat × Nat) :=
  w.open_.findSome? (fun x => if x.1 ≠ w.group then none else (s.band? x.2).bind (fun b =>
    if b.st = .opened && b.cache = cache then (nextFit b whole 64 b.nextPos).map (fun p => (x.2, p)) else none))

/-- The band that a dump or a drain programs into, and another write point's next band (R250, R470). -/
def State.bandFor (s : State) (kind group : Nat) : Option Nat :=
  if kind = 4 then (match s.singleBand with | some n => some n | none => s.freeBandIn group) else s.freeBandIn group

/-- A new band of the write point's present group, in place of its open one of the same kind there (R250). -/
def newBand (w : WritePoint) (tlc cache : Bool) (cls : Nat) (whole : Bool) (s : State) : State × Option (Nat × Nat) :=
  match s.bandFor w.kind w.group with
  | none => (s, none)
  | some n =>
    let other := fun (x : Nat × Nat) => x.1 ≠ w.group || (match s.band? x.2 with | some b => b.cache ≠ cache | none => false)
    let s := setWp { w with tlc := tlc, open_ := (w.group, n) :: w.open_.filter other } (openBand n tlc cache cls s)
    (s, ((s.band? n).bind (fun b => nextFit b whole 64 0)).map (fun p => (n, p)))

/-- Where the next stroke or block of a write point goes: for incoming writes of a hybrid profile the open cache band while it has room, then a new
cache band while the cache holds fewer than its size, and TLC otherwise (R254, R268, R269); a drain's data single-level (R345). -/
def withRoom (kind stream cls : Nat) (whole : Bool) (s : State) : State × Option (Nat × Nat) :=
  let w := s.wpFor kind stream
  match (if s.cached kind then s.fitIn w whole true else none) with
  | some x => (s, some x)
  | none =>
    if s.cached kind && s.cacheBands < s.cacheSize then newBand w false true cls whole s
    else match s.fitIn w whole false with
      | some x => (s, some x)
      | none => newBand w (s.profile ≠ 5 && kind ≠ 4) false cls whole s

/-- `cws`, one block or the 32 blocks of a whole stroke, appended at a write point; the first slot taken. -/
def append (kind stream cls : Nat) (cws : List Codeword) (s : State) : State × Option Nat :=
  let r := withRoom kind stream cls (cws.length = 32) s
  match r.2 with
  | none => (r.1, none)
  | some (n, pos) =>
    match r.1.band? n with
    | none => (r.1, none)
    | some b =>
      let s := padTo n b.nextPos pos r.1
      let s := (List.range cws.length).foldl (fun s i => addFill (n * bandSlots + (pos + i)) (cws.getD i padCodeword) s) s
      let fin := pos + cws.length
      let s := modBand n (fun b => { b with nextPos := fin }) s
      let w := s.wpFor kind stream
      let s := if b.nextPos / 60 ≠ fin / 60 && kind ≠ 4 then setWp { w with group := (w.group + 1) % s.groups } s else s
      (programComplete n cls 3 s, some (n * bandSlots + pos))

/-! ## Placement of staged writes -/

/-- The staged blocks of a ruling that have no slot yet, in block order. -/
def insertStaged (x : Staged) : List Staged → List Staged
  | [] => [x]
  | y :: ys => if x.block ≤ y.block then x :: y :: ys else y :: insertStaged x ys

def State.unplaced (s : State) (r : Nat) : List Staged :=
  (s.res.staged.filter (fun x => x.ruling = r && x.placed.isNone)).foldr insertStaged []

def Staged.cw (x : Staged) : Codeword := dataCodeword x.block x.ruling x.part x.stream x.poisoned false x.data

def markPlaced (r b slot : Nat) (s : State) : State :=
  { s with res := { s.res with staged := mapIf (fun x => x.ruling = r && x.block = b) (fun x => { x with placed := some slot }) s.res.staged } }

/-- Whole strokes go to stroke positions, other blocks one by one (R241, R250). -/
def placeBlocks (r kind stream : Nat) : Nat → List Staged → State → State
  | 0, _, s => s
  | _, [], s => s
  | fuel + 1, x :: xs, s =>
    let stroke := (x :: xs).take 32
    if x.block % 32 = 0 && stroke.length = 32 && (stroke.getLast?.map (·.block)) = some (x.block + 31) then
      let t := append kind stream 2 (stroke.map (·.cw)) s
      match t.2 with
      | some sl =>
        let s := (List.range 32).foldl (fun s i => markPlaced r (x.block + i) (sl + i) s) t.1
        placeBlocks r kind stream fuel ((x :: xs).drop 32) s
      | none => t.1
    else
      let t := append kind stream 2 [x.cw] s
      match t.2 with
      | some sl => placeBlocks r kind stream fuel xs (markPlaced r x.block sl t.1)
      | none => t.1

/-- The scribe cores assign a write's data to its stream's write point (Table 01-4 stages 4 to 7). -/
def placeWrite (r : Nat) (s : State) : State :=
  match s.unplaced r with
  | [] => s
  | x :: xs =>
    let kind := if x.stream = 0 then 0 else 1
    placeBlocks r kind x.stream (xs.length + 1) (x :: xs) (bindWp kind x.stream s)

/-- A staged block that waits for its wordline. -/
def State.waitsInFill (s : State) (x : Staged) : Bool := !x.verified && x.placed.any (fun n => s.ftl.fill.any (fun y => y.n = n))

/-- The reservoir's data that waits for its wordline goes to single-level pages, pad codewords taking its slots, and those stripes are closed
(R345 with steps 4 and 5 of R344). -/
def drainFill (s : State) : State :=
  let mine := s.res.staged.filter s.waitsInFill
  let olds := mine.filterMap (·.placed)
  let rs := ((mine.map (·.ruling)).eraseDups)
  let s := { s with
    ftl := { s.ftl with fill := mapIf (fun (y : Slot) => y.n ∈ olds) (fun y => { y with cw := padCodeword }) s.ftl.fill }
    res := { s.res with staged := mapIf s.waitsInFill (fun x => { x with placed := none }) s.res.staged } }
  let s := rs.foldl (fun s r =>
    let l := s.unplaced r
    placeBlocks r 4 0 l.length l (bindWp 4 0 s)) s
  closeStripesOf (fun x => !x.cw.pad && !x.cw.relocated) s

/-! ## The map log (R246) -/

/-- The strokes that a write or release record touches, with the moment (R241). -/
def touchStrokes (r : MapRec) (s : State) : State :=
  if r.typ = 1 || r.typ = 2 then
    { s with ftl := { s.ftl with
        touched := (strokeParts r.block r.count).foldl (fun l x => l.filter (fun y => y.1 ≠ x.1) ++ [(x.1, s.health.powerOnMs)]) s.ftl.touched } }
  else s

/-- Records entered in order, the last with the Last flag, and the change of the live map. -/
def addRecs : List MapRec → State → State
  | [], s => s
  | r :: rs, s =>
    let s := addRec { r with last := rs = [] } s
    addRecs rs (touchStrokes r { s with map := applyRec s.map r })

/-- A record as it stands in a log page (Table 09-5), with the CRC32C of its first 28 bytes as its Check. -/
def MapRec.bytes (r : MapRec) : List Byte :=
  let body := Mem.bytes 0 (Mem.ofFields [(0x00, 8, r.ruling), (0x08, 1, r.typ), (0x09, 1, flag r.last 0 + flag r.poisoned 1), (0x0A, 2, r.count), (0x0C, 1, r.part), (0x10, 4, r.block),
    (0x14, 4, r.slot.getD 0xFFFFFFFF), (0x18, 4, r.seq)]) 28
  body ++ (List.range 4).map (fun k => BitVec.ofNat 8 (crc32c body / 256 ^ k))

/-- Runs contiguous both logically and on the flash, of one poisoned flag, at most 4,096 blocks (R246):
block, slot, poisoned. -/
def runsOf : List (Nat × Nat × Bool) → List (Nat × Nat × Nat × Bool)
  | [] => []
  | (b, sl, p) :: rest =>
    match runsOf rest with
    | (b', n, sl', p') :: more =>
      if b' = b + 1 && sl' = sl + 1 && p' = p && n < 4096 then (b, n + 1, sl, p) :: more else (b, 1, sl, p) :: (b', n, sl', p') :: more
    | [] => [(b, 1, sl, p)]

def writeRecs (ruling part : Nat) (l : List (Nat × Nat × Bool)) : List MapRec :=
  (runsOf l).map (fun x =>
    { ruling := ruling, typ := 1, last := false, poisoned := x.2.2.2, count := x.2.1, part := part, block := x.1, slot := some x.2.2.1, seq := 0
      chg := .none })

/-- A write's records may be entered: every block verified, and no block still staged under an earlier ruling. -/
def State.enterable (s : State) (r : Nat) : Bool :=
  let mine := s.res.staged.filter (fun x => x.ruling = r)
  mine ≠ [] && mine.all (fun x => x.epoch = 0 && x.verified
    && !s.res.staged.any (fun y => y.ruling < r && y.block = x.block && y.epoch = 0))

/-- The write's records are entered under its ruling and its reservoir space is released (Table 01-4 stage 8). -/
def enterWrite (r : Nat) (s : State) : State :=
  let mine := (s.res.staged.filter (fun x => x.ruling = r)).foldr insertStaged []
  let part := match mine with | x :: _ => x.part | [] => 0
  let l := mine.filterMap (fun x => x.placed.map (fun sl => (x.block, sl, x.poisoned)))
  dropStaged r (addRecs (writeRecs r part l) s)

def insertNat (n : Nat) : List Nat → List Nat
  | [] => [n]
  | x :: xs => if n ≤ x then n :: x :: xs else x :: insertNat n xs

/-- Every write that can enter its records does, in ruling order. -/
def enterReady (s : State) : State :=
  (((s.res.staged.map (·.ruling)).eraseDups).foldr insertNat []).foldl (fun s r => if s.enterable r then enterWrite r s else s) s

/-- No staged block of an earlier ruling stands in the way of a change to blocks lo to lo+n (its record follows theirs). -/
def State.clearOf (s : State) (r lo n : Nat) : Bool :=
  !s.res.staged.any (fun x => x.ruling < r && lo ≤ x.block && x.block < lo + n && x.epoch = 0)

/-! ## Persistence (R325 to R327) -/

/-- The newest verified Settled ruling. -/
def State.settled (s : State) : Nat := (s.log.pages.map (·.settled)).foldl max 0

/-- A ruling is persistent: covered by a verified page (R327). -/
def State.persistent (s : State) (r : Nat) : Bool := r ≤ s.settled

/-- Records of a ruling are all in verified pages or in the page at hand, the one with the Last flag among them. -/
def recordsIn (r : Nat) (inPage waiting : List MapRec) : Bool :=
  inPage.any (fun x => x.ruling = r && x.last && x.typ ≠ 3) && !waiting.any (fun x => x.ruling = r && x.typ ≠ 3)

/-- The settled ruling that a page assembled from these records carries (R326). -/
def State.settledFor (s : State) (page : List MapRec) (rest : List MapRec) : Nat :=
  let verified := s.log.pages.flatMap (·.recs)
  let flying := s.log.inflight.flatMap (·.recs)
  let open_ := s.nib.unsettled.filter (fun r => !recordsIn r (verified ++ page) (flying ++ rest))
  let top := s.nib.next - 1
  max s.settled (match open_ with
    | [] => top
    | r :: rs => (rs.foldl min r) - 1)

/-- A slot that a pending entry of an epoch names (R430). -/
def State.pendingSlot (s : State) (n : Nat) : Bool := s.rec_.epochs.any (fun e => e.state < 5 && e.pend.any (fun d => d.slot = n))

/-- Slots of a band that hold valid data: those that the live map names, and those of pending entries. -/
def State.liveSlots (s : State) (n : Nat) : List Nat :=
  (s.ftl.slots.filter (fun x => bandOfSlot x.n = n && !x.cw.pad && ((s.map.blockOfSlot x.n).isSome || s.pendingSlot x.n))).map (·.n)

end Sys2Proof.Machine
end

