-- ==== Sys2Proof/Machine/FaultOps.lean ====
section
/-! DEFINITION. Recording a fault (chapter 15): level and escalation, blotter and its copy in AON, events, the safe level, the stop
sequence; and the entry into reset (chapter 04), which the stop sequence, the lands and the supplies share. -/

namespace Sys2Proof.Machine

open Sys2Proof

/-! ## ALIVE (R418) -/

def State.safe (s : State) : Bool := s.flt.safe ≠ [] || (!s.recovery && (s.rec_.worn || s.rec_.lowChannels))

def aliveUpdate (s : State) : State :=
  let m : Alive := if !s.running || s.flt.stopping then .low else if s.recovery || s.safe then .hz8 else .khz1
  { s with lands := { s.lands with alive := m, aliveHigh := s.lands.aliveHigh && m ≠ .low } }

/-! ## Entry into reset (R76 to R84, R92) -/

/-- A start has reached ready: at I/O ready, or at admin ready in strap mismatch (R93). -/
def State.reachedReady (s : State) : Bool := s.rst.io || (s.rst.admin && s.mismatch)

/-- A reset other than power-on ends a start that has not reached ready: the start fails (R93, R94). -/
def State.startFails (s : State) : Bool := s.running && !s.recovery && !s.reachedReady

/-- Which reset is taken: a pin reset, or a power-on reset with AON found valid or lost (R98). -/
inductive ResetKind where
  | pin | powerValid | powerLost
deriving DecidableEq, Repr

/-- What the always-on domain holds after a reset is taken (Table 04-4). -/
def aonAfter (k : ResetKind) (fails : Bool) (a : Aon) : Aon :=
  match k with
  | .pin => { a with failed := if fails then min 15 (a.failed + 1) else a.failed, pin := BitVec.allOnes 64, queue := []
                     resetNo := (a.resetNo + 1) % 65536 }
  | .powerValid => { a with por := BitVec.allOnes 64, queue := [], resetNo := (a.resetNo + 1) % 65536 }
  | .powerLost => Aon.lost

/-- Long operations at a reset: those not in a final state are ended by restart (Table 08-10). -/
def endByRestart (now : Nat) (l : List LongOp) : List LongOp :=
  l.map (fun o => if o.state < 3 then { o with state := 6, outcome := 7, wants := [] } else o)

/-- No class of a band counts as measured: after a reset, or where the tables have been rebuilt (Tables 10-10, 15-3). -/
def forgetClasses (b : Band) : Band :=
  { b with blks := b.blks.map (fun x => { x with zones := x.zones.map (fun z => { z with learned := none }) }) }

/-- What becomes of a band at a reset (Tables 10-6, 10-10): one that was open is closed early, or erased again where its swatches A were being
programmed or its blocks erased, and no data wordline had been issued; no class counts as measured. -/
def interrupt (progs : List Prog) (old : Band) : Band :=
  let b := forgetClasses old
  let mine := progs.filter (fun p => p.band = b.n)
  if b.st = .opened && b.blks.all (fun x => x.nextWl = 0) && (mine.any (fun p => p.wl = swatchA) || b.eraseWait ≠ []) then
    { b with st := .erasing, blks := mapIf (fun x => x.st = .opened) (fun x => { x with st := .erasing }) b.blks }
  else if b.st = .opened || mine ≠ [] then
    { b with st := .closedEarly, blks := mapIf (fun x => x.st = .opened) (fun x => { x with st := .closedEarly }) b.blks }
  else b

/-- A reset is taken: RESETn driven low, every island but AON in local reset, every item of Table 04-4 (R81, R84, R92). -/
def enterReset (k : ResetKind) (s : State) : State :=
  { s with
    rst := { Rst.init with power := k ≠ .pin, aonValid := k ≠ .powerLost }
    strap := Strap.init
    aon := aonAfter k s.startFails s.aon
    sup := { Supply.init with
      bank := if k = .pin then (if s.sup.bank = .ready then .ready else .notFitted) else .notFitted
      vhuMv := if k = .pin then s.sup.vhuMv else 0 }
    lands := { Lands.init with extest := none }
    boot := { s.boot with dl := none, busy := none, swapWork := none, held := [], rebuild := false, runSecurity := 0, runRevoke := 0, runVersion := 0, runMeasure := 0
                          owed := false, activating := false }
    pcie := Pcie.init, nb := Narrow.init, nib := Nib.init, res := Res.init, map := MapState.empty
    log := { s.log with buf := [], inflight := [], progs := [], cpWriting := none, needOpened := true, closing := false }
    ftl := { s.ftl with bands := s.ftl.bands.map (interrupt s.ftl.progs), fill := [], progs := [], wps := [], emptying := [], moves := []
                        cache := [], pacing := none, collecting := false, cacheHeld := none, demoting := false, testBand := none }
    dies := { Dies.init with nextRd := s.dies.nextRd, grown := s.dies.grown, temps := s.dies.temps }
    flt := { Flt.init with blotter := [] }
    lops := { list := endByRestart s.rst.timeMs s.lops.list, next := 1, queued := [] }
    lig := Lig.init
    pwr := { Pwr.init with junction := s.pwr.junction, nand := s.pwr.nand }
    dbg := Dbg.init
    elog := ErrLog.init
    wall := none }

/-! ## The blotter (R415, R417) -/

/-- A copy joins the queue of 8; from a full queue the oldest notice-level copy, else the oldest, is dropped (R417). -/
def aonEnqueue (b : Blot) (q : List Blot) : List Blot :=
  if q.length < 8 then q ++ [b]
  else
    match q.find? (fun x => x.level = 1) with
    | some x => q.filter (fun y => y.seq ≠ x.seq) ++ [b]
    | none => q.drop 1 ++ [b]

/-- The tail keeps the 8 most recent entries. -/
def aonTailAdd (bs tail : List Blot) : List Blot := ((tail ++ bs).drop ((tail ++ bs).length - 8))

/-- A crossing into AON that has stalled keeps the copies waiting (R19). -/
def State.aonReachable (s : State) : Bool := 0x01 ∉ s.flt.out

def aonDrain (s : State) : State :=
  if s.aonReachable then { s with aon := { s.aon with tail := aonTailAdd s.aon.queue s.aon.tail, queue := [] } } else s

/-- A blotter entry of any kind is made and copied towards the AON tail; `first`: before every waiting copy (Table 15-5). -/
def addBlot (kind cls level : Nat) (escalated : Bool) (source : Nat) (detail : BitVec 64) (first : Bool) (s : State) : State :=
  let b : Blot :=
    { slot := s.flt.nextSlot, seq := s.aon.nextSeq, resetNo := s.aon.resetNo, kind := kind, cls := cls, level := level
      escalated := escalated, acked := false, hostAcked := false, earlier := false, source := source
      count := sat 16 (s.flt.counts.getD cls 0), time := s.rst.timeMs, detail := detail }
  let s := { s with flt := { s.flt with blotter := (b :: s.flt.blotter).take 32, nextSlot := (s.flt.nextSlot + 1) % 32 }
                    aon := { s.aon with nextSeq := (s.aon.nextSeq + 1) % 2 ^ 32 } }
  if first then (if s.aonReachable then { s with aon := { s.aon with tail := aonTailAdd [b] s.aon.tail } } else s)
  else aonDrain { s with aon := { s.aon with queue := aonEnqueue b s.aon.queue } }

/-- An entry that records no fault: kinds 03h to 07h (Table 15-6). -/
def addNote (kind : Nat) (detail : BitVec 64) (s : State) : State := addBlot kind 0xFF 0 false 0xFF detail false s

/-! ## Levels (R399 to R401) -/

/-- FC5 and FC6 count as one class for escalation (R401). -/
def sameClass (a b : Nat) : Bool := a = b || ((a = 5 || a = 6) && (b = 5 || b = 6))

/-- The highest level among the unacknowledged faults of a class, 0 when there is none. -/
def State.topLevel (s : State) (cls : Nat) : Nat := ((s.flt.unack.filter (fun u => u.cls = cls)).map (·.level)).foldl max 0

/-- The level of a fault after escalation (R401). -/
def State.levelFor (s : State) (cls base : Nat) : Nat :=
  let top := ((s.flt.unack.filter (fun u => sameClass u.cls cls)).map (·.level)).foldl max 0
  if top = 0 then base else min 5 (max base (top + 1))

/-! ## Events (R218) -/

/-- An event is delivered to the oldest Await Event: its Result, and its pending bit cleared (R218). -/
def deliverEvent (s : State) : State :=
  match s.nib.items.find? (fun i => i.wait = .event) with
  | none => s
  | some i =>
    match (List.range 16).find? (fun t => (s.flt.events.getD t Ev.none).pending) with
    | none => s
    | some t =>
      let e := s.flt.events.getD t Ev.none
      let s := { s with flt := { s.flt with events := s.flt.events.set t { e with pending := false, count := 0 } } }
      succeed i (t + 16 * e.level + 65536 * e.count) s

def raiseEvent (cls level seq : Nat) (s : State) : State :=
  let e := s.flt.events.getD cls Ev.none
  let e : Ev := { pending := true, level := level, count := sat 16 (e.count + 1), seq := seq, time := s.rst.timeMs }
  deliverEvent { s with flt := { s.flt with events := s.flt.events.set cls e } }

/-! ## Safe and stop -/

/-- All reservoir content is programmed, and the settled ruling is to reach the highest ruling assigned (R407). -/
def programAll (s : State) : State := closeStripes { s with flt := { s.flt with raiseTo := s.nib.next - 1 } }

/-- The device becomes read-only for the P commands ruled from now on; all reservoir content is programmed (R407). -/
def enterSafe (c : SafeCause) (s : State) : State :=
  aliveUpdate (programAll { s with flt := { s.flt with safe := if c ∈ s.flt.safe then s.flt.safe else s.flt.safe ++ [c] } })

/-- The stop sequence (Table 15-5), ending in a self-initiated reset: no completion is written, the cause entry reaches the AON tail,
and the reset is a pin reset (R78). During a hold-up dump it ends the dump instead (R409). -/
def stopSequence (cause cls : Nat) (s : State) : State :=
  let dumping := s.rst.phase = .dump
  let s := { s with flt := { s.flt with stopping := true } }
  let s := aliveUpdate { s with nib := { s.nib with stopped := true }, pcie := { s.pcie with stopped := true } }
  let s := addBlot 0x02 cls 5 false 0xFF (BitVec.ofNat 64 cause) true s
  if dumping then { s with rst := { s.rst with phase := .off }, sup := { s.sup with vhuMv := 0, bank := .notFitted } }
  else enterReset .pin s

/-- A self-initiated reset of a start that fails (R78, R95): its cause entry, at the stop level, which alone ends in one (Tables 15-2, 15-6; DEDUCED, log
entry 134), then the reset. -/
def selfReset (cause : Nat) (s : State) : State := enterReset .pin (addBlot 0x02 0xFF 5 false 0xFF (BitVec.ofNat 64 cause) true s)

/-! ## Recording -/

/-- A fault is recorded: its level, blotter entry, counts and event; the safe level or the stop sequence follow where the level calls for
them (R395, R398, R401). Actions of the class at the lower levels are the caller's. During the stop sequence only the blotter takes the
fault (R409). -/
def recordLevel (cls base level source : Nat) (detail : BitVec 64) (stopCause : Nat) (s : State) : State :=
  let seq := s.aon.nextSeq
  let s := { s with flt := { s.flt with counts := s.flt.counts.set cls (sat 32 (s.flt.counts.getD cls 0 + 1)) }
                    health := { s.health with faults := s.health.faults.set cls (sat 32 (s.health.faults.getD cls 0 + 1)) } }
  let s := addBlot 0x01 cls level (level ≠ base) source detail false s
  if s.flt.stopping then s
  else
    let s := { s with flt := { s.flt with unack := s.flt.unack ++ [{ cls := cls, level := level, seq := seq }] } }
    if level = 5 then stopSequence stopCause cls s
    else
      let s := raiseEvent cls level seq s
      if level = 4 then enterSafe (if cls = 12 && base = 4 then .supply else if cls = 11 && base = 4 then .thermal else .escalation cls) s else s

def recordFault (cls base source : Nat) (detail : BitVec 64) (stopCause : Nat) (s : State) : State :=
  recordLevel cls base (s.levelFor cls base) source detail stopCause s

/-- Sources that FC10 contain takes out of service alone: channel islands, decoders and dies; any other island stops the module (Table 15-3). -/
def containable (source : Nat) : Bool := (0x20 ≤ source && source ≤ 0x37) || (0x40 ≤ source && source ≤ 0x7F)

/-- FC10 or FC13 of a source, with the island that requested in its detail: at contain, an island that cannot go alone stops the module. -/
def recordStall (cls base source requester : Nat) (s : State) : State :=
  let level := s.levelFor cls base
  recordLevel cls base (if 3 ≤ level && !containable source then 5 else level) source (BitVec.ofNat 64 requester) 2 s

/-- Acknowledgement of one fault by its sequence (R402, R403). -/
def acknowledge (host : Bool) (seq : Nat) (s : State) : State :=
  { s with flt := { s.flt with
      unack := s.flt.unack.filter (fun u => u.seq ≠ seq)
      blotter := mapIf (fun b => b.seq = seq) (fun b => { b with acked := true, hostAcked := b.hostAcked || host }) s.flt.blotter } }

/-- Firmware acknowledges the notice-level and retry-level faults of a class whose reaction has completed with success (R402). -/
def ackReaction (cls source : Nat) (s : State) : State :=
  let due := s.flt.unack.filter (fun u => u.cls = cls && u.level ≤ 2
    && s.flt.blotter.any (fun b => b.seq = u.seq && b.source = source))
  due.foldl (fun s u => acknowledge false u.seq s) s

/-- A fault whose retry or notice reaction succeeds at once (R402). -/
def recordHandled (cls base source : Nat) (detail : BitVec 64) (s : State) : State :=
  let level := s.levelFor cls base
  let s := recordFault cls base source detail 2 s
  if level < 5 then ackReaction cls source s else s

end Sys2Proof.Machine
end

