-- ==== Sys2Proof/Machine/BlockOps.lean ====
section
/-! DEFINITION. What the block commands do once their lock is granted: data in (merge, staging, placement), data out (die reads,
decode outcomes, delivery), releases (R209 to R216, R256 to R259, R494). -/

namespace Sys2Proof.Machine

open Sys2Proof

/-! ## The command's range -/

/-- The partition as the executed items have it, with its base. -/
def State.partOf (s : State) (i : Item) : Option Part := s.map.part? (Entry.part i.entry)

/-- The blocks of its partition that a command reads for the host: its range widened to the groups that it touches (R257, R259). -/
def State.readExtent (s : State) (i : Item) (p : Part) : Nat × Nat :=
  p.extent false (Entry.start i.entry) (Entry.count i.entry)

/-- The range of blocks within its partition that a Write or Release stores anew: whole groups, and in a stroke-only profile whole strokes
(R182, R257, R268). -/
def State.extentOf (s : State) (i : Item) (p : Part) : Nat × Nat :=
  p.extent s.strokeOnly (Entry.start i.entry) (Entry.count i.entry)

/-- The block of a presented range that a failing storage block names (Table 08-7, Block): the lowest block of its group in the range,
the first sector of its 4 KiB block in the range. -/
def hostBlock (p : Part) (e : Entry) (blk : Nat) : Nat :=
  if p.sector then max (8 * blk) (Entry.start e)
  else max (blk / max 1 p.group * p.group) (Entry.start e)

/-- The blocks of the range lie in an in-doubt range (R439). -/
def State.rangeInDoubt (s : State) (i : Item) : Bool :=
  match s.partOf i with
  | none => false
  | some p =>
    let x := s.extentOf i p
    s.rec_.epochs.any (fun e => e.state = 4 && e.pend.any (fun d => d.part = p.id
      && (let y := p.extent s.strokeOnly (d.block - p.base) 1
          if p.sector then x.1 ≤ d.block - p.base && d.block - p.base < x.2 else y.1 < x.2 && x.1 < y.2)))

/-! ## Outcome of a read that fails -/

/-- A command that returns data and does not end well leaves its host buffer undefined (R194, R211). -/
def undefineBuffer (i : Item) (s : State) : State :=
  if (match cmdInfo (Entry.opcode i.entry) with | some x => x.data = 2 | none => false) && !i.narrow
    then emit (.undefinedBuffer i.q (Entry.cid i.entry)) s else s

def failData (i : Item) (f : Fail) (s : State) : State := finish i f 0 (undefineBuffer i s)

/-! ## The gates (R381 to R383) -/

/-- The gate fields of an internal access (Table 14-2). -/
structure Access where
  part : Nat
  own : Bool
  well : Nat
  toFlash : Bool
  epoch : Nat
  first : Nat
deriving DecidableEq, Repr

/-- The rules of an epoch: the version kept for it, or the current ones. A Sanitize that has been ruled changes the table when it runs (DEDUCED, log
entry 137). -/
def State.rulesOf (s : State) (epoch : Nat) : List Part :=
  match s.nib.versions.find? (fun v => v.epoch = epoch) with
  | some v => v.parts
  | none => if s.nib.items.any (fun j => Entry.opcode j.entry = 0x98) then s.map.parts else s.nib.adm.parts

/-- The gate's comparison: the partition exists in the version, the command's well has the right of the direction, and the first block lies in the
partition's region (Table 14-2, R382). -/
def State.gateAllows (s : State) (a : Access) : Bool :=
  (s.rulesOf a.epoch).any (fun p => p.id = a.part && (a.own || wellBit (if a.toFlash then p.wr else p.rd) a.well)
    && p.base ≤ a.first && a.first < p.base + p.size)

/-- A command's access: a Write moves data toward the flash, the reading commands toward the host. -/
def State.accessOf (s : State) (i : Item) : Option Access :=
  let op := Entry.opcode i.entry
  if !isBlockCmd op || op = 0x04 then none
  else (s.partOf i).map (fun p =>
    { part := p.id, own := false, well := i.well, toFlash := op = 0x01, epoch := i.epoch
      first := p.base + (p.extent false (Entry.start i.entry) (Entry.count i.entry)).1 })

/-- The gate refuses a command's access before any data moves. -/
def State.gateRefuses (s : State) (i : Item) : Bool := (s.accessOf i).any (fun a => !s.gateAllows a)

/-- FC14 of a gate: the command whose access was refused fails; at contain the partition is contained (R383, R406). -/
def gateFault (source partition well ruling : Nat) (s : State) : State :=
  let level := s.levelFor 14 1
  let seq := s.aon.nextSeq
  let s := recordFault 14 1 source (BitVec.ofNat 64 (partition % 256 + 256 * (well % 256))) 2 s
  if !s.running then s
  else
    let s := if level ≤ 2 then ackReaction 14 source s
      else { s with flt := { s.flt with containedParts := s.flt.containedParts ++ [(partition, seq)] } }
    match s.item? ruling with
    | some i => failData i { Fail.of 0x0E with cls := 14 } s
    | none => s

/-- A command's access that the gate refuses: that of the fast lane where it serves the command, else that of DUCTUS. -/
def gateStops (i : Item) (s : State) : State := gateFault (if i.fast then 0x1B else 0x07) (Entry.part i.entry) i.well i.ruling s

/-! ## Data out -/

/-- The lengths in which a command's buffer is named: its segments, or one run (R166). -/
def Item.pieces (i : Item) (segs : List Nat) : List Nat := if Entry.segmented i.entry then segs else [Entry.length i.entry]

/-- Data written to a command's buffer: Relaxed Ordering on the data of a read alone and while the host has enabled it, each write within Max Payload
Size (R150). -/
def writeHost (i : Item) (segs : List Nat) (p : Payload) (s : State) : State :=
  let relaxed := s.pcie.host.relaxed && isBlockCmd (Entry.opcode i.entry)
  post (.hostData i.q (Entry.cid i.entry) p relaxed ((i.pieces segs).flatMap (cut (min s.pcie.host.mps 512)))) s

/-- Data of the module for the host: written to the host buffer at once on the PCIe face, where the command then completes; on the
narrow bus it waits for Read Data (R123, R133, R150). -/
def deliver (i : Item) (p : Payload) (result : Nat) (s : State) : State :=
  if i.narrow && s.nb.task = .busy then succeed i result s
  else if i.narrow then
    setItem { i with wait := .data, result := result }
      { s with nb := { s.nb with task := .dataOut, outData := some p, remaining := (p.len + 4095) / 4096 } }
  else succeed i result (writeHost i i.segs p s)

/-- The bytes that a Read, Plane Read or Precision Read returns (R209, R214, R215, R259). -/
def State.readPayload (s : State) (i : Item) (p : Part) : Payload :=
  let e := i.entry
  let x := s.readExtent i p
  let m := s.region (p.base + x.1) (x.2 - x.1)
  let n := Entry.length e
  let start := Entry.start e
  match Entry.opcode e with
  | 0x06 =>
    let whole := Mem.slice ((start - x.1) * 4096) (Entry.count e * 4096) m
    { len := n, data := planeData p (Entry.b2C e) (Entry.count e / max 1 p.unit) whole }
  | 0x07 =>
    if Entry.b2D e = 0 then
      let whole := Mem.slice ((start / max 1 p.width / 8 * p.group - x.1) * 4096) (4096 * (x.2 - x.1)) m
      { len := n, data := packedPlanes p (Entry.b2C e) (start / max 1 p.width) (Entry.count e / max 1 p.width) whole }
    else { len := n, data := expandedSamples p (Entry.b2C e) (Mem.slice ((start - x.1) * 4096) n (p.toHost m)) }
  | _ => { len := n, data := Mem.slice (start * p.blockBytes - x.1 * 4096) n (p.toHost m) }

/-- The device blocks that the command reads: those of R259. -/
def State.blocksRead (s : State) (i : Item) (p : Part) : List Nat :=
  let x := s.readExtent i p
  (readBlocks p i.entry x.1 x.2).map (p.base + ·)

/-- The first block read that is poisoned (R210). -/
def State.poisonedRead (s : State) (i : Item) (p : Part) : Option Nat :=
  ((s.blocksRead i p).find? (fun b => (s.content b).2)).map (fun b => hostBlock p i.entry (b - p.base))

/-- Codeword reads of the command still under way. -/
def State.readsOpen (s : State) (r : Nat) : Bool := s.dies.reads.any (fun x => x.ruling = r && x.use = 0 && !x.done)

/-- Blocks that the read path recovered by a step after the first hard decode (Table 08-3). -/
def State.recovered (s : State) (r : Nat) : Nat := (s.dies.reads.filter (fun x => x.ruling = r && x.use = 0 && x.step > 0)).length

/-- Every codeword of the command is in hand: Verify completes, and a task's data is staged (R133, R185, R208). Poisoned blocks are found
now, by the codeword's flag (R490). -/
def readsDone (r : Nat) (s : State) : State :=
  match s.item? r with
  | none => s
  | some i =>
    if i.wait ≠ .data || s.readsOpen r || (match cmdInfo (Entry.opcode i.entry) with | some x => x.lock ≠ 1 | none => true) then s
    else
      match s.partOf i with
      | none => s
      | some p =>
        match s.poisonedRead i p with
        | some b => failData i { Fail.of 0x0C with block := some b } s
        | none =>
          if Entry.opcode i.entry = 0x05 then succeed i (s.recovered r) s
          else if i.narrow then
            (if s.nb.outData.isNone then { s with nb := { s.nb with outData := some (s.readPayload i p) } } else s)
          else s

/-- A new codeword read of a slot, from a die. -/
def newRd (id ruling block slot die cls use epoch : Nat) : Rd :=
  { id := id, ruling := ruling, block := block, slot := slot, die := die, parent := none, step := 0, cls := cls, tried := [], thr := [], probed := none
    staged := false, done := false, bad := false, recon := false, epoch := epoch, falsely := none, use := use }

/-- The dies of the other pages of a stripe, by a slot of it and the die read. -/
def State.peerDies (s : State) (slot die : Nat) : List Nat :=
  match s.band? (bandOfSlot slot) with
  | some b => b.dies.filter (fun d => d ≠ die)
  | none => []

/-- Every other page of the stripe lies on a die in service (R306, R316). -/
def State.peersThere (s : State) (slot die : Nat) : Bool := (s.peerDies slot die).all (fun d => !s.dieDead d)

/-- The reads of the peers of a stripe, class 0 and issued to all channels at the same time (R306). -/
def startPeers (r : Rd) (s : State) : State :=
  let ds := s.peerDies r.slot r.die
  let n := s.dies.nextRd
  let peer := fun (i : Nat) => { newRd (n + i) r.ruling r.block r.slot (ds.getD i 0) 0 4 r.epoch with parent := some r.id }
  let s := { s with dies := { s.dies with reads := s.dies.reads ++ (List.range ds.length).map peer, nextRd := n + ds.length } }
  enqueue ((List.range ds.length).map (fun i => { die := ds.getD i 0, cls := 0, kind := .read (n + i), minRun := false })) s

/-- A codeword read of a page of the slot's stripe: one die read; where its die has failed, or is slow, reconstruction serves it at once (R307,
R309). Without peers to read the codeword stands ready to be found lost. -/
def startRdOn (d ruling block slot cls use : Nat) (s : State) : State :=
  let dead := s.dieDead d || s.dies.dies.any (fun x => x.n = d && x.slow)
  let there := s.peersThere slot d && s.peerDies slot d ≠ []
  let id := s.dies.nextRd
  let rd := newRd id ruling block slot d cls use s.nib.epoch
  let rd := if dead then { rd with step := 9, staged := !there, recon := true } else rd
  let s := { s with dies := { s.dies with reads := s.dies.reads ++ [rd], nextRd := id + 1 } }
  if !dead then enqueue [{ die := d, cls := cls, kind := .read id, minRun := false }] s
  else if there then startPeers rd s else s

/-- A codeword read of a slot. -/
def startRd (ruling block slot cls use : Nat) (s : State) : State := startRdOn (s.dieOfSlot slot) ruling block slot cls use s

/-- A block that a command finds without a die read: in the reservoir, or, for a command that returns data, in the read cache; Verify reads the
flash (R24, R209, R245). -/
def State.atHand (s : State) (i : Item) (b : Nat) : Bool := (s.staged? b).isSome || (Entry.opcode i.entry ≠ 0x05 && b ∈ s.ftl.cache)

/-- A block found in the read cache counts as used: the module replaces the least recently used block first (R245). -/
def useCached (b : Nat) (s : State) : State :=
  if b ∈ s.ftl.cache then { s with ftl := { s.ftl with cache := b :: without b s.ftl.cache } } else s

/-- A read begins: blocks at hand, and blocks that were never written, need no die read (R24, R240, R245). -/
def startRead (i : Item) (s : State) : State :=
  match s.partOf i with
  | none => s
  | some p =>
    let s := setItem { i with wait := .data, lock := i.lock } s
    let s := (s.blocksRead i p).foldl (fun s b =>
      if s.atHand i b then (if (s.staged? b).isSome then s else useCached b s)
      else match s.map.lookup b with
        | some sl => startRd i.ruling b sl 0 0 s
        | none => s) s
    readsDone i.ruling s

/-- The last memory write of a read's data is issued: data to the host buffer, lock released, completion; a segment list that does not fit
fails it (R150, R166, R185). -/
def deliverRead (r : Nat) (segs : List Nat) (s : State) : State :=
  match s.item? r with
  | none => s
  | some i =>
    if i.narrow || i.wait ≠ .data || s.readsOpen r then s
    else match s.partOf i with
      | none => s
      | some p =>
        match Entry.opcode i.entry with
        | 0x02 | 0x06 | 0x07 =>
          if !segmentsFit i.entry segs then failData i Fail.segments s else
          let pay := s.readPayload i p
          let s := { s with health := { s.health with readBytes := sat 64 (s.health.readBytes + pay.len) } }
          succeed i 0 (writeHost i segs pay s)
        | _ => s

/-! ## Data in (R258, R277, R494) -/

/-- Whether the host bytes `lo` to `hi` cover the whole quantum (group or 4 KiB block) of a storage block. -/
def quantumCovered (p : Part) (lo hi blk : Nat) : Bool :=
  let g := max 1 p.group
  lo ≤ blk / g * g * 4096 && (blk / g + 1) * g * 4096 ≤ hi

/-- The staged blocks of a write over its widened range: present content, the host bytes laid over it, back to storage order. A poisoned
block stays poisoned unless the write covers its whole quantum (R258, R349, log entry 12). -/
def State.stageBlocks (s : State) (i : Item) (p : Part) (data : Mem) : List Staged :=
  let e := i.entry
  let x := s.extentOf i p
  let lo := Entry.start e * p.blockBytes
  let hi := lo + Entry.count e * p.blockBytes
  let whole := lo = x.1 * 4096 && hi = x.2 * 4096
  let old := if whole then [] else p.toHost (s.region (p.base + x.1) (x.2 - x.1))
  let new := p.toStore (Mem.patch old data (lo - x.1 * 4096) (hi - lo))
  (List.range (x.2 - x.1)).map (fun k =>
    let b := x.1 + k
    { ruling := i.ruling, part := p.id, hair := if k = 0 && Entry.opcode e = 1 then i.hairClaim else 0, block := p.base + b, stream := if Entry.opcode e = 1 then Entry.b2C e else 0
      epoch := if Entry.opcode e = 1 then Entry.w30 e else 0
      poisoned := !quantumCovered p lo hi b && (s.content (p.base + b)).2
      placed := none, verified := false, data := Mem.slice (4096 * k) 4096 new })

/-- The blocks whose present content a merge reads from the flash, with their slots: those of groups or 4 KiB blocks that the range covers in part,
unless the reservoir or the read cache holds them (R258). -/
def State.mergeBlocks (s : State) (i : Item) (p : Part) : List (Nat × Nat) :=
  let x := s.extentOf i p
  let lo := Entry.start i.entry * p.blockBytes
  let hi := lo + Entry.count i.entry * p.blockBytes
  (List.range (x.2 - x.1)).filterMap (fun k =>
    let b := p.base + x.1 + k
    if quantumCovered p lo hi (x.1 + k) || (s.staged? b).isSome || b ∈ s.ftl.cache then none else (s.map.lookup b).map (fun n => (b, n)))

/-- A merge begins: its reads, which are the module's own work for the command (R258, R381). -/
def startMerge (i : Item) (l : List (Nat × Nat)) (s : State) : State :=
  l.foldl (fun s x => startRd i.ruling x.1 x.2 0 5 s) (setItem { i with wait := .merge } s)

/-- After an ejection warning, a Write or Release ruled later completes only when persistent (R345). -/
def State.afterWarning (s : State) (r : Nat) : Bool := match s.sup.warning with | some w => decide (w < r) | none => false

/-- All of a write's data is in the reservoir: it passes its cancel point, its data is placed, and it completes unless persistence holds it; a
command that waits on persistence has the stripes closed that it needs (R186, R251, R494). -/
def acceptData (i : Item) (s : State) : State :=
  let i := { i with past := true, wait := .persist }
  let s := placeWrite i.ruling (setItem i s)
  pushStripes (if Entry.durable i.entry || s.afterWarning i.ruling then s else succeed i 0 s)

/-- The host's data is in the reservoir, with the hairline entries reserved for it; a merge reads the rest of its groups first (R242, R258, R494). -/
def takeData (i : Item) (data : Mem) (s : State) : State :=
  match s.partOf i with
  | none => s
  | some p =>
    let n := Entry.length i.entry
    let staged := s.stageBlocks i p (Mem.norm 0 n data)
    let reads := s.mergeBlocks i p
    let s := { s with res := { staged := s.res.staged ++ staged, claimed := s.res.claimed - i.resClaim } }
    let s := { s with health := { s.health with writtenBytes := sat 64 (s.health.writtenBytes + n) } }
    let i := { i with resClaim := 0, hairClaim := 0 }
    if reads = [] then acceptData i s else startMerge i reads s

/-- Bytes of the reservoir that are claimed or hold staged blocks. -/
def State.reservoirUsed (s : State) : Nat := s.res.claimed + 4096 * s.res.staged.length

/-- The rest of a transfer on the PCIe face, in pieces of 128 KiB (Table 07-5). -/
def restClaim (i : Item) : Nat := (Entry.length i.entry - i.resClaim + 131071) / 131072 * 131072

/-- The rest of the data has to wait: its pieces find no space while earlier data drains to the flash (R179). -/
def State.dataWaits (s : State) (i : Item) : Bool := decide (reservoirBytes < s.reservoirUsed + restClaim i) && s.res.staged ≠ []

/-- The data of a Write on the PCIe face arrives, by the read requests that brought it (R150). -/
def receiveWrite (i : Item) (data : Mem) (segs : List Nat) (s : State) : State :=
  if !segmentsFit i.entry segs then finish i Fail.segments 0 s
  else if s.dataWaits i then s
  else if s.gateRefuses i then gateStops i s
  else takeData i data (emit (.hostRead i.q ((i.pieces segs).flatMap (cut s.readMax))) s)

/-! ## Release (R209, R241, R258, R268) -/

/-- The quanta of a Release's widened range, each with whether the range covers it whole: first block, blocks, whole. -/
def State.releaseChunks (s : State) (i : Item) (p : Part) : List (Nat × Nat × Bool) :=
  let e := i.entry
  let x := s.extentOf i p
  let q := max 1 (p.quantum s.strokeOnly)
  let lo := Entry.start e * p.blockBytes
  let hi := lo + Entry.count e * p.blockBytes
  (List.range ((x.2 - x.1) / q)).map (fun k =>
    let b := x.1 + k * q
    (b, q, decide (lo ≤ b * 4096) && decide ((b + q) * 4096 ≤ hi)))

/-- Runs of whole chunks. -/
def joinChunks : List (Nat × Nat × Bool) → List (Nat × Nat)
  | [] => []
  | (_, _, false) :: rest => joinChunks rest
  | (b, n, true) :: rest =>
    match joinChunks rest with
    | (b', n') :: more => if b' = b + n && n + n' ≤ 4096 then (b, n + n') :: more else (b, n) :: (b', n') :: more
    | [] => [(b, n)]

def releaseRecs (ruling : Nat) (p : Part) (runs : List (Nat × Nat)) : List MapRec :=
  runs.map (fun x => { ruling := ruling, typ := 2, last := false, poisoned := false, count := x.2, part := p.id, block := p.base + x.1
                       slot := none, seq := 0, chg := .none })

def enterRecs (last : Bool) : List MapRec → State → State
  | [], s => s
  | r :: rs, s =>
    let s := addRec { r with last := last && rs = [] } s
    enterRecs last rs (touchStrokes r { s with map := applyRec s.map r })

/-- A Release that has entered its last record completes, or waits for persistence after a warning (R205, R345). -/
def endRelease (i : Item) (s : State) : State :=
  if s.afterWarning i.ruling then setItem { i with past := true, wait := .persist } s else succeed i 0 s

/-- A Release runs once no earlier data of its blocks waits for its record: release records for whole quanta, and a merge of zeros, with
write records, for quanta named in part, whose stored data is read first. -/
def runRelease (i : Item) (s : State) : State :=
  match s.partOf i with
  | none => s
  | some p =>
    let x := s.extentOf i p
    if !s.clearOf i.ruling (p.base + x.1) (x.2 - x.1) then setItem { i with wait := .turn } s
    else
      let chunks := s.releaseChunks i p
      let part := chunks.filter (fun c => !c.2.2)
      let recs := releaseRecs i.ruling p (joinChunks chunks)
      if part = [] then endRelease i (enterRecs true recs s)
      else if i.wait ≠ .merge && s.mergeBlocks i p ≠ [] then startMerge i (s.mergeBlocks i p) s
      else
        let staged := (s.stageBlocks i p []).filter (fun b => part.any (fun c => p.base + c.1 ≤ b.block && b.block < p.base + c.1 + c.2.1))
        let s := enterRecs false recs s
        let s := setItem { i with past := true, wait := .data } { s with res := { s.res with staged := s.res.staged ++ staged } }
        pushStripes (placeWrite i.ruling s)

/-- The reads of a merge have all ended: the command goes on (R258). -/
def mergeDone (r : Nat) (s : State) : State :=
  match s.item? r with
  | none => s
  | some i =>
    if i.wait ≠ .merge || s.dies.reads.any (fun x => x.ruling = r && x.use = 5) then s
    else if Entry.opcode i.entry = 0x04 then runRelease i s
    else acceptData i s

/-- Releases whose merged blocks have entered their records. -/
def endReleases (s : State) : State :=
  s.nib.items.foldl (fun s i =>
    if Entry.opcode i.entry = 0x04 && i.wait = .data && !s.res.staged.any (fun b => b.ruling = i.ruling) then endRelease i s else s) s

/-! ## Pending entries of an epoch (R429) -/

/-- The verified blocks of an epoch's write become its pending entries; the write's data and entries then stand on the media. -/
def enterPending (s : State) : State :=
  let due := ((s.res.staged.filter (fun x => x.epoch ≠ 0)).map (·.ruling)).eraseDups.filter (fun r =>
    (s.res.staged.filter (fun x => x.ruling = r)).all (fun x => x.verified))
  due.foldl (fun s r =>
    let mine := (s.res.staged.filter (fun x => x.ruling = r)).foldr insertStaged []
    match mine with
    | [] => s
    | x :: _ =>
      let add := mine.filterMap (fun y => y.placed.map (fun sl =>
        ({ ruling := r, part := y.part, block := y.block, slot := sl, poisoned := y.poisoned } : Pending)))
      let es := s.rec_.epochs.map (fun e => if e.n = x.epoch && e.state < 5 then
        { e with pend := e.pend.filter (fun d => !mine.any (fun y => y.block = d.block)) ++ add } else e)
      settle r (dropStaged r { s with rec_ := { s.rec_ with epochs := es } })) s

end Sys2Proof.Machine
end

