-- ==== Sys2Proof/Machine/Flags.lean ====
section
/-! DEFINITION. Every status word, flag byte, identify structure and log page that the module reports, computed from State
(Tables 02-2, 03-7, 04-7, 05-7, 06-3, 06-6, 06-7, 08-4, 08-5, 08-7, 08-8, 15-6, 16-8, 17-2). -/

namespace Sys2Proof.Machine

open Sys2Proof

/-! ## Small text fields -/

/-- ASCII text padded with 20h to `n` bytes, as a field at offset `a`. -/
def textField (a n : Nat) (t : List Nat) : Field :=
  (a, n, ((List.range n).foldr (fun i acc => t.getD i 0x20 + 256 * acc) 0))

def ascii (t : String) : List Nat := t.toList.map (·.toNat)

/-- The 32 characters of a serial (R359). -/
def serialChar (c : Nat) : Nat := (ascii "0123456789ABCDEFGHJKLMNPQRSTVWXY").getD c 0x30

/-- The 14-character serial with its hyphens (R359, Table 05-8). -/
def State.serialText (s : State) : List Nat :=
  let c := s.unit.serial.map serialChar
  c.take 4 ++ [0x2D] ++ (c.drop 4).take 4 ++ [0x2D] ++ c.drop 8

/-- Ordering code (R1). -/
def State.orderingCode (s : State) : List Nat :=
  ascii (match s.unit.variant with | .t16 => "SX6400-16T-" | .t08 => "SX6400-08T-" | .t04 => "SX6400-04T-")
    ++ [match s.unit.grade with | .c => 0x43 | .i => 0x49]

def State.variantCode (s : State) : Nat := match s.unit.variant with | .t16 => 0x10 | .t08 => 0x08 | .t04 => 0x04

def State.gradeCode (s : State) : Nat := match s.unit.grade with | .c => 0x43 | .i => 0x49

/-! ## The factory rows (Tables 13-5 and 13-6) -/

/-- The fields of the calibration row that name the unit; its reserved fields and the sensors of dies not present hold 0. -/
def State.calibrationFields (s : State) : List Field :=
  [ (0x000, 4, 0x314C4143), (0x004, 2, 1), (0x006, 1, s.variantCode), (0x007, 1, s.gradeCode),
    (0x008, 12, (s.unit.serial.map serialChar).foldr (fun c acc => c + 256 * acc) 0), (0x128, 2, s.unit.senseNa) ]

/-- Bytes of the calibration row that the spec does not state: trims, sensors of the dies present, tables, the wrapped seed. -/
def State.trimByte (s : State) (o : Nat) : Bool :=
  (0x018 ≤ o && o < 0x01E) || (0x020 ≤ o && o < 0x028) || (0x028 ≤ o && o < 0x128 && s.dieFits ((o - 0x028) / 4)) || (0x130 ≤ o && o < 0x360)

/-- A byte below the check of the calibration row. -/
def State.calibrationBody (s : State) (o : Nat) : Byte :=
  if s.trimByte o then Config.calibrationByte o else Mem.get 0 (Mem.ofFields s.calibrationFields) o

/-- A byte of the calibration row (Table 13-5). -/
def State.calibrationRow (s : State) (o : Nat) : Byte :=
  if o < 0xFFC then s.calibrationBody o
  else BitVec.ofNat 8 (crc32c ((List.range 0xFFC).map s.calibrationBody) / 256 ^ (o - 0xFFC))

/-- A byte of the certificate: DER, for this unit's serial and ordering code, followed by zeros (R375). -/
def State.certByte (s : State) (k : Nat) : Byte :=
  if k < s.unit.certLen then Config.certificateByte s.serialText s.orderingCode k else 0

/-- A byte below the check of the identity row. -/
def State.identityBody (s : State) (o : Nat) : Byte :=
  if 0x0008 ≤ o && o < 0x0048 then Config.identityByte o
  else if 0x0100 ≤ o && o < 0x1100 then s.certByte (o - 0x0100)
  else Mem.get 0 (Mem.ofFields [(0x0000, 4, 0x31524449), (0x0004, 2, s.unit.certLen)]) o

/-- A byte of the identity row (Table 13-6). -/
def State.identityRow (s : State) (o : Nat) : Byte :=
  if o < 0x1FFC then s.identityBody o
  else BitVec.ofNat 8 (crc32c ((List.range 0x1FFC).map s.identityBody) / 256 ^ (o - 0x1FFC))

/-! ## Strap record (Table 03-7) -/

def strapFields (t : Strap) : List Field :=
  [ (0x00, 4, (List.range 9).foldr (fun n acc => t.codes.getD n 0 % 8 * 8 ^ n + acc) 0),
    (0x04, 2, t.faults.toNat), (0x06, 1, t.mismatch.toNat), (0x07, 1, t.state.toNat) ]
  ++ (List.range 9).map (fun n => (0x08 + 2 * n, 2, min 0xFFFF (t.readings.getD n 0)))
  ++ [ (0x1A, 1, t.recorded.toNat) ]

/-! ## Reset cause register (Table 04-7) -/

def modeCode (m : Mode) : Nat := match m with | .normal => 0 | .recStrap => 1 | .recCount => 2

def State.resetCause (s : State) (w : Nat) : Nat :=
  flag (wellBit s.aon.por w) 0 + flag (wellBit s.aon.pin w) 1 + s.rst.startCount % 16 * 2 ^ 4
    + flag (s.rst.booted = .b && !s.recovery) 8 + flag s.rst.fallback 9 + flag s.rst.clean 10 + flag s.rst.aonValid 11
    + modeCode s.rst.mode * 2 ^ 12 + s.aon.resetNo % 65536 * 2 ^ 16

/-! ## Status words -/

def taskCode (t : Task) : Nat :=
  match t with | .idle => 0 | .admitting => 1 | .dataIn => 2 | .dataOut => 3 | .busy => 4 | .done => 5 | .frozen => 6

/-- An asynchronous event is waiting (R219). -/
def State.eventPending (s : State) : Bool := s.flt.events.any (·.pending)

/-- Bootstrap Status (Table 06-7). -/
def State.bootstrapStatus (s : State) : Nat :=
  flag s.pcie.ready 0 + flag s.pcie.refused 1 + s.pcie.shutdown % 4 * 4 + flag s.pcie.stopped 4

/-- Device state (Table 06-6). -/
def State.deviceState (s : State) : Nat :=
  flag s.rst.admin 0 + flag s.rst.io 1 + flag s.recovery 2 + flag s.mismatch 3 + flag (s.safe || s.pwr.thermalSafe) 4

/-- A die or channel is lost and a band still includes it (health bit 5). -/
def State.degraded (s : State) : Bool :=
  s.ftl.bands.any (fun b => b.st ≠ .dissolved && b.st ≠ .free && b.chans.any (fun c => s.dieDead (dieOf c (bandGroup b.n))))

def State.rebuildRuns (s : State) : Bool := s.lops.list.any (fun o => (o.typ = 5 || o.typ = 6) && o.state = 1)

def holdupCode (b : BankState) : Nat := match b with | .notFitted => 0 | .charging => 1 | .ready => 2 | .fault => 3

/-- Health warnings (Table 08-8); in minimal recovery mode the media records are not read (R99). -/
def State.warnings (s : State) : Nat :=
  let media := !s.recovery
  flag s.ftl.pacing.isSome 0 + flag (media && s.rec_.worn) 1 + flag (s.flt.safe ≠ [] || (media && s.rec_.lowChannels)) 2 + flag (0 < s.pwr.step) 3
    + flag s.pwr.thermalSafe 4 + flag (media && s.degraded) 5 + flag s.rebuildRuns 6 + flag (s.sup.bank = .fault) 7 + flag s.mismatch 8
    + flag s.wall.isNone 9

/-! ## Firmware identity -/

def State.bankOf (s : State) (b : BankId) : Bank := match b with | .a => s.boot.bankA | .b => s.boot.bankB

def otherBank (b : BankId) : BankId := match b with | .a => .b | .b => .a

/-- The record in force; with none valid, bank A active (R361). -/
def Boot.record (b : Boot) : SwapRec :=
  match b.swap0, b.swap1 with
  | some x, some y => if x.seq < y.seq then y else x
  | some x, none => x
  | none, some y => y
  | none, none => { seq := 0, active := .a, trial := false, revoked := 0, floor := 0, cause := 4 }

def imgField (m : Mem) (off n : Nat) : Nat := Mem.getLE 0xFF m off n

/-- The check of R365 over a bank: items 1 to 3 and 6 by the header and the record in force, items 4 and 5 as kept with the bank. -/
def State.imagePasses (s : State) (b : BankId) : Bool :=
  let k := s.bankOf b
  let m := k.bytes
  let r := s.boot.record
  let len := imgField m 0x08 4
  let load := imgField m 0x0C 4
  let key := imgField m 0x18 1
  let revoke := imgField m 0x19 1
  let resource := imgField m 0x30 4
  let vbit := match s.unit.variant with | .t16 => 0 | .t08 => 1 | .t04 => 2
  k.present && k.authentic && imgField m 0 4 = 0x57465853 && imgField m 4 2 = 1
    && len % 4096 = 0 && 20480 ≤ len && len ≤ 4194304 && load % 4 = 0 && load ≤ 1835008
    && resource % 4 = 0 && (0x100 + load + 4095) / 4096 * 4096 + resource ≤ len - 0x2000
    && bit (imgField m 0x1A 1) vbit && key < 4 && !bit r.revoked.toNat key && !bit revoke key && r.floor ≤ imgField m 0x14 4

/-- The bank that is not running, as Identify and Attest show it (R365). -/
def State.notRunning (s : State) : BankId :=
  if s.rst.fallback && !s.reachedReady then s.boot.record.active else otherBank s.boot.record.active

/-- Version field of a bank's image as a number of 16 bytes. -/
def State.bankVersion (s : State) (b : BankId) : Nat := imgField (s.bankOf b).bytes 0x20 16

def spaces16 : Nat := (textField 0 16 []).2.2

def romText : Nat := (textField 0 16 (ascii "ROM")).2.2

/-- The bank that is not running passes its check; minimal recovery mode reads neither bank (R99, R365). -/
def State.otherPasses (s : State) : Bool := !s.recovery && s.imagePasses s.notRunning

def State.activeVersion (s : State) : Nat := if s.recovery then romText else s.boot.runVersion

/-! ## Identify (Tables 08-4, 08-5, 17-2) -/

/-- Power states: maximum power in mW, idle entry in µs, exit latency in µs (Table 17-2). -/
def State.powerStates (s : State) : List (Nat × Nat × Nat) :=
  [ (1000 * s.powerClass, 0, 0), (500 * s.powerClass, 0, 0), (450, 2000, 50), (30, 100000, 2000), (5, 10000000, if s.mismatch then 2000 else 150000) ]

/-- Media content is known: before I/O ready and in strap mismatch the media fields read 0 (R90). -/
def State.mediaKnown (s : State) : Bool := s.rst.io && !s.mismatch

/-- The sizes a face grants: pairs, vectors, wells (Table 08-4). -/
def State.grant (s : State) : Nat × Nat × Nat :=
  if s.rst.face = .narrow then (0, 0, 1) else if s.pcie.granted = 2 then (2048, 2048, 64) else (256, 256, 1)

def State.deviceFields (s : State) : List Field :=
  [ textField 0x000 16 (ascii "BURRINOV"), textField 0x010 16 s.orderingCode, textField 0x020 16 s.serialText,
    (0x030, 16, s.activeVersion), (0x040, 16, if s.otherPasses then s.bankVersion s.notRunning else spaces16),
    (0x050, 1, s.variantCode), (0x051, 1, s.gradeCode), (0x052, 1, s.dieCount), (0x053, 1, 16), (0x054, 8, s.logicalBlocks),
    (0x05C, 4, 4096), (0x060, 8, if s.mediaKnown then s.logicalBlocks - s.nib.adm.allocated else 0), (0x068, 1, s.profile),
    (0x069, 1, if s.mediaKnown then s.nib.adm.parts.length else 0), (0x06A, 1, 64), (0x06B, 1, 3), (0x06C, 4, 0x1000000),
    (0x070, 2, s.grant.1), (0x072, 2, 4096), (0x074, 2, s.grant.2.1), (0x076, 1, s.grant.2.2), (0x077, 1, 4), (0x078, 4, 0x10000),
    (0x07C, 2, 0x2000), (0x07E, 2, 0x100), (0x080, 1, s.faceCode), (0x081, 1, s.pcie.granted), (0x082, 1, s.nb.version),
    (0x083, 1, if s.strap.vccq18 = some false then 1 else 0), (0x084, 1, s.powerClass), (0x085, 1, s.suspendPolicy), (0x086, 1, s.sa5),
    (0x087, 1, s.ligAddress.getD 0xFF), (0x088, 1, s.sa8) ]
  ++ ((List.range 5).map (fun i =>
      let x := s.powerStates.getD i (0, 0, 0)
      [ (0x090 + 16 * i, 4, x.1), (0x094 + 16 * i, 4, x.2.1), (0x098 + 16 * i, 4, x.2.2) ])).flatten
  ++ [ (0x0E0, 8, match s.unit.variant with | .t16 => 51100 | .t08 => 25550 | .t04 => 12775) ]

/-- The partition is contained (R406). -/
def State.partContained (s : State) (id : Nat) : Bool := s.flt.containedParts.any (fun x => x.1 = id)

/-- Partition identify data; the rights and protection are those that the items ruled before leave (R181). -/
def State.partFields (s : State) (p : Part) : List Field :=
  let placed := (s.map.part? p.id).filter (fun x => x.born = p.born)
  [ (0x00, 1, p.id), (0x01, 1, p.layout), (0x02, 1, p.width), (0x03, 1, p.planes), (0x04, 2, p.blockBytes), (0x06, 1, p.owner),
    (0x07, 1, protectionByte s s.nib.adm p), (0x08, 8, p.size), (0x10, 8, match placed with | some x => s.mappedIn x | none => 0),
    (0x18, 8, p.rd.toNat), (0x20, 8, p.wr.toNat),
    (0x28, 1, flag (s.partContained p.id) 0 + (match placed with | some x => flag (s.poisonedIn x) 1 + flag (s.doubtIn x) 2 | none => 0)),
    (0x2A, 2, p.unit) ]

def partListFields (m : MapState) : List Field :=
  (0x000, 8, m.parts.foldl (fun acc p => acc + 2 ^ (p.id - 1)) 0) :: m.parts.map (fun p => (0x040 + 8 * (p.id - 1), 8, p.size))

/-! ## Log pages (R222 to R224, R416) -/

def errFields (base : Nat) (e : ErrEntry) : List Field :=
  [ (base, 8, e.count), (base + 0x08, 8, e.ruling), (base + 0x10, 2, e.q), (base + 0x12, 2, e.cid), (base + 0x14, 2, e.pos),
    (base + 0x16, 1, e.status), (base + 0x17, 1, e.opcode), (base + 0x18, 1, e.part), (base + 0x19, 1, e.well), (base + 0x1A, 1, e.face),
    (base + 0x1B, 1, e.cls), (base + 0x1C, 4, e.detail), (base + 0x20, 8, e.block), (base + 0x28, 8, e.time), (base + 0x30, 8, e.wall) ]

def State.errorPage (s : State) : List Field :=
  [ (0, 2, s.elog.list.length), (2, 2, match s.elog.list with | e :: _ => e.slot | [] => 0), (8, 8, s.elog.count) ]
  ++ (s.elog.list.map (fun e => errFields (0x40 + 64 * e.slot) e)).flatten

/-- Percentage used: mean wear of the good blocks of host bands against 100,000 units, rounded down; a band that is not listed has 64 blocks of
one wear (R272). -/
def State.percentUsed (s : State) : Nat :=
  let hosts := s.ftl.bands.filter (fun b => s.isHostBand b.n)
  let good := (hosts.flatMap (·.blks)).filter (fun x => x.st ≠ .retired)
  let fresh := 64 * (s.hostBands - hosts.length)
  min 255 (((good.map (·.wear)).sum + fresh * s.ftl.freshWear) * 100 / (100000 * max 1 (good.length + fresh)))

/-- VHU in mV: as last measured while the bank is not charged; while it charges and while it is held at 5.0 V ±2%, the value between the limits of
R50 is a free value (log entry 112). -/
def State.vhu (s : State) : Nat :=
  match s.sup.bank with
  | .charging => s.sup.vhuMv + (Config.freeWord s.drawn).toNat % (4800 - min 4799 s.sup.vhuMv)
  | .ready => 4550 + (Config.freeWord s.drawn).toNat % 551
  | _ => s.sup.vhuMv

def State.healthPage (s : State) : List Field :=
  let h := s.health
  let media := fun x => if s.recovery || s.mismatch then 0 else x
  [ (0x000, 4, s.warnings), (0x004, 2, unsigned 16 s.pwr.junction), (0x006, 2, unsigned 16 s.pwr.nand), (0x008, 1, media s.percentUsed),
    (0x009, 1, media (100 * s.spareCount / max 1 s.spareAtShipment)), (0x00A, 1, 2), (0x00B, 1, s.pwr.ps), (0x00C, 1, s.pwr.step),
    (0x00D, 1, s.pcie.speed), (0x00E, 1, s.pcie.width), (0x00F, 1, holdupCode s.sup.bank),
    (0x010, 8, media (h.readBytes / 1048576)), (0x018, 8, media (h.writtenBytes / 1048576)), (0x020, 8, media (h.mediaBytes / 1048576)),
    (0x028, 8, media h.commands), (0x030, 4, media (sat 32 (h.powerOnMs / 3600000))), (0x034, 4, media h.starts), (0x038, 4, media h.unclean),
    (0x03C, 4, media h.uncorrectable), (0x040, 4, media h.linkErrors), (0x044, 2, s.vhu), (0x046, 1, if s.sup.warning.isSome then 1 else 0),
    (0x047, 1, media s.rec_.failedDies.length), (0x048, 1, media s.rec_.failedChannels.length), (0x049, 1, s.dies.decoders.length),
    (0x04A, 1, s.flt.cores.length), (0x04C, 4, media s.ftl.retired) ]
  ++ (List.range 16).map (fun c => (0x050 + 4 * c, 4, media (h.faults.getD c 0)))

def levelByte (b : Blot) : Nat := b.level % 8 + flag b.escalated 3 + flag b.acked 4 + flag b.hostAcked 5 + flag b.earlier 6

def blotFields (b : Blot) : List Field :=
  let a := 0x40 + 32 * b.slot
  [ (a, 4, b.seq), (a + 4, 2, b.resetNo), (a + 6, 1, b.kind), (a + 7, 1, b.cls), (a + 8, 1, levelByte b), (a + 9, 1, b.source),
    (a + 0x0A, 2, b.count), (a + 0x0C, 8, b.time), (a + 0x14, 8, b.detail.toNat) ]

def State.blotterPage (s : State) : List Field :=
  [ (0, 1, s.flt.blotter.length), (1, 1, match s.flt.blotter with | b :: _ => b.slot | [] => 0),
    (2, 2, (List.range 16).foldl (fun acc c => acc + flag (s.topLevel c ≠ 0) c) 0),
    (4, 4, match s.flt.blotter with | b :: _ => b.seq | [] => 0) ]
  ++ (List.range 16).map (fun c => (0x10 + c, 1, s.topLevel c))
  ++ (s.flt.blotter.map blotFields).flatten

def State.eventsPage (s : State) : List Field :=
  ((List.range 16).map (fun t =>
    let e := s.flt.events.getD t Ev.none
    [ (16 * t, 1, flag e.pending 0), (16 * t + 1, 1, e.level), (16 * t + 2, 2, e.count), (16 * t + 4, 4, e.seq), (16 * t + 8, 8, e.time) ])).flatten

/-- The dies that a rebuild's target stands for (R311). -/
def targetDies (typ target : Nat) : List Nat := if typ = 5 then [target] else (List.range 4).map (fun g => dieOf target g)

/-- Bands that still include a die of the target. -/
def State.bandsWith (s : State) (dies : List Nat) : List Band :=
  s.ftl.bands.filter (fun b => b.st ≠ .dissolved && b.st ≠ .free && b.dies.any (· ∈ dies))

/-- Progress in hundredths of a percent: of a rebuild, the bands that no longer include a failed die, of those at its creation (R228, R313). -/
def State.progressOf (s : State) (o : LongOp) : Nat :=
  if (o.typ = 5 || o.typ = 6) && o.state < 3 then
    10000 * (o.total - min o.total (s.bandsWith (targetDies o.typ o.target)).length) / max 1 o.total
  else o.progress

def longOpFields (s : State) (a : Nat) (o : LongOp) : List Field :=
  [ (a, 2, o.handle), (a + 2, 1, o.typ), (a + 3, 1, o.state), (a + 4, 2, s.progressOf o), (a + 6, 1, o.outcome), (a + 7, 1, o.detail),
    (a + 8, 8, o.ruling), (a + 0x10, 8, o.started), (a + 0x18, 4, o.active), (a + 0x1C, 2, o.target) ]

def State.longOpsPage (s : State) : List Field :=
  (0, 2, s.lops.list.length) :: ((List.range s.lops.list.length).map (fun k =>
    match s.lops.list[k]? with | some o => longOpFields s (32 + 32 * k) o | none => [])).flatten

/-- Pending entries of an epoch; 0 once closed. -/
def Epoch.blocks (e : Epoch) : Nat := if e.state < 5 then e.pend.length else 0

def epochFields (a : Nat) (e : Epoch) : List Field :=
  [ (a, 4, e.n), (a + 4, 1, e.state), (a + 5, 1, flag e.initiated 0 + flag e.atLimit 1 + flag e.contradictory 2 + flag e.resolved 3),
    (a + 8, 4, e.members.toNat), (a + 0x0C, 4, e.blocks), (a + 0x10, 8, e.prepRuling), (a + 0x18, 8, e.outcomeRuling) ]

/-- The ligature log (Table 16-8): zeros but for the address byte where the module stands alone. -/
def State.ligaturePage (s : State) : List Field :=
  if s.ligAddress.isNone then [ (1, 1, 0xFF) ]
  else
    [ (0, 1, s.lig.state), (1, 1, s.ligAddress.getD 0xFF), (2, 1, s.rec_.epochs.length),
      (3, 1, (s.rec_.epochs.filter (fun e => e.state = 4)).length), (4, 4, s.lig.joined.toNat), (8, 4, s.lig.time), (0x0C, 4, s.lig.frames),
      (0x10, 4, s.lig.errors), (0x14, 2, s.lig.dropped), (0x18, 4, (s.rec_.epochs.map (·.blocks)).sum) ]
    ++ ((List.range s.rec_.epochs.length).map (fun k =>
      match s.rec_.epochs[k]? with | some e => epochFields (0x40 + 32 * k) e | none => [])).flatten

end Sys2Proof.Machine
end

