-- ==== Sys2Proof/Machine/BootOps.lean ====
section
/-! DEFINITION. The boot flash (chapter 13): swap records, download and activation of an image, and the margin verify that ends each
operation of BOOT. -/

namespace Sys2Proof.Machine

open Sys2Proof

/-! ## Sectors and addresses (Tables 13-1 and 13-2) -/

/-- Sectors 0 to 7 are the parameter sectors, 8 on the main sectors. -/
def sectorOf (off : Nat) : Nat := if off < 0x10000 then off / 0x2000 else 8 + (off - 0x10000) / 0x10000

def sectorEnd (k : Nat) : Nat := if k < 8 then (k + 1) * 0x2000 else 0x10000 + (k - 7) * 0x10000

def sectorStart (k : Nat) : Nat := if k < 8 then k * 0x2000 else 0x10000 + (k - 8) * 0x10000

def bankBase (b : BankId) : Nat := match b with | .a => 0 | .b => 0x400000

def setBank (b : BankId) (f : Bank → Bank) (s : State) : State :=
  match b with
  | .a => { s with boot := { s.boot with bankA := f s.boot.bankA } }
  | .b => { s with boot := { s.boot with bankB := f s.boot.bankB } }

/-! ## Swap records (R360 to R362) -/

/-- Whether slot 0 holds the record in force. -/
def Boot.slot0InForce (b : Boot) : Bool :=
  match b.swap0, b.swap1 with
  | some x, some y => !decide (x.seq < y.seq)
  | some _, none => true
  | none, _ => false

/-- A new record comes into force in the slot that does not hold the present one. -/
def Boot.put (b : Boot) (r : SwapRec) : Boot := if b.slot0InForce then { b with swap1 := some r } else { b with swap0 := some r }

/-- Address of the slot that the next record goes to. -/
def Boot.nextSlotAddress (b : Boot) : Nat := if b.slot0InForce then 0x804000 else 0x803000

/-- The record in force with changes, its Sequence raised by 1. -/
def Boot.newRecord (b : Boot) (f : SwapRec → SwapRec) : SwapRec :=
  let r := f b.record
  { r with seq := b.record.seq + 1 }

/-- The slot that does not hold the record in force is erased (R362). -/
def Boot.clearSlot (b : Boot) : Boot := if b.slot0InForce then { b with swap1 := none } else { b with swap0 := none }

/-- The writing of a record begins: its slot is erased, and then programmed (R362). -/
def beginSwap (w : SwapWork) (s : State) : State := { s with boot := { s.boot.clearSlot with swapWork := some w } }

/-! ## Swap records at ready (R97, R361, R370) -/

/-- The record of a start, or of an immediate activation, that brings up a bank under Trial and reaches ready (R370). -/
def readyRecord (security : Nat) (revoke : BitVec 4) (r : SwapRec) : SwapRec :=
  { r with trial := false, floor := max r.floor security, revoked := r.revoked ||| revoke, cause := 2 }

/-- The record that ready calls for: a fall-back start's, with the booted bank active; one where no slot was valid; the end of a trial. A fall-back
start that found no valid record writes one record, with the cause of the fall-back (DESIGN CHOICE, log entry 115). -/
def State.readyRec (s : State) : Option SwapRec :=
  if s.recovery then none
  else if s.rst.fallback && s.boot.record.active ≠ s.rst.bank then some (s.boot.newRecord (fun r => { r with active := s.rst.bank, trial := false, cause := 3 }))
  else if s.boot.rebuild then some (s.boot.newRecord (fun r => { r with cause := 4 }))
  else if s.boot.record.trial && s.boot.record.active = s.rst.bank then some (s.boot.newRecord (readyRecord s.boot.runSecurity s.boot.runRevoke))
  else none

/-- Once ready is reached, and BOOT writes no other record, its record is written; ruling 0 stands for no command's. -/
def readySwap (s : State) : State :=
  if !s.boot.owed || s.boot.swapWork.isSome then s
  else match s.readyRec with
    | some r => beginSwap { rec_ := r, fails := 0, ruling := 0 } s
    | none => { s with boot := { s.boot with owed := false, rebuild := false } }

/-- The record of ready is in force; a change of the boot bank is recorded in the blotter (R97). -/
def readyWritten (w : SwapWork) (s : State) : State :=
  let s := { s with boot := { s.boot with owed := false, rebuild := false } }
  if w.rec_.cause = 3 then addNote 0x03 (if s.rst.bank = .b then 1 else 0) s else s

/-! ## Running image (R366) -/

/-- Measurement of an image: SHAKE256 over the bytes before the key (R364). -/
def measurement (m : Mem) : BitVec 512 := Config.shake256 (Mem.bytes 0xFF m (imgField m 0x08 4 - 0x2000))

def runImage (b : BankId) (s : State) : State :=
  let m := (s.bankOf b).bytes
  { s with boot := { s.boot with
      runSecurity := imgField m 0x14 4, runRevoke := BitVec.ofNat 4 (imgField m 0x19 1), runVersion := imgField m 0x20 16
      runMeasure := measurement m } }

/-! ## Faults of the boot flash (FC7) -/

/-- A margin verify fails: FC7 at its level after escalation (R356, R399). -/
def bootFault (address : Nat) (s : State) : State := recordFault 7 2 0x0A (BitVec.ofNat 64 address) 2 s

/-! ## Commands one at a time (R367) -/

def isFirmware (op : Nat) : Bool := op = 0xA0 || op = 0xA1

/-- An earlier Firmware Download or Activate has not completed. -/
def State.firmwareBusy (s : State) (i : Item) : Bool :=
  s.nib.items.any (fun j => j.ruling < i.ruling && isFirmware (Entry.opcode j.entry))

/-! ## Download (R231, R368) -/

/-- The bank that a download writes. -/
def State.targetBank (s : State) : BankId := otherBank s.boot.record.active

/-- A pending activation is withdrawn by a record that names the running bank active; in minimal recovery mode no bank runs, and from ready on the trial
of the running bank is no longer pending (R369). -/
def State.withdrawNeeded (s : State) : Bool := s.boot.record.trial && !s.recovery && !s.boot.owed

def withdrawRecord (s : State) : SwapRec := s.boot.newRecord (fun r => { r with active := s.rst.bank, trial := false, cause := 1 })

/-- A bank is marked as holding no image. -/
def markEmpty (b : BankId) (s : State) : State := setBank b (fun k => { k with present := false, authentic := false }) s

/-- The download is gone. -/
def endDownload (s : State) : State := { s with boot := { s.boot with dl := none, busy := none } }

/-- The bank that holds the download holds no image any more, and the download is gone. -/
def dropDownload (s : State) : State := markEmpty (s.boot.busy.getD s.targetBank) (endDownload s)

/-- A piece in its order begins: at offset 0 a pending activation is withdrawn, and then the bank marked as holding no image (R368). -/
def takePiece (i : Item) (data : Mem) (d : Download) (s : State) : State :=
  let off := Entry.w2C i.entry
  let len := Entry.length i.entry
  let target := if off = 0 && s.withdrawNeeded then otherBank s.rst.bank else s.targetBank
  let s := if off ≠ 0 then s
    else if s.withdrawNeeded then beginSwap { rec_ := withdrawRecord s, fails := 0, ruling := i.ruling } s
    else markEmpty target s
  let d := { d with complete := false, piece := Mem.norm 0xFF len data, pieceLen := len, pieceOff := off, at_ := off
                    fails := if off = 0 then [] else d.fails }
  setItem { i with wait := .boot } { s with boot := { s.boot with dl := some d, busy := some target } }

/-- The checks of a piece: updates allowed, and its place behind the piece before it. -/
def startPiece (i : Item) (data : Mem) (s : State) : State :=
  let off := Entry.w2C i.entry
  if !s.updateAllowed then failWith i 0x19 s
  else
    match s.boot.dl with
    | some d => if off = 0 || off = d.next then takePiece i data d s else failWith i 6 s
    | none =>
      if off = 0 then
        takePiece i data { next := 0, complete := false, piece := [], pieceLen := 0, pieceOff := 0, at_ := 0, fails := [] } s
      else failWith i 6 s

/-- Programming turns 1 bits to 0 in an erased sector, so the sector's bytes are those of the piece (R355). -/
def programPart (b : BankId) (d : Download) (hi : Nat) (s : State) : State :=
  let k := sectorOf d.at_
  let erased := if d.at_ = sectorStart k then (s.bankOf b).bytes.filter (fun c => c.1 < sectorStart k || sectorEnd k ≤ c.1)
    else (s.bankOf b).bytes
  setBank b (fun x => { x with bytes := Mem.patch erased (Mem.slice (d.at_ - d.pieceOff) (hi - d.at_) d.piece) d.at_ (hi - d.at_) }) s

/-- The image is whole once the pieces reach its length (Table 13-8). -/
def imageWhole (m : Mem) (next : Nat) : Bool := imgField m 0x08 4 ≤ next

/-- The part of the piece in the sector at work has passed its margin verify; the piece completes with its last part (R368). -/
def partPassed (d : Download) (s : State) : State :=
  let b := s.boot.busy.getD s.targetBank
  let hi := min (d.pieceOff + d.pieceLen) (sectorEnd (sectorOf d.at_))
  let s := ackReaction 7 0x0A (programPart b d hi s)
  if hi < d.pieceOff + d.pieceLen then { s with boot := { s.boot with dl := some { d with at_ := hi } } }
  else
    let whole := imageWhole (s.bankOf b).bytes hi
    let s := if whole then setBank b (fun k => { k with present := true, authentic := Config.imageAuthentic k.bytes }) s else s
    let s := { s with boot := { s.boot with
      dl := some { d with next := hi, complete := whole, piece := [], pieceLen := 0, at_ := hi }, busy := none } }
    match s.nib.items.find? (fun i => i.wait = .boot && Entry.opcode i.entry = 0xA0) with
    | some i => succeed i 0 s
    | none => s

def failsOf (l : List (Nat × Nat)) (k : Nat) : Nat := match l.find? (fun x => x.1 = k) with | some x => x.2 | none => 0

/-- The command that waits on BOOT fails with the image-invalid status. -/
def failBoot (s : State) : State :=
  match s.nib.items.find? (fun i => i.wait = .boot) with
  | some i => failWith i 0x18 s
  | none => s

/-- A margin verify of the piece fails: FC7; the third failure of a sector in one download, or a level of contain or above, ends the
download (R356, Table 15-3). -/
def partFailed (d : Download) (s : State) : State :=
  let b := s.boot.busy.getD s.targetBank
  let k := sectorOf d.at_
  let n := failsOf d.fails k + 1
  let level := s.levelFor 7 2
  let s := { s with boot := { s.boot with dl := some { d with fails := (k, n) :: d.fails.filter (fun x => x.1 ≠ k) } } }
  let s := bootFault (bankBase b + sectorStart k) s
  if !s.running then s
  else if 3 ≤ n || 3 ≤ level then failBoot (dropDownload s)
  else s

/-! ## Activation (R232, R369, R101) -/

/-- A Sanitize runs: its long operation, or its record on the media, which minimal recovery mode does not read (R99, R230, R232). -/
def State.sanitizeRuns (s : State) : Bool := (!s.recovery && s.rec_.sanitize.isSome) || s.lops.list.any (fun o => o.typ = 1 && o.state < 3)

/-- The check of an activation: a complete download where the action wants one, and the image of the bank not named active. -/
def activationPasses (i : Item) (s : State) : Bool :=
  let fresh := match s.boot.dl with | some d => d.complete | none => false
  (Entry.b2C i.entry = 2 || fresh) && s.imagePasses s.targetBank

/-- Firmware Activate begins: the check, then the writing of the swap record. -/
def startActivate (i : Item) (s : State) : State :=
  if !s.updateAllowed then failWith i 0x19 s
  else if Entry.b2C i.entry = 1 && s.sanitizeRuns then failWith i 0x1B s
  else if !activationPasses i s then failWith i 0x18 s
  else
    let r := s.boot.newRecord (fun r => { r with active := s.targetBank, trial := true, cause := 1 })
    setItem { i with wait := .boot } (beginSwap { rec_ := r, fails := 0, ruling := i.ruling } s)

/-- The record of an activation is in force: the download is consumed, and the action follows (Table 13-9, R101). -/
def activated (i : Item) (s : State) : State :=
  let s := { s with boot := { s.boot with dl := none } }
  if s.recovery then
    let s := succeed i 0 { s with aon := { s.aon with failed := 0 } }
    selfReset (Config.freeByte s.drawn 0).toNat (draw s)
  else if Entry.b2C i.entry = 1 then
    setItem { i with wait := .restart } { s with boot := { s.boot with activating := true }, nib := { s.nib with paused := true } }
  else succeed i 0 s

/-- What the record in force is for: ready, an activation, or a piece whose bank is now marked as holding no image (R368). -/
def swapServes (w : SwapWork) (s : State) : State :=
  if s.boot.owed && w.ruling = 0 then readyWritten w s
  else match s.item? w.ruling with
    | none => s
    | some i => if Entry.opcode i.entry = 0xA1 then activated i s
      else if Entry.opcode i.entry = 0xA0 then markEmpty (s.boot.busy.getD s.targetBank) s
      else s

/-- The program of a swap record has passed its verify: the record is in force (R362). -/
def swapPassed (w : SwapWork) (s : State) : State :=
  let s := swapServes w (ackReaction 7 0x0A { s with boot := { s.boot.put w.rec_ with swapWork := none } })
  if s.running then readySwap s else s

/-- It has failed: after three failures, or at contain or above, the other slot stays in force and the command fails (R356). -/
def swapFailed (w : SwapWork) (s : State) : State :=
  let level := s.levelFor 7 2
  let n := w.fails + 1
  let s := { s with boot := { s.boot with swapWork := some { w with fails := n } } }
  let s := bootFault s.boot.nextSlotAddress s
  if !s.running then s
  else if 3 ≤ n || 3 ≤ level then
    let s := { s with boot := { s.boot with swapWork := none, owed := s.boot.owed && w.ruling ≠ 0 } }
    readySwap (match s.item? w.ruling with
    | none => s
    | some i => if Entry.opcode i.entry = 0xA0 then failBoot (endDownload s) else failWith i 0x18 s)
  else s

/-- Firmware Download or Activate at its turn: each waits for the earlier ones, and for the record that BOOT writes (R354, R367). -/
def startFirmware (i : Item) (s : State) : State :=
  if s.firmwareBusy i || s.boot.swapWork.isSome then setItem { i with wait := .turn } s
  else if Entry.opcode i.entry = 0xA0 then
    let data := match s.boot.held.find? (fun x => x.1 = i.ruling) with | some x => x.2 | none => []
    startPiece i data { s with boot := { s.boot with held := s.boot.held.filter (fun x => x.1 ≠ i.ruling) } }
  else startActivate i s

end Sys2Proof.Machine
end

