-- ==== Sys2Proof/Machine/LongOps.lean ====
section
/-! DEFINITION. The long operations page (R227, R228): entries, handles, and the queue of rebuilds without an entry. -/

namespace Sys2Proof.Machine

open Sys2Proof

/-- The first handle from `h` on that is not 0 and not in the page (R227). -/
def freeHandle (l : List LongOp) : Nat → Nat → Nat
  | 0, h => h
  | fuel + 1, h => if h % 65536 = 0 || l.any (fun o => o.handle = h % 65536) then freeHandle l fuel (h + 1) else h % 65536

def LongOp.final (o : LongOp) : Bool := 3 ≤ o.state

/-- A full page drops its oldest entry in a final state. -/
def roomIn (l : List LongOp) : List LongOp :=
  if l.length < 16 then l else match l.find? (·.final) with | some o => l.filter (fun x => x.handle ≠ o.handle) | none => l

/-- A new entry at the end of the page; its handle. -/
def createOp (typ target ruling state : Nat) (s : State) : State × Nat :=
  let l := roomIn s.lops.list
  let h := freeHandle l 32 s.lops.next
  let o : LongOp := { handle := h, typ := typ, state := state, progress := 0, outcome := 0, detail := 0, ruling := ruling
                      started := s.rst.timeMs, active := 0, target := target, wants := [], lost := false, total := (s.bandsWith (targetDies typ target)).length
                      doneDies := [], begun := false, found := false }
  ({ s with lops := { s.lops with list := l ++ [o], next := h + 1 } }, h)

def State.op? (s : State) (h : Nat) : Option LongOp := s.lops.list.find? (fun o => o.handle = h)

def modOp (h : Nat) (f : LongOp → LongOp) (s : State) : State :=
  { s with lops := { s.lops with list := mapIf (fun o => o.handle = h) f s.lops.list } }

def isRebuild (t : Nat) : Bool := t = 5 || t = 6

def isSelfTest (t : Nat) : Bool := t = 2 || t = 3

/-- Segments of a self-test, and the segment that runs now by the progress made (R298). -/
def testSegments (typ : Nat) : Nat := if typ = 2 then 5 else 8

def LongOp.segment (o : LongOp) : Nat := o.progress * testSegments o.typ / 10000 + 1

/-- A rebuild entry, with the bands that it has to empty: queued while another operation of its type is running (Table 08-10). -/
def enterRebuild (typ target : Nat) (s : State) : State :=
  let busy := s.lops.list.any (fun o => o.typ = typ && o.state = 1)
  (createOp typ target 0 (if busy then 0 else 1) s).1

/-- Rebuilds take entries in order of creation while fewer than 13 are outside a final state (R227). -/
def fillRebuilds : Nat → State → State
  | 0, s => s
  | fuel + 1, s =>
    match s.lops.queued with
    | [] => s
    | (t, g) :: rest =>
      if (s.lops.list.filter (fun o => isRebuild o.typ && !o.final)).length < 13 then
        fillRebuilds fuel (enterRebuild t g { s with lops := { s.lops with queued := rest } })
      else s

def createRebuild (typ target : Nat) (s : State) : State :=
  fillRebuilds 14 { s with lops := { s.lops with queued := s.lops.queued ++ [(typ, target)] } }

/-- The next queued operation of a type begins when none of the type runs (R313). -/
def startQueued (typ : Nat) (s : State) : State :=
  if s.lops.list.any (fun o => o.typ = typ && o.state = 1) then s
  else match s.lops.list.find? (fun o => o.typ = typ && o.state = 0) with
    | some o => modOp o.handle (fun o => { o with state := 1 }) s
    | none => s

/-- An operation reaches a final state (Table 08-10). -/
def endOp (h state outcome detail : Nat) (s : State) : State :=
  match s.op? h with
  | none => s
  | some o =>
    if o.final then s
    else
      let s := modOp h (fun o => { o with state := state, outcome := outcome, detail := detail, wants := []
                                          progress := if state = 3 then 10000 else s.progressOf o }) s
      actUpdate (if isRebuild o.typ then fillRebuilds 14 (startQueued o.typ s) else s)

/-- Every operation of some types that is not in a final state ends in state cancelled (R230, R313). -/
def cancelOps (p : Nat → Bool) (s : State) : State :=
  (s.lops.list.filter (fun o => p o.typ && !o.final)).foldl (fun s o => endOp o.handle 5 7 0 s) s

end Sys2Proof.Machine
end

