-- ==== Sys2Proof/Machine/MediaOps.lean ====
section
/-! DEFINITION. The flash at work (chapters 10 and 11): dies and the order in which a channel serves them, suspends, programs verified or
failed, erases, retirement, relocation, refresh, and the failure of a die. -/

namespace Sys2Proof.Machine

open Sys2Proof

/-! ## Dies -/

def Die.idle (n : Nat) : Die :=
  { n := n, active := none, more := [], susp := [], timeouts := 0, resetWait := false, slow := false, failed := false, holdback := false, owed := [] }

def State.die (s : State) (d : Nat) : Die := (s.dies.dies.find? (fun x => x.n = d)).getD (Die.idle d)

/-- An idle die is not listed. -/
def setDie (x : Die) (s : State) : State :=
  let rest := s.dies.dies.filter (fun y => y.n ≠ x.n)
  { s with dies := { s.dies with dies := if x = Die.idle x.n then rest else rest.filter (fun y => y.n < x.n) ++ x :: rest.filter (fun y => x.n < y.n) } }

def modDie (d : Nat) (f : Die → Die) (s : State) : State := setDie (f (s.die d)) s

def modMoves (p : Move → Bool) (f : Move → Move) (s : State) : State :=
  { s with ftl := { s.ftl with moves := mapIf p f s.ftl.moves } }

def modProgs (p : Prog → Bool) (f : Prog → Prog) (s : State) : State :=
  { s with ftl := { s.ftl with progs := mapIf p f s.ftl.progs } }

def State.emptying? (s : State) (n : Nat) : Option Emptying := s.ftl.emptying.find? (fun e => e.band = n)

def modEmptying (n : Nat) (f : Emptying → Emptying) (s : State) : State :=
  { s with ftl := { s.ftl with emptying := mapIf (fun e => e.band = n) f s.ftl.emptying } }

/-- Programs of a band are under way. -/
def State.programming (s : State) (n : Nat) : Bool := s.ftl.progs.any (fun p => p.band = n)

def State.prog? (s : State) (id : Nat) : Option Prog := s.ftl.progs.find? (fun p => p.id = id)

def State.rd? (s : State) (id : Nat) : Option Rd := s.dies.reads.find? (fun r => r.id = id)

def modRd (id : Nat) (f : Rd → Rd) (s : State) : State :=
  { s with dies := { s.dies with reads := mapIf (fun r => r.id = id) f s.dies.reads } }

/-- A read is dropped, with the peers that it waited for. -/
def dropRd (id : Nat) (s : State) : State :=
  { s with dies := { s.dies with reads := s.dies.reads.filter (fun r => r.id ≠ id && r.parent ≠ some id) } }

/-- The number of a codeword read or a probe. -/
def OpKind.readNo : OpKind → Option Nat | .read n => some n | .probe n => some n | _ => none

def OpKind.isRead (k : OpKind) : Bool := k.readNo.isSome

/-- The band of a program or erase, and whether it runs in TLC mode. -/
def State.opBand (s : State) (k : OpKind) : Option Band :=
  match k with
  | .read _ | .probe _ => none
  | .program pg => (s.prog? pg).bind (fun p => s.band? p.band)
  | .erase b => s.band? b

/-- A TLC program or an erase: what a policy may suspend (R283). -/
def State.suspendable (s : State) (k : OpKind) : Bool :=
  match k with
  | .read _ | .probe _ => false
  | .erase _ => true
  | .program _ => match s.opBand k with | some b => b.tlc | none => false

/-! ## Limits of Table 17-1 under the throttle step (R445, R456, R458, R459) -/

def State.effectiveStep (s : State) : Nat := if s.pwr.thermalSafe then max 3 s.pwr.step else s.pwr.step

/-- Dies programming or erasing, and die reads in flight, of the class, capped at the dies present; in PS1, from step 2 on, the row halved and rounded down
(Tables 17-1 and 17-2; that the step's fraction then applies to PS1's row is DEDUCED, log entry 53). -/
def State.classLimit (s : State) : Nat × Nat :=
  let row := match s.powerClass with | 4 => (13, 9) | 6 => (26, 17) | 8 => (40, 25) | 10 => (52, 31) | _ => (64, 64)
  let n := if 2 ≤ s.effectiveStep then 2 else 1
  (min row.1 s.dieCount / n, min row.2 s.dieCount / n)

/-- A step's fraction of a count, rounded down and never below 1 (Table 17-6). -/
def stepFraction (n step : Nat) : Nat :=
  match step with | 0 => n | 1 => max 1 (n * 3 / 4) | 2 => max 1 (n / 2) | _ => max 1 (n / 4)

/-- The read data and write admission ceilings in bytes of a 10 ms window, by class, PS1 and throttle step; none: no limit (Tables 17-1, 17-2 and 17-6). -/
def State.ceilings (s : State) : Option (Nat × Nat) :=
  let step := s.effectiveStep
  let row := match s.powerClass with
    | 4 => some (35000000, 30000000) | 6 => some (65000000, 60000000) | 8 => some (95000000, 85000000) | 10 => some (120000000, 110000000)
    | _ => if 2 ≤ step then some (135000000, 130000000) else none
  let n := if 2 ≤ step then 2 else 1
  row.map (fun x => (stepFraction (x.1 / n) step, stepFraction (x.2 / n) step))

/-- What is left to count of the bytes of the last window counted: each window since has let its ceiling pass (R445, log entry 135). -/
def State.readOver (s : State) : Nat := match s.ceilings with | some c => s.pwr.readBytes - c.1 * (s.rst.timeMs / 10 - s.pwr.readWindow) | none => 0

def State.writeOver (s : State) : Nat := match s.ceilings with | some c => s.pwr.writeBytes - c.2 * (s.rst.timeMs / 10 - s.pwr.writeWindow) | none => 0

/-- The ceiling of the window has been reached: the next read, or the next write, waits (R445). -/
def State.readCeiling (s : State) : Bool := match s.ceilings with | some c => c.1 ≤ s.readOver | none => false

def State.writeCeiling (s : State) : Bool := match s.ceilings with | some c => c.2 ≤ s.writeOver | none => false

/-- A codeword read for the host counts. -/
def countReadData (s : State) : State :=
  { s with pwr := { s.pwr with readBytes := s.readOver + 4096, readWindow := s.rst.timeMs / 10 } }

/-- No program or erase is issued at step 4, but what R459 exempts. -/
def State.programLimit (s : State) : Nat :=
  if s.sup.draining || s.safe then s.dieCount
  else if s.effectiveStep = 4 then 0 else stepFraction s.classLimit.1 s.effectiveStep

def State.readLimit (s : State) : Nat := stepFraction s.classLimit.2 s.effectiveStep

/-- Dies that program or erase, a suspended operation included (R463). -/
def State.diesBusy (s : State) : Nat :=
  (s.dies.dies.filter (fun x => x.susp ≠ [] || (match x.active with | some a => !a.kind.isRead | none => false))).length

def State.readsInFlight (s : State) : Nat :=
  (s.dies.dies.map (fun x => (match x.active with | some a => if a.kind.isRead then 1 else 0 | none => 0) + x.more.length)).sum

/-! ## Priority (R26, R27) -/

/-- The channel island is out of reset. -/
def State.channelUp (s : State) (c : Nat) : Bool :=
  s.rst.islands.any (fun x => x.2 = .released && (match x.1 with | .ch n => n.val = c | _ => false))

/-- A die operation empties a band for some kind of work: it reads it, programs copies from it, or erases it. -/
def State.empties (s : State) (k : Nat → Bool) (o : DieOp) : Bool :=
  let of := fun n => s.ftl.emptying.any (fun e => e.band = n && k e.kind)
  match o.kind with
  | .read r => (match s.rd? r with | some x => (x.use = 1 || x.use = 3) && of (bandOfSlot x.slot) | none => false)
  | .erase b => of b
  | .program pg => (match s.prog? pg with
    | some p => s.ftl.moves.any (fun m => of (bandOfSlot m.old) && p.slots.any (fun x => m.new = some x.n))
    | none => false)
  | .probe _ => false

/-- Collection, a rebuild. -/
def forCollection (k : Nat) : Bool := k = 0

def forRebuild (k : Nat) : Bool := k = 4

/-- Folding goes on above the cache's size by 8 bands or more (R255). -/
def State.foldUrgent (s : State) : Bool := s.cacheSize + 8 ≤ s.cacheBands

/-- A rebuild's operation of a channel has waited longer than 4 ms, and the channel has served less than 25 of the last 100 ms so: the next one is
served as class 2 (R312). -/
def State.raises (s : State) (c : Nat) : Bool :=
  s.dies.queue.any (fun o => dieChannel o.die = c && o.since + 4 < s.rst.timeMs && s.empties forRebuild o)
  && (s.dies.raisedMs.filter (fun x => x.1 = c && s.rst.timeMs < x.2 + 100)).length < 25

/-- The class that an operation is served at: collection's as class 2 while the free pool is below the reserve floor, folding's while the cache is far
above its size, a rebuild's after waiting (R27, R255, R312). -/
def State.effClass (s : State) (o : DieOp) : Nat :=
  if o.cls ≠ 3 then o.cls
  else if (s.freeBands < s.reserveFloor && s.empties forCollection o) || (s.foldUrgent && s.empties (· = 1) o)
    || (s.raises (dieChannel o.die) && s.empties forRebuild o) then 2
  else 3

/-- Class 3 work that a throttle step of 3 does not defer: refresh and rebuild. -/
def State.exempt (s : State) (o : DieOp) : Bool :=
  s.empties (fun k => k = 3 || k = 4) o

/-- An operation of self-test or calibration (R300). -/
def State.isTest (s : State) (k : OpKind) : Bool :=
  match k with
  | .read r => (match s.rd? r with | some x => x.use = 6 | none => false)
  | .probe p => s.dies.probes.any (fun x => x.id = p && x.test)
  | .program pg => (match s.prog? pg with | some p => s.ftl.testBand.any (fun x => x.1 = p.band) | none => false)
  | .erase n => s.ftl.testBand.any (fun x => x.1 = n)

/-- A test's operation holds back: host work is queued for its die or channel, or, for a program or erase, was within the last 10 ms (R300). -/
def State.holdsBack (s : State) (o : DieOp) : Bool :=
  s.isTest o.kind && (s.dies.queue.any (fun q => dieChannel q.die = dieChannel o.die && q.cls < 3)
    || (!o.kind.isRead && s.dies.hostAt.any (fun x => x.1 = o.die && s.rst.timeMs < x.2 + 10)))

/-- The plane of a read or probe. -/
def State.opPlane (s : State) (k : OpKind) : Nat :=
  match k with
  | .read r => (match s.rd? r with | some x => x.slot % bandSlots / 60 % 4 | none => 0)
  | .probe p => (match s.dies.probes.find? (fun x => x.id = p) with | some x => x.plane | none => 0)
  | _ => 0

/-- The wordlines of a block are programmed in ascending order: a program waits for the earlier ones of its band on the die, and for an erase that the
band still needs there (R270, R271). -/
def State.inOrder (s : State) (o : DieOp) : Bool :=
  match o.kind with
  | .program pg =>
    (match s.prog? pg with
     | some p => !s.ftl.progs.any (fun q => q.band = p.band && q.id < p.id && o.die ∈ q.wait)
       && (match s.band? p.band with | some b => o.die ∉ b.eraseWait | none => true)
     | none => true)
  | _ => true

/-- Whether an operation may start on its die now, and whether by suspending what runs there (Table 10-7). Up to four reads of different planes of a
die are in flight together (R271). -/
def State.canStart (s : State) (o : DieOp) : Option Bool :=
  let x := s.die o.die
  let cls := s.effClass o
  let read := o.kind.isRead
  let counted := x.susp ≠ [] || (match x.active with | some a => !a.kind.isRead | none => false)
  let room := if read then decide (s.readsInFlight < s.readLimit) && !(o.cls = 0 && s.readCeiling)
    else decide (s.programLimit ≠ 0) && (counted || decide (s.diesBusy < s.programLimit))
  if s.dieDead o.die || x.resetWait || !room || !s.channelUp (dieChannel o.die) || !s.inOrder o || s.holdsBack o then none
  else if cls = 3 && s.effectiveStep = 3 && !s.exempt o then none
  else
    let nested := s.suspendPolicy = 2
    let beside := x.susp = [] || (read && o.cls = 0 && (!nested || (match o.kind.readNo with | some r => r ∈ x.owed | none => false)))
    match x.active with
    | none => if beside then some false else none
    | some a =>
      let byRead := read && o.cls = 0 && s.suspendable a.kind
      let erase := match a.kind with | .erase _ => true | _ => false
      if read && a.kind.isRead then
        (if beside && (a :: x.more).all (fun q => s.opPlane q.kind ≠ s.opPlane o.kind) then some false else none)
      else if s.suspendPolicy = 1 && byRead && x.susp = [] then some true
      else if nested && byRead && !a.minRun && x.susp.length < 2 then some true
      else if nested && !read && (cls = 1 || cls = 2) && (match o.kind with | .program _ => true | _ => false) && erase && !a.minRun
        && x.susp = [] then some true
      else none

/-- The operation that a channel serves next, with its place in the queue. -/
def State.nextOp (s : State) (c : Nat) : Option (DieOp × Bool) :=
  let able := s.dies.queue.filterMap (fun o => if dieChannel o.die = c then (s.canStart o).map (fun b => (o, b)) else none)
  able.foldl (fun acc x => match acc with
    | none => some x
    | some y => if s.effClass x.1 < s.effClass y.1 then some x else acc) none

/-! ## The block state table (R275, R276) -/

/-- The wordline that a block must stand at for a program: swatch A comes before the data, swatch B after it. -/
def Prog.place (p : Prog) : Nat := if p.wl = swatchA then 0 else min p.wl 768

/-- The block state check of R276, on the blocks of the band on the die. -/
def State.programAllowed (s : State) (o : DieOp) : Bool :=
  match o.kind with
  | .program pg =>
    match s.prog? pg with
    | some p => (match s.band? p.band with
      | some b => (b.on o.die).all (fun x => (x.st = .erased || x.st = .opened) && x.nextWl = p.place && x.tlc = p.tlc)
      | none => false)
    | none => true
  | _ => true

/-- The newest band state record of a band in the map log. -/
def State.bandRec (s : State) (n : Nat) : Option Change :=
  (s.log.pages.flatMap (·.recs) ++ s.log.inflight.flatMap (·.recs) ++ s.log.buf).reverse.findSome? (fun r =>
    match r.chg with | .band k _ _ _ => if k = n then some r.chg else none | _ => none)

/-- The wordline at which a band's blocks on a die stand: that of the first program still to run there, else the band's. -/
def State.wordlineOn (s : State) (b : Band) (d : Nat) : Nat :=
  match s.ftl.progs.find? (fun p => p.band = b.n && d ∈ p.wait) with
  | some p => p.place
  | none => min b.nextWl 768

/-- The block state entries of the band of a refused program, loaded again from the map log: state and mode by the newest band state record, and the
wordlines that the log's records have not caught up with by the band's programs (R276). -/
def reloadBlks (o : DieOp) (s : State) : State :=
  match (match o.kind with | .program pg => (s.prog? pg).bind (fun p => s.band? p.band) | _ => none) with
  | none => s
  | some b =>
    let l := match s.bandRec b.n with | some (.band _ _ _ l) => l | _ => []
    modBlks b.n (fun x => x.st ≠ .retired) (fun x =>
      let e := l.find? (fun y => y.1 = x.key)
      { x with st := (e.map (·.2.1)).getD x.st, tlc := (e.map (·.2.2.1)).getD x.tlc, nextWl := s.wordlineOn b (x.key / 4) }) s

/-- The program of a data wordline begins on a die: its stripes and its zone are stamped at the first, its codewords there with the die's temperature
(R274, R287), and the wordline after it comes next for the die's blocks (R275). -/
def beginProgram (p : Prog) (d : Nat) (s : State) : State :=
  if p.wl < 768 then
    let s := if p.begun then s else stampZone p.band p.wl (modProgs (fun q => q.id = p.id) (fun q => { q with begun := true, slots := q.slots.map s.stampStripe }) s)
    let s := stampTemp p.band p.wl d (modProgs (fun q => q.id = p.id) (fun q => { q with slots := q.slots.map (s.stampDie d) }) s)
    modBlks p.band (fun x => x.key / 4 = d) (fun x => { x with st := .opened, nextWl := p.wl + 1 }) s
  else s

/-- What the block state table records when an operation is issued: the wordline after a program's, and the state erasing, which a band state record
says of the band (R275). -/
def markIssued (o : DieOp) (s : State) : State :=
  match o.kind with
  | .program pg => (match s.prog? pg with | some p => beginProgram p o.die s | none => s)
  | .erase n =>
    let first : Bool := match s.band? n with | some b => b.blks.all (fun x => x.st ≠ .erasing) | none => false
    let s := modBlks n (fun x => x.key / 4 = o.die && x.st ≠ .retired) (fun x => { x with st := .erasing }) s
    if first then noteBand n s else s
  | _ => s

/-! ## Threshold classes and read thresholds (R288, R289) -/

/-- ⌊4 log2(1 + a)⌋ for an age of m minutes: the largest k with 2^k ≤ ((60 + m)/60)^4. -/
def ageClass (m : Nat) : Nat := Nat.log2 ((60 + m) ^ 4 / 60 ^ 4)

/-- The class that R288 computes for a zone of a block: age, wear and read count. -/
def State.computedClass (s : State) (b : Band) (x : Blk) (z : Nat) : Nat :=
  let d := x.key / 4
  let stamp := match b.stamps.find? (fun y => y.zone = z) with | some y => y.aging | none => s.agingMin d
  min 63 (ageClass (s.agingMin d - stamp) + 8 * x.wear / 100000 + min 4 (x.reads / 100000))

/-- The class of a zone of a block: the one learned since the start, until its inputs move it by 2 or more, or the computed one. -/
def State.classOf (s : State) (b : Band) (x : Blk) (z : Nat) : Nat :=
  let c := s.computedClass b x z
  match (x.zones.find? (fun y => y.zone = z)).bind (·.learned) with
  | some (m, c0) => if c < c0 + 2 && c0 < c + 2 then m else c
  | none => c

/-- The highest class of any zone of a band. -/
def State.bandClass (s : State) (b : Band) : Nat := (b.blks.flatMap (fun x => x.zones.map (fun z => s.classOf b x z.zone))).foldl max 0

/-- The zone of a slot. -/
def Band.zoneOf (b : Band) (slot : Nat) : Nat := wordlineOf b.tlc (slot % bandSlots) / 96

/-- The block that a read reads, as die * 4 + plane (R304). -/
def Rd.key (r : Rd) : Nat := 4 * r.die + r.slot % bandSlots / 60 % 4

/-- The band, block and zone of a read. -/
def State.rdBlk (s : State) (r : Rd) : Option (Band × Blk × Nat) :=
  (s.band? (bandOfSlot r.slot)).bind (fun b => (b.blks.find? (fun x => x.key = r.key)).map (fun x => (b, x, b.zoneOf r.slot)))

/-- The class that a read begins with. -/
def State.startClass (s : State) (r : Rd) : Nat := match s.rdBlk r with | some (b, x, z) => s.classOf b x z | none => 0

/-- A signed byte of the calibration row, or of the trims that stand in for it (R357, Table 13-5). -/
def State.trim (s : State) (k : Nat) : Int := (if s.rst.calGood then Config.calibrationByte k else Config.romTrimByte k).toInt

/-- The class tables of a die: those that calibration has written, or the initial ones of the calibration row. -/
def State.tableOf (s : State) (d : Nat) : DieTable :=
  match s.rec_.tables.find? (fun t => t.die = d) with
  | some t => t
  | none =>
    { die := d, tlc := (List.range 64).map (fun c => (List.range 7).map (fun v => s.trim (0x130 + 7 * c + v)))
      slc := (List.range 64).map (fun c => s.trim (0x2F0 + c)), cross := (List.range 8).map (fun v => s.trim (0x330 + v)) }

/-- The offsets of a class on a die, with the cross-temperature correction from 10 °C on, rounded to whole steps (R289). -/
def State.offsets (s : State) (tlc : Bool) (d c : Nat) (temp : Int) : List Int :=
  let t := s.tableOf d
  let base := if tlc then t.tlc.getD c [] else [t.slc.getD c 0]
  let diff := s.dieTemp d - temp
  if 10 ≤ diff.natAbs then
    (List.range base.length).map (fun i => base.getD i 0 + (t.cross.getD (if tlc then i else 7) 0 * diff + 50) / 100)
  else base

/-- The thresholds at which a page is read: of the lower, middle and upper page in TLC mode (R270). -/
def pageThresholds (tlc : Bool) (pos : Nat) : List Nat :=
  if !tlc then [0] else match pos % 720 / 240 with | 0 => [0, 4] | 1 => [1, 3, 5] | _ => [2, 6]

/-- The senses of a step: one, or the soft reads of steps 7 and 8 (Table 10-11). -/
def stepSenses (step : Nat) : List Int := match step with | 7 => [-2, 2] | 8 => [-3, -1, 1, 3] | _ => [0]

/-- The thresholds that the channel engine loads for a read (R289); the class it begins with is the first one tried. -/
def loadThresholds (id : Nat) (s : State) : State :=
  match s.rd? id with
  | none => s
  | some r =>
    let tried := if r.tried = [] then [s.startClass r] else r.tried
    let base := match s.rdBlk r with
      | some (b, x, z) =>
        let l := s.offsets b.tlc r.die (tried.getLastD 0) (match x.zones.find? (fun (y : ZoneTh) => y.zone = z) with | some y => y.temp | none => s.dieTemp r.die)
        (pageThresholds b.tlc (r.slot % bandSlots)).map (fun i => l.getD i 0)
      | none => []
    modRd id (fun x => { x with tried := tried, thr := (stepSenses r.step).map (fun k => base.map (· + k)) }) s

/-- An operation is issued to its die, suspending what runs there where the policy has it so, or beside the reads of other planes. -/
def issue (o : DieOp) (suspends : Bool) (s : State) : State :=
  let x := s.die o.die
  let owed := s.dies.queue.filterMap (fun q => if q.die = o.die && q.cls = 0 then q.kind.readNo else none)
  let s := markIssued o { s with dies := { s.dies with queue := s.dies.queue.erase o } }
  let s := match o.kind with | .read r => loadThresholds r (if o.cls = 0 then countReadData s else s) | _ => s
  let o := { o with raised := s.effClass o < o.cls && s.empties forRebuild o }
  match x.active, suspends with
  | some a, true => setDie { x with active := some o, susp := a :: x.susp, owed := owed } s
  | some _, false => setDie { x with more := x.more ++ [o] } s
  | none, _ => setDie { x with active := some o } s

/-- The innermost suspended operation resumes on a die that runs nothing, once its policy has it so (Table 10-7). -/
def resumeDie (d : Nat) (s : State) : State :=
  let x := s.die d
  match x.active, x.susp with
  | none, a :: rest =>
    let waiting := if s.suspendPolicy = 2 then x.owed ≠ []
      else s.dies.queue.any (fun q => q.die = d && q.cls = 0 && q.kind.isRead)
    if waiting then s else setDie { x with active := some { a with minRun := s.suspendPolicy = 2 }, susp := rest } s
  | _, _ => s

/-- A die's operation, of several reads the oldest, has ended; on a die that runs nothing a suspended operation may resume. -/
def endDieOp (d : Nat) (s : State) : State :=
  let x := s.die d
  let owed := match x.active.bind (fun a => a.kind.readNo) with | some r => x.owed.filter (· ≠ r) | none => x.owed
  resumeDie d (setDie { x with active := x.more.head?, more := x.more.drop 1, owed := owed, timeouts := 0, slow := false } s)

/-! ## Pool, pacing and wear (R264, R266) -/

/-- Collection runs from below twice the reserve floor until three times the floor (R260). -/
def collectUpdate (s : State) : State :=
  let on := s.freeBands < 2 * s.reserveFloor || (s.ftl.collecting && s.freeBands < 3 * s.reserveFloor)
  { s with ftl := { s.ftl with collecting := on } }

def poolUpdate (s : State) : State :=
  let s := collectUpdate s
  match s.ftl.pacing with
  | none => if s.freeBands < s.reserveFloor then { s with ftl := { s.ftl with pacing := some 0 } } else s
  | some _ => if s.reserveFloor + 16 ≤ s.freeBands then { s with ftl := { s.ftl with pacing := none } } else s

/-- The spare count has reached 0: worn read-only for the life of the module (R266, R267). -/
def checkWorn (s : State) : State :=
  if !s.rec_.worn && s.spareCount = 0 then
    aliveUpdate (programAll (addNote 0x05 0 { s with rec_ := { s.rec_ with worn := true } }))
  else s

/-! ## Retirement (R249, R280) -/

/-- A block of a band, by its key die × 4 + plane, is retired (R280). -/
def retireBlock (n key : Nat) (s : State) : State :=
  let s := { s with
    ftl := { s.ftl with retired := s.ftl.retired + 1 }
    dies := { s.dies with grown := s.dies.grown ++ [(key / 4, s.health.powerOnMs)] } }
  noteBand n (modBlks n (fun x => x.key = key) (fun x => { x with st := .retired }) s)

/-- A spare block of a plane takes the place of a retired one; the spares left, if the plane has one. -/
def takeSpare (key : Nat) (l : List Blk) : Option (Blk × List Blk) :=
  (l.find? (fun x => x.key = key)).map (fun x => (x, l.erase x))

/-- The blocks of a band with its retired ones replaced by spares of their planes; none: a plane has no spare block (R249). -/
def replaceRetired : List Blk → List Blk → Option (List Blk × List Blk)
  | [], spares => some ([], spares)
  | x :: xs, spares =>
    if x.st ≠ .retired then (replaceRetired xs spares).map (fun r => (x :: r.1, r.2))
    else (takeSpare x.key spares).bind (fun t => (replaceRetired xs t.2).map (fun r => (t.1 :: r.1, r.2)))

/-- The lowest-numbered host band of group 0 in the free pool (R249). -/
def State.lowestFree (s : State) : Option Nat :=
  (List.range (s.bandsIn 0)).find? (fun n => s.isHostBand n && (match s.band? n with | some b => b.st = .free | none => true))

/-- A band of the system region that is dissolved gives its place to the lowest-numbered free host band of group 0 (R249). -/
def moveSystem (n : Nat) (s : State) : State :=
  if s.isSystem n then
    match s.lowestFree with
    | some m => { s with ftl := { s.ftl with system := s.ftl.system.filter (· ≠ n) ++ [m] } }
    | none => s
  else s

/-- A band is dissolved: its other blocks become spares of their planes (R249). -/
def dissolve (n : Nat) (s : State) : State :=
  match s.band? n with
  | none => s
  | some b =>
    let left := b.blks.filter (fun x => x.st ≠ .retired)
    let s := modBand n (fun b => { b with st := .dissolved, blks := [] }) { s with ftl := { s.ftl with spares := s.ftl.spares ++ left } }
    checkWorn (moveSystem n (resizeCache (noteBand n s)))

/-- An erased band's retired blocks are replaced, or the band is dissolved (R249). -/
def mendBand (n : Nat) (s : State) : State :=
  match s.band? n with
  | none => s
  | some b =>
    if b.blks.all (fun x => x.st ≠ .retired) then s
    else match replaceRetired b.blks s.ftl.spares with
      | some (l, spares) => modBand n (fun b => { b with blks := l }) { s with ftl := { s.ftl with spares := spares } }
      | none => dissolve n s

/-! ## Relocation (R28, R261, R262) -/

/-- The relocation or fold write point of a kind of emptying and a stream. -/
def copyPoint (kind stream : Nat) : Nat × Nat := if kind = 1 then (3, stream) else (2, 0)

/-- The write point for a copy from a slot (R250, R255). -/
def State.copyPoint (s : State) (old stream : Nat) : Nat × Nat :=
  Sys2Proof.Machine.copyPoint (match s.emptying? (bandOfSlot old) with | some e => e.kind | none => 0) stream

/-- The copy of one slot begins: a read, whose data will go to a relocation or fold write point; `stroke`: with the whole of its stroke. -/
def startMove (slot cls : Nat) (stroke : Option Nat) (block : Nat) (s : State) : State :=
  if s.ftl.moves.any (fun m => m.old = slot) then s
  else
    let use := if stroke.isSome then 3 else 1
    startRd 0 0 slot cls use { s with ftl := { s.ftl with moves := s.ftl.moves ++ [{ old := slot, new := none, cls := cls, stroke := stroke, block := block }] } }

/-- The block whose entry names a slot, for a pending entry the one that the codeword carries. -/
def State.blockAt (s : State) (slot : Nat) : Nat :=
  match s.map.blockOfSlot slot with
  | some b => b
  | none => match s.slot? slot with | some x => x.cw.block | none => 0

/-- The copies of some slots of a band begin, a stroke-mapped stroke as a whole, so that it stays one (R261, R268); folding takes stream by stream
(R255). -/
def startCopies (n cls : Nat) (slots : List Nat) (s : State) : State :=
  let whole := s.map.strokes.filter (fun x => x.kind = 1 && bandOfSlot (slotOfLocation x.loc) = n
    && (List.range 32).all (fun i => slotOfLocation x.loc + i ∈ slots))
  let s := whole.foldl (fun s x => (List.range 32).foldl (fun s i => startMove (slotOfLocation x.loc + i) cls (some x.n) (32 * x.n + i) s) s) s
  let streamOf := fun (sl : Nat) => match s.slot? sl with | some x => x.cw.stream | none => 0
  let sorted := if s.ftl.emptying.any (fun e => e.band = n && e.kind = 1) then (List.range 64).flatMap (fun k => slots.filter (fun sl => streamOf sl = k)) else slots
  sorted.foldl (fun s sl => startMove sl cls none (s.blockAt sl) s) s

/-- A band begins to be emptied. -/
def startEmptying (n kind cls : Nat) (s : State) : State :=
  if s.ftl.emptying.any (fun e => e.band = n) then s
  else
    let e : Emptying := { band := n, kind := kind, cls := cls, logged := false, logSeq := 0, copied := 0, dueStale := s.nib.next - 1, waited := false, lost := [] }
    startCopies n cls (s.liveSlots n) { s with ftl := { s.ftl with emptying := s.ftl.emptying ++ [e] } }

/-- A write's blocks that came to be mapped while their band was already being emptied are copied too (R278). -/
def copyNew (s : State) : State :=
  s.ftl.emptying.foldl (fun s e =>
    startCopies e.band e.cls ((s.liveSlots e.band).filter (fun n => n ∉ e.lost && !s.ftl.moves.any (fun m => m.old = n))) s) s

/-- A refresh under way goes on at a higher class, with its copies and their queued reads (R297). -/
def raiseRefresh (n cls : Nat) (s : State) : State :=
  let mine := fun (q : DieOp) => match q.kind with
    | .read r => (match s.rd? r with | some x => (x.use = 1 || x.use = 3) && bandOfSlot x.slot = n | none => false)
    | .erase k => k = n
    | _ => false
  let s := { s with dies := { s.dies with queue := mapIf (fun q => cls < q.cls && mine q) (fun q => { q with cls := cls }) s.dies.queue } }
  modEmptying n (fun e => { e with cls := min cls e.cls }) (modMoves (fun m => bandOfSlot m.old = n) (fun m => { m with cls := min cls m.cls }) s)

/-- A band meets a refresh trigger: it is relocated at the highest class asked, at once where it is closed (R297). -/
def refreshBand (n cls : Nat) (s : State) : State :=
  if s.isSystem n then s
  else
    let s := modBand n (fun b => { b with refresh := some (min cls (b.refresh.getD cls)) }) s
    match s.band? n, s.emptying? n with
    | some _, some e => if e.kind = 3 then raiseRefresh n cls s else s
    | some b, none => if (b.st = .closed || b.st = .closedEarly) && !s.programming n then startEmptying n 3 (b.refresh.getD cls) s else s
    | none, _ => s

/-- Copies of a band's data have been programmed: so many slots (R264). -/
def noteCopied (n slots : Nat) (s : State) : State := modEmptying n (fun e => { e with copied := e.copied + 4096 * slots }) s

/-- Data of a slot copied to its write point; the slot taken. -/
def copyOut (m : Move) (x : Slot) (s : State) : State :=
  let pt := s.copyPoint m.old x.cw.stream
  let t := append pt.1 pt.2 m.cls [{ x.cw with relocated := true }] (bindWp pt.1 pt.2 s)
  modMoves (fun y => y.old = m.old) (fun y => { y with new := t.2 }) (noteCopied (bandOfSlot m.old) 1 t.1)

/-- The stripes that hold copies are closed once every copy of a band has been read. -/
def closeCopies (n : Nat) (s : State) : State :=
  let mine := s.ftl.moves.filter (fun m => bandOfSlot m.old = n)
  if mine.all (fun m => m.new.isSome) then
    ((mine.filterMap (fun m => m.new.map bandOfSlot)).eraseDups).foldl (fun s b => closeBandStripes b 3 s) s
  else s

/-- The copies of a stroke. -/
def State.strokeMoves (s : State) (k : Nat) : List Move := s.ftl.moves.filter (fun m => m.stroke = some k)

/-- A stroke whose blocks are all read is written as one: a demotion's at the relocation write point, another's where its band is emptied to (R241,
R243, R261). A block without stored data is written as zeros. -/
def placeStroke (k : Nat) (s : State) : State :=
  match s.strokeMoves k with
  | [] => s
  | m :: ms =>
    let src := fun i => ((m :: ms).find? (fun y => y.block % 32 = i)).bind (fun y => s.slot? y.old)
    let cws := (List.range 32).map (fun i => match src i with
      | some x => { x.cw with relocated := true }
      | none => dataCodeword (m.block / 32 * 32 + i) 0 0 0 false true [])
    let pt := s.copyPoint m.old (match s.slot? m.old with | some x => x.cw.stream | none => 0)
    let t := append pt.1 pt.2 m.cls cws (bindWp pt.1 pt.2 s)
    match t.2 with
    | none => t.1
    | some sl =>
      let n := bandOfSlot m.old
      let s := modMoves (fun y => y.stroke = some k) (fun y => { y with new := some (sl + y.block % 32) }) (noteCopied n 32 t.1)
      if s.ftl.emptying.any (fun e => e.band = n) then closeCopies n s else closeBandStripes (bandOfSlot sl) 3 s

/-- Relocation records (Table 09-5): one for each run of blocks that one write wrote and that is contiguous both logically and on the flash, with the
original ruling and the block numbers its data had then (R246, R261). -/
def relocRecs : List (Slot × Nat) → List MapRec
  | [] => []
  | (x, new) :: rest =>
    let r : MapRec := { ruling := x.cw.ruling, typ := 3, last := true, poisoned := x.cw.poisoned, count := 1, part := x.cw.part, block := x.cw.block
                        slot := some new, seq := 0, chg := .none }
    match relocRecs rest with
    | q :: more =>
      if q.ruling = r.ruling && q.part = r.part && q.poisoned = r.poisoned && q.block = r.block + 1 && q.slot = some (new + 1) && q.count < 4096
        then { r with count := q.count + 1 } :: more else r :: q :: more
    | [] => [r]

/-- Pending entries follow the data that they name (R430). -/
def movePending (old new : Nat) (s : State) : State :=
  let es := s.rec_.epochs.map (fun e => { e with pend := mapIf (fun d => d.slot = old) (fun d => { d with slot := new }) e.pend })
  { s with rec_ := { s.rec_ with epochs := es } }

def insertMove (m : Move) (l : List Move) : List Move := l.filter (fun y => y.new.getD 0 < m.new.getD 0) ++ m :: l.filter (fun y => ¬ y.new.getD 0 < m.new.getD 0)

/-- Verified copies are logged: pending entries follow, and relocation records say the rest, in the order of the new slots (R261 step 2). -/
def logCopies (l : List Move) (s : State) : State :=
  let held := l.filter (fun m => s.pendingSlot m.old)
  let rest := (l.filter (fun m => !s.pendingSlot m.old)).foldr insertMove []
  let s := held.foldl (fun s m => movePending m.old (m.new.getD 0) s) s
  (relocRecs (rest.filterMap (fun m => (s.slot? m.old).map (fun x => (x, m.new.getD 0))))).foldl (fun s r => addRec r s) s

/-- One copy is verified: the live map follows where it still names the slot read (R262). -/
def remap (m : Move) (s : State) : State :=
  match m.new, s.map.blockOfSlot m.old with
  | some new, some b => { s with map := s.map.relocate b new [m.old] }
  | _, _ => s

/-- A whole stroke's copies are verified: its records are logged and the stroke takes its new location; the read cache drops it (R243, R245). -/
def logStroke (k : Nat) (s : State) : State :=
  let mine := s.strokeMoves k
  let old := (List.range 32).map (fun i => (mine.find? (fun m => m.block % 32 = i)).map (·.old))
  match mine.findSome? (fun m => m.new.map (fun n => (m.block / 32, n - m.block % 32))) with
  | none => s
  | some (n, sl) =>
    let s := logCopies mine s
    { s with
      map := s.map.demote n sl old
      ftl := { s.ftl with moves := s.ftl.moves.filter (fun m => m.stroke ≠ some k), cache := s.ftl.cache.filter (fun b => b / 32 ≠ n) } }

/-- A copy stands on the media. -/
def State.landed (s : State) (m : Move) : Bool := m.new.any (fun n => (s.slot? n).isSome)

/-- Copies that have passed verify: single ones, and the strokes of which every block has (R243, R261). -/
def movesDone (s : State) : State :=
  let done := s.ftl.moves.filter (fun m => m.stroke.isNone && s.landed m)
  let s := done.foldl (fun s m => remap m s) (logCopies done s)
  let s := { s with ftl := { s.ftl with moves := s.ftl.moves.filter (fun m => !(m.stroke.isNone && s.landed m)) } }
  let ks := ((s.ftl.moves.filterMap (·.stroke)).eraseDups).filter (fun k => (s.strokeMoves k).all s.landed)
  ks.foldl (fun s k => logStroke k s) s

/-- Staged blocks stand in a band whose records have not been entered. -/
def State.stagedIn (s : State) (n : Nat) : Bool := s.res.staged.any (fun x => x.placed.any (fun sl => bandOfSlot sl = n))

/-- Every copy of a band is logged: its records' last place in the log is noted (R261 step 2). -/
def noteLogged (s : State) : State :=
  let due := fun (e : Emptying) => !e.logged && !s.ftl.moves.any (fun m => bandOfSlot m.old = e.band)
    && s.liveSlots e.band = [] && !s.stagedIn e.band
  let mark := fun (e : Emptying) =>
    { e with logged := true, logSeq := s.log.nextSeq, dueStale := if e.waited then 0 else s.nib.next - 1 }
  { s with ftl := { s.ftl with emptying := mapIf due mark s.ftl.emptying } }

/-- No record before a place of the log waits for its page. -/
def State.durableTo (s : State) (seq : Nat) : Bool :=
  !s.log.buf.any (fun r => r.seq < seq) && !s.log.inflight.any (fun p => p.recs.any (fun r => r.seq < seq))

/-- Step 3 of R261 is complete for a band (R334), and no read still looks at it (R262). -/
def State.erasable (s : State) (e : Emptying) : Bool :=
  e.logged && s.durableTo e.logSeq && e.dueStale ≤ s.settled && !s.dies.reads.any (fun r => bandOfSlot r.slot = e.band && r.use ≠ 1 && r.use ≠ 3)

/-- Erase of a band's blocks on the dies that it will keep, for the mode in which they are to run next (R261 step 4, R270, R311, R491). -/
def startErase (n cls : Nat) (s : State) : State :=
  match s.band? n with
  | none => s
  | some b =>
    let mode := s.eraseMode && !s.isSystem n
    queueErase n cls (b.dies.filter (fun d => !s.dieDead d)) (modBand n (fun b => { b with st := .erasing, blks := b.blks.map (fun x => { x with tlc := mode }) }) s)

def eraseReady (s : State) : State :=
  s.ftl.emptying.foldl (fun s e =>
    match s.band? e.band with
    | some b => if s.erasable e && (b.st = .closed || b.st = .closedEarly) && !s.programming e.band then startErase e.band e.cls s else s
    | none => s) s

/-- A block whose erase has passed: worn by the mode it was erased for, and without data, reads or classes (R272, R275). -/
def Blk.erase (x : Blk) : Blk :=
  { x with st := .erased, nextWl := 0, wear := x.wear + (if x.tlc then 10 else 1), reads := 0, zones := [] }

/-- The erase of a band has passed on a die. -/
def erasedOn (n die : Nat) (s : State) : State := modBlks n (fun x => x.key / 4 = die && x.st ≠ .retired) Blk.erase s

/-- What the end of its erase makes of a band (R249, R280). -/
def freeBand (s : State) (b : Band) : Band :=
  { b with st := .free, erases := b.erases + 1, nextPos := 0, nextWl := 0, cache := false, stamps := [], refresh := none, retireAfter := [], soft := []
           softBefore := if b.refresh.isSome then b.soft else b.softBefore
           chans := b.chans.filter (fun c => !s.dieDead (dieOf c (bandGroup b.n))), blks := b.blks.filter (fun x => !s.dieDead (x.key / 4)) }

/-- Every die of the band has erased: the band joins the free pool with its credit, or is dissolved without one (R249, R261, R264). -/
def erased (n : Nat) (s : State) : State :=
  match s.band? n with
  | none => s
  | some b =>
    let copied := match s.emptying? n with | some e => e.copied | none => 0
    let s := { s with ftl := { s.ftl with
      slots := s.ftl.slots.filter (fun x => bandOfSlot x.n ≠ n)
      xors := s.ftl.xors.filter (fun x => x.1 ≠ n)
      emptying := s.ftl.emptying.filter (fun e => e.band ≠ n)
      testBand := s.ftl.testBand.filter (fun x => x.1 ≠ n) } }
    let again := b.soft.filter (· ∈ b.softBefore)
    let s := ((b.retireAfter ++ again).eraseDups).foldl (fun s k => retireBlock n k s) s
    let s := mendBand n (modBand n (freeBand s) s)
    match s.band? n with
    | some b =>
      if b.st = .free then
        let s := if s.isHostBand n then { s with ftl := { s.ftl with pacing := s.ftl.pacing.map (fun c => c + (2264924160 - copied)) } } else s
        poolUpdate (resizeCache (noteBand n s))
      else poolUpdate s
    | none => s

/-! ## Programs that end -/

/-- Data of slots that must be programmed elsewhere, under the same rulings (R278, R309): staged blocks and copies. -/
def replaceSlots (slots : List Slot) (s : State) : State :=
  let nums := slots.map (·.n)
  let rulings := ((s.res.staged.filter (fun x => x.placed.any (· ∈ nums))).map (·.ruling)).eraseDups
  let s := { s with res := { s.res with staged := mapIf (fun x => x.placed.any (· ∈ nums)) (fun x => { x with placed := none, verified := false }) s.res.staged } }
  let s := rulings.foldl (fun s r => placeWrite r s) s
  let again := s.ftl.moves.filter (fun m => m.stroke.isNone && m.new.any (· ∈ nums))
  let s := again.foldl (fun s m => match s.slot? m.old with | some x => copyOut m x s | none => s) s
  let strokes := ((s.ftl.moves.filter (fun m => m.new.any (· ∈ nums))).filterMap (·.stroke)).eraseDups
  pushStripes (strokes.foldl (fun s k => placeStroke k s) s)

/-- A band closes, its open blocks with it (R275). -/
def shutBand (early : Bool) (n : Nat) (s : State) : State :=
  noteBand n (modBand n (fun b => { b with
      st := if early then .closedEarly else .closed, closedAt := s.ftl.closeNo
      blks := mapIf (fun x => x.st = .opened || x.st = .erased) (fun x => { x with st := if early then .closedEarly else .closed }) b.blks })
    { s with ftl := { s.ftl with closeNo := s.ftl.closeNo + 1 } })

/-- A refresh that waited for the band to close begins. -/
def refreshDue (n : Nat) (s : State) : State :=
  match (s.band? n).bind (·.refresh) with | some c => refreshBand n c s | none => s

/-- No program of a band is under way: after its last data wordline swatch B is programmed, and then the band closes (Table 10-6); so do the blocks
of a band that was closed early. -/
def closeBand (n cls : Nat) (s : State) : State :=
  match s.band? n with
  | none => s
  | some b =>
    if s.programming n then s
    else if b.st = .opened && b.nextWl = 768 then launch n swatchB cls [] (modBand n (fun b => { b with nextWl := 769 }) s)
    else if b.st = .opened && 769 ≤ b.nextWl then refreshDue n (shutBand false n s)
    else if b.st = .closedEarly && b.blks.any (fun x => x.st = .opened) then refreshDue n (shutBand true n s)
    else s

def insertSlot (x : Slot) (l : List Slot) : List Slot := l.filter (fun y => y.n < x.n) ++ x :: l.filter (fun y => x.n < y.n)

/-! ## The system region (R249, R309, R331) -/

/-- The band that the system write point takes next: one never used or free, else the one closed longest ago, whose pages no recovery needs any more
(R333; that the bands are used in turn is a DESIGN CHOICE, log entry 125). -/
def State.nextSystem (s : State) : Option Nat :=
  match s.ftl.system.find? (fun n => match s.band? n with | none => true | some b => b.st = .free) with
  | some n => some n
  | none =>
    ((s.ftl.bands.filter (fun b => s.isSystem b.n && (b.st = .closed || b.st = .closedEarly) && !s.programming b.n
      && !s.ftl.emptying.any (fun e => e.band = b.n))).foldl (fun (acc : Option Band) b => match acc with
        | none => some b
        | some a => if b.closedAt < a.closedAt then some b else some a) none).map (·.n)

/-- The open band of the system write point with a wordline left, a new one opened if need be (Table 09-6). -/
def systemBand : Nat → State → State × Option Nat
  | 0, s => (s, none)
  | fuel + 1, s =>
    match (s.wpFor 5 0).open_.find? (fun x => match s.band? x.2 with | some b => b.st = .opened && b.nextWl < 768 | none => false) with
    | some x => (s, some x.2)
    | none =>
      match s.nextSystem with
      | none => (s, none)
      | some n =>
        let s := mendBand n s
        if (s.band? n).any (fun b => b.st = .dissolved) then systemBand fuel s
        else (setWp { s.wpFor 5 0 with open_ := [(0, n)] } (openBand n false false 1 s), some n)

/-- A log page is programmed, class 1, on the next wordline of the system write point (R26, R331); the rest of its stripes is pad. -/
def launchPage (seq : Nat) (s : State) : State :=
  let r := systemBand 4 s
  match r.2.bind r.1.band? with
  | none => r.1
  | some b =>
    let s := modBand b.n (fun b => { b with nextWl := b.nextWl + 1, nextPos := (b.nextWl + 1) * 240 }) r.1
    launch b.n b.nextWl 1 [] { s with log := { s.log with progs := s.log.progs.filter (fun x => x.1 ≠ seq) ++ [(seq, s.ftl.nextProg)] } }

/-- Pages whose programs are lost are programmed again, each under a new page sequence (R309, R331). -/
def relaunchPages (ids : List Nat) (s : State) : State :=
  (s.log.progs.filter (fun x => x.2 ∈ ids)).foldl (fun s x =>
    let k := s.log.nextPage
    launchPage k { s with log := { s.log with
      inflight := mapIf (fun p => p.seq = x.1) (fun p => { p with seq := k }) s.log.inflight, nextPage := k + 1
      progs := s.log.progs.filter (fun y => y.1 ≠ x.1) } }) s

/-! ## Programs verified, programs that fail -/

/-- The band of segment 8 of a self-test is programmed and read back: it is erased again, with 10 wear units for each of its blocks (R298). -/
def testProgrammed (n : Nat) (s : State) : State :=
  if s.ftl.testBand = some (n, 1) && !s.programming n then
    let s := startErase n 3 { s with ftl := { s.ftl with testBand := some (n, 2) } }
    modBand n (fun b => { b with blks := b.blks.map (fun x => { x with tlc := true }) }) s
  else s

/-- Program verify of a whole wordline has passed on every die: its slots and its XOR pages stand on the media (R277, R305, R325). -/
def programVerified (p : Prog) (s : State) : State :=
  let nums := p.slots.map (·.n)
  let s := { s with
    ftl := { s.ftl with progs := s.ftl.progs.filter (fun q => q.id ≠ p.id), slots := p.slots.foldl (fun l x => insertSlot x l) s.ftl.slots
                        xors := s.ftl.xors ++ (s.accumulate p.slots).map (fun x => (p.band, x.1, x.2)) }
    res := { s.res with staged := mapIf (fun x => x.placed.any (· ∈ nums)) (fun x => { x with verified := true }) s.res.staged }
    health := { s.health with mediaBytes := sat 64 (s.health.mediaBytes + 4096 * p.slots.length) } }
  let s := endReleases (enterPending (enterReady (testProgrammed p.band (closeBand p.band p.cls (movesDone s)))))
  eraseReady (noteLogged (copyNew s))

/-- The dies of a wordline program and what they hold: data slots on a die. -/
def State.slotsOn (s : State) (p : Prog) (d : Nat) : List Slot := p.slots.filter (fun x => s.dieOfSlot x.n = d)

/-- The die that holds the XOR pages of a wordline (R303). -/
def xorDie (b : Band) (w : Nat) : Nat := dieOf (b.chans.getD ((w + b.n) % max 1 b.chans.length) 0) (bandGroup b.n)

/-- The self-test that runs has found what fails its segment (R298). -/
def testFound (s : State) : State :=
  { s with lops := { s.lops with list := mapIf (fun o => isSelfTest o.typ && o.state = 1) (fun o => { o with found := true }) s.lops.list } }

/-- A band is given up: no more of it is programmed, it closes early, what was to be programmed there goes elsewhere, log pages before any host data,
and what stands there is relocated (R278, R309). -/
def abandonBand (n : Nat) (s : State) : State :=
  let mine := s.ftl.progs.filter (fun q => q.band = n)
  let waiting := s.ftl.fill.filter (fun x => bandOfSlot x.n = n)
  let test := s.ftl.testBand.any (fun x => x.1 = n)
  let s := { s with
    ftl := { s.ftl with progs := s.ftl.progs.filter (fun q => q.band ≠ n), fill := s.ftl.fill.filter (fun x => bandOfSlot x.n ≠ n)
                        testBand := s.ftl.testBand.filter (fun x => x.1 ≠ n) }
    dies := { s.dies with queue := s.dies.queue.filter (fun q => q.kind ≠ .erase n && !mine.any (fun m => q.kind = .program m.id)) } }
  let s := shutBand true n (modBand n (fun b => { b with eraseWait := [] }) (if test then testFound s else s))
  if s.isSystem n then relaunchPages (mine.map (·.id)) s
  else eraseReady (noteLogged (startEmptying n 5 2 (checkWorn (replaceSlots (mine.flatMap (·.slots) ++ waiting) s))))

/-- Program verify fails (R278): the block is retired, the data of the band's wordlines that have not passed goes to another block, and the band's
verified data is relocated. -/
def programFailed (p : Prog) (d plane : Nat) (s : State) : State := abandonBand p.band (retireBlock p.band (4 * d + plane) s)

/-- Whether a wordline is read back after its program (Table 10-4). -/
def State.readBackDue (s : State) (p : Prog) (overLoop : Bool) : Bool :=
  p.wl = swatchA || (p.wl < 768 && p.wl % 96 = 0) || s.isSystem p.band || overLoop

/-! ## Swatch probes (R290, R292) -/

/-- A probe of a block's swatch A begins: it is read at four classes, which are free values (R290). -/
def startProbe (die band plane cls : Nat) (rd : Option Nat) (test : Bool) (s : State) : State :=
  let id := s.dies.nextRd
  let f := (Config.probeClasses s.health.powerOnMs id).toNat
  let p : Probe := { id := id, die := die, band := band, plane := plane, rd := rd, cls := cls
                     todo := [f % 64, f / 64 % 64, f / 4096 % 64, f / 262144 % 64], found := [], test := test }
  let s := { s with dies := { s.dies with probes := s.dies.probes ++ [p], nextRd := id + 1 } }
  enqueue [{ die := die, cls := cls, kind := .probe id, minRun := false }] s

/-- The sweep probes one block of each die at a time, as class 3 operations (R292). -/
def sweepDie (d : Nat) (s : State) : State :=
  if s.dies.probes.any (fun p => p.die = d && p.rd.isNone && !p.test) then s
  else match s.dies.sweep.find? (fun x => x.1 = d) with
    | some x => startProbe d x.2.1 x.2.2 3 none false { s with dies := { s.dies with sweep := s.dies.sweep.erase x } }
    | none => s

def sweepDies (s : State) : State := (List.range 64).foldl (fun s d => sweepDie d s) s

/-- The blocks of a band that hold data: die, band, plane. -/
def Band.probed (b : Band) : List (Nat × Nat × Nat) :=
  (b.blks.filter (fun x => (x.st = .opened || x.st = .closed || x.st = .closedEarly) && 0 < x.nextWl)).map (fun x => (x.key / 4, b.n, x.key % 4))

/-- Blocks join the sweep. -/
def addSweep (l : List (Nat × Nat × Nat)) (s : State) : State :=
  sweepDies { s with dies := { s.dies with sweep := s.dies.sweep ++ l.filter (fun x => x ∉ s.dies.sweep) } }

/-! ## Failure of a die (R308 to R310) -/

/-- Steps 1 to 5 of Table 11-2 for one band: it closes early, the data of its open stripes that the die held, and of those whose XOR page it held, is
programmed again, and the other programs go on. -/
def rescueBand (d n : Nat) (s : State) : State :=
  match s.band? n with
  | none => s
  | some b =>
    if s.isSystem n || b.eraseWait ≠ [] then abandonBand n s else
    let fill := s.ftl.fill.filter (fun x => bandOfSlot x.n = n)
    let mine := s.ftl.progs.filter (fun p => p.band = n)
    let lost := mine.flatMap (fun p => if xorDie b p.wl = d then p.slots else p.slots.filter (fun x => dieOfSlot b x.n = d))
    let s := { s with ftl := { s.ftl with fill := s.ftl.fill.filter (fun x => bandOfSlot x.n ≠ n) } }
    let s := modProgs (fun p => p.band = n)
      (fun p => { p with wait := p.wait.filter (· ≠ d), slots := p.slots.filter (fun x => x ∉ lost) }) s
    let s := if b.st = .opened then modBand n (fun b => { b with st := .closedEarly }) s else s
    let s := replaceSlots (fill ++ lost) s
    closeBand n 2 ((s.ftl.progs.filter (fun p => p.band = n && p.wait = [])).foldl (fun s p => programVerified p s) s)

/-- A read goes to reconstruction, its peers read in its place; without them it stands ready to be found lost (R306, R307). -/
def reconstruct (r : Rd) (gone : Bool) (s : State) : State :=
  if s.peersThere r.slot r.die && s.peerDies r.slot r.die ≠ [] then
    startPeers r (modRd r.id (fun x => { x with step := 9, staged := false, recon := gone, cls := 0 }) s)
  else modRd r.id (fun x => { x with step := 9, staged := true, recon := gone, cls := 0 }) s

/-- A read of a die that is gone: reconstruction serves it; a peer of a reconstruction stands ready to be found lost. -/
def leaveDie (r : Rd) (s : State) : State :=
  if r.use = 4 then modRd r.id (fun x => { x with step := 8, staged := true, bad := true }) s
  else if r.step = 9 then s
  else reconstruct r true s

/-- A die is found failed: nothing more is issued to it, its operations end, every read of it goes to reconstruction, and a band state record names it,
which is made durable; pages of the system region are rewritten before host data (R309). -/
def dieFound (d : Nat) (s : State) : State :=
  let s := setDie { Die.idle d with failed := true, holdback := true } s
  let erasing := (s.ftl.bands.filter (fun b => b.st = .erasing && d ∈ b.eraseWait)).map (·.n)
  let s := { s with dies := { s.dies with queue := s.dies.queue.filter (fun q => q.die ≠ d), probes := s.dies.probes.filter (fun p => p.die ≠ d)
                                          sweep := s.dies.sweep.filter (fun x => x.1 ≠ d) } }
  let s := (s.dies.reads.filter (fun r => r.die = d && !r.done)).foldl (fun s r => leaveDie r s) s
  let s := addRec (mkRec 0 0x0A 0 (.die d)) s
  let bands := (s.ftl.bands.filter (fun b => d ∈ b.dies && (b.st = .opened || s.programming b.n))).map (·.n)
  let bands := bands.filter s.isSystem ++ bands.filter (fun n => !s.isSystem n)
  let s := bands.foldl (fun s n => rescueBand d n s) s
  erasing.foldl (fun s n =>
    let s := modBand n (fun b => { b with eraseWait := b.eraseWait.filter (· ≠ d) }) s
    match s.band? n with | some b => if b.eraseWait = [] then erased n s else s | none => s) s

/-- The channels of a group left in service, should more dies be gone. -/
def State.fewChannels (s : State) : Bool := (List.range s.groups).any (fun g => (s.channelsIn g).length < 9)

/-- A band that still includes a failed die (R311). -/
def State.bandDegraded (s : State) (b : Band) : Bool :=
  b.st ≠ .dissolved && b.st ≠ .free && b.chans.any (fun c => s.dieDead (dieOf c (bandGroup b.n)))

/-- The band that the running rebuilds take next, of those that include a die of their targets: system region first, then the highest class, then the
lowest number (R312, R313). -/
def State.rebuildFirst (s : State) : Option Band :=
  let targets := (s.lops.list.filter (fun o => isRebuild o.typ && o.state = 1)).flatMap (fun o => targetDies o.typ o.target)
  let todo := s.ftl.bands.filter (fun b => s.bandDegraded b && b.dies.any (· ∈ targets) && (b.st = .closed || b.st = .closedEarly) && !s.programming b.n
    && !s.ftl.emptying.any (fun e => e.band = b.n))
  let before := fun (a b : Band) => (s.isSystem a.n && !s.isSystem b.n) || (s.isSystem a.n = s.isSystem b.n
    && (s.bandClass b < s.bandClass a || (s.bandClass a = s.bandClass b && a.n < b.n)))
  todo.foldl (fun acc b => match acc with | none => some b | some a => if before b a then some b else acc) none

/-- A band of which only lost blocks are left (R317). -/
def State.onlyLost (s : State) (n : Nat) : Bool :=
  s.ftl.emptying.any (fun e => e.band = n) && !s.ftl.moves.any (fun m => bandOfSlot m.old = n) && s.liveSlots n ≠ []

/-- A running rebuild empties the next band, and erases at once one without valid data (R312, R491); a band that keeps lost blocks does not hold it up
(R317). -/
def rebuildNext (s : State) : State :=
  if s.lops.list.any (fun o => isRebuild o.typ && o.state = 1) && !s.ftl.emptying.any (fun e => e.kind = 4 && !s.onlyLost e.band) then
    match s.rebuildFirst with | some b => eraseReady (noteLogged (startEmptying b.n 4 3 s)) | none => s
  else s

/-- Bands of the free pool are narrowed without an erase (R491). -/
def narrowFree (s : State) : State :=
  let narrow := fun (b : Band) => { b with chans := s.channelsIn (bandGroup b.n), blks := b.blks.filter (fun x => !s.dieDead (x.key / 4)) }
  { s with ftl := { s.ftl with bands := mapIf (fun b => b.st = .free) narrow s.ftl.bands } }

end Sys2Proof.Machine
end

