-- ==== Sys2Proof/Machine/LogOps.lean ====
section
/-! DEFINITION. The map log on the media (chapter 12): pages, persistence, checkpoints, the shutdown sequence, the dump, and the replay that
rebuilds the map. -/

namespace Sys2Proof.Machine

open Sys2Proof

/-! ## Pages (Table 12-3) -/

/-- The valid page with the highest page sequence. -/
def newestPage (l : List LogPage) : Option LogPage :=
  l.foldl (fun acc p => match acc with | none => some p | some q => if q.seq < p.seq then some p else acc) none

/-- The checkpoint slot that pages name: the last valid checkpoint. -/
def State.validCp (s : State) : Option Checkpoint :=
  (s.log.cps.filter (·.valid)).foldl (fun acc c => match acc with | none => some c | some d => if d.start < c.start then some c else acc) none

/-- The ceiling that a page carries: raised when the rulings assigned come within 8000_0000h of it (R329). -/
def State.pageCeiling (s : State) : Nat := if s.nib.ceiling ≤ s.nib.next + 0x80000000 then s.nib.ceiling + 0x100000000 else s.nib.ceiling

/-- A page assembled now from some records, with the rest of the records waiting (R326, R329, R331). -/
def State.assemble (s : State) (clean opened dump : Bool) (recs rest : List MapRec) : LogPage :=
  { seq := s.log.nextPage, clean := clean, opened := opened, dump := dump, recs := recs, settled := s.settledFor recs rest, ceiling := s.pageCeiling
    wall := s.wall.getD 0, powerOn := s.health.powerOnMs / 1000
    cpSlot := s.validCp.map (·.slot), cpStart := (s.validCp.map (·.start)).getD 0, replay := (s.validCp.map (·.replay)).getD 0
    cpRuling := (s.validCp.map (·.cs)).getD 0, aging := s.dies.aging.map (· / 2 ^ 32) }

def addPage (p : LogPage) (s : State) : State :=
  { s with log := { s.log with pages := s.log.pages ++ [p], nextPage := s.log.nextPage + 1 }, nib := { s.nib with ceiling := p.ceiling } }

/-- The first change of the media after a start or a shutdown sequence is preceded by a page with the Opened flag (R332). -/
def openMedia (s : State) : State :=
  if s.log.needOpened && s.rst.admin && !s.recovery && !s.mismatch then
    let s := addPage (s.assemble false true false [] s.log.buf) s
    { s with log := { s.log with needOpened := false } }
  else s

/-- In strap mismatch a Sanitize removes the mark of a clean shutdown before it changes the media: the newest page again, without the Clean flag
(R73, R91, log entry 111). -/
def dropMark (s : State) : State :=
  match newestPage s.log.pages with
  | some p => if p.clean then addPage { p with seq := s.log.nextPage, clean := false, opened := false, recs := [] } s else s
  | none => s

/-- Up to 496 waiting records go into a page, whose program begins (R247, R331). -/
def fillPage (s : State) : State :=
  let recs := s.log.buf.take 496
  let rest := s.log.buf.drop 496
  let p := s.assemble false false s.sup.draining recs rest
  launchPage p.seq { s with log := { s.log with buf := rest, inflight := s.log.inflight ++ [p], nextPage := s.log.nextPage + 1 } }

/-- Something waits for a page: a command or an epoch on persistence, a drain, the shutdown sequence or a checkpoint, the erase of an emptied band, the
record of a failed die (R247, R309, R328, R334, R433), the rulings assigned at a safe level (R407), or the ceiling (R329). -/
def State.persistDue (s : State) : Bool :=
  s.nib.items.any (fun i => i.wait = .persist) || s.log.closing || s.sup.draining || s.pwr.entering4 || s.log.cpWriting.isSome
  || s.ftl.emptying.any (fun e => e.logged && !(s.durableTo e.logSeq && e.dueStale ≤ s.settled))
  || s.log.buf.any (fun r => match r.chg with | .die _ => true | _ => false)
  || s.rec_.epochs.any (fun e => e.state = 2 || (5 ≤ e.state && s.settled < e.outcomeRuling)) || s.nib.ceiling ≤ s.nib.next + 0x80000000
  || s.settled < s.flt.raiseTo

/-- A page would carry a lower settled ruling than one under way: it waits, since the settled ruling never falls from one page to the next (R326). -/
def State.pageWaits (s : State) : Bool := s.log.inflight.any (fun p => s.settledFor (s.log.buf.take 496) (s.log.buf.drop 496) < p.settled)

/-- A page is due: 496 records fill one, or fewer where persistence asks for it (R247). -/
def State.pageDue (s : State) : Bool := 496 ≤ s.log.buf.length || s.persistDue

/-- The 16 KiB of a log page (Table 12-3), its Header check among them; a page is valid where its Marker and its Header check are right (R330). -/
def LogPage.bytes (p : LogPage) : List Byte :=
  let field := fun (off n x : Nat) => (off, n, x)
  let first := match p.recs with | r :: _ => r.seq | [] => 0
  let head := Mem.bytes 0 (Mem.ofFields [field 0x00 4 0x32474C4D, field 0x04 2 1, field 0x06 2 (flag p.clean 0 + flag p.opened 1 + flag p.dump 2),
    field 0x08 8 p.seq, field 0x10 4 first, field 0x14 2 p.recs.length, field 0x18 8 p.settled, field 0x20 8 p.ceiling, field 0x28 8 p.wall,
    field 0x30 4 p.powerOn, field 0x34 1 (p.cpSlot.getD 0xFF), field 0x38 4 p.cpStart, field 0x3C 4 p.replay, field 0x40 8 p.cpRuling]) 0xFC
  let ages := Mem.bytes 0 (Mem.ofFields ((List.range 64).map (fun d => field (4 * d) 4 (p.aging.getD d 0)))) 256
  let check := (List.range 4).map (fun k => BitVec.ofNat 8 (crc32c (head ++ ages) / 256 ^ k))
  head ++ check ++ ages ++ p.recs.flatMap MapRec.bytes ++ List.replicate (32 * (496 - p.recs.length)) 0

/-- The codewords of a log page, in the four places of its page: the system region's, of no partition and no logical block (Table 10-3). -/
def LogPage.codeword (p : LogPage) (k : Nat) : Codeword :=
  { padCodeword with pad := false, system := true, data := Mem.ofBytes 0 (((p.bytes).drop (4096 * k)).take 4096) }

/-! ## Persistence (R327) -/

/-- Every write ruled before a ruling is persistent. -/
def State.writesBefore (s : State) (r : Nat) : Bool := !s.nib.unsettled.any (· < r)

/-- No access that carries an older rule epoch is in flight when a change of the gate table completes (R385). -/
def State.oldAccess (s : State) (i : Item) : Bool :=
  isGateChange (Entry.opcode i.entry)
  && (s.nib.items.any (fun j => isBlockCmd (Entry.opcode j.entry) && j.epoch < i.epoch)
    || s.dies.reads.any (fun r => r.use ≠ 0 && !r.done && r.epoch < i.epoch))

/-- Items that wait on persistence complete once their ruling is persistent; a Flush once every earlier write is (R187, R205, R327). -/
def completePersistent (s : State) : State :=
  (s.nib.items.filter (fun i => i.wait = .persist)).foldl (fun s i =>
    let flush := Entry.opcode i.entry = 0x03
    if (flush && s.writesBefore i.ruling) || (!flush && s.persistent i.ruling && !s.oldAccess i) then succeed i i.result s else s) s

/-- Rulings that a verified page covers need no more settling. -/
def settleCovered (s : State) : State := { s with nib := { s.nib with unsettled := s.nib.unsettled.filter (fun r => s.settled < r) } }

/-! ## Checkpoints (R248, R333) -/

/-- Every record of the log, with the sequence of its page (a record not yet in a verified page: none). -/
def State.records (s : State) : List (Option Nat × MapRec) :=
  s.log.pages.flatMap (fun p => p.recs.map (fun r => (some p.seq, r)))
    ++ (s.log.inflight.flatMap (·.recs) ++ s.log.buf).map (fun r => (none, r))

/-- A record that a later Opened page makes void (R336). -/
def isVoid (pages : List LogPage) (seq : Option Nat) (r : MapRec) : Bool :=
  match seq with
  | none => false
  | some n => pages.any (fun p => p.opened && n < p.seq && p.settled < r.ruling)

/-- The map after every item at or below K: the checkpoint with the records above it applied in ruling order (R336). -/
def replayTo (pages : List LogPage) (recs : List (Option Nat × MapRec)) (cp : Option Checkpoint) (k : Nat) : MapState :=
  let cs := (cp.map (·.cs)).getD 0
  let use := recs.filter (fun x => x.2.ruling ≤ k && !isVoid pages x.1 x.2
    && (cs < x.2.ruling || (match cp with | some c => decide (c.start < x.2.seq) | none => true)))
  replay ((cp.map (·.map)).getD MapState.empty) (use.map (·.2))

/-- The map of the settled view. -/
def State.settledMap (s : State) : MapState := replayTo s.log.pages s.records s.validCp s.settled

/-- The threshold tables of a band as a checkpoint holds them (R287). -/
def Band.tables (b : Band) : BandTh :=
  { n := b.n, erases := b.erases, stamps := b.stamps, blks := b.blks.map (fun x => (x.key, x.reads, x.zones.map (fun z => (z.zone, z.temp)))) }

/-- 512 MiB of records of 32 B have entered the log since the start of the last checkpoint (R248). -/
def State.checkpointDue (s : State) : Bool := 16777216 ≤ (s.log.nextSeq + 2 ^ 32 - (s.validCp.map (·.start)).getD 0) % 2 ^ 32

/-- A checkpoint begins: its start record, its ruling, its replay start its map, the aging clocks and the tables; its end record follows (R286, R287, R333). -/
def beginCheckpoint (s : State) : State :=
  let cs := s.settled
  let slot := match s.validCp with | some c => 1 - c.slot | none => 0
  let start := s.log.nextSeq
  let above := (s.records.filter (fun x => cs < x.2.ruling && !isVoid s.log.pages x.1 x.2)).map (fun x => x.2.seq)
  let c : Checkpoint := { slot := slot, cs := cs, start := start, replay := above.foldl min start, valid := false, map := s.settledMap
                          aging := s.dies.aging.map (· / 2 ^ 32), tables := s.ftl.bands.map Band.tables }
  let s := addRec (mkRec cs 0x08 0 .none) s
  addRec (mkRec cs 0x09 0 .none) { s with log := { s.log with cpWriting := some c } }

/-- The checkpoint being written is valid once its end record lies in a verified page (R248). -/
def checkpointValid (s : State) : State :=
  match s.log.cpWriting with
  | none => s
  | some c =>
    if (s.log.buf ++ s.log.inflight.flatMap (·.recs)).any (fun r => r.typ = 9) then s
    else { s with log := { s.log with cpWriting := none, cps := s.log.cps.filter (fun d => d.slot ≠ c.slot) ++ [{ c with valid := true }] } }

/-! ## Pages verified -/

/-- The consequences of a page that has passed verify: its rulings are persistent, commands complete, checkpoints and erases go on. -/
def afterPage (s : State) : State := eraseReady (noteLogged (checkpointValid (completePersistent (settleCovered s))))

/-- The oldest page under way has passed its verify (R327). -/
def pageVerified (s : State) : State :=
  match s.log.inflight with
  | [] => s
  | p :: rest =>
    afterPage { s with log := { s.log with inflight := rest, pages := s.log.pages ++ [p], progs := s.log.progs.filter (fun x => x.1 ≠ p.seq) }
                       nib := { s.nib with ceiling := max s.nib.ceiling p.ceiling } }

/-- The program of the oldest page under way has ended with a pass (R277, R331). -/
def State.pageThere (s : State) : Bool :=
  match s.log.inflight with
  | [] => false
  | p :: _ => s.log.progs.any (fun x => x.1 = p.seq && !s.ftl.progs.any (fun g => g.id = x.2))

/-- Every waiting record goes into pages, and every page passes verify. -/
def flushLog (dump : Bool) : Nat → State → State
  | 0, s => s
  | fuel + 1, s =>
    match s.log.inflight with
    | _ :: _ => flushLog dump fuel (pageVerified s)
    | [] =>
      if s.log.buf = [] then s
      else
        let recs := s.log.buf.take 496
        let rest := s.log.buf.drop 496
        let p := s.assemble false false dump recs rest
        flushLog dump fuel (afterPage (addPage p { s with log := { s.log with buf := rest } }))

/-- Pages and records still to go. -/
def State.logFuel (s : State) : Nat := s.log.buf.length + s.log.inflight.length + 2

/-! ## The shutdown sequence (R341) -/

/-- Steps 4 to 6, once no fetched command remains and the reservoir is empty: S at the highest ruling, a valid checkpoint, the Clean page. -/
def finishShutdown (s : State) : State :=
  let s := openMedia s
  let s := flushLog false s.logFuel s
  let s := beginCheckpoint s
  let s := flushLog false s.logFuel s
  let s := afterPage (addPage (s.assemble true false false [] []) s)
  { s with log := { s.log with needOpened := true, closing := false } }

/-- The sequence can end: nothing is outstanding but the command that asked, and the reservoir holds nothing. -/
def State.quiet (s : State) (except : Nat) : Bool :=
  s.nib.fetched = [] && s.nib.items.all (fun i => i.ruling = except || i.wait = .event) && s.res.staged = []

/-! ## The hold-up dump (R344) -/

/-- A write that has passed its cancel point stays; every other command that changes stored state is aborted (R344 step 2). -/
def dumpAbort (s : State) : State :=
  (s.nib.items.filter (fun i => !i.past)).foldl (fun s i => removeItem i true s) s

/-- One staged block goes to the next single-level page of the dump's band (step 4). -/
def dumpBlock (x : Staged) (s : State) : State :=
  let w := s.wpFor 4 0
  let s := if w.open_ ≠ [] then s else match s.bandFor 4 0 with
    | some n => setWp { w with open_ := [(0, n)] } (formBand n false false s)
    | none => s
  let n := ((s.wpFor 4 0).open_.headD (0, 0)).2
  match (s.band? n).bind (fun b => nextFit b false 64 b.nextPos) with
  | none => s
  | some pos =>
    let sl := n * bandSlots + pos
    let wl := pos / 240
    let s := stampTemp n wl (s.dieOfSlot sl) (stampZone n wl s)
    let s := modBand n (fun b => { b with nextPos := pos + 1, nextWl := wl + 1, blks := b.blks.map (fun x => { x with nextWl := wl + 1 }) }) s
    let slot := s.stampDie (s.dieOfSlot sl) (s.stampStripe { n := sl, cw := x.cw })
    let s := { s with ftl := { s.ftl with slots := insertSlot slot s.ftl.slots } }
    let done := fun (y : Staged) => { y with placed := some sl, verified := true }
    { s with
      res := { s.res with staged := mapIf (fun y => y.ruling = x.ruling && y.block = x.block) done s.res.staged }
      health := { s.health with mediaBytes := sat 64 (s.health.mediaBytes + 4096) } }

/-- Every staged block is programmed in single-level pages, the stripes closed with their XOR pages, and the records entered (steps 4 and 5). -/
def dumpData (s : State) : State :=
  let s := { s with ftl := { s.ftl with fill := [], wps := [] } }
  let todo := s.res.staged.filter (fun x => !x.verified)
  let s := todo.foldl (fun s x => dumpBlock x s) s
  let bands := ((s.wpFor 4 0).open_).map (·.2)
  let written := s.ftl.slots.filter (fun x => bandOfSlot x.n ∈ bands)
  let s := { s with ftl := { s.ftl with xors := s.ftl.xors ++ (s.accumulate written).map (fun x => (bands.headD 0, x.1, x.2)) } }
  endReleases (enterPending (enterReady s))

/-- The dump to its end: data, records, pages whose Settled ruling reaches the highest ruling assigned. -/
def dumpWhole (s : State) : State :=
  let s := dumpData (openMedia s)
  let s := flushLog true s.logFuel s
  addPage (s.assemble false false true [] []) s

/-! ## Recovery (R336 to R339) -/

/-- The pages that replay uses: those before the one that does not decode. -/
def usablePages (bad : Option Nat) (l : List LogPage) : List LogPage :=
  match bad with | some n => l.filter (fun p => p.seq < n) | none => l

def maxSettled (l : List LogPage) : Nat := (l.map (·.settled)).foldl max 0

/-- The stored state as the media give it: K and the map (R321). -/
def State.recovered_ (s : State) (bad : Option Nat) : Nat × MapState :=
  let pages := usablePages bad s.log.pages
  let k := maxSettled pages
  let recs := pages.flatMap (fun p => p.recs.map (fun r => (some p.seq, r)))
  (k, replayTo pages recs s.validCp k)

/-- Interrupted erases are issued again, on the dies that had not passed (R279, R338). -/
def reissueErases (s : State) : State :=
  (s.ftl.bands.filter (fun b => b.st = .erasing)).foldl (fun s b =>
    let dies := (b.chans.map (fun c => dieOf c (bandGroup b.n))).filter (fun d => !s.dieDead d && (b.on d).any (fun x => x.st ≠ .erased))
    let s := modBand b.n (fun b => { b with eraseWait := dies }) s
    if dies = [] then erased b.n s
    else enqueue (dies.map (fun d => { die := d, cls := 3, kind := .erase b.n, minRun := false })) s) s

/-- The largest x, built from its bit `k` - 1 down, with x^4 ≤ n. -/
def root4 (n : Nat) : Nat → Nat → Nat
  | 0, x => x
  | k + 1, x => root4 n k (if (x + 2 ^ k) ^ 4 ≤ n then x + 2 ^ k else x)

/-- The age for which R288 gives class m, 4 log2(1 + a) = m - w - d with a in hours (R290): of the interval that gives m its lowest age, in whole
minutes rounded down (DESIGN CHOICE, log entry 126). -/
def probeAge (m : Nat) (x : Blk) : Nat := root4 (60 ^ 4 * 2 ^ (m - 8 * x.wear / 100000 - min 4 (x.reads / 100000))) 23 0 - 60

/-- The lower median of the differences between measured and modelled ages, never below 0 (R290). -/
def outage (l : List (Nat × Nat)) : Nat :=
  let d := (l.map (fun x => x.1 - x.2)).foldr insertNat []
  d.getD ((d.length - 1) / 2) 0

def insertAge (x : Nat × Band × Blk) : List (Nat × Band × Blk) → List (Nat × Band × Blk)
  | [] => [x]
  | y :: ys => if x.1 ≤ y.1 then x :: y :: ys else y :: insertAge x ys

/-- The blocks of a die that R290 probes: 16 that hold data, those of the lowest stamps, hence of the greatest age, first; each with the aging clock of
its first zone. -/
def State.oldestBlks (s : State) (d : Nat) : List (Nat × Band × Blk) :=
  let l := s.ftl.bands.flatMap (fun b => (b.stamps.filter (fun y => y.zone = 0)).flatMap (fun y =>
    ((b.on d).filter (fun x => (x.st = .opened || x.st = .closed || x.st = .closedEarly) && 0 < x.nextWl)).map (fun x => (y.aging, b, x))))
  (l.foldr insertAge []).take 16

/-- The four classes at which a block's swatch is read at a start: free values (R290). -/
def State.startClasses (s : State) (d k : Nat) : List Nat := (List.range 4).map (fun j => (Config.freeByte s.drawn (64 * d + 4 * k + j)).toNat % 64)

/-- The class with the fewest bit errors; the first among equals. -/
def fewest : List (Nat × Nat) → Option (Nat × Nat)
  | [] => none
  | x :: xs => match fewest xs with | some y => if x.2 ≤ y.2 then some x else some y | none => some x

/-- A die's outage estimate, for an aging clock before the outage, from the bit errors found at the four classes of each of its blocks (R290). -/
def State.outageOf (s : State) (d clock : Nat) (errors : List (List Nat)) : Nat :=
  let l := s.oldestBlks d
  outage ((List.range (min l.length errors.length)).filterMap (fun k =>
    (l[k]?).bind (fun x => (fewest ((s.startClasses d k).zip (errors.getD k []))).map (fun m => (probeAge m.1 x.2.2, clock - x.1)))))

/-- Four page reads count for each block probed at a start. -/
def countProbes (errors : List (List (List Nat))) (s : State) : State :=
  (List.range 64).foldl (fun s d =>
    ((s.oldestBlks d).take (errors.getD d []).length).foldl (fun s x =>
      modBlks x.2.1.n (fun y => y.key = x.2.2.key) (fun y => { y with reads := sat 32 (y.reads + 4) }) s) s) s

def addAges (add : List Nat) (ages : List Nat) : List Nat := (List.range ages.length).map (fun i => ages.getD i 0 + add.getD i 0 * 2 ^ 32)

/-! ## Failures recorded (R308, R309, R311, R314, R315) -/

/-- The dies of a failure, and with `cls` 6 its channel, join those recorded as failed; a die whose backup pages were held back owes nothing
any more. -/
def markFailed (cls c : Nat) (dies : List Nat) (s : State) : State :=
  dies.foldl (fun s x => modDie x (fun y => { y with holdback := false }) s) { s with rec_ := { s.rec_ with
    failedDies := dies.foldl (fun l x => withNat x l) s.rec_.failedDies
    failedChannels := if cls = 6 then withNat c s.rec_.failedChannels else s.rec_.failedChannels } }

/-- The fault of a failure: FC6 with its channel where a group is left with fewer than 9 channels, at the safe level, or where the channel failed;
else FC5 with the die (R308, R314). -/
def failureFault (cls d : Nat) (few : Bool) (s : State) : State :=
  let c := dieChannel d
  if few then recordFault 6 4 (0x20 + c) (BitVec.ofNat 64 c) 2 s
  else if cls = 6 then recordFault 6 3 (0x20 + c) (BitVec.ofNat 64 c) 2 s
  else recordFault 5 3 (0x40 + d) (BitVec.ofNat 64 d) 2 s

/-- The media records of a failure: it is permanent, and its rebuild is created (R308, R311). A single die that leaves its group with fewer than 9
channels has FC6 recorded, but it is the die that is marked failed and rebuilt (DESIGN CHOICE, log entry 107). -/
def enterFailure (cls d : Nat) (s : State) : State :=
  let c := dieChannel d
  let dies := if cls = 6 then ((List.range s.groups).map (fun g => dieOf c g)) else [d]
  let s := markFailed cls c dies (openMedia s)
  { s with rec_ := { s.rec_ with lowChannels := s.rec_.lowChannels || s.fewChannels
                                 rebuilds := s.rec_.rebuilds ++ [(cls, if cls = 6 then c else d)] } }

/-- The rebuild of a failure that has been entered begins, and the spare count has changed (R309, R315). -/
def beginRebuild (cls d : Nat) (s : State) : State :=
  checkWorn (rebuildNext (createRebuild cls (if cls = 6 then dieChannel d else d) (narrowFree s)))

/-- A failure is recorded. `cls` 5: the die; 6: every die of the channel. -/
def recordFailure (cls d : Nat) (s : State) : State :=
  let s := enterFailure cls d s
  let s := failureFault cls d s.fewChannels s
  if s.running then beginRebuild cls d s else s

/-- A die is found failed. Where every die of its channel is now held back, all have failed within 1 s of the first, and the channel's failure is
recorded (R308). -/
def dieFails (d : Nat) (s : State) : State :=
  let s := dieFound d s
  if (List.range s.groups).all (fun g => (s.die (dieOf (dieChannel d) g)).holdback) then recordFailure 6 d s else s

/-- The dies of a channel that has failed are out of service (R281). -/
def dropChannel (c : Nat) (s : State) : State :=
  (List.range s.groups).foldl (fun s g => if (s.die (dieOf c g)).failed then s else dieFound (dieOf c g) s) s

/-- A channel is failed as a whole (R281, R87): every die found failed, one FC6. Before the media records may change, and in the modes that change
none, the channel is only held in reset, with its fault; what is found there is entered once recovery has run (R73, R99, log entry 108). -/
def failChannel (c : Nat) (s : State) : State :=
  let known := c ∈ s.rec_.failedChannels || c ∈ s.dies.chHeld
  let s := { s with dies := { s.dies with chHeld := withNat c s.dies.chHeld } }
  if !s.rst.recovered then (if known then s else failureFault 6 (dieOf c 0) false s)
  else
    let s := dropChannel c s
    if c ∈ s.rec_.failedChannels then s else recordFailure 6 (dieOf c 0) s

/-- Dies that a durable band state record names as failed, whose failure was still held back when the start began (R308, R309). -/
def State.namedDies (s : State) : List Nat :=
  ((s.log.pages.flatMap (·.recs)).filterMap (fun r => match r.chg with | .die d => some d | _ => none)).eraseDups.filter
    (fun d => !s.recordedDead d && !(s.die d).holdback)

/-- Channels that failed before recovery, and dies that the map log names: the media records take them, and their rebuilds begin. -/
def adoptHeld (s : State) : State :=
  let s := (s.dies.chHeld.filter (· ∉ s.rec_.failedChannels)).foldl (fun s c =>
    let s := enterFailure 6 (dieOf c 0) (dropChannel c s)
    let s := if s.fewChannels then aliveUpdate (failureFault 6 (dieOf c 0) true s) else s
    if s.running then beginRebuild 6 (dieOf c 0) s else s) s
  s.namedDies.foldl (fun s d =>
    if !s.running || s.recordedDead d then s
    else recordFailure (if (List.range s.groups).all (fun g => dieOf (dieChannel d) g ∈ s.namedDies) then 6 else 5) d s) s

/-! ## Self-test and calibration at work (R298 to R301) -/

/-- The blocks of a die that hold data: die, band, plane. -/
def State.dataBlks (s : State) (d : Nat) : List (Nat × Nat × Nat) := (s.ftl.bands.flatMap (·.probed)).filter (fun x => x.1 = d)

/-- The dies that an operation covers. -/
def State.scopeDies (s : State) (o : LongOp) : List Nat :=
  (List.range 64).filter (fun d => s.dieFits d && !s.dieDead d && (o.target = 0xFFFF || o.target = d))

/-- Swatch probes of a test. -/
def testProbes (l : List (Nat × Nat × Nat)) (s : State) : State := l.foldl (fun s x => startProbe x.1 x.2.1 x.2.2 3 none true s) s

/-- Nothing that the self-test issued is under way. -/
def State.testIdle (s : State) : Bool := !s.dies.probes.any (·.test) && !s.dies.reads.any (fun r => r.use = 6) && s.ftl.testBand.isNone

/-- Segment 8 takes a free band, none of the last 32 (R264), and erases it. -/
def openTestBand (s : State) : State :=
  match (if s.freeBands ≤ 32 then none else (List.range s.groups).findSome? s.freeBandIn) with
  | none => s
  | some n =>
    let s := noteBand n (formBand n false false (openMedia s))
    match s.band? n with
    | some b => queueErase n 3 b.dies { s with ftl := { s.ftl with testBand := some (n, 0) } }
    | none => s

/-- The die operations of a segment of self-test, all class 3 (Table 10-13). Segments 1 to 3 and 5 need none of them. -/
def issueSegment (k : Nat) (s : State) : State :=
  match k with
  | 4 => testProbes ((List.range 64).flatMap (fun d => (s.dataBlks d).take 16)) s
  | 6 => (s.ftl.bands.flatMap (fun b => s.liveSlots b.n)).foldl (fun s n => startRd 0 (s.blockAt n) n 3 6 s) s
  | 7 => testProbes ((List.range 64).flatMap s.dataBlks) s
  | 8 => openTestBand s
  | _ => s

/-- A segment begins, from its start; segment 8 once there is a band for it. -/
def beginSegment (o : LongOp) (s : State) : State :=
  let s := issueSegment o.segment s
  modOp o.handle (fun o => { o with begun := o.segment ≠ 8 || s.ftl.testBand.isSome, found := false }) s

/-- Calibration goes from die to die in its scope: the swatches of 64 blocks of the die are read, and then the die is done (R299, R301); which blocks is
a DESIGN CHOICE (log entry 127). -/
def calibrate (h : Nat) : Nat → State → State
  | 0, s => s
  | fuel + 1, s =>
    match s.op? h with
    | none => s
    | some o =>
      if o.state ≠ 1 || o.wants ≠ [] || s.dies.probes.any (·.test) then s
      else match (s.scopeDies o).find? (fun d => d ∉ o.doneDies) with
        | none => s
        | some d =>
          if o.begun then
            calibrate h fuel (modOp h (fun o => { o with
              doneDies := o.doneDies ++ [d], begun := false, progress := 10000 * (o.doneDies.length + 1) / max 1 (s.scopeDies o).length }) s)
          else calibrate h fuel (testProbes ((s.dataBlks d).take 64) (modOp h (fun o => { o with begun := true }) s))

/-- Running tests that have not begun their present segment or die do. -/
def testWork (s : State) : State :=
  (s.lops.list.filter (fun o => o.state = 1 && o.wants = [])).foldl (fun s o =>
    if isSelfTest o.typ && !o.begun then beginSegment o s else if o.typ = 4 then calibrate o.handle 130 s else s) s

/-- No die runs an operation of a test. -/
def State.testStill (s : State) : Bool := s.dies.dies.all (fun x => (x.active.toList ++ x.more ++ x.susp).all (fun o => !s.isTest o.kind))

/-- A test is to be suspended or cancelled: it issues nothing more (R301). -/
def holdTests (s : State) : State := { s with dies := { s.dies with queue := s.dies.queue.filter (fun o => !s.isTest o.kind) } }

/-- A test has stopped: what it had begun of its segment or die is given up, its band with it, and is begun anew at a resume (R301). -/
def dropTests (h : Nat) (s : State) : State :=
  let bands := s.ftl.testBand.toList.map (·.1)
  let s := { s with
    ftl := { s.ftl with testBand := none, progs := s.ftl.progs.filter (fun p => p.band ∉ bands) }
    dies := { s.dies with reads := s.dies.reads.filter (fun r => r.use ≠ 6), probes := s.dies.probes.filter (fun p => !p.test) } }
  let s := bands.foldl (fun s n => shutBand true n (modBand n (fun b => { b with eraseWait := [] }) s)) s
  modOp h (fun o => { o with begun := false, found := false }) s

end Sys2Proof.Machine
end

