-- ==== Sys2Proof/Machine/LigOps.lean ====
section
/-! DEFINITION. The ligature (chapter 16): frames, epochs on one card, the commit sequence, in-doubt epochs. -/

namespace Sys2Proof.Machine

open Sys2Proof

/-! ## Rulings of events (R178) -/

/-- A pin event or ligature frame takes the next ruling, in the modes in which the nib rules. -/
def ruleEvent (s : State) : State × Nat :=
  if s.canRule then ({ s with nib := { s.nib with next := s.nib.next + 1 } }, s.nib.next) else (s, 0)

/-! ## Frames (Table 16-1) -/

/-- CRC8 over bits [47:9]. -/
def ligCheck (x : Nat) : Nat := crc 8 0x07 0 (msbFirst (x / 512) 39)

/-- The 48 bits of a frame. -/
def LigFrame.bits (f : LigFrame) : BitVec 48 :=
  let x := f.source * 2 ^ 42 + f.typ * 2 ^ 38 + f.value.toNat * 512
  BitVec.ofNat 48 (x + ligCheck x * 2 + 1)

def State.own (s : State) : Nat := s.ligAddress.getD 31

/-- The LIG island is out of reset and the card takes part. -/
def State.ligOn (s : State) : Bool := s.rst.islands.any (fun x => x.1 = .lig && x.2 = .released) && s.lig.state ≠ 0 && s.lig.state ≠ 3

def State.leader (s : State) : Bool := s.ligAddress = some 0

def State.joinedLig (s : State) : Bool := s.lig.state = 2

def sendFrame (typ value : Nat) (s : State) : State :=
  { s with lig := { s.lig with sendQ := s.lig.sendQ ++ [{ source := s.own, typ := typ, value := BitVec.ofNat 29 value }] } }

/-! ## Epochs on the card (Table 16-3) -/

/-- The latest instance of an epoch. -/
def State.epoch? (s : State) (n : Nat) : Option Epoch := s.rec_.epochs.reverse.find? (fun e => e.n = n)

def Epoch.closed (e : Epoch) : Bool := 5 ≤ e.state

/-- The instance of an epoch that is not closed. -/
def State.openEpoch? (s : State) (n : Nat) : Option Epoch := s.rec_.epochs.find? (fun e => e.n = n && !e.closed)

def modEpoch (n : Nat) (f : Epoch → Epoch) (s : State) : State :=
  { s with rec_ := { s.rec_ with epochs := mapIf (fun e => e.n = n && !e.closed) f s.rec_.epochs } }

/-- The flags of an epoch's entry, closed or not. -/
def flagEpoch (n : Nat) (f : Epoch → Epoch) (s : State) : State :=
  { s with rec_ := { s.rec_ with epochs := mapIf (fun e => e.n = n) f s.rec_.epochs } }

/-- The flags of the entry of the latest instance. -/
def flagLatest (n : Nat) (f : Epoch → Epoch) (s : State) : State :=
  match s.epoch? n with
  | some e => { s with rec_ := { s.rec_ with epochs := mapIf (fun x => x = e) f s.rec_.epochs } }
  | none => s

/-- An entry for a new instance; the oldest closed entry gives up its slot where all 64 are in use (R443). -/
def addEpoch (n state : Nat) (s : State) : State :=
  let l := s.rec_.epochs
  let l := if l.length < 64 then l else match l.find? (·.closed) with | some c => l.erase c | none => l
  let e : Epoch := { n := n, state := state, initiated := false, atLimit := false, contradictory := false, resolved := false, members := 0
                     prepRuling := 0, outcomeRuling := 0, prepared := false, pend := [] }
  { s with rec_ := { s.rec_ with epochs := l ++ [e] } }

/-- The first Write of an epoch opens it (Table 16-3). -/
def touchEpoch (n : Nat) (s : State) : State := if (s.openEpoch? n).isSome then s else addEpoch n 1 s

def State.pendingTotal (s : State) : Nat := (s.rec_.epochs.map (·.blocks)).sum

/-- Records of a commit: the pending entries in their own ruling order, of partitions that still exist, under the item's ruling (R429 to R431). -/
def insertPending (x : Pending) : List Pending → List Pending
  | [] => [x]
  | y :: ys => if x.ruling < y.ruling || (x.ruling = y.ruling && x.block ≤ y.block) then x :: y :: ys else y :: insertPending x ys

def commitRecs (m : MapState) (r : Nat) (pend : List Pending) : List MapRec :=
  let l := (pend.filter (fun d => (m.part? d.part).any (fun p => decide (p.born ≤ d.ruling)))).foldr insertPending []
  let parts := (l.map (·.part)).eraseDups
  parts.flatMap (fun p => writeRecs r p ((l.filter (fun d => d.part = p)).map (fun d => (d.block, d.slot, d.poisoned))))

/-- The item r commits an epoch: its records enter the log and the epoch closes as committed. -/
def commitEpoch (n r : Nat) (s : State) : State :=
  match s.openEpoch? n with
  | none => settle r s
  | some e =>
    if s.mismatch then settle r s else
    let recs := commitRecs s.map r e.pend
    let s := modEpoch n (fun e => { e with state := 5, outcomeRuling := r }) s
    let s := { s with ftl := { s.ftl with cache := s.ftl.cache.filter (fun b => !e.pend.any (fun d => d.block = b)) } }
    if recs = [] then settle r s else addRecs recs s

/-- The item r rolls an epoch back (R433, R441). -/
def rollBack (n r : Nat) (s : State) : State :=
  settle r (if s.mismatch then s else modEpoch n (fun e => { e with state := 6, outcomeRuling := r }) s)

/-! ## The item that commits (R431) -/

/-- The opcode of the internal item by which a Commit or deciding State holds its device-wide lock. -/
def commitOpcode : Nat := 0xF1

def wholeDevice : Lock := { part := 0, wide := true, lo := 0, hi := 0 }

/-- An earlier item holds or awaits a lock that overlaps one (R184). -/
def State.lockFree (s : State) (r : Nat) (k : Lock) : Bool :=
  !s.nib.items.any (fun j => j.ruling < r && (match j.lock with | some l => l.overlaps k | none => false))

/-- The outcome of an epoch has been ruled here and waits for its lock. -/
def State.deciding (s : State) (n : Nat) : Bool :=
  s.nib.items.any (fun i => Entry.opcode i.entry = commitOpcode && Entry.w2C i.entry = n)

/-- A commit ruled on the card acts at once where no earlier lock stands, or waits for its device-wide lock. -/
def ruleCommit (n r : Nat) (s : State) : State :=
  let s := { s with nib := { s.nib with unsettled := s.nib.unsettled ++ [r] } }
  if s.lockFree r wholeDevice && s.clearOf r 0 (2 ^ 64) then commitEpoch n r s
  else
    let i : Item := { ruling := r, narrow := false, q := 65535, slot := 0
                      entry := Entry.put (Entry.put 0 0 1 commitOpcode) 0x2C 4 n, well := 0, epoch := s.nib.epoch, lock := some wholeDevice
                      past := true, wait := .lock, resClaim := 0, hairClaim := 0, retries := 0, result := 0
                      verdict := 0, after := none, fast := false, segs := [] }
    { s with nib := { s.nib with items := s.nib.items ++ [i] } }

/-- The lock of the committing item is granted. -/
def runCommit (i : Item) (s : State) : State :=
  if s.clearOf i.ruling 0 (2 ^ 64) then dropItem i.ruling (commitEpoch (Entry.w2C i.entry) i.ruling s)
  else setItem { i with wait := .turn } s

/-! ## The initiator (R433) -/

/-- The Epoch Commit that waits for an epoch. -/
def State.commitItem? (s : State) (n : Nat) : Option Item :=
  s.nib.items.find? (fun i => Entry.opcode i.entry = 0xA8 && i.wait = .ligature && Entry.w2C i.entry = n)

def endCommit (n status : Nat) (s : State) : State :=
  let s := { s with lig := { s.lig with initiating := none } }
  match s.commitItem? n with | some i => failWith i status s | none => s

/-- The checks made before each attempt to send Prepare, in the order of R433, and the Prepare with its Members frame. -/
def checkPrepare (i : Item) (s : State) : State :=
  let n := Entry.w2C i.entry
  let members := BitVec.ofNat 24 (Entry.w30 i.entry)
  if members &&& s.lig.joined ≠ members then failWith i 0x1D s
  else
    let done := match s.epoch? n with | some e => if e.closed && i.ruling < e.outcomeRuling then some e.state else none | none => none
    match done with
    | some 5 => succeed i 0 s
    | some _ => failWith i 0x1D s
    | none =>
      if !s.lig.lrdyHigh || s.lig.open_.isSome || s.lig.initiating.isSome then s
      else
        let s := { s with lig := { s.lig with initiating := some (n, 0) } }
        sendFrame 5 members.toNat (sendFrame 4 n s)

/-- An Epoch Commit waits until LRDY stands high and no prepare is open, and then checks (R433). -/
def attemptPrepare (i : Item) (s : State) : State :=
  if !s.lig.lrdyHigh || s.lig.open_.isSome then s else checkPrepare i s

/-- The Epoch Commits that wait for the ligature, but for the one whose frames are out. -/
def State.waitingCommits (s : State) : List Item :=
  s.nib.items.filter (fun i => Entry.opcode i.entry = 0xA8 && i.wait = .ligature && !s.lig.initiating.any (fun x => x.1 = Entry.w2C i.entry))

/-- Every Epoch Commit that waits tries again, in ruling order. -/
def attemptAll (s : State) : State := s.waitingCommits.foldl (fun s i => attemptPrepare i s) s

/-- A card that takes no part until its next reset: no participant is joined for the commands that wait (R421, R433). -/
def abandonCommits (s : State) : State := s.waitingCommits.foldl (fun s i => checkPrepare i s) s

/-- A Prepare that lost arbitration, or that another prepare came before, is withdrawn with its Members frame; its conditions are checked again (R433). -/
def withdrawPrepare (s : State) : State :=
  let i := s.lig.initiating.bind (fun x => s.commitItem? x.1)
  let s := { s with lig := { s.lig with initiating := none, sendQ := s.lig.sendQ.filter (fun f => f.typ ≠ 4 && f.typ ≠ 5) } }
  attemptAll (match i with | some i => checkPrepare i s | none => s)

/-- Step 5: Commit where every participant is ready and none refused; otherwise Abort. -/
def decideOpen (s : State) : State :=
  match s.lig.open_ with
  | none => s
  | some (_, n) =>
    if s.lig.readies &&& s.lig.parts = s.lig.parts && !s.lig.refused then sendFrame 8 n s else sendFrame 9 n s

/-! ## The participant (Table 16-4) -/

/-- Why a participant cannot prepare: strap mismatch, not at I/O ready, read-only, a contained partition. -/
def State.refuseReason (s : State) (n : Nat) : Option Nat :=
  if s.mismatch then some 3
  else if !s.rst.io then some 1
  else if s.safe || s.pwr.thermalSafe then some 2
  else match s.openEpoch? n with
    | some e => if e.pend.any (fun d => s.partContained d.part) then some 4 else none
    | none => none

/-- The prepare of an epoch is ruled (steps 1 and 2): a named card pulls LRDY low, and refuses where it cannot prepare. -/
def rulePrepare (src n : Nat) (members : BitVec 24) (s : State) : State :=
  let t := ruleEvent (touch s)
  let s := t.1
  let s := { s with lig := { s.lig with held := none, open_ := some (src, n), parts := members, readies := 0, refused := false
                                        lrdyHigh := s.lig.lrdyHigh && members = 0, leaderAsked := false, sawCommitted := false } }
  if members.getLsbD s.own then
    let why := s.refuseReason n
    let s := touchEpoch n s
    let s := modEpoch n (fun e => if e.state = 1 then { e with state := 2, members := members, prepRuling := t.2, initiated := src = s.own } else e) s
    let s := { s with lig := { s.lig with pulls := true, lrdyHigh := false } }
    match why with
    | some w => sendFrame 7 (n + w * 2 ^ 24) s
    | none => closeStripes s
  else s

/-- Another card's prepare has opened first: a Prepare still to be sent is checked again (R433). -/
def yieldPrepare (src : Nat) (s : State) : State :=
  if src ≠ s.own && s.lig.sendQ.any (fun f => f.typ = 4) then withdrawPrepare s else s

/-- The open prepare is that of an epoch. -/
def State.opens (s : State) (n : Nat) : Bool := s.lig.open_.any (fun x => x.2 = n)

/-- An outcome of the open prepare has been ruled: the prepare is closed (R433, R435). -/
def closePrepare (s : State) : State := { s with lig := { s.lig with open_ := none, leaderAsked := false, sawCommitted := false } }

/-- A Commit is ruled by every joined card and acts on a participant without an outcome (R425, R435, step 6). -/
def receiveCommit (n : Nat) (s : State) : State :=
  if !s.canRule then s else
  let t := ruleEvent (touch s)
  let named := match s.openEpoch? n with | some e => decide (2 ≤ e.state) && !s.deciding n | none => false
  let members := if s.opens n then s.lig.parts else 0
  let s := if s.opens n then closePrepare t.1 else t.1
  let s := { s with lig := { s.lig with
    initiating := s.lig.initiating.map (fun x => if x.1 = n then (n, 6) else x)
    lrdyHigh := s.lig.lrdyHigh && members = 0 } }
  if named then ruleCommit n t.2 { s with lig := { s.lig with pulls := true, lrdyHigh := false } } else s

/-- An Abort is ruled by every joined card and closes a participant's epoch as rolled back; the initiator's command fails (R433). -/
def receiveAbort (n : Nat) (s : State) : State :=
  if !s.canRule then s else
  let t := ruleEvent (touch s)
  let acts := match s.openEpoch? n with | some e => decide (2 ≤ e.state) && !s.deciding n | none => false
  let pulls := s.lig.pulls && !acts && !s.opens n
  let s := if s.opens n then closePrepare t.1 else t.1
  let s := if acts then rollBack n t.2 s else s
  let s := { s with lig := { s.lig with pulls := pulls } }
  let s := if s.lig.initiating.any (fun x => x.1 = n) then endCommit n 0x1D s else s
  attemptAll s

/-! ## In-doubt epochs (R437 to R441) -/

/-- What State reports of an entry. -/
def stateCode (e : Epoch) : Nat := if e.state ≤ 2 then 0 else if e.state ≤ 4 then 1 else if e.state = 5 then 2 else 3

/-- The decision of Table 16-6 from the answers at hand; `whole`: every answer that can come is there. -/
def State.doubtDecision (s : State) (e : Epoch) (whole : Bool) : Option Bool :=
  let l := s.lig.answers
  let others := (List.range 24).filter (fun a => e.members.getLsbD a && a ≠ s.own)
  if l.any (fun x => x.2 = 2) then some true
  else if !whole then none
  else if l.any (fun x => x.2 = 3 || x.2 = 0) || others.any (fun a => s.lig.joined.getLsbD a && !l.any (fun x => x.1 = a)) then some false
  else if others.all (fun a => s.lig.joined.getLsbD a && l.any (fun x => x.1 = a && x.2 = 1)) then some true
  else none

/-- Answers that contradict one another: committed beside rolled back. -/
def contradicts (l : List (Nat × Nat)) : Bool := l.any (fun x => x.2 = 2) && l.any (fun x => x.2 = 3)

/-- The decision of an in-doubt epoch is ruled as one item (R441). -/
def decideDoubt (n : Nat) (forward : Bool) (s : State) : State :=
  if !s.canRule then s else
  let t := ruleEvent (touch s)
  let bad := contradicts s.lig.answers
  let s := flagEpoch n (fun e => if bad && !e.closed then { e with contradictory := true } else e) t.1
  let s := { s with lig := { s.lig with querying := none, answers := [] } }
  if forward then ruleCommit n t.2 s else rollBack n t.2 s

/-- Query of an epoch that is in doubt here (R440). -/
def queryEpoch (n : Nat) (s : State) : State :=
  sendFrame 0xA n { s with lig := { s.lig with querying := some n, answers := [] } }

/-- The epoch is in doubt, and no outcome of it has been ruled. -/
def State.doubts (s : State) (e : Epoch) : Bool := e.state = 4 && !s.deciding e.n

/-- A joined card at I/O ready queries the first epoch that it holds in doubt (R440). -/
def queryDoubt (s : State) : State :=
  if s.joinedLig && s.rst.io then
    match s.rec_.epochs.find? s.doubts with | some e => queryEpoch e.n s | none => s
  else s

/-- The in-doubt epoch that comes after one of them, if any. -/
def State.doubtAfter (s : State) (n : Nat) : Option Nat :=
  ((((s.rec_.epochs.filter s.doubts).map (·.n)).dropWhile (· ≠ n)).drop 1).head?

/-- Every answer that the named participants can give is there. -/
def State.allAnswered (s : State) (e : Epoch) : Bool :=
  (List.range 24).all (fun a => !e.members.getLsbD a || a = s.own || s.lig.answers.any (fun x => x.1 = a))

/-- An answer of a participant that contradicts the outcome this card has closed sets flag 2 and reverses nothing (R441). -/
def lateAnswer (src n code : Nat) (s : State) : State :=
  match s.epoch? n with
  | some e =>
    if e.members.getLsbD src && ((e.state = 5 && code = 3) || (e.state = 6 && code = 2)) then
      flagLatest n (fun x => { x with contradictory := true }) s
    else s
  | none => s

/-- State received (R436, R437, R440, R441). -/
def receiveState (src : Nat) (value : Nat) (s : State) : State :=
  let n := bits value 0 24
  let code := bits value 24 3
  let s := if s.lig.leaderAsked && s.lig.open_.any (fun x => x.2 = n) && code = 2 then { s with lig := { s.lig with sawCommitted := true } } else s
  match s.openEpoch? n with
  | none => lateAnswer src n code s
  | some e =>
    if e.state = 3 && code = 2 then receiveCommit n s
    else if e.state = 3 && code = 3 then receiveAbort n s
    else if e.state = 4 && s.lig.querying = some n then
      let s := { s with lig := { s.lig with answers := s.lig.answers.filter (fun x => x.1 ≠ src) ++ [(src, code)] } }
      match s.doubtDecision e (s.allAnswered e) with
      | some f => queryDoubt (decideDoubt n f s)
      | none => s
    else s

/-! ## Membership (R427) -/

/-- The card leaves the ligature: it stops pulling and sending, and its prepared epochs are in doubt (R434, Table 16-3). An
Epoch Commit whose Commit has been ruled stands (Table 16-5): it ends at step 7; one before it fails. -/
def leaveLigature (state : Nat) (s : State) : State :=
  let es := s.rec_.epochs.map (fun e => if e.state = 3 && !s.deciding e.n then { e with state := 4 } else e)
  let init := if s.lig.initiating.any (fun x => x.2 = 6) then none else s.lig.initiating
  let stays := if s.lig.initiating.any (fun x => x.2 = 6) then s.lig.initiating else none
  let s := { s with
    rec_ := { s.rec_ with epochs := es }
    lig := { s.lig with state := state, joined := 0, sendQ := [], held := none, open_ := none, pulls := false, initiating := stays
                        leaderAsked := false, sawCommitted := false, querying := none, answers := [] } }
  match init with
  | some (n, _) => endCommit n 0x1D s
  | none => s

def popCount (b : BitVec 24) : Nat := ((List.range 24).filter (fun i => b.getLsbD i)).length

/-- A Muster: members are those whose bits it sets (R427, R440). -/
def receiveMuster (map : BitVec 24) (s : State) : State :=
  let old := s.lig.joined
  let dropped := popCount (old &&& ~~~map)
  let s := { s with lig := { s.lig with dropped := sat 16 (s.lig.dropped + dropped) } }
  if map.getLsbD s.own then
    let s := { s with lig := { s.lig with state := 2, joined := map } }
    let s := if map &&& ~~~old ≠ 0 then queryDoubt s else s
    attemptAll s
  else if s.joinedLig then
    let s := leaveLigature 1 s
    { s with lig := { s.lig with joined := map } }
  else { s with lig := { s.lig with joined := map } }

/-! ## Recovery (R495) -/

/-- The state of each epoch from the records within the prefix. -/
def recoverEpoch (k : Nat) (e : Epoch) : Epoch :=
  let pend := e.pend.filter (fun d => d.ruling ≤ k)
  if e.closed && e.outcomeRuling ≤ k then e
  else if e.prepared && e.prepRuling ≤ k then { e with state := 4, outcomeRuling := 0, pend := pend }
  else { e with state := 6, outcomeRuling := 0, pend := [] }

end Sys2Proof.Machine
end

