-- ==== Sys2Proof/Machine/AdminOps.lean ====
section
/-! DEFINITION. What the admin-class commands do once they are admitted: data structures for the host, queue pairs, partitions and
protection, long operations, events, time, and the ligature commands (chapters 07, 08, 13, 14, 16). -/

namespace Sys2Proof.Machine

open Sys2Proof

/-! ## Data structures (R220, R221, R376) -/

/-- The length and bytes of a data structure, cut to the transfer and followed by zeros; a segment list that does not fit fails the command
(R166, R220, R221). -/
def structure_ (i : Item) (size : Nat) (m : Mem) (s : State) : State :=
  if i.listFits then deliver i { len := Entry.length i.entry, data := Mem.slice 0 (Entry.length i.entry) m } size s
  else failData i Fail.segments s

/-- Identify's structures: size and fields by selector (Tables 08-4 and 08-5). -/
def State.identifyData (s : State) (e : Entry) : Nat × List Field :=
  match Entry.b2C e with
  | 0 => (2048, s.deviceFields)
  | 1 => (256, match s.nib.adm.part? (Entry.part e) with | some p => s.partFields p | none => [])
  | _ => (576, partListFields s.nib.adm)

def runIdentify (i : Item) (s : State) : State :=
  let d := s.identifyData i.entry
  structure_ i d.1 (Mem.ofFields d.2) s

/-- The pages of Table 08-6: size and fields; the reset cause register is the reading well's. -/
def State.logPage (s : State) (log well : Nat) : Nat × List Field :=
  match log with
  | 1 => (16448, s.errorPage)
  | 2 => (512, s.healthPage)
  | 3 => (1088, s.blotterPage)
  | 4 => (64, [(0, 4, s.resetCause well)])
  | 5 => (256, s.eventsPage)
  | 6 => (544, s.longOpsPage)
  | 7 => (32, strapFields s.strap)
  | _ => (2112, s.ligaturePage)

/-- Clear on page 04h: bits [1:0] of the reading well's copy (R102). -/
def clearCause (w : Nat) (s : State) : State :=
  let off := fun (b : BitVec 64) => b &&& ~~~(BitVec.ofNat 64 (2 ^ w))
  { s with aon := { s.aon with por := off s.aon.por, pin := off s.aon.pin } }

/-- Clear on page 05h: every pending bit, with its count (R219, R221). -/
def clearEvents (s : State) : State :=
  { s with flt := { s.flt with events := s.flt.events.map (fun e => { e with pending := false, count := 0 }) } }

/-- A blotter entry that a read of the page returns in full (R403). -/
def State.entryReturned (s : State) (off len seq : Nat) : Bool :=
  s.flt.blotter.any (fun b => b.seq = seq && b.kind = 1 && off ≤ 0x40 + 32 * b.slot && 0x40 + 32 * b.slot + 32 ≤ off + len)

/-- A contain-level or safe-level fault that the read itself acknowledges: its entry is returned, or is gone and the class's header byte
is returned (R403). -/
def State.directlyAcked (s : State) (off len : Nat) (u : Unack) : Bool :=
  (u.level = 3 || u.level = 4)
  && (s.entryReturned off len u.seq
    || (!s.flt.blotter.any (fun b => b.seq = u.seq) && off ≤ 0x10 + u.cls && 0x10 + u.cls < off + len))

/-- The faults acknowledged: those, and with each returned entry every one of its class recorded before it. The list is in order of
recording; its end is met first. -/
def ackSet (direct held : Unack → Bool) : List Unack → List Nat × List Unack
  | [] => ([], [])
  | u :: us =>
    let r := ackSet direct held us
    if direct u then ((if held u then u.cls :: r.1 else r.1), u :: r.2)
    else if u.cls ∈ r.1 then (r.1, u :: r.2)
    else r

/-- The safe level raised by a class ends on acknowledgement (R408). -/
def endSafe (acked : List Unack) (s : State) : State :=
  let ends := fun (c : SafeCause) => match c with
    | .escalation k => acked.any (fun u => u.cls = k && u.level = 4) && !s.flt.unack.any (fun u => u.cls = k && u.level = 4)
    | .supply => s.sup.inRange && acked.any (fun u => u.cls = 12) && !s.flt.unack.any (fun u => u.cls = 12 && u.level = 4)
    | _ => false
  if s.flt.safe.any ends then
    let s := { s with flt := { s.flt with safe := s.flt.safe.filter (fun c => !ends c) } }
    aliveUpdate (addNote 0x07 0 s)
  else s

/-- Get Log Page of the blotter with Acknowledge set, over the bytes returned (R403, R406, R408). -/
def acknowledgeRead (off len : Nat) (s : State) : State :=
  let acked := (ackSet (s.directlyAcked off len) (fun u => s.entryReturned off len u.seq) s.flt.unack).2
  let s := acked.foldl (fun s u => acknowledge true u.seq s) s
  let s := { s with flt := { s.flt with containedParts := s.flt.containedParts.filter (fun x => !acked.any (fun u => u.seq = x.2)) } }
  endSafe acked s

/-- Get Log Page: the page as it stands, then Clear or Acknowledge (R221). -/
def runGetLog (i : Item) (s : State) : State :=
  let e := i.entry
  let d := s.logPage (Entry.b2C e) i.well
  let off := Entry.w30 e
  let len := Entry.length e
  let clear := bit (Entry.b2D e) 0
  let ack := bit (Entry.b2D e) 1
  let m := Mem.slice off len (Mem.ofFields d.2)
  let s := if !i.listFits then s
    else if clear && Entry.b2C e = 4 then clearCause i.well s
    else if clear && Entry.b2C e = 5 then clearEvents s
    else if ack && Entry.b2C e = 3 then acknowledgeRead off len s
    else s
  structure_ i d.1 m s

/-- Attest's State byte. -/
def State.attestState (s : State) : Nat :=
  match s.rst.mode with | .recStrap => 1 | .recCount => 2 | .normal => if s.mismatch then 3 else 0

/-- The report before its certificate and signature (Table 13-11). -/
def State.attestFields (s : State) (i : Item) : List Field :=
  [ (0x00, 4, 0x31545441), (0x04, 2, 1), (0x06, 2, 0x2000), (0x08, 16, Entry.field i.entry 0x2C 16),
    (0x18, 16, ((List.range 14).foldr (fun k acc => s.serialText.getD k 0 + 256 * acc) 0)), textField 0x28 16 s.orderingCode,
    (0x38, 8, i.ruling), (0x40, 8, s.rst.timeMs), (0x48, 4, s.resetCause 0), (0x4C, 1, s.attestState),
    (0x4D, 1, flag (s.rst.booted = .b && !s.recovery) 0 + flag s.rst.fallback 1 + flag s.boot.record.trial 2),
    (0x4E, 1, s.sa8 + flag s.dbg.everUnlocked 2),
    (0x50, 4, (List.range 9).foldr (fun n acc => s.strap.codes.getD n 0 % 8 * 8 ^ n + acc) 0), (0x54, 2, s.strap.faults.toNat),
    (0x56, 2, s.unit.certLen), (0x58, 4, s.boot.record.floor), (0x5C, 4, if s.recovery then 0 else s.boot.runSecurity),
    (0x60, 16, s.activeVersion), (0x70, 64, Config.romMeasurement.toNat),
    (0xB0, 64, if s.recovery then 0 else s.boot.runMeasure.toNat),
    (0xF0, 64, if s.otherPasses then (measurement (s.bankOf s.notRunning).bytes).toNat else 0),
    (0x130, 64, (Config.shake256 ((List.range 4096).map s.calibrationRow)).toNat) ]

def State.certificate (s : State) : List Byte :=
  (List.range 4096).map s.certByte

/-- The whole report; the signature covers bytes 0000h to 11FFh (R377). -/
def State.attestReport (s : State) (i : Item) : Mem :=
  let body := Mem.ofFields (s.attestFields i) ++ Mem.ofBytes 0x200 s.certificate
  body ++ Mem.ofBytes 0x1200 ((Config.attestSignature (Mem.bytes 0 body 0x1200)).take 3309)

/-- Attest fails while the calibration row could not be read (R357). -/
def runAttest (i : Item) (s : State) : State :=
  if s.rst.calGood then structure_ i 8192 (s.attestReport i) s else failData i (Fail.of 0x0A) s

/-! ## Flush, events, time, hints -/

/-- Flush waits for the writes ruled before it; the stripes that they need are closed (R187, R328). -/
def runFlush (i : Item) (s : State) : State :=
  if s.writesBefore i.ruling then succeed i 0 s else pushStripes (setItem { i with wait := .persist } s)

/-- At most 4 Await Event commands are outstanding (R218). -/
def runAwait (i : Item) (s : State) : State :=
  if 4 ≤ (s.nib.items.filter (fun j => j.wait = .event)).length then failWith i 6 s
  else deliverEvent (setItem { i with wait := .event } s)

/-- The correction of the outage estimate by the wall time (R291): real time off less the estimate, on every die. -/
def wallCorrection (t : Nat) (s : State) : State :=
  if s.rec_.lastWall = 0 then s
  else
    let off := (t - s.rst.timeMs - s.rec_.lastWall) / 60000
    let short := s.rec_.estimates.map (fun e => off - e)
    { s with dies := { s.dies with aging := addAges short s.dies.aging }, rec_ := { s.rec_ with estimates := s.rec_.estimates.map (max off) } }

/-- Set Time; before recovery has estimated the outage, the correction of R291 is left to it. -/
def runSetTime (i : Item) (s : State) : State :=
  let t := Entry.d2C i.entry
  let s := { s with wall := some t }
  succeed i 0 (if s.rst.recovered then wallCorrection t s else s)

/-- Power Hint takes effect; hint 02h as a task runs the shutdown sequence first (R226, R343, R451). -/
def runPowerHint (i : Item) (s : State) : State :=
  let h := Entry.b2C i.entry
  let s := { s with pwr := { s.pwr with hint := h } }
  if i.narrow && h = 2 then
    closeStripes (setItem { i with wait := .shutdown } { s with log := { s.log with closing := true } })
  else succeed i 0 s

/-! ## Queue pairs (R171 to R173, R191, R195 to R197) -/

/-- The pair that Create Queue Pair makes (R171, R172). -/
def newPair (kq1 : Bool) (e : Entry) : Pair :=
  { id := Entry.h2C e, well := if kq1 then 0 else Entry.b34 e, vector := Entry.h32 e, burst := 2 ^ (Entry.b35 e % 8), sqBase := Entry.pointer e
    cqBase := Entry.aux e, sqSize := Entry.h2E e, cqSize := Entry.h30 e, tail := 0, head := 0, cqHead := 0, cqTail := 0, phase := true
    frozen := none, refetch := false, retry := [], contained := false, deleting := false }

def insertPair (p : Pair) (l : List Pair) : List Pair := l.filter (fun x => x.id < p.id) ++ p :: l.filter (fun x => p.id < x.id)

/-- A Create or Delete of the same pair, ruled earlier, has not completed (R181). -/
def State.earlierPairCmd (s : State) (i : Item) : Bool := s.nib.items.any (fun j => j.ruling < i.ruling && j.pairCmd (Entry.h2C i.entry))

def runCreatePair (i : Item) (s : State) : State :=
  if s.earlierPairCmd i then setItem { i with wait := .turn } s
  else if (s.pair? (Entry.h2C i.entry)).isSome then failWith i 5 s
  else succeed i 0 { s with nib := { s.nib with pairs := insertPair (newPair (s.kq1 i.narrow) i.entry) s.nib.pairs } }

/-- A fetched command that has no ruling is removed and aborted, with Ruling 0 (Table 07-9). -/
def abortFetched (f : Fetched) (freezes : Bool) (s : State) : State :=
  let e := { Ending.ofFetched s f with freezes := freezes }
  complete e Fail.aborted 0 { s with nib := { s.nib with fetched := s.nib.fetched.erase f } }

/-- A ruled command is aborted: a read's buffer holds undefined content. -/
def abortItem (i : Item) (freezes : Bool) (s : State) : State :=
  let s := undefineBuffer i s
  complete { Ending.ofItem i with freezes := freezes } Fail.aborted 0 (removeItem i true s)

/-- The commands of some pairs before their cancel point are aborted (Table 07-9). -/
def abortCommands (p : Nat → Bool) (except : Nat) (freezes : Nat → Bool) (s : State) : State :=
  let items := s.nib.items.filter (fun i => !i.narrow && p i.q && !i.past && i.ruling ≠ except)
  let fetched := s.nib.fetched.filter (fun f => !f.narrow && p f.q)
  let s := items.foldl (fun s i => abortItem i (freezes i.q) s) s
  fetched.foldl (fun s f => abortFetched f (freezes f.q) s) s

/-- The pair is deleted with whatever its ring still holds (R196). -/
def deletePair (q : Nat) (s : State) : State := dropPair q s

/-- Delete Queue Pair once none of the pair's commands is left (R196). -/
def endDeletePair (i : Item) (s : State) : State :=
  let q := Entry.h2C i.entry
  if s.nib.items.any (fun j => !j.narrow && j.q = q) then s else succeed i 0 (deletePair q s)

/-- Delete Queue Pair stops the fetching of the pair and aborts its commands; it waits for an earlier Create or Delete of the pair (R181, R196). -/
def runDeletePair (i : Item) (s : State) : State :=
  let q := Entry.h2C i.entry
  if s.earlierPairCmd i then setItem { i with wait := .turn } s
  else if (s.pair? q).any (·.deleting) then endDeletePair i s
  else
  let s := modPair q (fun p => { p with deleting := true }) s
  let s := abortCommands (· = q) i.ruling (fun _ => true) s
  endDeletePair i (setItem { i with wait := .turn } s)

/-- A frozen ring resumes, with retry of the freezing entry or with skip (R191). -/
def resumePair (q : Nat) (skip : Bool) (s : State) : State :=
  modPair q (fun p => { p with frozen := none, retry := if skip then p.retry else p.retry ++ p.frozen.toList }) s

def runResumeQueue (i : Item) (s : State) : State :=
  let q := Entry.h2C i.entry
  match s.pair? q with
  | some p => if p.frozen.isSome && !p.contained && !p.deleting then succeed i 0 (resumePair q (Entry.b2E i.entry = 1) s) else failWith i 6 s
  | none => failWith i 6 s

/-- Cancel Command: the outstanding command of the pair with the identifier that was fetched first (R195). -/
def runCancel (i : Item) (s : State) : State :=
  let q := Entry.h2C i.entry
  let cid := Entry.h2E i.entry
  match s.nib.items.find? (fun j => !j.narrow && j.q = q && Entry.cid j.entry = cid) with
  | some j =>
    if j.past then setItem { i with wait := .turn, result := 2, after := some j.ruling } s
    else succeed i 0 (abortItem j true s)
  | none =>
    match s.nib.fetched.find? (fun f => !f.narrow && f.q = q && Entry.cid f.entry = cid) with
    | some f => succeed i 0 (abortFetched f true s)
    | none => succeed i 1 s

/-- Cancel Command completes after its target (R195). -/
def endCancel (i : Item) (s : State) : State :=
  if s.nib.items.any (fun j => some j.ruling = i.after) then s else succeed i i.result s

/-- Another Controller Restart ruled later, which does not hold this one up. -/
def laterRestart (i j : Item) : Bool := Entry.opcode j.entry = 0x84 && i.ruling < j.ruling

/-- Controller Restart once every other command has completed: the I/O pairs go, pair 0 is unfrozen (R197). -/
def endRestart (i : Item) (s : State) : State :=
  if s.nib.items.any (fun j => j.ruling ≠ i.ruling && j.q ≠ 65535 && !laterRestart i j) then s
  else
    let s := { s with nib := { s.nib with pairs := s.nib.pairs.filter (fun p => p.id = 0), paused := s.boot.activating } }
    succeed i 0 (modPair 0 (fun p => { p with frozen := none, retry := [] }) s)

/-- Controller Restart: what pair 0's ring holds and has not been fetched is never fetched (R197, Table 07-9, log entry 103). -/
def runRestart (i : Item) (s : State) : State :=
  if i.narrow then succeed i 0 s
  else
    let s := modPair 0 (fun p => { p with head := p.tail }) { s with nib := { s.nib with paused := true } }
    let s := abortCommands (fun _ => true) i.ruling (fun q => q ≠ 0) s
    endRestart i (setItem { i with wait := .turn } s)

/-! ## The bootstrap block (R153 to R157, R163) -/

/-- PS4 is entered through steps 3 to 6 of the shutdown sequence (R343, R446, R453); minimal recovery mode goes no further than PS2 and strap
mismatch no further than PS3 (R467, R468). -/
def beginPs4 (s : State) : State :=
  if s.recovery then { s with pwr := { s.pwr with ps := max s.pwr.ps 2 } }
  else if s.mismatch then { s with pwr := { s.pwr with ps := max s.pwr.ps 3 } }
  else closeStripes { s with pwr := { s.pwr with entering4 := true }, log := { s.log with closing := true } }

/-- The function is in D3hot, and the module enters PS4 at once (R162, R453). -/
def enterD3 (s : State) : State := beginPs4 { s with pcie := { s.pcie with d3hot := true, d3Next := false } }

/-- The effect of clearing Enable is complete: no command of the host is left, so every pair goes, Granted and Ready clear (R156). -/
def endClear (s : State) : State :=
  if s.pcie.clearing && s.nib.items.all (fun i => i.narrow || i.q = 65535) then
    { s with
      nib := { s.nib with pairs := [], fetched := s.nib.fetched.filter (·.narrow), paused := s.boot.activating }
      pcie := { s.pcie with clearing := false, granted := 0, ready := false } }
  else s

/-- D3hot that was asked for is entered once that effect is complete (R162). -/
def settleD3 (s : State) : State := if s.pcie.d3Next && !s.pcie.clearing then enterD3 s else s

/-- Enable is cleared: while Ready is 1 the module stops fetching and performs the Controller Restart (R156, R197). Between a passed enable and Ready
nothing else changes: pair 0 and Granted stay, and admin ready sets Ready (DESIGN CHOICE, log entry 118). -/
def clearEnable (s : State) : State :=
  let s := { s with pcie := { s.pcie with enable := false } }
  if s.pcie.ready && !s.pcie.clearing then
    let s := { s with nib := { s.nib with paused := true }, pcie := { s.pcie with clearing := true } }
    endClear (abortCommands (fun _ => true) 0 (fun q => q ≠ 0) s)
  else s

/-- An in-band reset ends every command without a completion, an aborted read's buffer undefined; one past its cancel point goes on without its
pair (R163, R194, R197). -/
def dropHost (s : State) : State :=
  let mine := fun (i : Item) => !i.narrow && i.q ≠ 65535
  let s := (s.nib.items.filter (fun i => mine i && !i.past)).foldl (fun s i => removeItem i true (undefineBuffer i s)) s
  { s with nib := { s.nib with
      items := mapIf mine (fun i => { i with q := 65535 }) s.nib.items
      fetched := s.nib.fetched.filter (·.narrow), pairs := [], paused := s.boot.activating } }

/-! ## Partitions and protection (R205, R212, R217, R237, R380, R386) -/

def newPart (e : Entry) (ruling base : Nat) : Part :=
  let own := BitVec.ofNat 64 (2 ^ Entry.b38 e)
  { id := Entry.part e, base := base, size := Entry.d2C e, sector := Entry.b34 e = 1, layout := Entry.b35 e, width := Entry.b36 e
    planes := Entry.b37 e, owner := Entry.b38 e, rd := own, wr := own, capped := false, fixed := false, born := ruling }

/-- The records that a command marked P or S enters, as types and changes, over a map (R237, R386). -/
def changesOf (limit profile ruling : Nat) (m : MapState) (e : Entry) : List (Nat × Change) :=
  let p := Entry.part e
  match Entry.opcode e with
  | 0x90 =>
    (match placeRegion limit (Entry.d2C e) m.parts with
     | some (base, moves) => (if moves = [] then [] else [(6, Change.move moves)]) ++ [(4, Change.create (newPart e ruling base))]
     | none => [])
  | 0x91 => [(5, Change.delete p)]
  | 0x92 => if m.cardFix then []
    else if p = 0 then (if m.cardCap then [] else [(7, Change.capCard true)])
    else (if (m.part? p).any (fun x => x.capped || x.fixed) then [] else [(7, Change.capPart p true)])
  | 0x93 => if p = 0 then (if m.cardCap then [(7, Change.capCard false)] else [])
    else (if (m.part? p).any (·.capped) then [(7, Change.capPart p false)] else [])
  | 0x94 => if m.cardFix then []
    else if p = 0 then [(7, Change.fixCard)]
    else (if (m.part? p).any (·.fixed) then [] else [(7, Change.fixPart p)])
  | 0x95 => [(7, Change.access p (BitVec.ofNat 64 (Entry.d2C e)) (BitVec.ofNat 64 (Entry.d34 e)))]
  | 0x98 => [(7, Change.format profile)]
  | _ => []

/-- The map's partitions and protection after a command (R181). -/
def applyChanges (l : List (Nat × Change)) (m : MapState) : MapState := l.foldl (fun m c => c.2.apply m) m

def changeRecs (ruling : Nat) (l : List (Nat × Change)) : List MapRec :=
  l.map (fun c => mkRec ruling c.1 (match c.2 with | .create p => p.id | .delete id => id | .capPart id _ => id
                                                     | .fixPart id => id | .access id _ _ => id | _ => 0) c.2)

/-- Pending entries follow a region that moves (R430). -/
def movePendingRegion (id by_ to_ : Nat) (s : State) : State :=
  let f := fun (d : Pending) => { d with block := d.block - by_ + to_ }
  { s with rec_ := { s.rec_ with epochs := s.rec_.epochs.map (fun e => { e with pend := mapIf (fun d => d.part = id) f e.pend }) } }

/-- Where a block lies after the regions of one move have moved one after the other (R237). -/
def movedBlock (m : MapState) (l : List (Nat × Nat)) (b : Nat) : Nat :=
  match m.parts.find? (fun p => p.base ≤ b && b < p.base + p.size) with
  | some p => (match l.find? (fun x => x.1 = p.id) with | some x => b - p.base + x.2 | none => b)
  | none => b

/-- One move of regions: pending entries, reads under way and copies name the new blocks, the read cache is emptied (R238, R245). -/
def moveRegions (l : List (Nat × Nat)) (s : State) : State :=
  let at_ := movedBlock s.map l
  let s := l.foldl (fun s x => match s.map.part? x.1 with | some p => movePendingRegion x.1 p.base x.2 s | none => s) s
  { s with
    ftl := { s.ftl with cache := [], moves := s.ftl.moves.map (fun m => { m with block := at_ m.block, stroke := m.stroke.map (fun _ => at_ m.block / 32) })
                        touched := s.ftl.touched.map (fun x => (at_ (32 * x.1) / 32, x.2)) }
    dies := { s.dies with reads := s.dies.reads.map (fun r => { r with block := at_ r.block }) } }

/-- The move among a command's changes. -/
def movesOf (l : List (Nat × Change)) : List (Nat × Nat) := l.flatMap (fun c => match c.2 with | .move m => m | _ => [])

/-- Partition-management commands ruled before this one that have not taken effect yet. -/
def State.earlierChange (s : State) (i : Item) : Bool :=
  s.nib.items.any (fun j => j.ruling < i.ruling && (Entry.opcode j.entry = 0x90 || Entry.opcode j.entry = 0x91)
    && j.wait ≠ .persist)

/-- What must have entered its records first: nothing for a change of rights, the partition's blocks for a deletion, every staged block
for a creation that moves regions (R238). -/
def State.changeClear (s : State) (i : Item) (l : List (Nat × Change)) : Bool :=
  !s.earlierChange i
  && (match Entry.opcode i.entry with
    | 0x91 => (match s.partOf i with | some p => s.clearOf i.ruling p.base p.size | none => true)
    | 0x90 => l.length ≤ 1 || s.res.staged = []
    | _ => true)

/-- A command that changes partitions or protection: its records are entered in one group, and it waits until it is persistent (R205). -/
def runChange (i : Item) (s : State) : State :=
  let l := changesOf s.logicalBlocks s.profile i.ruling s.map i.entry
  if !s.changeClear i l then setItem { i with wait := .turn } s
  else
    let dead := if Entry.opcode i.entry = 0x91 then s.partOf i else none
    let s := match dead with
      | some p => { s with ftl := { s.ftl with cache := s.ftl.cache.filter (fun b => b < p.base || p.base + p.size ≤ b) } }
      | none => s
    let s := addRecs (changeRecs i.ruling l) (if movesOf l = [] then s else moveRegions (movesOf l) s)
    let s := if l = [] then settle i.ruling s else s
    setItem { i with wait := .persist } s

/-! ## Long operations (R229, R230) -/

/-- Sanitize at its lock: its long operation begins, the only one of its type since the lock is device-wide; in strap mismatch it ends one that a
reset cut off and that goes on. Its start is recorded in the media records, and the command waits for the format (R73, R227, R230, R323). -/
def runSanitize (i : Item) (s : State) : State :=
  let s := cancelOps (· = 1) { s with lops := { s.lops with queued := [] } }
  let r := createOp 1 0xFFFF i.ruling 1 s
  let s := if s.mismatch then dropMark r.1 else openMedia r.1
  setItem { i with wait := .sanitize, result := r.2 } { s with rec_ := { s.rec_ with sanitize := some i.ruling } }

/-- A Sanitize that has been ruled or resumed and has not completed. -/
def State.sanitizing (s : State) : Bool :=
  (!s.recovery && s.rec_.sanitize.isSome) || s.nib.items.any (fun i => Entry.opcode i.entry = 0x98 && i.verdict = 0)

/-- Self-test and Calibrate: an operation is created and begins, or another is under way (R230). -/
def runTest (typ target : Nat) (i : Item) (s : State) : State :=
  let same := fun (t : Nat) => if typ = 4 then t = 4 else isSelfTest t
  if s.sanitizing || s.lops.list.any (fun o => same o.typ && !o.final) then failWith i 0x1B s
  else
    let r := createOp typ target i.ruling 1 s
    testWork (succeed i r.2 r.1)

def runSelfTest (i : Item) (s : State) : State := runTest (1 + Entry.b2C i.entry) 0xFFFF i s

/-- The die that the Die field of Calibrate names: the dies present counted in ascending order of Table 15-1's die number (DESIGN CHOICE, log
entry 104; on a 16T the field is that number). -/
def State.nthDie (s : State) (n : Nat) : Nat := dieOf (n / s.groups) (n % s.groups)

def runCalibrate (i : Item) (s : State) : State :=
  runTest 4 (if Entry.b2C i.entry = 1 then s.nthDie (Entry.b2D i.entry) else 0xFFFF) i s

/-- The action permitted for the type (Table 08-9) in the state that the operation has (R229). -/
def actionAllowed (o : LongOp) (action : Nat) : Bool :=
  let state := o.wants.getLast?.getD o.state
  let ctl := o.typ ≠ 1 && !o.final && state < 3
  match action with
  | 1 => ctl && state ≠ 2
  | 2 => ctl && state = 2
  | _ => ctl && (isSelfTest o.typ || o.typ = 4)

/-- The state that an action of Operation Control asks for (Table 08-10): suspended, running, cancelled. -/
def actionState (action : Nat) : Nat := match action with | 1 => 2 | 2 => 1 | _ => 5

/-- The oldest command that waits for an operation's state ends with that state's code (R208, R229). -/
def endControl (h state : Nat) (s : State) : State :=
  match s.nib.items.find? (fun i => Entry.opcode i.entry = 0x9B && Entry.h2C i.entry = h && i.wait = .turn && actionState (Entry.b2E i.entry) = state) with
  | some i => succeed i state s
  | none => s

/-- One state that was asked for takes effect (Table 08-10); a test starts its segment or die anew, a rebuild takes its next band (R301, R313). -/
def takeWanted (h typ : Nat) (s : State) (w : Nat) : State :=
  let s := if isRebuild typ then s else dropTests h s
  let s := endControl h w (match w with
    | 5 => endOp h 5 7 0 s
    | 2 => startQueued typ (modOp h (fun o => { o with state := 2 }) s)
    | w => actUpdate (modOp h (fun o => { o with state := w }) s))
  if isRebuild typ then rebuildNext s else testWork s

/-- An operation whose die operations have all completed takes, in the order of their rulings, the states it was asked for (R229, R301). -/
def reachWanted (h : Nat) (s : State) : State :=
  match s.op? h with
  | none => s
  | some o => o.wants.foldl (takeWanted h o.typ) (modOp h (fun o => { o with wants := [] }) s)

/-- Operation Control (R229): suspending and cancelling a running operation take effect when its die operations have completed; a later command
takes effect after the earlier ones. -/
def runControl (i : Item) (s : State) : State :=
  let h := Entry.h2C i.entry
  let action := Entry.b2E i.entry
  match s.op? h with
  | none => failWith i 0x1A s
  | some o =>
    if !actionAllowed o action then failWith i 6 s
    else
      let s := setItem { i with wait := .turn } (modOp h (fun o => { o with wants := o.wants ++ [actionState action] }) s)
      if o.state = 1 then (if isRebuild o.typ then s else holdTests s) else reachWanted h s

/-! ## Ligature commands (R235, R433, R442) -/

def runEpochCommit (i : Item) (s : State) : State :=
  if !s.joinedLig then failWith i 0x1C s
  else attemptPrepare { i with wait := .ligature } (setItem { i with wait := .ligature } s)

/-- Epoch Resolve at its device-wide lock (R442): the epoch closes under the ruling of the command, which waits until it is persistent. -/
def runEpochResolve (i : Item) (s : State) : State :=
  let n := Entry.w2C i.entry
  if !s.joinedLig then failWith i 0x1C s
  else
    match s.openEpoch? n with
    | none => failWith i 6 s
    | some e =>
      if e.state ≠ 4 then failWith i 6 s
      else if !s.clearOf i.ruling 0 (2 ^ 64) then setItem { i with wait := .turn } s
      else
        let s := setItem { i with wait := .persist } (flagEpoch n (fun x => if x.closed then x else { x with resolved := true }) s)
        let s := if s.lig.querying = some n then { s with lig := { s.lig with querying := none, answers := [] } } else s
        if Entry.b30 i.entry = 1 then commitEpoch n i.ruling s else rollBack n i.ruling s

end Sys2Proof.Machine
end

