-- ==== Sys2Proof/Machine/Admission.lean ====
section
/-! DEFINITION. The admission unit (chapters 07 and 14): resources, the checks of Table 07-6 in order, rulings, locks, the start of each
command once it is admitted, and the work that goes on when a step has changed the state. -/

namespace Sys2Proof.Machine

open Sys2Proof

/-! ## Resources (R179, R242, R247, R264, R333, R385, R432, R456) -/

def State.lockEntries (s : State) : Nat := (s.nib.items.filter (fun i => i.lock.isSome)).length

/-- The space a write takes at admission (Table 07-5). -/
def reservoirNeed (narrow : Bool) (e : Entry) : Nat :=
  let n := min (Entry.length e) reservoirBytes
  if narrow then n else min n 1048576

/-- Hairline entries that a command can need (R242). -/
def State.hairClaimOf (s : State) (e : Entry) : Nat :=
  if s.strokeOnly || (Entry.opcode e ≠ 1 && Entry.opcode e ≠ 4) then 0
  else match s.nib.adm.part? (Entry.part e) with
    | none => 0
    | some p =>
      let x := p.extent false (Entry.start e) (Entry.count e)
      hairNeed x.1 x.2

def State.hairCapacity (s : State) : Nat := 64 * 1048576 * s.groups / 4

/-- Hairline entries neither in use nor reserved by a write that has not updated the map (R242). -/
def State.hairFree (s : State) : Nat :=
  s.hairCapacity - s.map.hair.length - (s.nib.items.map (·.hairClaim)).sum - (s.res.staged.map (·.hair)).sum

/-- Bytes of log pages held since the older checkpoint slot's replay start (R333). -/
def State.logHeld (s : State) : Nat :=
  let starts := (s.log.cps.filter (·.valid)).map (·.replay)
  let from_ := if starts.length < 2 then 0 else starts.foldl min s.log.nextSeq
  16384 * (s.log.pages.filter (fun p => p.recs = [] || p.recs.any (fun r => from_ ≤ r.seq))).length

/-- Records in the map log buffers that are not durable, in bytes (R247). -/
def State.logWaiting (s : State) : Nat := 32 * (s.log.buf.length + (s.log.inflight.map (fun p => p.recs.length)).sum)

/-- Blocks that a write of an epoch counts against the limits of R432 (R471). -/
def State.epochBlocks (s : State) (e : Entry) : Nat :=
  match s.nib.adm.part? (Entry.part e) with
  | none => 0
  | some p =>
    let x := p.extent s.strokeOnly (Entry.start e) (Entry.count e)
    x.2 - x.1

/-- Pending blocks of one epoch, or of all: journalled, staged, or still to arrive. -/
def State.epochTotal (s : State) (n : Option Nat) : Nat :=
  let mine := fun (x : Nat) => match n with | some k => x = k | none => x ≠ 0
  ((s.rec_.epochs.filter (fun e => mine e.n)).map (·.blocks)).sum
    + (s.res.staged.filter (fun x => mine x.epoch)).length
    + ((s.nib.items.filter (fun i => Entry.opcode i.entry = 1 && mine (Entry.w30 i.entry) && !i.past)).map (fun i => s.epochBlocks i.entry)).sum

/-- A Write that carries an epoch stalls (R432). -/
def State.epochShort (s : State) (e : Entry) : Bool :=
  let n := Entry.w30 e
  if Entry.opcode e ≠ 1 || n = 0 || 2 ^ 24 ≤ n || s.ligAddress.isNone then false
  else
    match s.openEpoch? n with
    | some x => 2 ≤ x.state || decide (4 * 1048576 < s.epochTotal none + s.epochBlocks e)
    | none => decide (64 ≤ (s.rec_.epochs.filter (fun x => !x.closed)).length) || decide (4 * 1048576 < s.epochTotal none + s.epochBlocks e)

/-- The resources of admission in turn (Table 07-5, R242, R247, R264, R333, R385, R432, R445, R456): whether the command needs each, and whether it is
short for the command. -/
def State.resources (s : State) (narrow : Bool) (e : Entry) : List (Bool × Bool) :=
  let op := Entry.opcode e
  match cmdInfo op with
  | none => []
  | some i =>
    [ (i.lock ≠ 0, decide (8192 ≤ s.lockEntries)),
      (op = 1, decide (reservoirBytes < s.reservoirUsed + reservoirNeed narrow e)),
      (s.hairClaimOf e ≠ 0, decide (s.hairFree < s.hairClaimOf e)),
      (op = 1, match s.ftl.pacing with | some c => decide (c < Entry.length e) | none => false),
      (op = 1, s.effectiveStep = 4),
      (op = 1, s.writeCeiling),
      (op = 1 || op = 4, decide (64 * 1048576 ≤ s.logWaiting) || decide (768 * 1048576 ≤ s.logHeld)),
      (isGateChange op, decide (3 ≤ s.nib.versions.length)),
      (op = 1 && Entry.w30 e ≠ 0, s.epochShort e) ]

/-- Whether a resource that a command needs is short (R179). -/
def State.shortFor (s : State) (narrow : Bool) (e : Entry) : Bool := (s.resources narrow e).any (fun x => x.1 && x.2)

/-- A command fetched earlier is stalled and still waits on a resource that the command needs too: the two are ruled in the order in which they
were fetched (R179). -/
def State.behindStalled (s : State) (narrow : Bool) (e : Entry) (before : List Fetched) : Bool :=
  before.any (fun f => f.stalled && ((s.resources narrow e).zip (s.resources f.narrow f.entry)).any (fun x => x.1.1 && x.2.1 && x.2.2))

/-- The commands fetched before one that waits. -/
def State.fetchedBefore (s : State) (f : Fetched) : List Fetched := s.nib.fetched.takeWhile (· ≠ f)

/-- The command stalls at admission (R179). -/
def State.mustStall (s : State) (f : Fetched) : Bool :=
  s.shortFor f.narrow f.entry || s.behindStalled f.narrow f.entry (s.fetchedBefore f)

/-! ## The checks of Table 07-6 -/

/-- Minimal recovery mode accepts Identify, the readable log pages, Attest, and download and activate where SA8 allows them (R100); an
unknown page goes on to its field check (Table 08-6). -/
def State.recoveryAccepts (s : State) (e : Entry) : Bool :=
  let op := Entry.opcode e
  op = 0x88 || op = 0xA2 || (isFirmware op && s.updateAllowed)
  || (op = 0x89 && Entry.b2C e ≠ 5 && Entry.b2C e ≠ 6 && Entry.b2C e ≠ 8)

/-- Strap mismatch accepts Identify, log pages, Attest and Sanitize Device (R73). -/
def mismatchAccepts (e : Entry) : Bool :=
  let op := Entry.opcode e
  op = 0x88 || op = 0x89 || op = 0xA2 || op = 0x98

/-- Whether a pair, or the task entry, takes the opcode (R201, R202). -/
def State.opcodeAllowed (s : State) (narrow : Bool) (q : Nat) (e : Entry) : Bool :=
  let op := Entry.opcode e
  match cmdInfo op with
  | none => false
  | some i =>
    if narrow then !(op = 0x80 || op = 0x81 || op = 0x82 || op = 0x83 || op = 0x85)
    else (i.kq1 || !s.kq1 false) && (i.pairs = 2 || (i.pairs = 0 && q = 0) || (i.pairs = 1 && q ≠ 0))

/-- The first three checks: start mode, opcode, fields. -/
def State.checkEarly (s : State) (narrow : Bool) (q : Nat) (e : Entry) : Option Fail :=
  if s.recovery && !s.recoveryAccepts e then some (Fail.of 0x10)
  else if s.mismatch && !mismatchAccepts e then some (Fail.of 0x0F)
  else if !s.opcodeAllowed narrow q e then some (Fail.of 1)
  else
    match cmdInfo (Entry.opcode e) with
    | none => some (Fail.of 1)
    | some i => (lowest (sharedChecks narrow e i ++ commandChecks s narrow 8192 e)).map (fun o => { Fail.of 2 with detail := o })

/-- The range check (R213 to R216). -/
def rangeFails (p : Part) (e : Entry) : Bool :=
  let op := Entry.opcode e
  let u := max 1 p.unit
  decide (p.presented < Entry.start e + Entry.count e)
  || (op = 6 && p.layout ≠ 1) || (op = 7 && p.layout ≠ 2)
  || ((op = 6 || op = 7) && (Entry.start e % u ≠ 0 || Entry.count e % u ≠ 0))

/-- The fields that depend on the partition, the limit of 4,096 blocks of 4 KiB among them (Table 07-1, R492). -/
def partChecks (p : Part) (e : Entry) : List Check :=
  (0x28, isBlockCmd (Entry.opcode e) && !p.sector && 4096 < Entry.count e) ::
  match Entry.opcode e with
  | 0x01 | 0x02 => [(0x10, Entry.length e ≠ Entry.count e * p.blockBytes)]
  | 0x06 => [(0x10, Entry.length e ≠ Entry.count e * 4096 / max 1 p.planes), (0x2C, p.planes ≤ Entry.b2C e)]
  | 0x07 => [(0x10, Entry.length e ≠ (if Entry.b2D e = 0 then Entry.count e / max 1 p.width * Entry.b2C e * 512 else Entry.count e * 4096)),
             (0x2C, Entry.b2C e = 0 || 8 * p.width < Entry.b2C e)]
  | _ => []

/-- The well's right on the partition (Table 14-1). -/
def rightFails (p : Part) (well : Nat) (e : Entry) : Bool :=
  match Entry.opcode e with
  | 0x01 | 0x04 => !wellBit p.wr well
  | 0x02 | 0x05 | 0x06 | 0x07 => !wellBit p.rd well
  | _ => false

/-- The partitions and protection that the media hold; in strap mismatch they are not loaded (R73, R388). -/
def State.protection (s : State) : MapState := if s.mismatch then (s.recovered_ none).2 else s.nib.adm

/-- The status word of the narrow bus (Table 05-7). -/
def State.narrowStatus (s : State) : Nat :=
  taskCode s.nb.task + flag s.nb.frameErr 3 + flag s.nb.dataErr 4 + flag s.nb.illegal 5
    + flag (s.protection.cardCap || s.sup.wpswLow) 6 + flag s.protection.cardFix 7 + flag s.sup.wpswLow 8
    + flag s.sup.warning.isSome 9 + flag s.eventPending 10 + flag s.rst.io 11 + flag s.recovery 12 + flag s.mismatch 13
    + s.nb.version % 4 * 2 ^ 14

/-- Table 14-3, the columns of protection. -/
def State.protectFails (s : State) (e : Entry) : Bool :=
  let m := s.protection
  let p := m.part? (Entry.part e)
  let cap := p.any (·.capped)
  let fix := p.any (·.fixed)
  let sw := s.sup.wpswLow
  match Entry.opcode e with
  | 0x01 | 0x04 | 0x91 => cap || fix || m.cardCap || sw || m.cardFix
  | 0x90 => m.cardCap || sw || m.cardFix
  | 0x93 => sw || m.cardFix || (Entry.part e ≠ 0 && fix)
  | 0x95 => fix || m.cardFix
  | 0x98 => sw || m.cardFix || m.parts.any (·.fixed)
  | _ => false

/-- The status of the device's read-only state: worn, thermal, safe (Table 07-6). -/
def State.readOnly (s : State) : Option Nat :=
  if s.rec_.worn then some 0x13
  else if s.pwr.thermalSafe then some 0x12
  else if s.flt.safe.any (· ≠ .thermal) || s.rec_.lowChannels then some 0x11
  else none

/-- Read-only states against the commands of Table 14-3; a Release goes on without effect (R206). -/
def State.readOnlyFails (s : State) (e : Entry) : Option Nat :=
  match Entry.opcode e with
  | 0x01 | 0x90 | 0x91 | 0x93 | 0x95 => s.readOnly
  | 0x98 =>
    if s.pwr.thermalSafe then some 0x12
    else if s.flt.safe.any (· ≠ .thermal) || s.rec_.lowChannels then some 0x11
    else none
  | _ => none

/-- The partition that the command names. -/
def namesPart (e : Entry) : Bool :=
  needsPartition (Entry.opcode e) e || ((match cmdInfo (Entry.opcode e) with | some i => i.lock = 3 | none => false) && Entry.part e ≠ 0)

/-- The checks from the partition on, over the state that the items ruled before leave (R181, R204, R492). -/
def State.checkLate (s : State) (well : Nat) (e : Entry) : Option Fail :=
  let op := Entry.opcode e
  let p := s.nib.adm.part? (Entry.part e)
  let range := match p with | some p => isBlockCmd op && rangeFails p e | none => false
  let fields := match p with | some p => lowest (partChecks p e) | none => none
  let right := match p with | some p => rightFails p well e | none => false
  if namesPart e && op ≠ 0x90 && p.isNone then some (Fail.of 4)
  else if op = 0x90 && p.isSome then some (Fail.of 0x17)
  else if range then some (Fail.of 3)
  else match fields with
    | some o => some { Fail.of 2 with detail := o }
    | none =>
      if right then some (Fail.of 0x0E)
      else if s.protectFails e then some (Fail.of 0x0D)
      else (s.readOnlyFails e).map Fail.of

/-- A resumed Sanitize keeps every command that needs the media out (R230). In minimal recovery mode the media records are not read, and in strap mismatch the commands
that R73 accepts go on (R99, R100). -/
def State.sanitizeResumed (s : State) : Bool :=
  !s.recovery && !s.mismatch &&
  match s.rec_.sanitize with
  | some r => (s.item? r).isNone
  | none => false

/-- What the state at the ruling already decides about the execution: a resumed Sanitize (R230), contained, capacity, an in-doubt partition, an epoch past its
limit; 100h stands for a Release without effect (R206, R212, R406, R432, R439). -/
def State.verdictOf (s : State) (e : Entry) : Nat :=
  let op := Entry.opcode e
  if s.sanitizeResumed && needsMedia e then 0x1B
  else if namesPart e && op ≠ 0x90 && s.partContained (Entry.part e) then 0x14
  else if op = 0x90 && s.logicalBlocks < s.nib.adm.allocated + Entry.d2C e then 0x16
  else if op = 0x91 && s.rec_.epochs.any (fun x => x.state = 4 && x.pend.any (fun d => d.part = Entry.part e)) then 0x15
  else if op = 1 && Entry.w30 e ≠ 0 && 1048576 < s.epochTotal (some (Entry.w30 e)) + s.epochBlocks e then 0x16
  else if op = 4 && s.readOnly.isSome then 0x100
  else 0

/-! ## Execution (R90, R184, R230) -/

/-- A task's data phase begins, or its work (R123, R127). It does not wait for the range lock: a Write whose lock waits takes its data meanwhile
(DESIGN CHOICE, log entry 106). -/
def taskAdmitted (i : Item) (s : State) : State :=
  if i.narrow then
    let d := match cmdInfo (Entry.opcode i.entry) with | some x => x.data | none => 0
    let blocks := (Entry.length i.entry + 4095) / 4096
    { s with nb := { s.nb with
        task := if d = 1 then .dataIn else if d = 2 then .dataOut else .busy
        remaining := if d = 0 then 0 else blocks } }
  else s

/-- A Write whose lock is granted waits for its data; a task's data may already be complete, past its cancel point (log entry 106). -/
def startWrite (i : Item) (s : State) : State :=
  let s := setItem { i with wait := .data } s
  if i.narrow && s.nb.task = .busy then takeData { i with wait := .data } s.nb.inData { s with nb := { s.nb with inData := [], inLen := 0 } } else s

/-- Firmware Download: the piece comes over the data lines on the narrow bus, and with the row on the PCIe face. -/
def startDownload (i : Item) (s : State) : State :=
  if !s.updateAllowed then failWith i 0x19 s
  else if !i.listFits then finish i Fail.segments 0 s
  else if i.narrow then setItem { i with wait := .data } s
  else startFirmware i s

/-- An admitted command, its lock granted, is executed. -/
def begin (i : Item) (s : State) : State :=
  if i.verdict = 0x100 then succeed i 0 (settle i.ruling s)
  else if i.verdict ≠ 0 then failData i (Fail.of i.verdict) s
  else if 2 ≤ i.retries then failData i Fail.hostTransfer s
  else
    let op := Entry.opcode i.entry
    if isBlockCmd op && s.rangeInDoubt i then failData i (Fail.of 0x15) s
    else
      match op with
      | 0x01 => startWrite i s
      | 0x02 | 0x05 | 0x06 | 0x07 => startRead i s
      | 0x03 => runFlush i s
      | 0x04 => runRelease i s
      | 0x80 => runCreatePair i s
      | 0x81 => runDeletePair i s
      | 0x82 => runResumeQueue i s
      | 0x83 => runCancel i s
      | 0x84 => runRestart i s
      | 0x85 => runAwait i s
      | 0x88 => runIdentify i s
      | 0x89 => runGetLog i s
      | 0x8A => runSetTime i s
      | 0x8B => runPowerHint i s
      | 0x90 | 0x91 | 0x92 | 0x93 | 0x94 | 0x95 => runChange i s
      | 0x98 => runSanitize i s
      | 0x99 => runSelfTest i s
      | 0x9A => runCalibrate i s
      | 0x9B => runControl i s
      | 0xA0 => startDownload i s
      | 0xA1 => startFirmware i s
      | 0xA2 => runAttest i s
      | 0xA8 => runEpochCommit i s
      | 0xA9 => runEpochResolve i s
      | 0xF1 => runCommit i s
      | _ => s

/-- A lock is granted where no earlier item holds or awaits one that overlaps it (R184). -/
def State.granted (s : State) (i : Item) : Bool := match i.lock with | some k => s.lockFree i.ruling k | none => true

/-- The command enters its lock and proceeds when it is granted. -/
def enterLock (i : Item) (s : State) : State := if s.granted i then begin i s else s

/-! ## The ruling (R177 to R181, R384) -/

/-- Ruling of a Create Partition, Delete Partition or Set Access: a new rule epoch, the version before it kept (R384, R385). -/
def bumpEpoch (op : Nat) (s : State) : State :=
  if isGateChange op then
    { s with nib := { s.nib with versions := s.nib.versions ++ [{ epoch := s.nib.epoch, parts := s.nib.adm.parts }], epoch := s.nib.epoch + 1 } }
  else s

/-- The blocks of a Write or Release leave the read cache at its admission (R24, R245). -/
def dropCached (e : Entry) (s : State) : State :=
  if Entry.opcode e = 1 || Entry.opcode e = 4 then
    match s.map.part? (Entry.part e) with
    | none => s
    | some p =>
      let x := p.extent s.strokeOnly (Entry.start e) (Entry.count e)
      { s with ftl := { s.ftl with cache := s.ftl.cache.filter (fun b => b < p.base + x.1 || p.base + x.2 ≤ b) } }
  else s

/-- The effects that the ruling itself has once the checks have passed: the view of later admissions, the tests that a Sanitize ends, the
epoch that a Write opens (R181, R230, Table 16-3). -/
def ruledEffects (i : Item) (s : State) : State :=
  let op := Entry.opcode i.entry
  let l := if i.verdict = 0 then changesOf s.logicalBlocks s.profile i.ruling s.nib.adm i.entry else []
  let s := { s with nib := { s.nib with adm := applyChanges l s.nib.adm } }
  let s := if op = 0x98 && i.verdict = 0 then cancelOps (fun t => t ≠ 1) { s with lops := { s.lops with queued := [] } } else s
  let s := if op = 1 && i.verdict = 0 && Entry.w30 i.entry ≠ 0 then touchEpoch (Entry.w30 i.entry) s else s
  dropCached i.entry s

/-- The fast lane serves a Read whose every block has a stroke entry of Kind 00b or 01b, in no degraded band nor one being rebuilt, and in no range in
doubt (R23, R240, R307). -/
def State.fastLane (s : State) (i : Item) : Bool :=
  Entry.opcode i.entry = 0x02 && (match s.partOf i with
    | none => false
    | some p =>
      let x := s.readExtent i p
      (List.range (x.2 - x.1)).all (fun k =>
        let b := p.base + x.1 + k
        (match s.map.stroke? (b / 32) with | some y => y.kind ≤ 1 | none => true)
        && (match (s.map.lookup b).bind (fun sl => s.band? (bandOfSlot sl)) with
          | some y => !s.bandDegraded y && !s.ftl.emptying.any (fun e => e.band = y.n && e.kind = 4)
          | none => true))
      && !s.rangeInDoubt i)

/-- The item with the resources, the lock, the verdict and the route that it has at its admission (R23, R179, R181, R184). -/
def State.claimItem (s : State) (i : Item) : Item :=
  let op := Entry.opcode i.entry
  let kind := match cmdInfo op with | some x => x | none => ⟨0, false, 0, 0, 0, 0⟩
  { i with
    lock := lockOf (s.nib.adm.part? (Entry.part i.entry)) s.strokeOnly i.entry kind
    wait := .lock, resClaim := if op = 1 then reservoirNeed i.narrow i.entry else 0, hairClaim := s.hairClaimOf i.entry
    verdict := s.verdictOf i.entry, fast := s.fastLane i }

/-- The state with the item admitted: its space claimed, its pacing credit spent, the effects of its ruling (R179, R264). -/
def admitted (i : Item) (s : State) : State :=
  let j := s.claimItem i
  let s := setItem j { s with res := { s.res with claimed := s.res.claimed + j.resClaim } }
  let s := if Entry.opcode i.entry = 1 then
      { s with ftl := { s.ftl with pacing := s.ftl.pacing.map (· - Entry.length i.entry) }, nib := { s.nib with lastWrite := s.rst.timeMs }
               pwr := { s.pwr with writeBytes := s.writeOver + Entry.length i.entry, writeWindow := s.rst.timeMs / 10 } }
    else s
  taskAdmitted j (ruledEffects j s)

/-- The late checks of an item, then its resources, its lock and its start. -/
def admitItem (i : Item) (s : State) : State :=
  match s.checkLate i.well i.entry with
  | some f => finish i f 0 s
  | none =>
    let s := admitted i s
    match s.item? i.ruling with
    | some j => enterLock j s
    | none => s

/-- A command that needs the media waits in execution until I/O ready (R90). -/
def State.waitsForMedia (s : State) (e : Entry) : Bool := needsMedia e && !s.rst.io && !s.recovery && !s.mismatch

/-- The next ruling is taken: it ends idleness, a change of the gate table begins a rule epoch, and a task shows its ruling (R177, R384). -/
def takeRuling (narrow : Bool) (op : Nat) (s : State) : State :=
  let r := s.nib.next
  let s := bumpEpoch op (touch { s with nib := { s.nib with next := r + 1 } })
  if narrow then { s with nb := { s.nb with ruling := r } } else s

/-- The item of an entry under a ruling, before its late checks. -/
def State.newItem (s : State) (narrow : Bool) (q slot : Nat) (entry : Entry) (r : Nat) : Item :=
  { ruling := r, narrow := narrow, q := q, slot := slot, entry := entry, well := if narrow then 0 else s.wellOf q, epoch := s.nib.epoch, lock := none
    past := (match cmdInfo (Entry.opcode entry) with | some x => x.cancel = 1 | none => false)
    wait := .media, resClaim := 0, hairClaim := 0, retries := 0, result := 0, verdict := 0, after := none, fast := false, segs := [] }

/-- A command that changes stored state keeps the settled ruling below its own (R325). -/
def marksState (e : Entry) : Bool := match cmdInfo (Entry.opcode e) with | some x => x.state ≠ 0 | none => false

/-- The item joins the nib with its segment list; the bytes of a Firmware Download are held with it. -/
def enlist (i : Item) (g : Given) (s : State) : State :=
  let s := { s with nib := { s.nib with
    items := s.nib.items ++ [{ i with segs := g.segs, retries := g.retries }], unsettled := if marksState i.entry then s.nib.unsettled ++ [i.ruling] else s.nib.unsettled } }
  if Entry.opcode i.entry = 0xA0 && !i.narrow then { s with boot := { s.boot with held := s.boot.held ++ [(i.ruling, g.data)] } } else s

/-- A command takes the next ruling and is evaluated (R177, R181). -/
def rule (narrow : Bool) (q slot : Nat) (entry : Entry) (g : Given) (s : State) : State :=
  let i := (takeRuling narrow (Entry.opcode entry) s).newItem narrow q slot entry s.nib.next
  let s := takeRuling narrow (Entry.opcode entry) s
  match s.checkEarly narrow q entry with
  | some f => complete (Ending.ofItem i) f 0 s
  | none =>
    let s := enlist i g s
    if s.waitsForMedia entry then taskAdmitted i s else admitItem { i with segs := g.segs, retries := g.retries } s

/-! ## What goes on after a step -/

/-- A command that waits for its turn looks again (R196, R195, R197, R237, R367). -/
def retryTurn (r : Nat) (s : State) : State :=
  match s.item? r with
  | none => s
  | some i =>
    if i.wait ≠ .turn then s
    else
      match Entry.opcode i.entry with
      | 0x04 => runRelease i s
      | 0x80 => runCreatePair i s
      | 0x81 => runDeletePair i s
      | 0x83 => endCancel i s
      | 0x84 => endRestart i s
      | 0x90 | 0x91 | 0x92 | 0x93 | 0x94 | 0x95 => runChange i s
      | 0xA0 | 0xA1 => startFirmware i s
      | 0xA9 => runEpochResolve i s
      | 0xF1 => runCommit i s
      | _ => s

def progress (s : State) : State := (s.nib.items.map (·.ruling)).foldl (fun s r => retryTurn r s) s

/-- An older version of the gate table is discarded once the change after it has completed and nothing carries its epoch (R385). -/
def State.versionHeld (s : State) (v : GateVer) : Bool :=
  s.nib.items.any (fun i => (isGateChange (Entry.opcode i.entry) && i.epoch = v.epoch + 1) || (isBlockCmd (Entry.opcode i.entry) && i.epoch ≤ v.epoch))
  || s.dies.reads.any (fun r => !r.done && r.epoch ≤ v.epoch)

def pruneVersions (s : State) : State :=
  { s with nib := { s.nib with versions := s.nib.versions.dropWhile (fun v => !s.versionHeld v) } }

/-- The row of Table 17-5 that applies. -/
def State.ltrRow (s : State) : Nat :=
  if s.pwr.ps = 0 then (if s.nib.items = [] && s.nib.fetched = [] then 2 else 1) else s.pwr.ps + 2

def ltrMicroseconds (row : Nat) : Nat := match row with | 1 => 20 | 2 => 100 | 3 => 100 | 4 => 1000 | _ => 3000

/-- An LTR message on each entry to a row of Table 17-5, where the host has enabled them and the link is up (R452). -/
def ltrUpdate (s : State) : State :=
  if s.rst.face = .pcie && s.pcie.speed ≠ 0 && s.pwr.ltr ≠ s.ltrRow then
    let t := { s with pwr := { s.pwr with ltr := s.ltrRow } }
    if s.pcie.host.ltr then emit (.ltr (ltrMicroseconds s.ltrRow)) t else t
  else s

/-- The drain after an ejection warning ends when the reservoir holds no data of an earlier ruling (R345). -/
def endDrain (s : State) : State :=
  if s.res.staged.any (fun x => !s.afterWarning x.ruling) then s else { s with sup := { s.sup with draining := false } }

/-- The work that a step leaves to be done at once: commands at their turn, completions that persistence held, versions of the gate table. -/
def settleUp (s : State) : State :=
  if s.running && !s.nib.stopped then ltrUpdate (actUpdate (endDrain (settleD3 (endClear (poolUpdate (pruneVersions (progress (completePersistent (progress s))))))))) else s

/-- The effect of an event, and the work that it leaves. -/
def work (f : State → State) (s : State) : Host.Outcome State Fault Refusal := answer s (fun s => settleUp (f s))

/-! ## Rows of Table 08-1 -/

/-- The oldest unadmitted entry of a ring (R176). -/
def State.front? (s : State) (q : Nat) : Option Fetched := s.nib.fetched.find? (fun f => !f.narrow && f.q = q)

def stall (f : Fetched) (s : State) : State :=
  { s with nib := { s.nib with fetched := mapIf (fun x => x = f) (fun x => { x with stalled := true }) s.nib.fetched } }

/-- A task is ruled when Execute Task is accepted, a block command once the start has reached ready (R127). Before admin ready no ruling can be
taken: a task handed over then stays in admitting until ADMIN_READY (DESIGN CHOICE, log entry 105). -/
def State.taskReady (s : State) (e : Entry) : Bool :=
  s.canRule && s.awake && (!isBlockCmd (Entry.opcode e) || s.reachedReady || s.recovery)

/-- A waiting command that stands first in its ring or task and that nothing but the order of R180 keeps from its ruling. -/
def State.isReady (s : State) (f : Fetched) : Bool :=
  s.canRule && s.awake && (if f.narrow then s.taskReady f.entry else s.front? f.q = some f) && !s.mustStall f

/-- Another command that is ready takes its ruling first: one that has waited on a stall, the task, or the ring of a lower pair number (R179,
R180). -/
def State.outranked (s : State) (q : Nat) (f : Fetched) : Bool :=
  s.nib.fetched.any (fun g => g ≠ f && (g.stalled || g.narrow || g.q < q) && s.isReady g)

/-- The oldest unadmitted entry of ring q is ruled, where it is of the row's kind and no other command comes first; it stalls while a resource is
short (R176, R179, R180). -/
def ruleFront (q : Nat) (kind : Entry → Bool) (g : Given) (s : State) : State :=
  match s.front? q with
  | none => s
  | some f =>
    if !s.canRule || !s.awake || f.stalled || !kind f.entry then s
    else if s.mustStall f then stall f s
    else if s.outranked q f then s
    else settleUp (rule false q f.slot f.entry { g with retries := f.retries / 2 * 2 } { s with nib := { s.nib with fetched := s.nib.fetched.erase f } })

/-- The task in admitting is ruled, or stalls while a resource is short (R123, R124, R127). -/
def ruleTask (s : State) : State :=
  match s.nib.fetched.find? (·.narrow) with
  | none => s
  | some f =>
    if !s.taskReady f.entry || f.stalled then s
    else if s.mustStall f then stall f s
    else rule true 0 0 f.entry .nothing { s with nib := { s.nib with fetched := s.nib.fetched.erase f } }

def isOp (op : Nat) (e : Entry) : Bool := Entry.opcode e = op

/-- Ending of stalls: the stalled commands whose resources are there again are ruled in fetch order, none ahead of an earlier one that still
waits on the same resource (R179). -/
def endStalls (s : State) : State :=
  (s.nib.fetched.filter (·.stalled)).foldl (fun s f =>
    if f ∈ s.nib.fetched && s.isReady f then
      rule f.narrow f.q f.slot f.entry { Given.nothing with retries := f.retries / 2 * 2 } { s with nib := { s.nib with fetched := s.nib.fetched.erase f } }
    else s) s

/-- At I/O ready the commands that waited for the media go on, in ruling order (R90). -/
def admitMedia (s : State) : State :=
  ((s.nib.items.filter (fun i => i.wait = .media)).map (·.ruling)).foldl (fun s r =>
    match s.item? r with | some i => admitItem i s | none => s) s

end Sys2Proof.Machine
end

