-- ==== Sys2Proof/Machine/Reset.lean ====
section
/-! DEFINITION. Resets, straps, island release and the start (chapters 02, 03, 04, 12): the rows POWER_ON_RESET to FAILED_START_LIMIT. -/

namespace Sys2Proof.Machine

open Sys2Proof

/-! ## Resets (R76 to R84) -/

def powerKind (aonGood : Bool) : ResetKind := if aonGood then .powerValid else .powerLost

/-- Power is gone: what is volatile is cleared, AON keeps its content (R98). -/
def powerOff (s : State) : State :=
  let t := enterReset .powerValid s
  { t with rst := { t.rst with phase := .off, aonValid := false }, aon := { s.aon with queue := [] }, lands := { t.lands with resetLow := false } }

/-- The hold-up dump begins: nothing is ruled or fetched, and writes before their cancel point are aborted (R344). -/
def beginDump (s : State) : State :=
  let s := dumpAbort { s with nib := { s.nib with stopped := true, fetched := [] } }
  { s with rst := { s.rst with phase := .dump }, lands := { s.lands with resetLow := true, alive := .low, aliveHigh := false, act := false } }

/-- POWER_ON_RESET: not during a dump, which runs to its end (R51, R76, R82). -/
def execPowerOnReset (aonGood : Bool) (s : State) : Host.Outcome State Fault Refusal :=
  answer s (onlyIf (s.rst.phase ≠ .dump) (enterReset (powerKind aonGood)))

/-- POWER_LOSS (R51, R76). -/
def execPowerLoss (s : State) : Host.Outcome State Fault Refusal :=
  answer s (onlyIf (s.rst.phase ≠ .off && s.rst.phase ≠ .dump) (fun s =>
    if s.running && s.sup.bank = .ready then beginDump s else powerOff s))

/-- DUMP_COMPLETE: the dump's pages stand on the media unless the bank ran out; then VHU is discharged, and the power-on reset follows once
VCC3 is there (R51, R52, R344). -/
def execDumpComplete (ranOut vcc3Up aonGood : Bool) (s : State) : Host.Outcome State Fault Refusal :=
  answer s (onlyIf (s.rst.phase = .dump) (fun s =>
    let s := if s.rst.recovered && !ranOut then dumpWhole s else s
    let s := { s with out := [] }
    if vcc3Up then enterReset (powerKind aonGood) s else powerOff s))

/-- PIN_RESET: while the module drives RESETn itself it cannot see the land (R77, R82, R83). -/
def execPinReset (s : State) : Host.Outcome State Fault Refusal := answer s (onlyIf s.running (enterReset .pin))

/-! ## The stretch (R84, R59 to R63, R37) -/

/-- SEQUENCER_ROW_READ (R84). -/
def execSequencerRowRead (calGood : Bool) (s : State) : Host.Outcome State Fault Refusal :=
  answer s (onlyIf (s.rst.phase = .stretch && !s.rst.rowsRead) (fun s =>
    { s with rst := { s.rst with rowsRead := true, calGood := calGood, osc50 := true } }))

/-- The band of a reading in ohms (Table 03-2). -/
def strapBand (ohms : Nat) : Option Nat :=
  if ohms ≤ 500 then some 0
  else if 1600 ≤ ohms && ohms ≤ 2500 then some 1
  else if 4000 ≤ ohms && ohms ≤ 6200 then some 2
  else if 8000 ≤ ohms && ohms ≤ 12500 then some 3
  else if 16000 ≤ ohms && ohms ≤ 25000 then some 4
  else if 32000 ≤ ohms && ohms ≤ 50000 then some 5
  else if 66000 ≤ ohms && ohms ≤ 103000 then some 6
  else if 120000 ≤ ohms then some 7
  else none

/-- Reserved codes of Table 03-4. -/
def strapReserved (land code : Nat) : Bool :=
  match land with
  | 0 | 1 | 3 => code = 6
  | 2 => code = 5 || code = 6
  | 4 => 3 ≤ code && code ≤ 6
  | 5 | 8 => 4 ≤ code && code ≤ 6
  | _ => false

/-- The code of a land from its eight readings: all in one band (R61), and not reserved. -/
def strapCode (land : Nat) (readings : List Nat) : Option Nat :=
  match readings with
  | [] => none
  | r :: _ =>
    match strapBand r with
    | none => none
    | some c => if readings.all (fun x => strapBand x = some c) && !strapReserved land c then some c else none

/-- The code applied for a land in fault (R69, Table 03-7). -/
def faultCode (land : Nat) : Nat := if land ≤ 2 then 7 else 0

/-- The readings of one land, sample by sample. -/
def landReadings (samples : List (List Nat)) (land : Nat) : List Nat := samples.map (fun x => x.getD land 0)

/-- The lower median of eight readings in units of 100 ohms (Table 03-7). -/
def strapReading (readings : List Nat) : Nat :=
  let m := ((readings.foldr insertNat [])).getD 3 0
  if 6553400 < m then 0xFFFF else m / 100

/-- The combined value of SA6 and SA7 is 24 to 62 (R68). -/
def pairFault (c6 c7 : Option Nat) : Bool :=
  match c6, c7 with
  | some a, some b => 24 ≤ 8 * a + b && 8 * a + b ≤ 62
  | _, _ => false

/-- The strap record after the eighth sample (R61, R68, R71, R493). -/
def decideStraps (samples : List (List Nat)) : Strap :=
  let own := (List.range 9).map (fun n => strapCode n (landReadings samples n))
  let both := pairFault (own.getD 6 none) (own.getD 7 none)
  let bad := fun n => (own.getD n none).isNone || (both && (n = 6 || n = 7))
  let faults := (List.range 9).foldl (fun acc n => acc + flag (bad n) n) 0
  { Strap.init with
    codes := (List.range 9).map (fun n => if bad n then faultCode n else (own.getD n none).getD 0)
    faults := BitVec.ofNat 16 faults, state := if faults = 0 then 0 else 1
    readings := (List.range 9).map (fun n => strapReading (landReadings samples n)) }

/-- The sense current that divides: the factory's, or the nominal one where the row does not read (R59, R357). -/
def State.senseCurrent (s : State) : Nat := if s.rst.calGood then max 1 s.unit.senseNa else 10000

/-- STRAP_SAMPLE: voltages in µV over the sense current in nA give ohms (R59, R60), rounded down to whole ohms (DESIGN CHOICE, log entry 116). -/
def execStrapSample (microvolts : List Nat) (s : State) : Host.Outcome State Fault Refusal :=
  answer s (onlyIf (s.rst.phase = .stretch && s.rst.rowsRead && s.rst.samples.length < 8) (fun s =>
    let ohms := (List.range 9).map (fun n => microvolts.getD n 0 * 1000 / s.senseCurrent)
    let samples := s.rst.samples ++ [ohms]
    { s with rst := { s.rst with samples := samples }, strap := if samples.length = 8 then decideStraps samples else s.strap }))

/-- FAULT_ISLAND_RELEASE: order 1 (R86). -/
def execFaultIslandRelease (s : State) : Host.Outcome State Fault Refusal :=
  answer s (onlyIf (s.rst.phase = .stretch) (fun s => { s with rst := { s.rst with faultReleased := true } }))

/-- VCCQ is classified; between the limits of the threshold the class is free (R37, Table 19-2). -/
def classify (mv : Nat) (s : State) : State :=
  let free := 2300 ≤ mv && mv ≤ 2500
  let low := if free then Config.freeBool s.drawn else mv < 2300
  let s := if free then draw s else s
  { s with strap := { s.strap with vccq18 := some low, vccqMv := mv } }

/-- The end of the stretch: VCCQ classified, the strap settings applied, the drive of RESETn released (R37, R69, R81). -/
def endStretch (mv : Nat) (s : State) : State :=
  let s := classify mv s
  { s with
    rst := { s.rst with phase := .waitRelease, mode := if s.strapFault then .recStrap else .normal }
    lands := { s.lands with resetLow := false } }

/-- RESET_STRETCH_END (R37, R81). -/
def execResetStretchEnd (vccqMv : Nat) (s : State) : Host.Outcome State Fault Refusal :=
  answer s (onlyIf (s.rst.phase = .stretch && s.rst.samples.length = 8) (fun s =>
    if vccqMv < 1650 then { s with rst := { s.rst with phase := .extended } } else endStretch vccqMv s))

/-- VCCQ_SETTLED (R37). -/
def execVccqSettled (vccqMv : Nat) (s : State) : Host.Outcome State Fault Refusal :=
  answer s (onlyIf (s.rst.phase = .extended && 1650 ≤ vccqMv) (endStretch vccqMv))

/-! ## Reset release (R81, R96, R99, R102, R417) -/

/-- The tail's entries as the blotter shows them after a reset: newest first, in slots from 0, from an earlier start, acknowledged (R404, R417). -/
def refill (tail : List Blot) : List Blot :=
  ((List.range tail.length).filterMap (fun k => (tail[k]?).map (fun b => { b with slot := k, earlier := true, acked := b.acked || b.kind = 1 }))).reverse

/-- VCCQ as classified lies within its operating range (Table 19-2). -/
def vccqInRange (low : Option Bool) (mv : Nat) : Bool :=
  match low with
  | some true => 1700 ≤ mv && mv ≤ 1950
  | some false => 3000 ≤ mv && mv ≤ 3600
  | none => true

/-- The mark of a clean shutdown (R91, R332): the newest page has the Clean flag. -/
def State.cleanMark (s : State) : Bool := match newestPage s.log.pages with | some p => p.clean | none => false

/-- The choice of Table 04-5: mode, bank and fall-back. -/
def bootChoice (s : State) : State :=
  let n := s.aon.failed
  let mode : Mode := if s.rst.mode = .recStrap then .recStrap else if 6 ≤ n then .recCount else .normal
  let other := 3 ≤ n && mode = .normal
  let active := s.boot.record.active
  { s with rst := { s.rst with
      startCount := n, mode := mode, fallback := other
      bank := if mode ≠ .normal then .a else if other then otherBank active else active
      booted := if mode ≠ .normal then .a else if other then otherBank active else active
      clean := mode = .normal && s.cleanMark } }

/-- The hold-up bank at the start: kept where it was ready, else charged, and left with its charge in minimal recovery mode (R50, R52, R99,
Table 04-4). -/
def startBank (s : State) : State :=
  if s.recovery then { s with sup := { s.sup with bank := .notFitted } }
  else if s.holdupFitted then { s with sup := { s.sup with bank := if s.sup.bank = .ready then .ready else .charging } }
  else { s with sup := { s.sup with bank := .notFitted, vhuMv := 0 } }

/-- The start tests of cores and decoders (R318, R319). -/
def startTests (badCores badDecoders : List Nat) (s : State) : State :=
  let s := { s with flt := { s.flt with cores := s.flt.cores.filter (· ∉ badCores) }
                    dies := { s.dies with decoders := s.dies.decoders.filter (· ∉ badDecoders) } }
  if s.flt.cores.length < 2 then recordFault 15 5 (0x10 + badCores.headD 0) (BitVec.ofNat 64 (badCores.headD 0)) 2 s
  else if s.dies.decoders = [] then recordFault 10 5 0x0C 0xFF 2 s
  else s

/-- What is recorded at the release itself: a calibration row that does not read, no valid swap record, VCCQ out of its range (R357, R361, R477).
Where neither swap slot is valid, FC7's detail gives slot 0 (DESIGN CHOICE, log entry 110). -/
def releaseFaults (s : State) : State :=
  let s := if s.rst.calGood then s else recordFault 7 2 0x0A 0x800000 2 s
  let s := if !s.recovery && s.boot.swap0.isNone && s.boot.swap1.isNone
    then recordFault 7 2 0x0A 0x803000 2 { s with boot := { s.boot with rebuild := true } } else s
  if vccqInRange s.strap.vccq18 s.strap.vccqMv then s
  else recordFault 12 4 0x0D (BitVec.ofNat 64 (1 + s.strap.vccqMv * 65536)) 2 { s with sup := { s.sup with inRange := false } }

/-- RESET_RELEASE: the blotter is refilled from the tail, and what was recorded before the release counts no more for escalation (R404, R417). -/
def execResetRelease (ejectHigh : Bool) (badCores badDecoders : List Nat) (s : State) : Host.Outcome State Fault Refusal :=
  answer s (onlyIf (s.rst.phase = .waitRelease) (fun s =>
    let s := bootChoice { s with rst := { s.rst with phase := .run, timeMs := 0 } }
    let s := { s with flt := { s.flt with unack := [], counts := List.replicate 16 0 } }
    let s := { s with
      sup := { s.sup with ejectArmed := ejectHigh && s.ejectUsed }
      flt := { s.flt with blotter := refill s.aon.tail, nextSlot := s.aon.tail.length % 32 }
      lig := { s.lig with state := if s.ligAddress.isSome && !s.recovery then 1 else 0 } }
    let s := startTests badCores badDecoders (aliveUpdate (startBank s))
    if s.running then releaseFaults s else s))

/-! ## Islands (R85 to R89, R387) -/

/-- The order of Table 04-1; FAULT and AON are not released by the row. -/
def islandOrder (i : Island) : Nat :=
  match i with
  | .boot | .scribe | .res | .map => 2
  | .nib | .ductus | .par | .ldpc | .ch _ => 3
  | .hostP | .hostN | .lig => 4
  | .fault | .aon => 1

/-- Whether the island is released in this start at all (Table 04-1, Table 04-3). -/
def State.islandWanted (s : State) (i : Island) : Bool :=
  match i with
  | .hostP => s.sa0 ≠ 3 && s.sa0 ≠ 5
  | .hostN => s.sa0 ≠ 2
  | .lig => s.ligAddress.isSome
  | .fault | .aon => false
  | _ => true

def State.islandState (s : State) (i : Island) : IslState := ((s.rst.islands.find? (fun x => x.1 = i)).map (·.2)).getD .held

def setIsland (i : Island) (st : IslState) (s : State) : State :=
  { s with rst := { s.rst with islands := mapIf (fun x => x.1 = i) (fun x => (x.1, st)) s.rst.islands } }

/-- Every island up to an order is released, or left in reset as a failed channel. -/
def State.ordersDone (s : State) (k : Nat) : Bool :=
  s.rst.faultReleased && s.rst.islands.all (fun x => !s.islandWanted x.1 || k < islandOrder x.1 || x.2 = .released || x.2 = .failed)

/-- The source code of an island (Table 15-1). -/
def islandSource (i : Island) : Nat :=
  match i with
  | .fault => 0x00 | .aon => 0x01 | .hostP => 0x02 | .hostN => 0x03 | .nib => 0x05 | .res => 0x06 | .ductus => 0x07 | .map => 0x08
  | .par => 0x09 | .boot => 0x0A | .lig => 0x0B | .ldpc => 0x0C | .scribe => 0x10 | .ch n => 0x20 + n.val

/-- The island may be released now (R85, R86). -/
def State.islandDue (s : State) (i : Island) : Bool :=
  s.running && s.islandWanted i && (s.islandState i = .held || s.islandState i = .retried) && s.ordersDone (islandOrder i - 1)

/-- A host face is armed at the release of its island, unless the other face has been selected meanwhile: then it stays off until the next reset;
where SA0 permits one face only, it is selected (R89, R160). -/
def armFace (i : Island) (s : State) : State :=
  match i with
  | .hostP =>
    if s.rst.face = .narrow then s
    else { s with rst := { s.rst with armedPcie := true, face := if s.sa0 = 2 then .pcie else s.rst.face }
                  lands := { s.lands with clkreqLow := true } }
  | .hostN =>
    if s.rst.face = .pcie then s
    else { s with rst := { s.rst with armedNarrow := true, face := if s.sa0 = 3 || s.sa0 = 5 then .narrow else s.rst.face } }
  | _ => s

/-- ISLAND_RELEASE. -/
def execIslandRelease (isl : Island) (wpswLow : Bool) (s : State) : Host.Outcome State Fault Refusal :=
  answer s (onlyIf (s.islandDue isl) (fun s =>
    let channel := match isl with | .ch _ => true | _ => false
    let s := if s.islandState isl = .retried && !channel then ackReaction 10 (islandSource isl) s else s
    let s := armFace isl (setIsland isl .released s)
    if islandOrder isl = 4 && !s.rst.admin then { s with sup := { s.sup with wpswLow := wpswLow } } else s))

/-- ISLAND_CLOCK_TIMEOUT (R87). -/
def execIslandClockTimeout (isl : Island) (s : State) : Host.Outcome State Fault Refusal :=
  answer s (onlyIf (s.islandDue isl) (fun s =>
    if s.islandState isl = .held then recordStall 10 2 (islandSource isl) 0xFF (setIsland isl .retried s)
    else
      match isl with
      | .ch n =>
        let s := recordStall 10 2 (islandSource isl) 0xFF (setIsland isl .failed s)
        if s.running then failChannel n.val s else s
      | _ =>
        let s := recordStall 10 2 (islandSource isl) 0xFF s
        if s.running then selfReset 2 s else s))

/-- FACE_SELECTION: the preferred face wins a tie, and the other face's lands go off (R89). -/
def execFaceSelection (ts1 frame : Bool) (s : State) : Host.Outcome State Fault Refusal :=
  answer s (onlyIf (s.running && s.rst.face = .none) (fun s =>
    let p := ts1 && s.rst.armedPcie
    let n := frame && s.rst.armedNarrow
    let narrow := n && (!p || s.sa0 = 1)
    if narrow then
      { s with rst := { s.rst with face := .narrow, armedPcie := false }, lands := { s.lands with clkreqLow := false } }
    else if p then { s with rst := { s.rst with face := .pcie, armedNarrow := false } }
    else s))

/-! ## Image, DRAM, admin ready (R88, R90, R95, R329, R366) -/

/-- IMAGE_CHECK (R95, R365, R366). -/
def execImageCheck (s : State) : Host.Outcome State Fault Refusal :=
  answer s (onlyIf (s.running && !s.recovery && !s.rst.imageRuns && s.ordersDone 2) (fun s =>
    if s.imagePasses s.rst.bank then
      runImage s.rst.bank { s with rst := { s.rst with imageRuns := true } }
    else
      let s := recordFault 7 2 0x0A (BitVec.ofNat 64 (bankBase s.rst.bank)) 2 s
      if s.running then selfReset 4 s else s))

/-- DRAM_TRAINED (R366). -/
def execDramTrained (s : State) : Host.Outcome State Fault Refusal :=
  answer s (onlyIf (s.running && s.rst.imageRuns) (fun s => { s with rst := { s.rst with dram := true } }))

/-- Cell mode of a profile: hybrid TLC, TLC, single-level (Table 03-5). -/
def cellMode (p : Nat) : Nat := if p ≤ 2 then 0 else if p ≤ 4 then 1 else 2

def mappingMode (p : Nat) : Nat := if p = 3 || p = 4 then 1 else 0

/-- The mismatch map (Table 03-7). -/
def mismatchMap (recorded strap : Nat) : Nat :=
  flag (cellMode recorded ≠ cellMode strap) 0 + flag (mappingMode recorded ≠ mappingMode strap) 1 + flag (profileGb recorded ≠ profileGb strap) 2

/-- The comparison of R73. -/
def compareProfile (s : State) : State :=
  let m := mismatchMap s.rec_.profile s.profile
  { s with strap := { s.strap with mismatch := BitVec.ofNat 8 m, recorded := BitVec.ofNat 8 s.rec_.profile, state := if m = 0 then 0 else 2 } }

/-- The ceiling page (R329), and the first ruling of the start: the ceiling of the newest page. -/
def ceilingPage (s : State) : State :=
  let n := newestPage s.log.pages
  let first := match n with | some p => p.ceiling | none => 1
  let p : LogPage := match n with
    | some p => { p with seq := s.log.nextPage, opened := false, dump := false, recs := [], ceiling := first + 0x100000000 }
    | none => { seq := s.log.nextPage, clean := false, opened := false, dump := false, recs := [], settled := 0, ceiling := first + 0x100000000
                wall := 0, powerOn := 0, cpSlot := none, cpStart := 0, replay := 0, cpRuling := 0, aging := List.replicate 64 0 }
  addPage p { s with nib := { s.nib with next := max s.nib.next first } }

/-- The start reaches ready: the failed-start counter is cleared, and pending swap records are written (R93, R94, R97, R370). -/
def reachReady (s : State) : State :=
  readySwap { s with aon := { s.aon with failed := 0 }, health := { s.health with starts := sat 32 (s.health.starts + 1) }, boot := { s.boot with owed := true } }

/-- In strap mismatch the ligature log is that of the epoch journal: the states that R495 gives, over the prefix that recovery would find (R73,
log entry 109). -/
def journalEpochs (s : State) : State :=
  { s with rec_ := { s.rec_ with epochs := s.rec_.epochs.map (recoverEpoch (s.recovered_ none).1) } }

/-- A Sanitize that a reset cut off goes on, under a new handle (R227, Table 04-4). -/
def resumeSanitize (s : State) : State := match s.rec_.sanitize with | some r => (createOp 1 0xFFFF r 1 s).1 | none => s

/-- ADMIN_READY. -/
def execAdminReady (s : State) : Host.Outcome State Fault Refusal :=
  work (onlyIf (s.running && !s.rst.admin && s.ordersDone 4 && (s.recovery || (s.rst.imageRuns && s.rst.dram))) (fun s =>
    let s := { s with rst := { s.rst with admin := true }, pcie := { s.pcie with ready := s.pcie.ready || (s.pair? 0).isSome } }
    let s := if s.recovery then s
      else
        let s := ceilingPage (compareProfile s)
        if s.mismatch then reachReady (resumeSanitize (journalEpochs s)) else s
    ruleTask s)) s

/-! ## Recovery and I/O ready (R336 to R340, R93) -/

/-- The stored state that recovery presents: K, and the map (R321, R336). After a clean shutdown the checkpoint is the map. -/
def State.found (s : State) (badPage : Option Nat) : Nat × MapState :=
  if s.rst.clean then (s.settled, (s.validCp.map (·.map)).getD MapState.empty) else s.recovered_ badPage

/-- The Opened page of recovery: its Settled ruling is K, its ceiling that of the ceiling page (R336). -/
def openedPage (k : Nat) (s : State) : LogPage := { s.assemble false true false [] [] with settled := k, ceiling := s.nib.ceiling }

/-- The threshold tables of a band at a start: of the checkpoint where it holds the band since its last erase, else rebuilt from the codewords, which
carry no power-on time: that is a free value; the read counts are the checkpoint's (R287, Table 10-10). -/
def restoreBand (cp : Option Checkpoint) (power : Nat) (b : Band) : Band :=
  let t := cp.bind (fun c => c.tables.find? (fun x => x.n = b.n && x.erases = b.erases))
  let stamp := fun (y : Stamp) => (t.bind (fun x => x.stamps.find? (fun z => z.zone = y.zone))).getD { y with power := power }
  let reads := fun (x : Blk) => ((t.bind (fun y => y.blks.find? (fun z => z.1 = x.key))).map (·.2.1)).getD 0
  { b with stamps := b.stamps.map stamp, blks := b.blks.map (fun x => { x with reads := reads x }) }

/-- The tables of every band. -/
def restoreTables (s : State) : State :=
  draw { s with ftl := { s.ftl with bands := s.ftl.bands.map (restoreBand s.validCp (Config.freeWord s.drawn).toNat) } }

/-- The aging clocks of the newest page, with the outage estimates and what has been counted since reset release (R286, R290), corrected by the wall time
where the host has set it already (R291). The dies that the map log names as failed are not used. -/
def restoreAging (errors : List (List (List Nat))) (s : State) : State :=
  let newest := newestPage s.log.pages
  let ages := match newest with | some p => (List.range 64).map (fun d => p.aging.getD d 0 * 2 ^ 32) | none => List.replicate 64 0
  let est := (List.range 64).map (fun d => s.outageOf d (ages.getD d 0 / 2 ^ 32) (errors.getD d []))
  let s := draw (countProbes errors { s with
    dies := { s.dies with cold := [], aging := (List.range 64).map (fun d => (addAges est ages).getD d 0 + s.dies.aging.getD d 0) }
    rec_ := { s.rec_ with estimates := est, lastWall := (newest.map (·.wall)).getD 0 } })
  let s := match s.wall with | some t => wallCorrection t s | none => s
  s.namedDies.foldl (fun s d => setDie { Die.idle d with failed := true } s) s

/-- RECOVERY: `errors` give, for each die, the bit errors that its oldest blocks' swatches show at the four classes read (R290), `badPage` a page that
ends the replay (R336, R338, R339, R495). -/
def recover (errors : List (List (List Nat))) (badPage : Option Nat) (s : State) : State :=
  let bad := if s.rst.clean then none else badPage
  let f := s.found bad
  let x := (f.1, if s.rec_.sanitize.isSome then MapState.empty else f.2)
  let s := restoreAging errors (restoreTables s)
  let s := { s with
    rst := { s.rst with recovered := true }
    map := x.2
    nib := { s.nib with adm := x.2 }
    rec_ := { s.rec_ with epochs := s.rec_.epochs.map (recoverEpoch x.1) } }
  let s := resizeCache s
  if s.rst.clean then reissueErases s
  else
    let s := reissueErases { s with health := { s.health with unclean := sat 32 (s.health.unclean + 1) } }
    let s := { s with log := { s.log with pages := usablePages bad s.log.pages } }
    let s := addPage (openedPage x.1 s) { s with log := { s.log with needOpened := false } }
    if bad.isSome then recordFault 4 3 (Config.freeByte s.drawn 0).toNat ((Config.freeWord s.drawn).setWidth 64) 2 (draw s) else s

def execRecovery (errors : List (List (List Nat))) (badPage : Option Nat) (s : State) : Host.Outcome State Fault Refusal :=
  answer s (onlyIf (s.running && s.rst.admin && !s.recovery && !s.mismatch && !s.rst.recovered) (recover errors badPage))

/-- A Sanitize and rebuilds in progress resume under new handles (R227, R313, Table 04-4). -/
def resumeWork (s : State) : State :=
  let s := resumeSanitize s
  let live := fun (s : State) (x : Nat × Nat) => x ∈ s.lops.queued || s.lops.list.any (fun o => o.typ = x.1 && o.target = x.2 && !o.final)
  rebuildNext (s.rec_.rebuilds.foldl (fun s x => if live s x then s else createRebuild x.1 x.2 s) s)

/-- The sweep of a start: every block that holds data (R292). -/
def startSweep (s : State) : State :=
  if s.mismatch || s.recovery then s else addSweep (s.ftl.bands.flatMap (fun b => b.probed)) s

/-- In a stroke-only profile the data that a dump or a drain left in a single-level band is relocated to TLC (R470). -/
def relocateDump (s : State) : State :=
  if s.strokeOnly && !s.recovery && !s.mismatch then
    (s.ftl.bands.filter (fun b => !b.tlc && s.isHostBand b.n && (b.st = .closed || b.st = .closedEarly) && s.liveSlots b.n ≠ [])).foldl
      (fun s b => startEmptying b.n 5 3 s) s
  else s

/-- IO_READY. -/
def execIoReady (s : State) : Host.Outcome State Fault Refusal :=
  work (onlyIf (s.running && s.rst.admin && !s.rst.io && s.rst.recovered) (fun s =>
    let s := adoptHeld (reachReady { s with rst := { s.rst with io := true } })
    if !s.running then s else queryDoubt (ruleTask (admitMedia (checkWorn (resumeWork (relocateDump (startSweep s)))))))) s

/-- FAILED_START_LIMIT (R95). -/
def execFailedStartLimit (s : State) : Host.Outcome State Fault Refusal :=
  answer s (onlyIf s.startFails (selfReset 3))

end Sys2Proof.Machine
end

