-- ==== Sys2Proof/Machine/ConfigSpace.lean ====
section
/-! DEFINITION. Configuration space of the PCI Express function (chapter 06): the header, the capability structures, the lanes, and error
reporting. Fields that the base specification lays out, and the spec only names, are PRESUMED to stand where it puts them (log entry 6). -/

namespace Sys2Proof.Machine

open Sys2Proof

/-! ## Link capability and lanes (R144, R145) -/

/-- Link speed code and width of the SA1 ceiling (Table 06-2). -/
def State.linkCeiling (s : State) : Nat × Nat :=
  match s.sa1 with | 0 => (6, 2) | 1 => (5, 2) | 2 => (4, 2) | 3 => (6, 1) | 4 => (5, 1) | _ => (4, 1)

/-- Max Link Speed, Supported Link Speeds Vector and Max Link Width of the SA1 ceiling (Table 06-2). -/
def State.linkCapability (s : State) : Nat × Nat × Nat := (s.linkCeiling.1, 2 ^ (s.linkCeiling.1 + 1) - 2, s.linkCeiling.2)

/-- What a physical lane does. -/
inductive LaneState where
  | training | running | idle
deriving DecidableEq, Repr

/-- A physical lane: with an x1 ceiling the lane other than lane 0 is held in electrical idle, its terminations off; with an x2 ceiling a link of one
lane runs on the lane that training has made lane 0 (R145). -/
def State.lane (s : State) (n : Nat) : LaneState :=
  if s.linkCeiling.2 ≤ n then .idle
  else if s.pcie.speed = 0 then .training
  else if n = s.pcie.lane0 || s.pcie.width = 2 then .running else .idle

/-! ## The header (R148, Table 06-3) -/

/-- Subsystem ID (Table 06-3). -/
def State.subsystemId (s : State) : Nat := match s.unit.variant with | .t16 => 0x0010 | .t08 => 0x0008 | .t04 => 0x0004

/-- The configuration header as it reads (Table 06-3): of Command the five implemented bits, of BAR0 the bits of a 128 KiB window. -/
def State.configHeader (s : State) : List Field :=
  let bar := s.pcie.host.bar.toNat / 0x20000 * 0x20000
  [ (0x00, 2, 0x1D9A), (0x02, 2, 0x6400), (0x04, 2, (s.pcie.host.command &&& 0x0546).toNat), (0x06, 2, (s.pcie.status ||| 0x0010).toNat),
    (0x08, 1, s.unit.revision), (0x09, 3, 0x018000), (0x0E, 1, 0x00), (0x10, 4, bar % 2 ^ 32 + 4), (0x14, 4, bar / 2 ^ 32), (0x18, 16, 0),
    (0x2C, 2, 0x1D9A), (0x2E, 2, s.subsystemId), (0x30, 4, 0), (0x34, 1, 0x40), (0x3D, 1, 0x00) ]

/-- The function answers accesses to its memory window. -/
def State.memSpace (s : State) : Bool := s.pcie.host.command.getLsbD 1

/-! ## Capability structures (R149, Table 06-4) -/

/-- Offset and size of the structures of BAR0 that the MSI-X capability names: entries less 1, table, pending bits (Tables 06-4 and 06-5). -/
def msixCapability : Nat × Nat × Nat := (0x7FF, 0x08000, 0x10000)

/-- A size in bytes as the base specification codes it: 0 for 128, 1 for 256, ... -/
def sizeCode (n : Nat) : Nat := Nat.log2 n - 7

/-- Power Management: version 3, PME from D3hot, neither D1 nor D2, No_Soft_Reset 0. -/
def State.powerCapability (s : State) : List Field :=
  [ (0x40, 1, 0x01), (0x41, 1, 0x50), (0x42, 2, 3 + 2 ^ 14), (0x44, 4, if s.pcie.d3hot then 3 else 0) ]

def State.msixStructure (s : State) : List Field :=
  [ (0x50, 1, 0x11), (0x51, 1, 0x60), (0x52, 2, msixCapability.1 + flag s.pcie.host.msixMask 14 + flag s.pcie.host.msixEnable 15),
    (0x54, 4, msixCapability.2.1), (0x58, 4, msixCapability.2.2) ]

/-- PCI Express: an endpoint with the settings of Table 06-4, the controls that the host has made, and the link's speed and width. -/
def State.expressStructure (s : State) : List Field :=
  let h := s.pcie.host
  [ (0x60, 1, 0x10), (0x61, 1, 0x00), (0x62, 2, 0x0002), (0x64, 4, 2 + 2 ^ 5 + 2 ^ 15 + 2 ^ 28),
    (0x68, 2, h.report.toNat + flag h.relaxed 4 + sizeCode h.mps * 2 ^ 5 + sizeCode h.mrrs * 2 ^ 12),
    (0x6C, 4, s.linkCapability.1 + s.linkCapability.2.2 * 2 ^ 4 + 2 * 2 ^ 10 + 2 * 2 ^ 15 + 2 ^ 18 + 2 ^ 22),
    (0x70, 2, flag h.aspmL1 1), (0x72, 2, s.pcie.speed + s.pcie.width * 2 ^ 4),
    (0x84, 4, 0xF + 2 ^ 4 + 2 ^ 11 + 2 ^ 16 + 2 ^ 17), (0x88, 2, flag h.ltr 10), (0x8C, 4, s.linkCapability.2.1) ]

/-- The header of an extended capability: identifier, version 1, next offset. -/
def extHeader (at_ id next : Nat) : Field := (at_, 4, id + 2 ^ 16 + next * 2 ^ 20)

/-- Device Serial Number: the code of character i, from 1, in bits [64 - 5i : 60 - 5i] (R359). -/
def State.serialNumber (s : State) : Nat := (List.range 12).foldl (fun acc i => acc * 32 + s.unit.serial.getD i 0 % 32) 0

/-- The extended capabilities of Table 06-4, from Advanced Error Reporting to L1 PM Substates (T_POWER_ON of 70 µs: scale 10 µs, value 7). -/
def State.extendedStructures (s : State) : List Field :=
  let p := s.pcie
  [ extHeader 0x100 0x0001 0x148, (0x104, 4, p.aerUncor.toNat), (0x108, 4, p.host.uncorMask.toNat), (0x10C, 4, p.host.severity.toNat),
    (0x110, 4, p.aerCor.toNat), (0x114, 4, p.host.corMask.toNat), (0x11C, 16, p.aerHeader.toNat),
    extHeader 0x148 0x0003 0x158, (0x14C, 4, s.serialNumber % 2 ^ 32), (0x150, 4, s.serialNumber / 2 ^ 32),
    extHeader 0x158 0x0019 0x170, extHeader 0x170 0x0026 0x1A0, extHeader 0x1A0 0x002A 0x1D0, extHeader 0x1D0 0x0031 0x1F0,
    extHeader 0x1F0 0x0027 0x200, extHeader 0x200 0x0025 0x210, (0x204, 4, 1 + 2 ^ 31), extHeader 0x210 0x0018 0x220,
    extHeader 0x220 0x001E 0x000, (0x224, 4, 0x1F + 1 * 2 ^ 16 + 7 * 2 ^ 19), (0x228, 4, flag p.host.l12 2 + flag p.host.l11 3) ]

/-- Configuration space as it reads. -/
def State.configSpace (s : State) : List Field :=
  s.configHeader ++ s.powerCapability ++ s.msixStructure ++ s.expressStructure ++ s.extendedStructures

/-! ## Error reporting (R142, R151, R164) -/

/-- A message of AER goes out where the host has enabled its severity (base specification: Device Control, or SERR# Enable for the two worse). -/
def sendError (severity : Nat) (s : State) : State :=
  let h := s.pcie.host
  if h.report.getLsbD severity || (severity ≠ 0 && h.command.getLsbD 8) then emit (.errMessage severity) s else s

/-- A correctable error: its status bits, and a message unless they are masked. -/
def reportCorrectable (bits : BitVec 32) (s : State) : State :=
  let s := { s with pcie := { s.pcie with aerCor := s.pcie.aerCor ||| bits } }
  if bits &&& ~~~s.pcie.host.corMask = 0 then s else sendError 0 s

/-- An uncorrectable error: its status bits, the header of the first one, and a message unless they are masked; fatal by the severity register. One that
the answer to a request makes known is advisory, and reported as correctable while it is not fatal. -/
def reportUncorrectable (bits : BitVec 32) (header : BitVec 128) (advisory : Bool) (s : State) : State :=
  let shown := bits &&& ~~~s.pcie.host.uncorMask
  let fatal := shown &&& s.pcie.host.severity ≠ 0
  let s := { s with pcie := { s.pcie with
    aerUncor := s.pcie.aerUncor ||| bits, aerHeader := if s.pcie.aerUncor = 0 && shown ≠ 0 then header else s.pcie.aerHeader } }
  if shown = 0 then s
  else if fatal then sendError 2 s
  else if advisory then reportCorrectable 0x2000 s
  else sendError 1 s

/-- Bits of Status. -/
def setStatus (bits : BitVec 16) (s : State) : State := { s with pcie := { s.pcie with status := s.pcie.status ||| bits } }

/-- A request that the function does not take: Unsupported Request, as the completion of a non-posted one (R142, R164). -/
def refuseRequest (posted : Bool) (header : BitVec 128) (s : State) : State :=
  let s := reportUncorrectable 0x00100000 header (!posted) s
  if posted then s else emit .unsupportedRequest s

/-- Completer Abort of an oversized read (R151): it raises no fault. -/
def abortRequest (s : State) : State := emit .completerAbort (reportUncorrectable 0x00008000 0 true (setStatus 0x0800 s))

end Sys2Proof.Machine
end

