-- ==== Sys2Proof/Machine/Pcie.lean ====
section
/-! DEFINITION. The PCI Express face (chapter 06): BAR0, the bootstrap block, doorbells, MSI-X, in-band events and link errors. -/

namespace Sys2Proof.Machine

open Sys2Proof

/-- A request of the host reaches the function: the link is up. -/
def State.linkUp (s : State) : Bool := s.running && s.rst.face = .pcie && s.pcie.speed ≠ 0

/-- The function answers accesses to BAR0: Memory Space is enabled and the function is not in D3hot (R148, R162). -/
def State.barOpen (s : State) : Bool := s.linkUp && s.memSpace && !s.pcie.d3hot

/-- An access to the window of BAR0: refused as an Unsupported Request while the function claims no address (R164). -/
def barAccess (posted : Bool) (f : State → State) (s : State) : State :=
  if s.barOpen then f s else if s.linkUp then refuseRequest posted 0 s else s

/-! ## Reads of BAR0 (R151 to R153) -/

def bootFields (s : State) : List Field :=
  [ (0x000, 4, 3), (0x004, 1, s.pcie.request), (0x005, 1, s.pcie.granted), (0x008, 4, flag s.pcie.enable 0 + flag s.pcie.shutReq 1),
    (0x00C, 4, s.bootstrapStatus), (0x010, 8, s.pcie.asq), (0x018, 8, s.pcie.acq), (0x020, 2, s.pcie.asqSize), (0x022, 2, s.pcie.acqSize) ]

/-- The identity window (Table 06-6). -/
def State.identityFields (s : State) : List Field :=
  (if s.rst.admin then s.deviceFields else []) ++ (strapFields s.strap).map (fun f => (0x800 + f.1, f.2)) ++ [(0x820, 4, s.deviceState)]

/-- A byte of BAR0 (Table 06-5): doorbells and reserved areas read as zeros. -/
def State.barByte (s : State) (a : Nat) : Byte :=
  if a < 0x1000 then Mem.get 0 (Mem.ofFields s.identityFields) a
  else if a < 0x1024 then Mem.get 0 (Mem.ofFields (bootFields s)) (a - 0x1000)
  else if 0x8000 ≤ a && a < 0x10000 then msixByte s.pcie.msixTable (a - 0x8000)
  else if 0x10000 ≤ a && a < 0x10100 then
    BitVec.ofNat 8 ((List.range 8).foldl (fun acc i => acc + flag (8 * (a - 0x10000) + i ∈ s.pcie.msixPending) i) 0)
  else 0

def State.barRead (s : State) (off len : Nat) : Nat :=
  (List.range len).foldr (fun i acc => (s.barByte (off + i)).toNat + 256 * acc) 0

/-- A read that is answered with Completer Abort. -/
def oversized (off len : Nat) : Bool := 8 < len || 8 < off % 8 + len

/-- BAR0_OVERSIZED_READ: Completer Abort, reported through AER; a read within its limits returns its data (R151). -/
def execBar0OversizedRead (off len : Nat) (s : State) : Host.Outcome State Fault Refusal :=
  answer s (barAccess false (fun s => if oversized off len then abortRequest s else emit (.barData (s.barRead off len)) s))

/-! ## The bootstrap block (R153 to R158) -/

/-- Queue pair 0 (R155). -/
def adminPair (s : State) : Pair :=
  { id := 0, well := 0, vector := 0, burst := 32, sqBase := s.pcie.asq, cqBase := s.pcie.acq, sqSize := s.pcie.asqSize, cqSize := s.pcie.acqSize
    tail := 0, head := 0, cqHead := 0, cqTail := 0, phase := true, frozen := none, refetch := false, retry := [], contained := false, deleting := false }

/-- The checks of R155. -/
def State.enablePasses (s : State) : Bool :=
  let p := s.pcie
  p.request ≤ 2 && p.asq % 4096 = 0 && p.acq % 4096 = 0 && 2 ≤ p.asqSize && p.asqSize ≤ 4096 && 2 ≤ p.acqSize && p.acqSize ≤ 4096

/-- Enable is set (R155): a controller restart that is still under way is ended by its own completion first. -/
def setEnable (s : State) : State :=
  if s.pcie.enable || s.pcie.clearing then s
  else if s.enablePasses then
    { s with
      pcie := { s.pcie with enable := true, refused := false, granted := if s.pcie.request = 2 then 2 else 1, ready := s.rst.admin
                            shutReq := false, shutdown := 0 }
      nib := { s.nib with pairs := insertPair (adminPair s) (s.nib.pairs.filter (fun p => p.id ≠ 0)) } }
  else { s with pcie := { s.pcie with enable := true, refused := true } }

/-- Shutdown request is set while Ready is 1 (R157, R341 step 1). A request while Ready is 0, or while the shutdown field is not 00b, is dropped: Control
bit 1 reads 0 (DESIGN CHOICE, log entry 117). -/
def setShutdown (s : State) : State :=
  if s.pcie.ready && s.pcie.shutdown = 0 then
    closeStripes { s with pcie := { s.pcie with shutReq := true, shutdown := 1 }, log := { s.log with closing := true } }
  else s

/-- BOOTSTRAP_ENABLE. -/
def execBootstrapEnable (s : State) : Host.Outcome State Fault Refusal := work (barAccess true setEnable) s

/-- BOOTSTRAP_ENABLE_CLEAR. -/
def execBootstrapEnableClear (s : State) : Host.Outcome State Fault Refusal := work (barAccess true (fun s => onlyIf s.pcie.enable clearEnable s)) s

/-- SHUTDOWN_REQUEST. -/
def execShutdownRequest (s : State) : Host.Outcome State Fault Refusal := work (barAccess true setShutdown) s

/-- The Power Hint task that waits for the shutdown sequence (R343). -/
def State.shutdownTask (s : State) : Option Item := s.nib.items.find? (fun i => i.wait = .shutdown)

/-- The Clean page passes verify: the shutdown field becomes 10b, or the task that asked is done (R157, R341, R343). -/
def endShutdown (s : State) : State :=
  let s := if s.rst.io then finishShutdown s else { s with log := { s.log with closing := false } }
  let s := { s with pcie := { s.pcie with shutdown := if s.pcie.shutdown = 1 then 2 else s.pcie.shutdown } }
  match s.shutdownTask with | some i => succeed i 0 s | none => s

/-- SHUTDOWN_COMPLETE: once no fetched command remains and the reservoir is empty (R341). -/
def execShutdownComplete (s : State) : Host.Outcome State Fault Refusal :=
  work (onlyIf (s.running && s.log.closing && !s.pwr.entering4 && (s.rst.io || s.recovery || s.mismatch)
    && s.quiet ((s.shutdownTask.map (·.ruling)).getD 0)) endShutdown) s

/-! ## Doorbells (R169, R192) -/

/-- The error log entry of a doorbell with an index beyond its ring: Detail 0 tail, 1 head (R169, Table 08-7). -/
def badDoorbell (q index detail : Nat) (s : State) : State :=
  logError { slot := 0, count := 0, ruling := 0, q := q, cid := 0, pos := index, status := 8, opcode := 0, part := 0, well := s.wellOf q, face := 0
             cls := 255, detail := detail, block := 0, time := 0, wall := 0 } s

/-- A submission tail doorbell; for pair 0 it also carries Resume and Skip. -/
def tailDoorbell (q : Nat) (value : BitVec 32) (s : State) : State :=
  match s.pair? q with
  | none => s
  | some p =>
    let index := bits value.toNat 0 16
    if p.sqSize ≤ index then badDoorbell q index 0 s
    else
      let s := modPair q (fun p => { p with tail := index }) (touch s)
      if q = 0 && bit value.toNat 31 && p.frozen.isSome then resumePair 0 (bit value.toNat 30) s else s

/-- A completion head doorbell. -/
def headDoorbell (q : Nat) (value : BitVec 32) (s : State) : State :=
  match s.pair? q with
  | none => s
  | some p =>
    let index := bits value.toNat 0 16
    if p.cqSize ≤ index then badDoorbell q index 1 s
    else modPair q (fun p => { p with cqHead := index }) (touch s)

/-- SUBMISSION_TAIL_DOORBELL. -/
def execSubmissionTailDoorbell (q : Nat) (value : BitVec 32) (s : State) : Host.Outcome State Fault Refusal :=
  answer s (barAccess true (tailDoorbell q value))

/-- PAIR0_RESUME_DOORBELL: Resume is set. -/
def execPair0ResumeDoorbell (value : BitVec 32) (s : State) : Host.Outcome State Fault Refusal :=
  answer s (barAccess true (tailDoorbell 0 (value ||| 0x80000000)))

/-- COMPLETION_HEAD_DOORBELL. -/
def execCompletionHeadDoorbell (q : Nat) (value : BitVec 32) (s : State) : Host.Outcome State Fault Refusal :=
  answer s (barAccess true (headDoorbell q value))

/-! ## MSI-X (R159) -/

/-- One message for a vector that is unmasked with its pending bit set. -/
def sendPending (v : Nat) (s : State) : State :=
  if v ∈ s.pcie.msixPending && s.msixOn && !s.vectorMasked v then
    post (.msix v) { s with pcie := { s.pcie with msixPending := without v s.pcie.msixPending } }
  else s

/-- A byte written to the MSI-X table: of Vector Control the mask bit alone is implemented (log entry 6). -/
def setMsixByte (a : Nat) (b : Byte) (t : Mem) : Mem :=
  let b := if a % 16 = 12 then (b &&& 1) ^^^ 1 else if 12 < a % 16 then 0 else b
  Mem.set 0 t a b

def writeMsix (off : Nat) (v : BitVec 32) (s : State) : State :=
  let t := (List.range 4).foldl (fun t i => setMsixByte (off + i) (BitVec.ofNat 8 (v.toNat / 256 ^ i)) t) s.pcie.msixTable
  sendPending (off / 16) { s with pcie := { s.pcie with msixTable := t } }

/-- MSIX_VECTOR_UNMASK. -/
def execMsixVectorUnmask (v : Nat) (s : State) : Host.Outcome State Fault Refusal :=
  answer s (barAccess true (fun s => if 2048 ≤ v then s else
    sendPending v { s with pcie := { s.pcie with msixTable := setMsixByte (16 * v + 12) 0 s.pcie.msixTable } }))

/-! ## Writes of BAR0 (R151, R154) -/

/-- The low or high half of a 64-bit register replaced. -/
def putHalf (x : Nat) (high : Bool) (v : Nat) : Nat := if high then x % 2 ^ 32 + v * 2 ^ 32 else x / 2 ^ 32 * 2 ^ 32 + v

/-- Control: Enable and Shutdown request take effect when they change. -/
def writeControl (v : Nat) (s : State) : State :=
  let s := if bit v 0 && !s.pcie.enable then setEnable s else if !bit v 0 && s.pcie.enable then clearEnable s else s
  if bit v 1 then (if s.pcie.shutReq then s else setShutdown s) else { s with pcie := { s.pcie with shutReq := false } }

/-- A register of the bootstrap block that is stored, unless Enable or Ready is 1 (R154). -/
def writeBoot (off v : Nat) (s : State) : State :=
  if s.pcie.enable || s.pcie.ready then s
  else
    match off with
    | 0x004 => { s with pcie := { s.pcie with request := v % 256 } }
    | 0x010 => { s with pcie := { s.pcie with asq := putHalf s.pcie.asq false v } }
    | 0x014 => { s with pcie := { s.pcie with asq := putHalf s.pcie.asq true v } }
    | 0x018 => { s with pcie := { s.pcie with acq := putHalf s.pcie.acq false v } }
    | 0x01C => { s with pcie := { s.pcie with acq := putHalf s.pcie.acq true v } }
    | 0x020 => { s with pcie := { s.pcie with asqSize := v % 65536, acqSize := v / 65536 } }
    | _ => s

/-- A 4-byte write at a 4-byte boundary (Table 06-5). -/
def barWord (off : Nat) (v : BitVec 32) (s : State) : State :=
  if off = 0x1008 then writeControl v.toNat s
  else if 0x1000 ≤ off && off < 0x1024 then writeBoot (off - 0x1000) v.toNat s
  else if 0x4000 ≤ off && off < 0x8000 then
    (if off % 8 = 0 then tailDoorbell ((off - 0x4000) / 8) v s else headDoorbell ((off - 0x4000) / 8) v s)
  else if 0x8000 ≤ off && off < 0x10000 then writeMsix (off - 0x8000) v s
  else s

/-- BAR0_REGISTER_WRITE: 4 bytes, or 8 as the lower half followed by the upper; any other write is discarded. -/
def execBar0RegisterWrite (off len : Nat) (value : BitVec 64) (s : State) : Host.Outcome State Fault Refusal :=
  work (barAccess true (fun s =>
    let lo := value.extractLsb' 0 32
    let hi := value.extractLsb' 32 32
    if len = 4 && off % 4 = 0 then barWord off lo s
    else if len = 8 && off % 8 = 0 then barWord (off + 4) hi (barWord off lo s)
    else s)) s

/-! ## In-band events (R162, R163) -/

/-- The fields that a Function Level Reset keeps (base specification, log entry 6). -/
def flrHost (h : HostCfg) : HostCfg := { HostCfg.init with mps := h.mps, aspmL1 := h.aspmL1, l11 := h.l11, l12 := h.l12, ltr := h.ltr }

/-- The link, down. -/
def Pcie.down : Pcie := Pcie.init

/-- The link as it stands, everything else at its reset value. -/
def Pcie.kept (p : Pcie) : Pcie := { Pcie.init with speed := p.speed, width := p.width, lane0 := p.lane0 }

/-- The same for a Function Level Reset: the settings and the error status that the base specification keeps (log entry 6). -/
def Pcie.afterFlr (p : Pcie) : Pcie :=
  { p.kept with host := flrHost p.host, aerUncor := p.aerUncor, aerCor := p.aerCor, aerHeader := p.aerHeader }

/-- Bootstrap block, queues and MSI-X table to their reset values, with what remains of the link and the configuration (Table 06-9). -/
def inband (left : Pcie) (s : State) : State := { dropHost s with pcie := left }

def State.onPcie (s : State) : Bool := s.running && s.rst.face = .pcie

/-- HOT_RESET: the link trains again. -/
def execHotReset (s : State) : Host.Outcome State Fault Refusal := work (onlyIf s.onPcie (inband .down)) s

/-- LINK_DOWN: the link goes down and is retrained. -/
def execLinkDown (s : State) : Host.Outcome State Fault Refusal := work (onlyIf s.onPcie (fun s => emit .retrain (inband .down s))) s

/-- FUNCTION_LEVEL_RESET. -/
def execFunctionLevelReset (s : State) : Host.Outcome State Fault Refusal :=
  work (onlyIf s.onPcie (fun s => inband s.pcie.afterFlr s)) s

/-- D3HOT_ENTRY: the effect of clearing Enable, and D3hot once it is complete (R162). While Ready is 0 Enable is cleared all the same (DESIGN CHOICE, log
entry 119). -/
def execD3hotEntry (s : State) : Host.Outcome State Fault Refusal :=
  work (onlyIf (s.onPcie && !s.pcie.d3hot) (fun s =>
    let s := clearEnable s
    settleD3 { s with pcie := { s.pcie with d3Next := true } })) s

/-- The module returns to PS0 (R449, R450). -/
def wake (s : State) : State :=
  let s := { s with pwr := { s.pwr with ps := if 2 ≤ s.effectiveStep then 1 else 0, entering4 := false } }
  { s with
    pcie := { s.pcie with l1 := 0 }
    lands := { s.lands with clkreqLow := s.lands.clkreqLow || s.rst.face = .pcie }
    log := { s.log with closing := s.log.closing && (s.pcie.shutdown = 1 || s.shutdownTask.isSome) } }

/-- D3HOT_EXIT: configuration space is reset, and the module wakes (R163, R453). -/
def execD3hotExit (s : State) : Host.Outcome State Fault Refusal :=
  work (onlyIf (s.onPcie && s.pcie.d3hot) (fun s => wake (inband s.pcie.kept s))) s

/-! ## The link (R146, R161, R164) -/

/-- LINK_TRAINED: training ends a retrain that FC8 asked for (R146, R164); with Bus Master enabled, the transmit path empties. -/
def execLinkTrained (speed width : Nat) (reversed : Bool) (host : HostCfg) (s : State) : Host.Outcome State Fault Refusal :=
  work (onlyIf (s.onPcie && speed ≠ 0) (fun s =>
    drainTx (ackReaction 8 0x02 { s with pcie := { s.pcie with
      speed := min speed s.linkCeiling.1, width := min width s.linkCeiling.2, lane0 := if reversed && s.linkCeiling.2 = 2 then 1 else 0, host := host } }))) s

/-- FC8: the local action while the level is retry; from contain on the effect of clearing Enable, and the link is retrained (Table 15-3). -/
def linkFault (aer : BitVec 32) (action : State → State) (s : State) : State :=
  let level := s.levelFor 8 2
  let s := recordFault 8 2 0x02 (BitVec.ofNat 64 aer.toNat) 2 s
  if !s.running then s
  else if level ≤ 2 then action s
  else emit .retrain (clearEnable s)

/-- The link after an error that takes it down (Table 06-9). -/
def linkLost (down : Bool) (s : State) : State := if down && s.running then inband .down s else s

/-- LINK_ERROR (Table 06-10): AER first, then the fault, whose detail is the AER status word (Table 15-7). -/
def execLinkError (e : LinkErr) (aer : BitVec 32) (header : BitVec 128) (s : State) : Host.Outcome State Fault Refusal :=
  work (onlyIf s.onPcie (fun s =>
    match e with
    | .corrected => reportCorrectable aer { s with health := { s.health with linkErrors := sat 32 (s.health.linkErrors + 1) } }
    | .replay => let s := reportCorrectable aer s; linkFault s.pcie.aerCor (emit .retrain) s
    | .surpriseDown => linkLost true (if s.pcie.ready then linkFault s.pcie.aerUncor (emit .retrain) s else emit .retrain s)
    | .fatal down => let s := reportUncorrectable aer header false s; linkLost down (linkFault s.pcie.aerUncor (emit .retrain) s)
    | .poisonedRequest posted =>
      let s := setStatus (if aer.getLsbD 12 then 0x8000 else 0) (reportUncorrectable aer header (!posted) s)
      if posted then s else emit .unsupportedRequest s
    | .unsupported posted => refuseRequest posted header s)) s

/-- A command for which the module reads host memory: data in, or a segment list. -/
def State.readsHost (s : State) (i : Item) : Bool :=
  !i.narrow && i.q ≠ 65535 && s.onPcie && i.wait = .data
    && ((match cmdInfo (Entry.opcode i.entry) with | some x => x.data = 1 | none => false) || Entry.segmented i.entry)

/-- What the front command of a pair names in host memory besides its entry: the data of a download, or a segment list. -/
def Fetched.reads (f : Fetched) : Bool := !f.narrow && (Entry.opcode f.entry = 0xA0 || Entry.segmented f.entry)

/-- Failed reads of a command that is not ruled, counted with it: after the second it fails at its ruling (log entry 120). -/
def countRetry (f : Fetched) (s : State) : State :=
  { s with nib := { s.nib with fetched := mapIf (fun x => x = f) (fun x => { x with retries := x.retries + 1 }) s.nib.fetched } }

/-- A failed read of a pair that no ruled command asked for: its front command's, else the pair's own read of its ring, reissued once. -/
def ringReadFailed (q : Nat) (s : State) : State :=
  match (s.front? q).filter Fetched.reads, s.pair? q with
  | some f, _ =>
    if f.retries = 0 then linkFault s.pcie.aerUncor (fun s => emit (.reissue 0) (countRetry f s)) s else linkFault s.pcie.aerUncor (countRetry f) s
  | none, some p =>
    if p.refetch then linkFault s.pcie.aerUncor id (modPair q (fun p => { p with refetch := false }) s)
    else linkFault s.pcie.aerUncor (emit (.reissue 0)) (modPair q (fun p => { p with refetch := true }) s)
  | none, none => s

/-- MODULE_REQUEST_FAILURE: reissued once; then the command fails with the host-transfer status, and the retry that did not succeed is a
further fault of its class (R164, R402). -/
def execModuleRequestFailure (ruling q : Nat) (aer : BitVec 32) (s : State) : Host.Outcome State Fault Refusal :=
  work (fun s =>
    if ruling = 0 then onlyIf s.onPcie (fun s => ringReadFailed q (reportUncorrectable aer 0 false s)) s
    else
      match s.item? ruling with
      | none => s
      | some i =>
        if !s.readsHost i then s
        else
          let s := reportUncorrectable aer 0 false s
          if i.retries = 0 then linkFault s.pcie.aerUncor (fun s => emit (.reissue ruling) (setItem { i with retries := 1 } s)) s
          else linkFault s.pcie.aerUncor id (failData i Fail.hostTransfer s)) s

/-- CLKREQN_HOST_ASSERT (R161). -/
def execClkreqnHostAssert (s : State) : Host.Outcome State Fault Refusal :=
  answer s (onlyIf (s.onPcie && 2 ≤ s.pcie.l1) (fun s =>
    { s with pcie := { s.pcie with l1 := 0 }, lands := { s.lands with clkreqLow := true } }))

end Sys2Proof.Machine
end

