-- ==== Sys2Proof/Machine/Queue.lean ====
section
/-! DEFINITION. Fetching and admission (chapter 07): the fetch arbiter, the ends of stalls and lock waits, data movement, and the queue
commands of pair 0. -/

namespace Sys2Proof.Machine

open Sys2Proof

/-! ## Fetching (R174, R175) -/

/-- Commands of a pair that are fetched and whose completions are not yet written. -/
def State.fetchedOf (s : State) (q : Nat) : Nat :=
  (s.nib.fetched.filter (fun f => !f.narrow && f.q = q)).length + (s.nib.items.filter (fun i => !i.narrow && i.q = q)).length

/-- Completion slots that are written and not released. -/
def Pair.unreleased (p : Pair) : Nat := (p.cqTail + p.cqSize - p.cqHead) % max 1 p.cqSize

/-- Entries pending in the submission ring, those to retry included. -/
def Pair.pendingEntries (p : Pair) : Nat := (p.tail + p.sqSize - p.head) % max 1 p.sqSize + p.retry.length

/-- Entries that R174 allows to be fetched from a pair now. -/
def State.allowance (s : State) (p : Pair) : Nat :=
  min (p.cqSize - 1 - (s.fetchedOf p.id + p.unreleased)) (65536 - (s.nib.fetched.length + s.nib.items.length))

/-- The pair is fetchable (R174, R341, R406). -/
def State.fetchable (s : State) (p : Pair) : Bool :=
  p.frozen.isNone && !p.contained && !p.deleting && 0 < p.pendingEntries && !s.nib.paused && !s.nib.stopped && s.pcie.shutdown = 0
    && (p.id = 0 || s.rst.io) && s.rst.admin && 0 < s.allowance p

/-- The first member after `last` in ascending order, wrapping around. -/
def nextAround (last : Nat) (l : List Nat) : Option Nat := ((l.find? (fun x => last < x))).or (l.head?)

def sortNat (l : List Nat) : List Nat := l.foldr insertNat []

/-- The pair that the arbiter serves next (R175). -/
def State.arbiter (s : State) : Option Pair :=
  let able := s.nib.pairs.filter s.fetchable
  match able.find? (fun p => p.id = 0) with
  | some p => some p
  | none =>
    match nextAround s.nib.wellTurn (sortNat (able.map (·.well))) with
    | none => none
    | some w =>
      let last := match s.nib.pairTurn.find? (fun x => x.1 = w) with | some x => x.2 | none => 0
      (nextAround last (sortNat ((able.filter (fun p => p.well = w)).map (·.id)))).bind (fun q => able.find? (fun p => p.id = q))

/-- One entry is fetched: the entry to retry from its own slot, any other from the fetch position (R175, R191). -/
def fetchOne (q : Nat) (e : Entry) (s : State) : State :=
  match s.pair? q with
  | none => s
  | some p =>
    let slot := p.retry.head?.getD p.head
    let s := modPair q (fun p => { p with retry := p.retry.tail, head := if p.retry = [] then (p.head + 1) % max 1 p.sqSize else p.head }) s
    { s with nib := { s.nib with fetched := s.nib.fetched ++ [{ narrow := false, q := q, slot := slot, entry := e, stalled := false, retries := 0 }] } }

/-- The rotation after a turn of an I/O pair. -/
def noteTurn (p : Pair) (s : State) : State :=
  if p.id = 0 then s
  else { s with nib := { s.nib with wellTurn := p.well, pairTurn := s.nib.pairTurn.filter (fun x => x.1 ≠ p.well) ++ [(p.well, p.id)] } }

/-- FETCH_TURN. -/
def execFetchTurn (entries : List Entry) (s : State) : Host.Outcome State Fault Refusal :=
  answer s (onlyIf (s.onPcie && s.awake && s.busMaster && !s.pcie.d3hot) (fun s =>
    match s.arbiter with
    | none => s
    | some p =>
      let n := min p.burst (min p.pendingEntries (s.allowance p))
      let s := emit (.hostRead p.id (cut s.readMax (64 * min n entries.length))) (modPair p.id (fun p => { p with refetch := false }) s)
      actUpdate ((entries.take n).foldl (fun s e => fetchOne p.id e s) (noteTurn p s))))

/-- ADMISSION_STALL_END (R179). -/
def execAdmissionStallEnd (s : State) : Host.Outcome State Fault Refusal := work endStalls s

/-- RANGE_LOCK_GRANTED (R184). -/
def execRangeLockGranted (ruling : Nat) (s : State) : Host.Outcome State Fault Refusal :=
  work (fun s =>
    match s.item? ruling with
    | some i => if s.running && !s.nib.stopped && i.wait = .lock then enterLock i s else s
    | none => s) s

/-- WRITE_DATA_RECEIVED: the reissued request of R164 has then succeeded (R494). -/
def execWriteDataReceived (ruling : Nat) (data : Mem) (segments : List Nat) (s : State) : Host.Outcome State Fault Refusal :=
  work (fun s =>
    match s.item? ruling with
    | some i =>
      if s.running && !s.nib.stopped && !i.narrow && i.wait = .data && Entry.opcode i.entry = 1 then
        receiveWrite i data segments (if i.retries = 0 then s else ackReaction 8 0x02 s)
      else s
    | none => s) s

/-- READ_DATA_DELIVERED (R185). -/
def execReadDataDelivered (ruling : Nat) (segments : List Nat) (s : State) : Host.Outcome State Fault Refusal :=
  work (onlyIf (s.running && !s.nib.stopped) (deliverRead ruling segments)) s

/-! ## Queue commands (R171, R191, R195 to R197, R201) -/

/-- CREATE_QUEUE_PAIR. -/
def execCreateQueuePair (s : State) : Host.Outcome State Fault Refusal := answer s (ruleFront 0 (isOp 0x80) .nothing)

/-- DELETE_QUEUE_PAIR. -/
def execDeleteQueuePair (s : State) : Host.Outcome State Fault Refusal := answer s (ruleFront 0 (isOp 0x81) .nothing)

/-- RESUME_QUEUE. -/
def execResumeQueue (s : State) : Host.Outcome State Fault Refusal := answer s (ruleFront 0 (isOp 0x82) .nothing)

/-- CANCEL_COMMAND. -/
def execCancelCommand (s : State) : Host.Outcome State Fault Refusal := answer s (ruleFront 0 (isOp 0x83) .nothing)

/-- CONTROLLER_RESTART. -/
def execControllerRestart (s : State) : Host.Outcome State Fault Refusal := answer s (ruleFront 0 (isOp 0x84) .nothing)

/-- INVALID_OPCODE_COMMAND: the opcode is not in Table 08-1, or not permitted under KQ1 or on the pair. -/
def execInvalidOpcodeCommand (q : Nat) (s : State) : Host.Outcome State Fault Refusal :=
  answer s (ruleFront q (fun e => !s.opcodeAllowed false q e) .nothing)

end Sys2Proof.Machine
end

