-- ==== Sys2Proof/Machine/Block.lean ====
section
/-! DEFINITION. The block commands and Flush (chapters 07 and 08): each row rules the oldest unadmitted entry of its ring, where that entry is
of the row's kind. -/

namespace Sys2Proof.Machine

open Sys2Proof

/-- WRITE (R186, R209). -/
def execWrite (q : Nat) (s : State) : Host.Outcome State Fault Refusal := answer s (ruleFront q (isOp 0x01) .nothing)

/-- READ (R209). -/
def execRead (q : Nat) (s : State) : Host.Outcome State Fault Refusal := answer s (ruleFront q (isOp 0x02) .nothing)

/-- FLUSH (R187). -/
def execFlush (q : Nat) (s : State) : Host.Outcome State Fault Refusal := answer s (ruleFront q (isOp 0x03) .nothing)

/-- RELEASE (R209). -/
def execRelease (q : Nat) (s : State) : Host.Outcome State Fault Refusal := answer s (ruleFront q (isOp 0x04) .nothing)

/-- VERIFY (R209). -/
def execVerify (q : Nat) (s : State) : Host.Outcome State Fault Refusal := answer s (ruleFront q (isOp 0x05) .nothing)

/-- PLANE_READ (R214). -/
def execPlaneRead (q : Nat) (s : State) : Host.Outcome State Fault Refusal := answer s (ruleFront q (isOp 0x06) .nothing)

/-- PRECISION_READ (R215). -/
def execPrecisionRead (q : Nat) (s : State) : Host.Outcome State Fault Refusal := answer s (ruleFront q (isOp 0x07) .nothing)

end Sys2Proof.Machine
end

