-- ==== Sys2Proof/Machine/Admin.lean ====
section
/-! DEFINITION. The admin-class commands that read state, keep time, manage partitions and protection, start long operations, and speak for
the ligature (chapters 08, 13, 14, 16). -/

namespace Sys2Proof.Machine

open Sys2Proof

/-- AWAIT_EVENT (R218). -/
def execAwaitEvent (s : State) : Host.Outcome State Fault Refusal := answer s (ruleFront 0 (isOp 0x85) .nothing)

/-- IDENTIFY (R220). -/
def execIdentify (q : Nat) (segments : List Nat) (s : State) : Host.Outcome State Fault Refusal := answer s (ruleFront q (isOp 0x88) ⟨[], segments, 0⟩)

/-- Clear and Acknowledge of Get Log Page (Table 08-2). -/
def logClear (e : Entry) : Bool := bit (Entry.b2D e) 0

def logAck (e : Entry) : Bool := bit (Entry.b2D e) 1

/-- GET_LOG_PAGE: neither Clear nor Acknowledge (R221). -/
def execGetLogPage (q : Nat) (segments : List Nat) (s : State) : Host.Outcome State Fault Refusal :=
  answer s (ruleFront q (fun e => isOp 0x89 e && !logClear e && !logAck e) ⟨[], segments, 0⟩)

/-- GET_LOG_PAGE_CLEAR (R102, R219, R221). -/
def execGetLogPageClear (q : Nat) (segments : List Nat) (s : State) : Host.Outcome State Fault Refusal :=
  answer s (ruleFront q (fun e => isOp 0x89 e && logClear e) ⟨[], segments, 0⟩)

/-- GET_LOG_PAGE_ACKNOWLEDGE (R403). -/
def execGetLogPageAcknowledge (q : Nat) (segments : List Nat) (s : State) : Host.Outcome State Fault Refusal :=
  answer s (ruleFront q (fun e => isOp 0x89 e && !logClear e && logAck e) ⟨[], segments, 0⟩)

/-- SET_TIME (R225). -/
def execSetTime (s : State) : Host.Outcome State Fault Refusal := answer s (ruleFront 0 (isOp 0x8A) .nothing)

/-- POWER_HINT (R226). -/
def execPowerHint (s : State) : Host.Outcome State Fault Refusal := answer s (ruleFront 0 (isOp 0x8B) .nothing)

/-- POWER_HINT_EXPIRY: the hint's Duration has passed (R226). -/
def execPowerHintExpiry (s : State) : Host.Outcome State Fault Refusal :=
  answer s (onlyIf s.running (fun s => { s with pwr := { s.pwr with hint := 0 } }))

/-- CREATE_PARTITION (R212, R237). -/
def execCreatePartition (s : State) : Host.Outcome State Fault Refusal := answer s (ruleFront 0 (isOp 0x90) .nothing)

/-- DELETE_PARTITION (R217). -/
def execDeletePartition (s : State) : Host.Outcome State Fault Refusal := answer s (ruleFront 0 (isOp 0x91) .nothing)

/-- CAP (R386). -/
def execCap (s : State) : Host.Outcome State Fault Refusal := answer s (ruleFront 0 (isOp 0x92) .nothing)

/-- UNCAP (R388). -/
def execUncap (s : State) : Host.Outcome State Fault Refusal := answer s (ruleFront 0 (isOp 0x93) .nothing)

/-- FIX (R386). -/
def execFix (s : State) : Host.Outcome State Fault Refusal := answer s (ruleFront 0 (isOp 0x94) .nothing)

/-- SET_ACCESS (R380). -/
def execSetAccess (s : State) : Host.Outcome State Fault Refusal := answer s (ruleFront 0 (isOp 0x95) .nothing)

/-- SANITIZE_DEVICE (R230). -/
def execSanitizeDevice (s : State) : Host.Outcome State Fault Refusal := answer s (ruleFront 0 (isOp 0x98) .nothing)

/-- SELF_TEST (R230). -/
def execSelfTest (s : State) : Host.Outcome State Fault Refusal := answer s (ruleFront 0 (isOp 0x99) .nothing)

/-- CALIBRATE (R230). -/
def execCalibrate (s : State) : Host.Outcome State Fault Refusal := answer s (ruleFront 0 (isOp 0x9A) .nothing)

/-- OPERATION_RESUME (R229). -/
def execOperationResume (s : State) : Host.Outcome State Fault Refusal :=
  answer s (ruleFront 0 (fun e => isOp 0x9B e && Entry.b2E e = 2) .nothing)

/-- OPERATION_CANCEL (R229). -/
def execOperationCancel (s : State) : Host.Outcome State Fault Refusal :=
  answer s (ruleFront 0 (fun e => isOp 0x9B e && Entry.b2E e = 3) .nothing)

/-- OPERATION_SUSPEND, and Operation Control with an action that the table does not name (R229). -/
def execOperationSuspend (s : State) : Host.Outcome State Fault Refusal :=
  answer s (ruleFront 0 (fun e => isOp 0x9B e && Entry.b2E e ≠ 2 && Entry.b2E e ≠ 3) .nothing)

/-- ATTEST (R376). -/
def execAttest (segments : List Nat) (s : State) : Host.Outcome State Fault Refusal := answer s (ruleFront 0 (isOp 0xA2) ⟨[], segments, 0⟩)

/-- EPOCH_COMMIT (R433). -/
def execEpochCommit (s : State) : Host.Outcome State Fault Refusal := answer s (ruleFront 0 (isOp 0xA8) .nothing)

/-- EPOCH_RESOLVE (R442). -/
def execEpochResolve (s : State) : Host.Outcome State Fault Refusal := answer s (ruleFront 0 (isOp 0xA9) .nothing)

end Sys2Proof.Machine
end

