-- ==== Sys2Proof/Machine/LongOp.lean ====
section
/-! DEFINITION. How long operations end (chapters 08, 10, 11): the format of Sanitize, self-test segments, calibration, suspension, rebuilds. -/

namespace Sys2Proof.Machine

open Sys2Proof

/-- The running operation of some types. -/
def State.runningOp (s : State) (p : Nat → Bool) : Option LongOp := s.lops.list.find? (fun o => p o.typ && o.state = 1)

/-! ## Sanitize (R74, R230, R323) -/

/-- Every block is erased for its next use, in the channels still in service (R230, R270, R272, R313). -/
def formatBand (s : State) (b : Band) : Band :=
  if b.st = .dissolved then b
  else
    { b with st := .free, chans := s.channelsIn (bandGroup b.n), nextPos := 0, nextWl := 0, erases := b.erases + 1, cache := false, stamps := []
             blks := mapIf (fun x => x.st ≠ .retired) (fun x => Blk.erase { x with tlc := s.nextMode && !s.isSystem b.n }) (b.blks.filter (fun x => !s.dieDead (x.key / 4)))
             refresh := none, soft := [], softBefore := [], retireAfter := [], eraseWait := [] }

/-- An epoch that a Write ruled after a Sanitize has opened; every other is discarded with its pending entries (R439). -/
def State.epochAfter (s : State) (r : Nat) (e : Epoch) : Bool :=
  e.state < 2 && s.nib.items.any (fun i => r < i.ruling && Entry.opcode i.entry = 1 && i.verdict = 0 && Entry.w30 i.entry = e.n)

/-- What a format takes off the media at once: the map, the data and the work on them (R230). -/
def wipeMedia (r : Nat) (s : State) : State :=
  { s with
    nib := { s.nib with unsettled := s.nib.unsettled.filter (fun x => r < x) }
    res := { s.res with staged := s.res.staged.filter (fun x => r < x.ruling) }
    map := MapState.empty
    ftl := { s.ftl with slots := [], fill := [], progs := [], wps := [], emptying := [], moves := [], cache := [], touched := [], demoting := false, xors := []
                        testBand := none, freshWear := s.ftl.freshWear + (if s.nextMode then 10 else 1), freshErases := s.ftl.freshErases + 1 }
    dies := { s.dies with cold := [], queue := [], reads := [], probes := [], sweep := [], dies := s.dies.dies.filter (fun x => x.failed) }
    log := { s.log with buf := [], inflight := [], progs := [], cps := [], cpWriting := none, needOpened := false }
    rec_ := { s.rec_ with sanitize := none, rebuilds := [], profile := s.profile, epochs := (s.rec_.epochs.filter (s.epochAfter r)).map (fun (e : Epoch) => { e with pend := [] }) } }

/-- The media after the format: no data, no map, no checkpoint; one log page whose Settled ruling covers every ruling so far. -/
def formatMedia (r : Nat) (s : State) : State :=
  let s := wipeMedia r s
  let s := s.ftl.bands.foldl (fun s b => b.retireAfter.foldl (fun s k => retireBlock b.n k s) s) s
  let s := { s with ftl := { s.ftl with bands := s.ftl.bands.map (formatBand s) } }
  let s := resizeCache (s.ftl.bands.foldl (fun s b => mendBand b.n s) s)
  let p := s.assemble false true false [] s.log.buf
  addPage p { s with log := { s.log with pages := [] } }

/-- The strap mismatch ends: the module accepts I/O without a further reset (R74). -/
def endMismatch (s : State) : State :=
  if s.mismatch then
    { s with strap := { s.strap with mismatch := 0, state := 0, recorded := BitVec.ofNat 8 s.profile }
             rst := { s.rst with io := true, recovered := true } }
  else s

/-- SANITIZE_COMPLETE. -/
def execSanitizeComplete (s : State) : Host.Outcome State Fault Refusal :=
  work (fun s =>
    match s.rec_.sanitize, s.runningOp (· = 1) with
    | some r, some o =>
      if s.running && (s.rst.io || s.mismatch) then
        let s := endOp o.handle 3 0 0 (adoptHeld (endMismatch (formatMedia r s)))
        let s := match s.item? r with | some i => succeed i i.result s | none => s
        completePersistent (poolUpdate s)
      else s
    | _, _ => s) s

/-! ## Self-test (R298) -/

/-- Outcome of Table 10-13. -/
def segmentOutcome (k : Nat) : Nat := if k = 1 then 0x18 else if k = 2 || k = 5 then 0x0A else 0x0B

/-- The fault that a failed segment records under its own class: the active bank's image, a DRAM word, a decoder; a die, a channel, a lost codeword and a
failed verify have been recorded when they were found (R298). -/
def segmentFault (k : Nat) (s : State) : State :=
  match k with
  | 1 => recordFault 7 2 0x0A (BitVec.ofNat 64 (bankBase s.boot.record.active)) 2 s
  | 2 => recordFault 3 3 0x08 ((Config.freeWord s.drawn).setWidth 64) 2 (draw s)
  | 5 => recordFault 10 2 0x0C 0xFF 2 s
  | _ => s

/-- SELF_TEST_SEGMENT_DONE: every die operation of the segment has ended (R301). -/
def execSelfTestSegmentDone (ok : Bool) (s : State) : Host.Outcome State Fault Refusal :=
  work (fun s =>
    match s.runningOp isSelfTest with
    | none => s
    | some o =>
      let k := o.segment
      let n := testSegments o.typ
      if !o.begun then beginSegment o s
      else if !s.testIdle || o.wants ≠ [] then s
      else if o.found then endOp o.handle 4 (segmentOutcome k) k s
      else if !ok then endOp o.handle 4 (segmentOutcome k) k (segmentFault k s)
      else if n ≤ k then endOp o.handle 3 0 0 s
      else testWork (modOp o.handle (fun o => { o with progress := 10000 * k / n, begun := false }) s)) s

/-! ## Calibration (R299) -/

/-- CALIBRATION_COMPLETE: every die in scope has been read; their new class tables. -/
def execCalibrationComplete (tables : List DieTable) (s : State) : Host.Outcome State Fault Refusal :=
  work (fun s =>
    match s.runningOp (· = 4) with
    | none => s
    | some o =>
      if !(s.scopeDies o).all (· ∈ o.doneDies) || o.wants ≠ [] then s
      else
        let mine := tables.filter (fun t => s.dieFits t.die && (o.target = 0xFFFF || o.target = t.die))
        let s := openMedia s
        let all := mine.foldl (fun l t => l.filter (fun x => x.die ≠ t.die) ++ [t]) s.rec_.tables
        endOp o.handle 3 0 0 { s with rec_ := { s.rec_ with tables := all } }) s

/-! ## Suspension and rebuilds (R229, R301, R313, R317) -/

/-- LONG_OPERATION_SUSPENDED: every die operation that a test has issued has completed (R301). -/
def execLongOperationSuspended (handle : Nat) (s : State) : Host.Outcome State Fault Refusal :=
  work (fun s => match s.op? handle with
    | some o => if isRebuild o.typ || s.testStill then reachWanted handle s else s
    | none => s) s

/-- REBUILD_COMPLETE. -/
def execRebuildComplete (handle : Nat) (s : State) : Host.Outcome State Fault Refusal :=
  work (fun s =>
    match s.op? handle with
    | none => s
    | some o =>
      let left := s.bandsWith (targetDies o.typ o.target)
      if !isRebuild o.typ || o.state ≠ 1 || !left.all (fun b => s.onlyLost b.n) then s
      else
        let bad := o.lost || left ≠ []
        let outcome := if bad then 0x0B else 0
        let s := addNote 6 (BitVec.ofNat 64 (handle + outcome * 65536)) s
        let s := { s with rec_ := { s.rec_ with rebuilds := s.rec_.rebuilds.filter (fun x => x ≠ (o.typ, o.target)) } }
        rebuildNext (endOp handle (if bad then 4 else 3) outcome 0 s)) s

end Sys2Proof.Machine
end

