-- ==== Sys2Proof/Machine/Firmware.lean ====
section
/-! DEFINITION. Firmware download and activation (chapters 07, 08, 13). -/

namespace Sys2Proof.Machine

open Sys2Proof

/-- FIRMWARE_DOWNLOAD: the piece's bytes come with the row (R231, R368). -/
def execFirmwareDownload (data : Mem) (segments : List Nat) (s : State) : Host.Outcome State Fault Refusal :=
  answer s (ruleFront 0 (isOp 0xA0) ⟨data, segments, 0⟩)

/-- BOOT_FLASH_OPERATION_COMPLETE: a swap record comes before the piece that it withdraws for (R356, R362, R368). -/
def execBootFlashOperationComplete (ok : Bool) (s : State) : Host.Outcome State Fault Refusal :=
  work (onlyIf (s.running && !s.flt.stopping) (fun s =>
    match s.boot.swapWork with
    | some w => if ok then swapPassed w s else swapFailed w s
    | none =>
      match s.boot.dl, s.boot.busy with
      | some d, some _ => if ok then partPassed d s else partFailed d s
      | _, _ => s)) s

/-- FIRMWARE_ACTIVATE_NEXT_RESET, and an action that the table does not name (R232, R369). -/
def execFirmwareActivateNextReset (s : State) : Host.Outcome State Fault Refusal :=
  answer s (ruleFront 0 (fun e => isOp 0xA1 e && Entry.b2C e ≠ 1 && Entry.b2C e ≠ 2) .nothing)

/-- FIRMWARE_ACTIVATE_IMMEDIATE (R198). -/
def execFirmwareActivateImmediate (s : State) : Host.Outcome State Fault Refusal :=
  answer s (ruleFront 0 (fun e => isOp 0xA1 e && Entry.b2C e = 1) .nothing)

/-- FIRMWARE_ACTIVATE_OTHER_BANK (R369). -/
def execFirmwareActivateOtherBank (s : State) : Host.Outcome State Fault Refusal :=
  answer s (ruleFront 0 (fun e => isOp 0xA1 e && Entry.b2C e = 2) .nothing)

/-- Every fetched command but the Activate has completed, and those that wait for it in turn. -/
def State.drained (s : State) : Bool :=
  s.nib.fetched = []
  && s.nib.items.all (fun i => i.wait = .restart || i.q = 65535
    || (i.wait = .turn && (Entry.opcode i.entry = 0x84 || Entry.opcode i.entry = 0x81 || isFirmware (Entry.opcode i.entry))))

/-- The new image runs, long operations have ended by restart and rebuilds go on, the record of ready is written, and fetching resumes
(R198, R370, Table 08-10). -/
def swapImage (i : Item) (s : State) : State :=
  let b := s.boot.record.active
  let s := runImage b { s with rst := { s.rst with bank := b }, lops := { s.lops with list := endByRestart s.rst.timeMs s.lops.list } }
  let s := readySwap { s with boot := { s.boot with activating := false, owed := true }, nib := { s.nib with paused := false } }
  succeed i 0 (resumeWork s)

/-- FIRMWARE_ACTIVATION_RESTART. -/
def execFirmwareActivationRestart (s : State) : Host.Outcome State Fault Refusal :=
  work (onlyIf (s.running && s.boot.activating && s.drained) (fun s =>
    match s.nib.items.find? (fun i => i.wait = .restart) with
    | some i => swapImage i s
    | none => s)) s

end Sys2Proof.Machine
end

