-- ==== Sys2Proof/Machine/Narrow.lean ====
section
/-! DEFINITION. The Exdatin narrow bus (chapter 05): frames, the task register file, data blocks and tokens, versions and the identification
phase. -/

namespace Sys2Proof.Machine

open Sys2Proof

/-! ## Frames (R112 to R117) -/

/-- CRC7 over bits [51:8] (R113). -/
def frameCheck (x : Nat) : Nat := crc 7 0x09 0 (msbFirst (x / 256) 44)

/-- A response frame (Table 05-4). -/
def responseFrame (tag : BitVec 3) (index status result : Nat) : BitVec 52 :=
  let x := 2 ^ 50 + 2 ^ 48 + tag.toNat * 2 ^ 45 + index * 2 ^ 40 + status % 65536 * 2 ^ 24 + result % 65536 * 256
  BitVec.ofNat 52 (x + frameCheck x * 2 + 1)

/-- A response is sent; bits 3 to 5 of the status word are cleared once it has reported them (R117). -/
def respond (tag : BitVec 3) (index result : Nat) (s : State) : State :=
  emit (.response (responseFrame tag index s.narrowStatus result))
    { s with nb := { s.nb with frameErr := false, dataErr := false, illegal := false } }

/-- An illegal frame has a response with the illegal bit, and no other effect (R115). -/
def illegal (tag : BitVec 3) (index : Nat) (s : State) : State :=
  respond tag index 0 { s with nb := { s.nb with illegal := true } }

/-- The narrow face is armed and selected (R89, R120). -/
def State.nbOn (s : State) : Bool := s.running && s.rst.face = .narrow && s.rst.armedNarrow

/-- A frame that is accepted in the version phase only, in some task states. -/
def taskFrame (tag : BitVec 3) (index : Nat) (states : Task → Bool) (f : State → State) (s : State) : State :=
  if !s.nbOn then s
  else if s.nb.version = 0 || !states s.nb.task then illegal tag index s
  else f s

/-- A check error on this bus is FC9 at notice (R114, R132). -/
def checkError (s : State) : State := recordHandled 9 1 0x03 0 s

/-! ## Lines (R128 to R130) -/

def byteBits (b : Byte) : List Bool := msbFirst b.toNat 8

/-- The bits that a line carries of a block: one line carries every bit, of four lines NDn carries nibble bit n. -/
def lineBits (wide : Bool) (line : Nat) (bytes : List Byte) : List Bool :=
  if wide then bytes.flatMap (fun b => [b.getLsbD (4 + line), b.getLsbD line]) else bytes.flatMap byteBits

def lineCheck (bs : List Bool) : BitVec 16 := BitVec.ofNat 16 (crc 16 0x1021 0 bs)

/-- Bits at the two edges of each clock: both the same in SDR, one bit each in DDR. -/
def edges (ddr : Bool) : List Bool → List (Bool × Bool)
  | [] => []
  | [a] => [(a, a)]
  | a :: b :: l => if ddr then (a, b) :: edges ddr l else (a, a) :: edges ddr (b :: l)

/-- A data block on one line: start bit, the line's share, its CRC16, end bit (Table 05-11). -/
def lineBlock (ddr : Bool) (share : List Bool) : List (Bool × Bool) :=
  (false, false) :: edges ddr (share ++ msbFirst (lineCheck share).toNat 16) ++ [(true, true)]

/-- The data lines run at both edges in versions N2 and N3 (Table 05-1). -/
def State.ddr (s : State) : Bool := 2 ≤ s.nb.version

/-- The checks of a block of `n` bytes on the lines in use, ND0 first. -/
def blockChecks (wide : Bool) (n : Nat) (m : Mem) : List (BitVec 16) :=
  (List.range (if wide then 4 else 1)).map (fun l => lineCheck (lineBits wide l (Mem.bytes 0 m n)))

/-- A block that the module sends: all lines in use start on the same clock (R128). -/
def blockOut (wide ddr : Bool) (n : Nat) (m : Mem) : Out :=
  .block ((List.range (if wide then 4 else 1)).map (fun l => lineBlock ddr (lineBits wide l (Mem.bytes 0 m n)))) { len := n, data := m }

/-! ## Identification (R118 to R120) -/

def digits : Nat → Nat → List Nat
  | 0, _ => []
  | fuel + 1, n => if n < 10 then [0x30 + n] else digits fuel (n / 10) ++ [0x30 + n % 10]

def decimal (n : Nat) : List Nat := digits 20 n

/-- A 16-byte text field without its padding. -/
def trimText (x : Nat) : List Nat := (((List.range 16).map (fun k => bits x (8 * k) 8)).reverse.dropWhile (· = 0x20)).reverse

/-- N3 is granted (R105, R109). -/
def State.n3Granted (s : State) : Bool := s.strap.vccq18 = some true && s.sa0 ≠ 4 && s.sa0 ≠ 5

def State.firmwareText (s : State) : List Nat :=
  if s.recovery then ascii "ROM"
  else ascii (match s.rst.bank with | .a => "A:" | .b => "B:")
    ++ trimText (if s.rst.imageRuns then s.boot.runVersion else s.bankVersion s.rst.bank)

def State.modeText (s : State) : List Nat :=
  ascii (if s.recovery then "RECOVERY" else if s.mismatch then "MISMATCH" else if s.rst.io then "READY" else "START")

/-- The identification string (Table 05-8). -/
def State.idString (s : State) : List Nat :=
  ascii "EXD;VEND=BURRINOV;PART=" ++ s.orderingCode ++ ascii ";SER=" ++ s.serialText ++ ascii ";FW=" ++ s.firmwareText
    ++ ascii (if s.n3Granted then ";VER=N1,N2,N3" else ";VER=N1,N2")
    ++ ascii (if s.strap.vccq18 = some false then ";WID=1,4;VQ=3.3" else ";WID=1,4;VQ=1.8") ++ ascii ";LBS=4096;CAP=" ++ decimal s.logicalBlocks
    ++ ascii ";MODE=" ++ s.modeText ++ ascii ";LIG=" ++ (match s.ligAddress with | none => [0x53] | some a => decimal a) ++ [0x3B]

/-- The 256-B identification block, single-line. -/
def State.idBlock (s : State) : Out := blockOut false false 256 (Mem.ofBytes 0 (s.idString.map (BitVec.ofNat 8)))

/-! ## The task register file (Table 05-9) -/

def State.taskFields (s : State) : List Field :=
  [ (0x00, 64, s.nb.entry.toNat), (0x40, 16, s.nb.completion.toNat), (0x50, 8, s.nb.ruling), (0x58, 2, s.nb.remaining),
    (0x5A, 1, s.nb.version % 4 + flag s.nb.wide 2), (0x5B, 1, taskCode s.nb.task) ]
  ++ (strapFields s.strap).map (fun f => (0x60 + f.1, f.2))

def State.taskFile (s : State) : Mem := Mem.ofFields s.taskFields

/-! ## Tasks (R123 to R126) -/

def State.task? (s : State) : Option Item := s.nib.items.find? (·.narrow)

/-- The task entry is handed to the nib, and ruled at once where it can be (R123, R127). -/
def handOver (s : State) : State :=
  let f : Fetched := { narrow := true, q := 0, slot := 0, entry := s.nb.entry, stalled := false, retries := 0 }
  touch { s with
    nb := { s.nb with task := .admitting, ruling := 0, remaining := 0, slots := 0, slotNo := 0, inData := [], inLen := 0, outData := none, sent := 0 }
    nib := { s.nib with fetched := s.nib.fetched ++ [f] } }

/-- The task is ended with the aborted status: not ruled yet, or ruled (R126). -/
def abortTask (s : State) : State :=
  match s.nib.fetched.find? (·.narrow) with
  | some f => abortFetched f true s
  | none => match s.task? with | some i => finish i Fail.aborted 0 s | none => s

/-- All data of the task has arrived: a Write is past its cancel point and goes on at its lock, a Firmware Download at its turn (R125, R132,
R494, log entry 106). -/
def taskDataIn (s : State) : State :=
  let s := { s with nb := { s.nb with task := .busy } }
  match s.task? with
  | none => s
  | some i =>
    if i.wait ≠ .data then setItem { i with past := true } s
    else
      let data := s.nb.inData
      let s := { s with nb := { s.nb with inData := [], inLen := 0 } }
      if Entry.opcode i.entry = 0xA0 then startFirmware i { s with boot := { s.boot with held := s.boot.held ++ [(i.ruling, data)] } }
      else if s.gateRefuses i then gateStops i s
      else takeData i data s

/-- The last block has been confirmed: the command completes (R125, R133). -/
def taskDataOut (s : State) : State :=
  match s.task? with
  | none => s
  | some i =>
    if i.wait ≠ .data || s.nb.outData.isNone then s
    else
      let op := Entry.opcode i.entry
      let s := if op = 2 || op = 6 || op = 7 then
        { s with health := { s.health with readBytes := sat 64 (s.health.readBytes + Entry.length i.entry) } } else s
      succeed i i.result s

/-! ## Rows -/

/-- NARROW_ID_READY. -/
def execNarrowIdReady (s : State) : Host.Outcome State Fault Refusal :=
  answer s (onlyIf (s.running && s.islandState .hostN = .released) (fun s => { s with nb := { s.nb with idReady := true } }))

/-- SELECT_VERSION (R108, R109). -/
def execSelectVersion (tag : BitVec 3) (arg : BitVec 32) (s : State) : Host.Outcome State Fault Refusal :=
  answer s (onlyIf s.nbOn (fun s =>
    let v := bits arg.toNat 0 4
    let w := bit arg.toNat 4
    if s.nb.version ≠ 0 || v = 0 || 3 < v then illegal tag 0x01 s
    else if v = 3 && !s.n3Granted then respond tag 0x01 (2 * 16 + flag w 8) s
    else respond tag 0x01 (v + flag w 8) { s with nb := { s.nb with grantedNext := some (v, w) } }))

/-- VERSION_EFFECTIVE (R110). -/
def execVersionEffective (s : State) : Host.Outcome State Fault Refusal :=
  answer s (onlyIf s.nbOn (fun s =>
    match s.nb.grantedNext with
    | some (v, w) => { s with nb := { s.nb with version := v, wide := w, grantedNext := none } }
    | none => s))

/-- IDENTIFICATION_PHASE_ENTRY (R107). -/
def execIdentificationPhaseEntry (s : State) : Host.Outcome State Fault Refusal :=
  answer s (onlyIf (s.nbOn && s.nb.idNext) (fun s =>
    { s with nb := { s.nb with version := 0, wide := false, idNext := false, grantedNext := none } }))

/-- READ_STATUS (R116). -/
def execReadStatus (tag : BitVec 3) (_arg : BitVec 32) (s : State) : Host.Outcome State Fault Refusal :=
  answer s (onlyIf s.nbOn (fun s =>
    respond tag 0x02 (if s.nb.task = .dataIn || s.nb.task = .dataOut then s.nb.remaining else 0) s))

/-- WRITE_TASK_REGISTER (R121): only the task entry is writable. -/
def execWriteTaskRegister (tag : BitVec 3) (arg : BitVec 32) (s : State) : Host.Outcome State Fault Refusal :=
  answer s (taskFrame tag 0x03 (fun t => t = .idle || t = .done) (fun s =>
    let off := 2 * bits arg.toNat 0 8
    if off < 0x40 then respond tag 0x03 0 { s with nb := { s.nb with entry := Entry.put s.nb.entry off 2 (bits arg.toNat 16 16) } }
    else illegal tag 0x03 s))

/-- READ_TASK_REGISTER (R121): a word address beyond the file is an illegal argument. -/
def execReadTaskRegister (tag : BitVec 3) (arg : BitVec 32) (s : State) : Host.Outcome State Fault Refusal :=
  answer s (taskFrame tag 0x04 (fun _ => true) (fun s =>
    let off := 2 * bits arg.toNat 0 8
    if off < 0x100 then respond tag 0x04 (Mem.getLE 0 s.taskFile off 2) s else illegal tag 0x04 s))

/-- WRITE_TASK_BLOCK (R131). -/
def execWriteTaskBlock (tag : BitVec 3) (_arg : BitVec 32) (s : State) : Host.Outcome State Fault Refusal :=
  answer s (taskFrame tag 0x05 (fun t => t = .idle || t = .done) (fun s => respond tag 0x05 0 { s with nb := { s.nb with taskBlock := true } }))

/-- READ_TASK_BLOCK (R131). -/
def execReadTaskBlock (tag : BitVec 3) (_arg : BitVec 32) (s : State) : Host.Outcome State Fault Refusal :=
  answer s (taskFrame tag 0x06 (· ≠ .dataOut) (fun s => emit (blockOut s.nb.wide s.ddr 128 (Mem.slice 0 128 s.taskFile)) (respond tag 0x06 0 s)))

/-- The phase bit of the completion area reads 0 from Execute Task on (R122). -/
def clearPhase (c : BitVec 128) : BitVec 128 := c &&& ~~~(BitVec.ofNat 128 (2 ^ 112))

/-- EXECUTE_TASK (R123). -/
def execExecuteTask (tag : BitVec 3) (_arg : BitVec 32) (s : State) : Host.Outcome State Fault Refusal :=
  work (taskFrame tag 0x07 (fun t => t = .idle || t = .done) (fun s =>
    let s := handOver { s with nb := { s.nb with completion := clearPhase s.nb.completion, taskBlock := false } }
    ruleTask (respond tag 0x07 0 s))) s

/-- WRITE_DATA (R133). -/
def execWriteData (tag : BitVec 3) (arg : BitVec 32) (s : State) : Host.Outcome State Fault Refusal :=
  answer s (taskFrame tag 0x08 (· = .dataIn) (fun s =>
    let n := bits arg.toNat 0 13
    if n = 0 || 4096 < n then illegal tag 0x08 s
    else
      let grant := min n s.nb.remaining
      respond tag 0x08 grant { s with nb := { s.nb with slots := grant, slotNo := 0 } }))

/-- A token (R132): the slot's number modulo 8, and whether the block was accepted. -/
def tokenOf (slot : Nat) (ok : Bool) : Out := .token (BitVec.ofNat 7 (slot % 8 * 8 + (if ok then 2 else 1) * 2 + 1))

/-- The 64-B block of a Write Task Block. -/
def receiveTaskBlock (data : Mem) (ok : Bool) (s : State) : State :=
  let s := { s with nb := { s.nb with taskBlock := false } }
  if ok then emit (tokenOf 1 true) { s with nb := { s.nb with entry := BitVec.ofNat 512 (Mem.getLE 0 data 0 64) } }
  else emit (tokenOf 1 false) (checkError { s with nb := { s.nb with dataErr := true } })

/-- A block in a slot of a Write Data grant. -/
def receiveSlot (n : Nat) (data : Mem) (ok : Bool) (s : State) : State :=
  let k := s.nb.slotNo + 1
  let s := { s with nb := { s.nb with slots := s.nb.slots - 1, slotNo := k } }
  if ok then
    let s := { s with nb := { s.nb with
      inData := Mem.patch s.nb.inData (Mem.norm 0 n data) s.nb.inLen n, inLen := s.nb.inLen + n, remaining := s.nb.remaining - 1 } }
    let s := emit (tokenOf k true) s
    if s.nb.remaining = 0 then taskDataIn s else s
  else emit (tokenOf k false) (checkError { s with nb := { s.nb with dataErr := true } })

/-- HOST_DATA_BLOCK (R131, R132): every line's CRC16 is checked. -/
def execHostDataBlock (data : Mem) (crcs : List (BitVec 16)) (s : State) : Host.Outcome State Fault Refusal :=
  work (onlyIf s.nbOn (fun s =>
    if s.nb.taskBlock then
      let m := Mem.norm 0 64 data
      receiveTaskBlock m (crcs = blockChecks s.nb.wide 64 m) s
    else if s.nb.task = .dataIn && 0 < s.nb.slots then
      let n := min 4096 (Entry.length s.nb.entry - s.nb.inLen)
      let m := Mem.norm 0 n data
      receiveSlot n m (crcs = blockChecks s.nb.wide n m) s
    else s)) s

/-- Blocks of the data staged (R131). -/
def blocksOf (p : Payload) : Nat := (p.len + 4095) / 4096

/-- Blocks from number `k`, `n` of them, sent on the lines. -/
def sendBlocks (p : Payload) (k n : Nat) (s : State) : State :=
  (List.range n).foldl (fun s i =>
    let at_ := 4096 * (k + i)
    let len := min 4096 (p.len - at_)
    emit (blockOut s.nb.wide s.ddr len (Mem.slice at_ len p.data)) s) s

/-- READ_DATA (R133). -/
def readDataFrame (tag : BitVec 3) (arg : BitVec 32) (s : State) : State :=
  let n := bits arg.toNat 0 13
  let resend := bit arg.toNat 31
  if n = 0 || 4096 < n || (resend && s.nb.sent = 0) then illegal tag 0x09 s
  else if !resend && s.nb.remaining = 0 then
    taskDataOut (respond tag 0x09 0 { s with nb := { s.nb with task := .busy } })
  else
    match s.nb.outData with
    | none => respond tag 0x09 0 s
    | some p =>
      let again := if resend then 1 else 0
      let grant := min n (again + (blocksOf p - s.nb.sent))
      let first := s.nb.sent - again
      let s := sendBlocks p first grant (respond tag 0x09 grant s)
      { s with nb := { s.nb with sent := s.nb.sent + grant - again, remaining := s.nb.remaining - (grant - again) } }

def execReadData (tag : BitVec 3) (arg : BitVec 32) (s : State) : Host.Outcome State Fault Refusal :=
  work (taskFrame tag 0x09 (· = .dataOut) (readDataFrame tag arg)) s

/-- RESUME_TASK (R125): retry of the same entry under a new ruling, or skip. -/
def execResumeTask (tag : BitVec 3) (arg : BitVec 32) (s : State) : Host.Outcome State Fault Refusal :=
  work (taskFrame tag 0x0A (fun t => t = .frozen && !s.nb.contained) (fun s =>
    if bit arg.toNat 0 then respond tag 0x0A 0 { s with nb := { s.nb with task := .idle } }
    else ruleTask (respond tag 0x0A 0 (handOver s)))) s

/-- CANCEL_TASK (R126): in busy it acts as Cancel Command does on a fetched command. -/
def execCancelTask (tag : BitVec 3) (_arg : BitVec 32) (s : State) : Host.Outcome State Fault Refusal :=
  work (taskFrame tag 0x0B (fun t => t = .admitting || t = .dataIn || t = .dataOut || t = .busy) (fun s =>
    let past := s.nb.task = .busy && (match s.task? with | some i => i.past | none => false)
    respond tag 0x0B 0 (if past then s else abortTask s))) s

/-- The 128-B tuning block that goes out on each line (R134). -/
def tuningBytes : List Byte := (List.range 128).map (fun i => if i % 4 = 0 then 0xFF else if i % 4 = 1 then 0x00 else if i % 4 = 2 then 0x5A else 0xA5)

/-- SEND_TUNING_BLOCK (R134). -/
def execSendTuningBlock (tag : BitVec 3) (_arg : BitVec 32) (s : State) : Host.Outcome State Fault Refusal :=
  answer s (taskFrame tag 0x0C (fun t => t ≠ .dataIn && t ≠ .dataOut) (fun s =>
    let lines := if s.nb.wide then 4 else 1
    emit (.block (List.replicate lines (lineBlock s.ddr (tuningBytes.flatMap byteBits))) { len := 128, data := Mem.ofBytes 0 tuningBytes })
      (respond tag 0x0C 0 s)))

/-- The effect of a Bus Reset on the task and on the phase (R107, R126, R406). -/
def busResetEffect (s : State) : State :=
  let s := if s.nb.task = .admitting || s.nb.task = .dataIn || s.nb.task = .dataOut then abortTask s else s
  let s := if s.nb.task = .frozen && s.nb.contained then { s with nb := { s.nb with task := .idle, contained := false } } else s
  { s with nb := { s.nb with idNext := s.nb.version ≠ 0, grantedNext := none, taskBlock := false } }

/-- BUS_RESET (R118, R120). -/
def execBusReset (tag : BitVec 3) (_arg : BitVec 32) (s : State) : Host.Outcome State Fault Refusal :=
  work (onlyIf s.nbOn (fun s =>
    let s := busResetEffect s
    if s.nb.idReady then emit s.idBlock (respond tag 0x1F s.idString.length s) else respond tag 0x1F 0 s)) s

/-- A command frame that R114 rejects; a frame begins with a start bit of 0. -/
def malformed (frame : BitVec 52) : Bool :=
  let x := frame.toNat
  !bit x 51 && (bits x 1 7 ≠ frameCheck x || !bit x 50 || bits x 48 2 ≠ 2 || !bit x 0)

/-- The fields of a command frame that is correct: tag, index and argument (Table 05-3); none where the frame is malformed or has not begun. -/
def frameFields (frame : BitVec 52) : Option (BitVec 3 × BitVec 5 × BitVec 32) :=
  if frame.getLsbD 51 || malformed frame then none
  else some (frame.extractLsb' 45 3, frame.extractLsb' 40 5, frame.extractLsb' 8 32)

/-- The frame command of an index (Table 05-6). -/
def indexCommand (tag : BitVec 3) (index : BitVec 5) (arg : BitVec 32) : Instr :=
  match index.toNat with
  | 0x01 => .selectVersion tag arg
  | 0x02 => .readStatus tag arg
  | 0x03 => .writeTaskRegister tag arg
  | 0x04 => .readTaskRegister tag arg
  | 0x05 => .writeTaskBlock tag arg
  | 0x06 => .readTaskBlock tag arg
  | 0x07 => .executeTask tag arg
  | 0x08 => .writeData tag arg
  | 0x09 => .readData tag arg
  | 0x0A => .resumeTask tag arg
  | 0x0B => .cancelTask tag arg
  | 0x0C => .sendTuningBlock tag arg
  | 0x1F => .busReset tag arg
  | _ => .reservedIndexFrame tag index arg

/-- The command that 52 bits on NCMD give, first bit highest: a correct frame its frame command, a malformed one the row of R114; none where no
frame begins (R112, R114, R115, Table 05-6). -/
def frameCommand (frame : BitVec 52) : Option Instr :=
  match frameFields frame with
  | some (tag, index, arg) => some (indexCommand tag index arg)
  | none => if malformed frame then some (.malformedCommandFrame frame) else none

/-- MALFORMED_COMMAND_FRAME (R114). -/
def execMalformedCommandFrame (frame : BitVec 52) (s : State) : Host.Outcome State Fault Refusal :=
  answer s (onlyIf (s.running && s.rst.armedNarrow && malformed frame) (fun s =>
    checkError { s with nb := { s.nb with frameErr := true } }))

/-- RESERVED_INDEX_FRAME (R115). -/
def execReservedIndexFrame (tag : BitVec 3) (index : BitVec 5) (_arg : BitVec 32) (s : State) : Host.Outcome State Fault Refusal :=
  answer s (onlyIf (s.nbOn && (index.toNat = 0 || (0x0D ≤ index.toNat && index.toNat ≤ 0x1E))) (illegal tag index.toNat))

end Sys2Proof.Machine
end

