-- ==== Sys2Proof/Machine/Media.lean ====
section
/-! DEFINITION. The flash (chapters 09, 10, 11): die operations issued and ended, the retry ladder, failures of dies, channels and decoders,
and the module's own work on its bands. -/

namespace Sys2Proof.Machine

open Sys2Proof

/-- The channel engines work: in operation, and while a hold-up dump ends what is under way. -/
def State.mediaOn (s : State) : Bool := s.running || s.rst.phase = .dump

/-- The module's own work on its bands is under way: at I/O ready, outside the start modes that keep it off (R99, R466 to R468). -/
def State.ownWork (s : State) : Bool := s.running && s.rst.io && !s.recovery && !s.mismatch

/-! ## Issue (R26, R276) -/

/-- A program that the block state table refuses reaches no die: FC10 against the channel island, and the program is dispatched again once the
entries of the band have been loaded again; at contain the channel has failed (R276). -/
def refuseProgram (c : Nat) (o : DieOp) (s : State) : State :=
  let level := s.levelFor 10 2
  let s := recordStall 10 2 (0x20 + c) (0x20 + c) (reloadBlks o { s with dies := { s.dies with queue := s.dies.queue.erase o ++ [o] } })
  if !s.running then s else if 3 ≤ level then failChannel c s else ackReaction 10 (0x20 + c) s

/-- The command of a read whose access the gate refuses. -/
def State.gateFor (s : State) (o : DieOp) : Option Item :=
  match o.kind with
  | .read n => (match s.rd? n with
    | some r => if r.use = 0 then (s.item? r.ruling).filter s.gateRefuses else none
    | none => none)
  | _ => none

/-- A refused read: none of the command's die reads is issued (R383). -/
def refuseRead (i : Item) (s : State) : State :=
  let mine := s.dies.reads.filter (fun r => r.use = 0 && r.ruling = i.ruling)
  gateStops i { s with dies := { s.dies with queue := s.dies.queue.filter (fun q => !mine.any (fun r => q.kind = .read r.id)), reads := s.dies.reads.filter (· ∉ mine) } }

/-- The channel engine issues the next operation, where its gate lets it pass; before the first on a die in a start it issues a die reset, and waits (R26,
R276, R282, R381). -/
def dispatch (c : Nat) (s : State) : State :=
  match s.nextOp c with
  | none => s
  | some (o, suspends) =>
    if o.die ∈ s.dies.cold then
      modDie o.die (fun x => { x with resetWait := true }) { s with dies := { s.dies with cold := without o.die s.dies.cold } }
    else match s.gateFor o with
    | some i => refuseRead i s
    | none => if s.programAllowed o then issue o suspends (if o.kind.isRead then s else openMedia s) else refuseProgram c o s

/-- CHANNEL_DISPATCH. -/
def execChannelDispatch (c : Nat) (s : State) : Host.Outcome State Fault Refusal := answer s (onlyIf s.running (dispatch c))

/-- NESTED_SUSPEND_LIMIT (Table 10-7): the operation resumes whatever still waits; a read on the die ends first. -/
def execNestedSuspendLimit (die : Nat) (s : State) : Host.Outcome State Fault Refusal :=
  answer s (onlyIf (s.mediaOn && s.suspendPolicy = 2) (fun s => resumeDie die (modDie die (fun x => { x with owed := [] }) s)))

/-- MINIMUM_RUN_AFTER_RESUME_EXPIRY (R283). -/
def execMinimumRunAfterResumeExpiry (die : Nat) (s : State) : Host.Outcome State Fault Refusal :=
  answer s (onlyIf s.mediaOn (modDie die (fun x => { x with active := x.active.map (fun (o : DieOp) => { o with minRun := false }) })))

/-! ## Programs and erases that end (R277 to R281) -/

/-- More than 128 blocks of a die retired within 24 hours of power-on time: the die has failed (R281). -/
def checkDies (s : State) : State :=
  let recent := s.dies.grown.filter (fun x => s.health.powerOnMs < x.2 + 86400000)
  let s := { s with dies := { s.dies with grown := recent } }
  ((recent.map (·.1)).eraseDups.filter (fun d => 128 < (recent.filter (fun x => x.1 = d)).length && !s.dieDead d)).foldl (fun s d => dieFails d s) s

/-- A wordline program has ended on one die. -/
def programDone (p : Prog) (die : Nat) (ok : Bool) (plane : Nat) (s : State) : State :=
  if ok then
    let p := { p with wait := p.wait.filter (· ≠ die) }
    if p.wait = [] then programVerified p s else modProgs (fun q => q.id = p.id) (fun _ => p) s
  else checkDies (programFailed p die plane s)

/-- A rebuild that waited for programs of a band to end takes the band. -/
def reviveRebuild (s : State) : State := if s.running then rebuildNext s else s

/-- DIE_PROGRAM_COMPLETE: verify passes where the die reports pass and the read-back that Table 10-4 asks for is clean. -/
def execDieProgramComplete (die : Nat) (pass overLoop readBack : Bool) (plane : Nat) (s : State) : Host.Outcome State Fault Refusal :=
  work (onlyIf s.mediaOn (fun s =>
    match (s.die die).active with
    | some { kind := .program pg, .. } =>
      match s.prog? pg with
      | some p => reviveRebuild (programDone p die (pass && (!s.readBackDue p overLoop || readBack)) (plane % 4) (endDieOp die s))
      | none => endDieOp die s
    | _ => s)) s

/-- The blocks of a free band's first erase in segment 8, which counts no wear: the segment adds 10 units in all (R298). -/
def erasedUnworn (n die : Nat) (s : State) : State :=
  modBlks n (fun x => x.key / 4 = die && x.st ≠ .retired) (fun x => { x.erase with wear := x.wear }) s

/-- Every block of an open band has been erased: its programs may begin; of the band of segment 8, swatch A and a wordline of the test pattern (R298). -/
def reopened (n : Nat) (s : State) : State :=
  let s := modBand n (fun b => { b with erases := b.erases + 1 }) s
  if s.ftl.testBand = some (n, 0) then
    let s := launch n 0 3 [] (launch n swatchA 3 [] (modBand n (fun b => { b with nextWl := 1, nextPos := 240 }) s))
    { s with ftl := { s.ftl with testBand := some (n, 1) } }
  else s

/-- One die of a band has ended its erase; a block that fails is retired, and an open band with it given up (R279). -/
def eraseDone (n die : Nat) (pass : Bool) (plane : Nat) (s : State) : State :=
  match s.band? n with
  | none => s
  | some b =>
    if die ∉ b.eraseWait then s
    else
      let s := if s.ftl.testBand = some (n, 0) then erasedUnworn n die s else erasedOn n die s
      let s := modBand n (fun b => { b with eraseWait := b.eraseWait.filter (· ≠ die) }) (if pass then s else retireBlock n (4 * die + plane) s)
      let last := b.eraseWait.all (· = die)
      checkDies (
        if b.st = .opened then (if !pass then abandonBand n s else if last then reopened n s else s)
        else if last && b.st = .erasing then rebuildNext (checkWorn (erased n s))
        else s)

/-- DIE_ERASE_COMPLETE. -/
def execDieEraseComplete (die : Nat) (pass : Bool) (plane : Nat) (s : State) : Host.Outcome State Fault Refusal :=
  work (onlyIf s.mediaOn (fun s =>
    match (s.die die).active with
    | some { kind := .erase n, .. } => eraseDone n die pass (plane % 4) (endDieOp die s)
    | _ => s)) s

/-! ## Reads that end (R289, R290, R292 to R297) -/

/-- Page reads count for their block; the counts of Table 10-12 start a refresh. -/
def countRead (n key k : Nat) (s : State) : State :=
  let s := modBlks n (fun x => x.key = key) (fun x => { x with reads := sat 32 (x.reads + k) }) s
  match s.band? n with
  | some b => if b.blks.any (fun x => x.key = key && (if b.tlc then 500000 else 2000000) ≤ x.reads) then refreshBand n 3 s else s
  | none => s

/-- The classes of a block's zones after the sweep has measured class m on its swatch: m for the zones whose stamps lie within 48 hours of the swatch's
own age, and a class moved by the same offset for the others (R292). -/
def State.sweptZones (s : State) (b : Band) (x : Blk) (m : Nat) : List ZoneTh :=
  let aging : Nat → Nat := fun z => match b.stamps.find? (fun (y : Stamp) => y.zone = z) with | some y => y.aging | none => 0
  let near : Nat → Bool := fun z => aging z ≤ aging 0 + 2880 && aging 0 ≤ aging z + 2880
  x.zones.map (fun z =>
    let c := s.computedClass b x z.zone
    { z with learned := some (if near z.zone then m else min 63 (c + m - s.computedClass b x 0), c) })

/-- A probe of the sweep has ended: the classes of its block are set, and a class of 56 asks for a refresh (R292, R297). -/
def swept (p : Probe) (m : Nat) (s : State) : State :=
  let key := 4 * p.die + p.plane
  match s.band? p.band with
  | none => s
  | some b =>
    let s := modBlks p.band (fun x => x.key = key) (fun x => { x with zones := s.sweptZones b x m }) s
    match s.band? p.band with
    | some b => if b.blks.any (fun x => x.key = key && x.zones.any (fun z => 56 ≤ s.classOf b x z.zone)) then refreshBand p.band 3 s else s
    | none => s

/-- Class c moved by a step's offset, clamped (Table 10-11). -/
def stepClass (c step : Nat) : Nat :=
  match step with | 2 => min 63 (c + 1) | 3 => c - 1 | 4 => min 63 (c + 2) | 5 => min 63 (c + 3) | 6 => min 63 (c + 5) | _ => c

/-- The next step of the ladder after `k` and its class: a hard step whose class was tried is skipped; the soft steps read at the best class so far. -/
def nextStep (c best : Nat) (tried : List Nat) (k : Nat) : Nat × Nat :=
  match [2, 3, 4, 5, 6].find? (fun j => decide (k < j) && stepClass c j ∉ tried) with
  | some j => (j, stepClass c j)
  | none => (max 7 (k + 1), best)

/-- A die read of the ladder at a class (R293). -/
def readAt (r : Rd) (step c : Nat) (s : State) : State :=
  enqueue [{ die := r.die, cls := 0, kind := .read r.id, minRun := false }]
    (modRd r.id (fun x => { x with step := step, staged := false, tried := x.tried ++ [c], cls := 0 }) s)

/-- The die of a read can serve it no more, or not yet (R307, R309). -/
def State.dieAway (s : State) (d : Nat) : Bool := s.dieDead d || (s.die d).slow || !s.channelUp (dieChannel d)

/-- The next step begins: the probe of step 1, a die read of class 0, or reconstruction (R293, R306, R307). Which class was best so far is a free
value. A peer of a reconstruction has no step 9: it answers true where it is lost. -/
def climb (r : Rd) (s : State) : State × Bool :=
  let last := r.tried.getLastD 0
  let best := if 7 ≤ r.step then last else r.tried.getD ((Config.freeWord s.drawn).toNat % max 1 r.tried.length) last
  let t := nextStep (r.tried.headD 0) best r.tried r.step
  if r.use = 4 && (8 ≤ r.step || s.dieDead r.die) then (s, true)
  else if r.use ≠ 4 && (8 ≤ r.step || s.dieAway r.die) then (reconstruct r (s.dieAway r.die) s, false)
  else if r.step = 0 then
    (startProbe r.die (bandOfSlot r.slot) (r.key % 4) 0 (some r.id) false (modRd r.id (fun x => { x with step := 1, staged := false, cls := 0 }) s), false)
  else (readAt r t.1 t.2 (draw s), false)

/-- The probe of step 1 has measured class m: a read at it, or the next step where it has been tried. -/
def probed (id m : Nat) (s : State) : State :=
  match s.rd? id with
  | none => s
  | some r =>
    let s := modRd id (fun x => { x with probed := some m }) s
    if m ∈ r.tried then (climb r s).1 else readAt r 1 m s

/-- One read of a probe has ended, with the bit errors found. -/
def probeRead (p : Probe) (errors : Nat) (s : State) : State :=
  let found := p.found ++ [(p.todo.headD 0, errors)]
  let s := { s with dies := { s.dies with probes := s.dies.probes.filter (fun q => q.id ≠ p.id) } }
  match p.todo.tail with
  | _ :: _ =>
    enqueue [{ die := p.die, cls := p.cls, kind := .probe p.id, minRun := false }]
      { s with dies := { s.dies with probes := s.dies.probes ++ [{ p with todo := p.todo.tail, found := found }] } }
  | [] =>
    let m := match fewest found with | some x => x.1 | none => 0
    match p.rd with
    | some id => probed id m s
    | none => if p.test then testWork (swept p m s) else sweepDie p.die (swept p m s)

/-- DIE_READ_COMPLETE, of the oldest read in flight on the die: the codeword is in read staging, or a swatch has been read; the reads of a soft step
count each (Table 10-11). -/
def execDieReadComplete (die errors : Nat) (s : State) : Host.Outcome State Fault Refusal :=
  work (onlyIf s.mediaOn (fun s =>
    match (s.die die).active with
    | some { kind := .read id, .. } =>
      let s := endDieOp die s
      match s.rd? id with
      | some r => countRead (bandOfSlot r.slot) r.key (stepSenses r.step).length (modRd id (fun x => { x with staged := true }) s)
      | none => s
    | some { kind := .probe id, .. } =>
      let s := endDieOp die s
      match s.dies.probes.find? (fun p => p.id = id) with
      | some p => probeRead p errors (countRead p.band (4 * p.die + p.plane) 1 s)
      | none => s
    | _ => s)) s

/-- A read has reached step 9 by the ladder: its band is refreshed as class 2, and the block is retired then (Tables 10-5, 10-12). -/
def reachedLast (r : Rd) (s : State) : State :=
  if r.step = 9 && !r.recon && r.use ≠ 4 then
    refreshBand (bandOfSlot r.slot) 2 (modBand (bandOfSlot r.slot) (fun b => { b with retireAfter := withNat r.key b.retireAfter }) s)
  else s

/-- What a decode that matched says of its band: the class learned, for the band's blocks on the die (R294), and the refresh that Table 10-12 asks
for. -/
def learn (r : Rd) (corrected : Nat) (s : State) : State :=
  let n := bandOfSlot r.slot
  let cls := r.tried.getLastD 0
  let s := match s.band? n with
    | some b =>
      let z := b.zoneOf r.slot
      if 1 ≤ r.step && r.step ≤ 8 then
        let mark := fun (x : Blk) (y : ZoneTh) => { y with learned := some (cls, s.computedClass b x z) }
        modBlks n (fun x => x.key / 4 = r.die) (fun x => { x with zones := mapIf (fun y => y.zone = z) (mark x) x.zones }) s
      else s
    | none => s
  if r.step = 9 then reachedLast r s
  else if r.step = 7 || r.step = 8 then refreshBand n 2 (modBand n (fun b => { b with soft := withNat r.key b.soft }) s)
  else if 132 < corrected || 2 ≤ r.step || 56 ≤ cls then refreshBand n 3 s
  else s

/-- Capacity of the read cache in blocks (Table 09-4); one half and one quarter of the tables on the smaller variants (R244); the rows of 2 KiB that
replace others are taken from it (Table 15-3). -/
def State.cacheBlocks (s : State) : Nat :=
  let row := match s.profile with
    | 0 => (408, 512) | 1 => (379, 512) | 2 => (350, 512) | 3 => (408, 0) | 4 => (350, 0) | _ => (117, 512)
  let f := fun x => 256 * x * s.groups / 4
  256 * (1820 - 64) - f row.1 - f row.2 - f 8 - f 48 - (s.flt.dramRows.length + 1) / 2

/-- A block read by Read or Verify enters the read cache, unless a later write or release of its range has been admitted (R24, R245). -/
def fillCache (i : Item) (r : Rd) (s : State) : State :=
  let op := Entry.opcode i.entry
  let later := s.nib.items.any (fun j => i.ruling < j.ruling && (Entry.opcode j.entry = 1 || Entry.opcode j.entry = 4)
    && (match i.lock, j.lock with | some a, some b => a.overlaps b | _, _ => false))
  if (op = 2 || op = 5) && !later then
    { s with ftl := { s.ftl with cache := (r.block :: without r.block s.ftl.cache).take s.cacheBlocks } }
  else s

/-- A peer's codeword is in hand: once all are, their XOR stands ready for its CRC32C check (R306). -/
def peerDone (r : Rd) (s : State) : State :=
  let s := dropRd r.id s
  match r.parent with
  | some id => if s.dies.reads.any (fun x => x.parent = some id) then s else modRd id (fun x => { x with staged := true }) s
  | none => s

/-- A codeword is in hand: the command goes on, or the copy is programmed (R28, R185). -/
def codewordDone (r : Rd) (s : State) : State :=
  match r.use with
  | 0 =>
    let s := modRd r.id (fun x => { x with done := true }) s
    match s.item? r.ruling with
    | some i => readsDone r.ruling (fillCache i r s)
    | none => dropRd r.id s
  | 1 =>
    let s := dropRd r.id s
    match s.ftl.moves.find? (fun m => m.old = r.slot && m.stroke.isNone), s.slot? r.slot with
    | some m, some x => closeCopies (bandOfSlot r.slot) (copyOut m x s)
    | _, _ => s
  | 3 =>
    let s := dropRd r.id s
    match (s.ftl.moves.find? (fun m => m.old = r.slot)).bind (·.stroke) with
    | some k =>
      let olds := (s.ftl.moves.filter (fun m => m.stroke = some k)).map (·.old)
      if s.dies.reads.any (fun x => x.use = 3 && x.slot ∈ olds) then s else placeStroke k s
    | none => s
  | 4 => peerDone r s
  | 5 => mergeDone r.ruling (dropRd r.id s)
  | _ => dropRd r.id s

/-- The device block that a read names: its own, or the one that the codeword carries. -/
def State.blockRead (s : State) (r : Rd) : Nat :=
  if r.use = 0 || r.use = 5 then r.block else match s.slot? r.slot with | some x => x.cw.block | none => r.block

def mediaFault (r : Rd) (s : State) : State :=
  recordFault 4 3 (0x40 + r.die) (BitVec.ofNat 64 (s.blockRead r)) 2 s

/-- A copy that cannot be read is given up: its slot stays mapped. Of a rebuild, the first lost block alone records FC4 (R317). -/
def copyLost (r : Rd) (s : State) : State :=
  let n := bandOfSlot r.slot
  let rebuilds := s.ftl.emptying.any (fun e => e.band = n && e.kind = 4)
  let told := rebuilds && s.lops.list.any (fun o => isRebuild o.typ && o.state = 1 && o.lost)
  let s := { s with ftl := { s.ftl with moves := s.ftl.moves.filter (fun m => m.old ≠ r.slot) } }
  let s := modEmptying n (fun e => { e with lost := withNat r.slot e.lost }) s
  let s := if rebuilds then
      { s with lops := { s.lops with list := mapIf (fun o => isRebuild o.typ && o.state = 1) (fun o => { o with lost := true }) s.lops.list } }
    else s
  let s := closeCopies n s
  let s := if told then s else mediaFault r s
  if s.running then rebuildNext s else s

/-- A slot of a stroke that was copied as a whole is lost: the other slots of a band being emptied are copied one by one; a demotion is given up. -/
def strokeLost (r : Rd) (s : State) : State :=
  let k := (s.ftl.moves.find? (fun m => m.old = r.slot)).bind (·.stroke)
  let mine := s.ftl.moves.filter (fun m => k.isSome && m.stroke = k)
  let olds := mine.map (·.old)
  let s := { s with
    ftl := { s.ftl with moves := s.ftl.moves.filter (fun m => m.old ∉ olds) }
    dies := { s.dies with reads := s.dies.reads.filter (fun x => x.use ≠ 3 || x.slot ∉ olds) } }
  if s.ftl.emptying.any (fun e => e.band = bandOfSlot r.slot) then
    copyLost r ((mine.filter (fun m => m.old ≠ r.slot)).foldl (fun s m => startMove m.old m.cls none m.block s) s)
  else mediaFault r s

/-- Step 9 fails too: FC4, and the command, a read or a merge, fails with the media-uncorrectable status (R258, R295, R306). -/
def readLost (r : Rd) (s : State) : State :=
  match r.use with
  | 0 | 5 =>
    let s := mediaFault r s
    match s.item? r.ruling with
    | some i =>
      (match s.partOf i with
       | some p => failData i { status := 0x0B, detail := 0, cls := 4, block := some (hostBlock p i.entry (r.block - p.base)) } s
       | none => s)
    | none => s
  | 1 => copyLost r (dropRd r.id s)
  | 3 => strokeLost r (dropRd r.id s)
  | 6 => testFound (mediaFault r (dropRd r.id s))
  | _ => mediaFault r (dropRd r.id s)

/-! ## Decoders (R319) -/

/-- A decoder leaves the pool until the next reset; without any, FC10 is at the stop level. -/
def removeDecoder (d source : Nat) (s : State) : State :=
  let s := { s with dies := { s.dies with decoders := without d s.dies.decoders } }
  if s.dies.decoders = [] then recordLevel 10 2 5 0x0C 0xFF 2 s else recordFault 10 2 source 0xFF 2 s

/-- A codeword that another decoder had reported as decoded without its CRC32C now matches: the second within an hour removes that decoder. -/
def noteFalse (r : Rd) (decoder : Nat) (s : State) : State :=
  match r.falsely with
  | none => s
  | some x =>
    if x = decoder then s
    else
      let l := (s.dies.falseOk.filter (fun y => s.health.powerOnMs < y.2 + 3600000)) ++ [(x, s.health.powerOnMs)]
      let s := { s with dies := { s.dies with falseOk := l } }
      if 2 ≤ (l.filter (fun y => y.1 = x)).length && x ∈ s.dies.decoders then removeDecoder x (0x30 + x) s else s

/-- A peer that fails step 8 loses its own block and the one to be reconstructed (R306, R316). -/
def peerLost (r : Rd) (s : State) : State :=
  match r.parent.bind s.rd? with
  | some x => readLost x { s with dies := { s.dies with reads := s.dies.reads.filter (fun y => y.parent ≠ some x.id) } }
  | none => dropRd r.id s

/-- Whether a decode yields the codeword: its CRC32C matches, which an XOR page, a peer or one that patrol reads, has none of its own for; a reconstruction needs every
peer. -/
def State.yields (s : State) (r : Rd) (crcOk : Bool) : Bool :=
  let xor := match s.band? (bandOfSlot r.slot) with
    | some b => (r.use = 4 || r.use = 2) && xorDie b (wordlineOf b.tlc (r.slot % bandSlots)) = r.die
    | none => false
  !r.bad && (crcOk || xor) && (r.step ≠ 9 || s.peersThere r.slot r.die)

/-- A decode has ended: the codeword is in hand, or the read climbs, or it is lost. -/
def decoded (r : Rd) (decoder : Nat) (corrected : Option Nat) (crcOk : Bool) (s : State) : State :=
  match (if s.yields r crcOk then corrected else none) with
  | some n =>
    let s := ackReaction 10 0x0C (noteFalse r decoder s)
    if s.running then codewordDone r (learn r n s) else s
  | none =>
    let r := if corrected.isSome && r.step ≠ 9 then { r with falsely := some decoder } else r
    let s := modRd r.id (fun _ => r) s
    if 9 ≤ r.step then readLost r (reachedLast r s)
    else
      let t := climb r s
      if t.2 then peerLost r t.1 else t.1

/-- LDPC_DECODE_COMPLETE. -/
def execLdpcDecodeComplete (read decoder : Nat) (corrected : Option Nat) (crcOk : Bool) (s : State) : Host.Outcome State Fault Refusal :=
  work (onlyIf (s.running && decoder ∈ s.dies.decoders) (fun s =>
    match s.rd? read with
    | some r => if r.staged && !r.done then decoded r decoder corrected crcOk s else s
    | none => s)) s

/-- DECODER_TIMEOUT. -/
def execDecoderTimeout (decoder : Nat) (s : State) : Host.Outcome State Fault Refusal :=
  work (onlyIf (s.running && decoder ∈ s.dies.decoders) (removeDecoder decoder 0x0C)) s

/-! ## Dies and channels that fail (R281, R308, R309) -/

/-- DIE_READY_TIMEOUT: the first ends in a die reset, the second in the die found failed. -/
def execDieReadyTimeout (die : Nat) (s : State) : Host.Outcome State Fault Refusal :=
  work (onlyIf (s.running && (s.die die).active.isSome && !(s.die die).resetWait) (fun s =>
    if (s.die die).timeouts = 0 then modDie die (fun x => { x with resetWait := true, timeouts := 1 }) s else dieFails die s)) s

/-- DIE_RESET_WAIT_EXPIRY: the operation is repeated. -/
def execDieResetWaitExpiry (die : Nat) (s : State) : Host.Outcome State Fault Refusal :=
  answer s (onlyIf s.running (modDie die (fun x => { x with resetWait := false })))

/-- The class 0 reads queued for a die are served by reconstruction (R309). -/
def divert (d : Nat) (s : State) : State :=
  let ids := s.dies.queue.filterMap (fun q => if q.die = d && q.cls = 0 then (match q.kind with | .read r => some r | _ => none) else none)
  let mine := s.dies.reads.filter (fun r => r.id ∈ ids && r.use ≠ 4)
  let gone := fun (q : DieOp) => mine.any (fun r => q.kind = .read r.id)
  mine.foldl (fun s r => reconstruct r true s) { s with dies := { s.dies with queue := s.dies.queue.filter (fun q => !gone q) } }

/-- DIE_SLOW_DIVERSION. -/
def execDieSlowDiversion (die : Nat) (s : State) : Host.Outcome State Fault Refusal :=
  answer s (onlyIf (s.running && ((s.die die).active.isSome || (s.die die).resetWait)) (fun s =>
    divert die (modDie die (fun x => { x with slow := true }) s)))

/-- FAILURE_HOLDBACK_EXPIRY: one FC6 where every die of the channel is held back, else FC5 (R308). -/
def execFailureHoldbackExpiry (die : Nat) (s : State) : Host.Outcome State Fault Refusal :=
  work (onlyIf (s.running && (s.die die).holdback) (fun s =>
    let all := (List.range s.groups).all (fun g => (s.die (dieOf (dieChannel die) g)).holdback)
    recordFailure (if all then 6 else 5) die s)) s

/-- The dies of a channel whose identification read disagrees with the factory record have failed (R281). -/
def checkIds (c : Nat) (ids : List Nat) (s : State) : State :=
  (List.range s.groups).foldl (fun s g =>
    let d := dieOf c g
    if ids[g]?.all (· = s.unit.dieIds.getD d 0) || s.dieDead d || !s.running then s else dieFails d s) s

/-- INTERFACE_TRAINING_COMPLETE: the retry of a stall has then succeeded, and the dies' identification is read; a second failure fails the channel
(R281, R402). -/
def execInterfaceTrainingComplete (c : Nat) (ok : Bool) (ids : List Nat) (s : State) : Host.Outcome State Fault Refusal :=
  work (onlyIf (s.running && c < 16 && s.channelUp c) (fun s =>
    if ok then checkIds c ids (ackReaction 10 (0x20 + c) { s with dies := { s.dies with trainFailed := without c s.dies.trainFailed } })
    else if c ∉ s.dies.trainFailed then { s with dies := { s.dies with trainFailed := s.dies.trainFailed ++ [c] } }
    else failChannel c s)) s

/-! ## The module's own work (R255, R260 to R263, R296, R334, R451) -/

/-- Power hints 02h and 03h defer folding, demotion and collection above the reserve floor (Table 17-4). -/
def State.deferred (s : State) : Bool := (s.pwr.hint = 2 || s.pwr.hint = 3) && s.reserveFloor ≤ s.freeBands

/-- A host band that can be emptied: closed, and not being emptied. -/
def State.canEmpty (s : State) (b : Band) : Bool :=
  s.isHostBand b.n && (b.st = .closed || b.st = .closedEarly) && !s.programming b.n && !s.ftl.emptying.any (fun e => e.band = b.n)

/-- Slots of a band with valid data; a copy of the settled view counts until what superseded it is settled (R334). -/
def State.validCount (s : State) (n : Nat) : Nat :=
  let view := s.settledMap
  (s.ftl.slots.filter (fun x => bandOfSlot x.n = n && !x.cw.pad
    && ((s.map.blockOfSlot x.n).isSome || s.pendingSlot x.n || (view.blockOfSlot x.n).isSome))).length

/-- The member that comes first in a strict order. -/
def firstBy {α : Type} (before : α → α → Bool) (l : List α) : Option α :=
  l.foldl (fun acc x => match acc with | none => some x | some y => if before x y then some x else acc) none

/-- The victim of R260: bands closed early by an interruption first (Table 10-6), then the least valid data, then the earliest closed. -/
def State.victim (s : State) : Option Band :=
  let l := s.ftl.bands.filter (fun b => s.canEmpty b && !b.cache && (b.tlc || s.profile = 5 || b.st = .closedEarly))
  firstBy (fun a b =>
    let x := s.validCount a.n
    let y := s.validCount b.n
    if a.st = .closedEarly && b.st ≠ .closedEarly then true
    else if b.st = .closedEarly && a.st ≠ .closedEarly then false
    else x < y || (x = y && a.closedAt < b.closedAt)) l

/-- What follows the start of an emptying that has nothing to copy. -/
def emptied (s : State) : State := eraseReady (noteLogged s)

/-- GARBAGE_COLLECTION_START. -/
def execGarbageCollectionStart (s : State) : Host.Outcome State Fault Refusal :=
  work (onlyIf (s.ownWork && !s.deferred) (fun s =>
    let s := collectUpdate s
    match s.victim with
    | some b => if s.ftl.collecting then emptied (startEmptying b.n 0 3 s) else s
    | none => s)) s

/-- SETTLED_WAIT_EXPIRY: each band whose erase still waits on the settled view copies that view's slots too (R334). -/
def execSettledWaitExpiry (s : State) : Host.Outcome State Fault Refusal :=
  work (onlyIf s.ownWork (fun s =>
    let view := s.settledMap
    let late := s.ftl.emptying.filter (fun e => e.logged && s.durableTo e.logSeq && s.settled < e.dueStale && !e.waited)
    emptied (late.foldl (fun s e =>
      let s := modEmptying e.band (fun x => { x with logged := false, waited := true }) s
      let olds := (s.ftl.slots.filter (fun x => bandOfSlot x.n = e.band && !x.cw.pad && (view.blockOfSlot x.n).isSome)).map (·.n)
      olds.foldl (fun s n => startMove n e.cls none (s.blockAt n) s) s) s))) s

/-- Folding begins when no write has been admitted for 50 ms, or when the cache holds more bands than its size (R255). -/
def State.foldDue (s : State) : Bool := s.cacheSize < s.cacheBands || s.nib.lastWrite + 50 ≤ s.rst.timeMs

/-- An open cache band, where no closed one is left: its stripes are closed first, then the band itself. -/
def foldOpen (s : State) : State :=
  let holds := fun (b : Band) => s.liveSlots b.n ≠ [] || s.ftl.fill.any (fun x => bandOfSlot x.n = b.n)
  match s.ftl.bands.find? (fun b => b.cache && b.st = .opened && holds b) with
  | none => s
  | some b =>
    if s.ftl.progs.any (fun p => p.band = b.n) then s
    else if s.ftl.fill.any (fun x => bandOfSlot x.n = b.n) then closeBandStripes b.n 3 s
    else
      emptied (startEmptying b.n 1 3 (shutBand false b.n s))

/-- FOLD_START: the oldest cache band; bands that an interruption closed early come first (Table 10-6). -/
def execFoldStart (s : State) : Host.Outcome State Fault Refusal :=
  work (onlyIf (s.ownWork && s.hybrid && !s.deferred && s.foldDue) (fun s =>
    let l := s.ftl.bands.filter (fun b => s.canEmpty b && b.cache)
    let before := fun (a b : Band) => if a.st = .closedEarly && b.st ≠ .closedEarly then true
      else if b.st = .closedEarly && a.st ≠ .closedEarly then false else decide (a.closedAt < b.closedAt)
    match firstBy before l with
    | some b => emptied (startEmptying b.n 1 3 s)
    | none => foldOpen s)) s

/-- More hairline entries than so many Mi of the 16T variant, in proportion on the others (R241, R244). -/
def State.hairAbove (s : State) (mi : Nat) : Bool := mi * 1048576 * s.groups / 4 < s.map.hair.length

/-- Demotion in order of least recent write goes on from above 48 Mi hairline entries down to 40 Mi (R241). -/
def State.demotes (s : State) : Bool := s.hairAbove 48 || (s.ftl.demoting && s.hairAbove 40)

/-- The power-on time at which a write or release last touched a stroke; 0 where none has. -/
def State.touchedAt (s : State) (k : Nat) : Nat := match s.ftl.touched.find? (fun x => x.1 = k) with | some x => x.2 | none => 0

/-- A stroke is to be demoted (Table 09-3): it holds 24 hairline entries or more; it has been left alone for 10 min and the module is idle; or the map
holds too many entries and no other such stroke was written longer ago. -/
def State.demotionDue (s : State) (k : Nat) : Bool :=
  24 ≤ s.map.hairCount k
  || (s.touchedAt k + 600000 ≤ s.health.powerOnMs && s.nib.items = [] && s.nib.fetched = [])
  || (s.demotes && s.map.strokes.all (fun x => x.kind < 2 || s.touchedAt k ≤ s.touchedAt x.n))

/-- DEMOTION: the blocks of an overlaid or hairline-only stroke are read wherever they lie, class 2 above 60 Mi hairline entries (R241). -/
def execDemotion (stroke : Nat) (s : State) : Host.Outcome State Fault Refusal :=
  work (onlyIf (s.ownWork && !s.strokeOnly && !s.deferred) (fun s =>
    let due := s.demotionDue stroke
    let s := { s with ftl := { s.ftl with demoting := s.demotes } }
    match s.map.stroke? stroke with
    | none => s
    | some x =>
      let l := (List.range 32).filterMap (fun i => (s.map.lookup (32 * stroke + i)).map (fun n => (32 * stroke + i, n)))
      if !due || x.kind < 2 || l = [] || s.ftl.moves.any (fun m => m.stroke = some stroke || l.any (fun y => y.2 = m.old)) then s
      else l.foldl (fun s y => startMove y.2 (if s.hairAbove 60 then 2 else 3) (some stroke) y.1 s) s)) s

/-- The erase counts of the host bands: of those listed, and of the others, if there are any. -/
def State.eraseCounts (s : State) : List Nat :=
  let listed := s.ftl.bands.filter (fun b => s.isHostBand b.n)
  (listed.filter (fun b => b.st ≠ .dissolved)).map (·.erases) ++ (if listed.length < s.hostBands then [s.ftl.freshErases] else [])

/-- WEAR_LEVELLING: where the erase counts of the most-worn and the least-worn host band are 1,000 apart, the data of the least-worn moves (R263). -/
def execWearLevelling (s : State) : Host.Outcome State Fault Refusal :=
  work (onlyIf s.ownWork (fun s =>
    let l := s.eraseCounts
    let least := l.foldl min (l.headD 0)
    match s.ftl.bands.find? (fun b => s.canEmpty b && b.erases = least) with
    | some b => if least + 1000 ≤ l.foldl max 0 then emptied (startEmptying b.n 2 3 s) else s
    | none => s)) s

/-- The codewords that stand in a band, each with the die of its page: data and pad, the XOR pages, and in the system region all of the wordlines
programmed (R296, R305). -/
def State.codewords (s : State) (b : Band) : List (Nat × Nat) :=
  let at_ := fun (pos : Nat) => b.n * bandSlots + pos
  let xor := fun (k : Nat) => (at_ (k / 4 * 60 + k % 4), xorDie b (wordlineOf b.tlc (k / 4 * 60)))
  if s.isSystem b.n then
    let wls := min b.nextWl 768
    ((List.range (240 * wls)).filter (usable b)).map (fun pos => (at_ pos, Sys2Proof.Machine.dieOfSlot b (at_ pos))) ++ (List.range (16 * wls)).map xor
  else
    (s.ftl.slots.filter (fun x => bandOfSlot x.n = b.n)).map (fun x => (x.n, Sys2Proof.Machine.dieOfSlot b x.n))
      ++ (s.ftl.xors.filter (fun x => x.1 = b.n)).map (fun x => xor x.2.1)

/-- PATROL: every codeword of a band that holds valid data, or of a band of the system region, and a probe of its blocks; the module wakes for it
(R292, R296, R448). -/
def execPatrol (band : Nat) (s : State) : Host.Outcome State Fault Refusal :=
  work (onlyIf s.ownWork (fun s =>
    match s.band? band with
    | none => s
    | some b =>
      if s.liveSlots band = [] && !s.isSystem band then s
      else
        let s := if s.awake then s else wake s
        addSweep b.probed ((s.codewords b).foldl (fun s x => startRdOn x.2 0 0 x.1 3 2 s) s))) s

/-! ## Aging (R286) -/

/-- Fixed-point numbers of 48 fraction bits. -/
def fix (a b : Int) : Int := a * 2 ^ 48 / b

def fixMul (a b : Int) : Int := a * b / 2 ^ 48

/-- exp(x/16) by its power series, then squared four times. -/
def fixExp (x : Int) : Int :=
  let y := x / 16
  let series := (List.range 12).foldr (fun (k : Nat) acc => 2 ^ 48 + fixMul (y / ((k : Int) + 1)) acc) (2 ^ 48)
  (List.range 4).foldl (fun e _ => fixMul e e) series

/-- af(t) for a temperature in tenths of a degree: exp(12,766 × (1/313.15 − 1/(t + 273.15))). -/
def agingFactor (t : Int) : Int :=
  let kelvin := 10 * t + 27315
  if kelvin ≤ 0 then 0 else fixExp (fix (12766 * 100 * (kelvin - 31315)) (31315 * kelvin))

/-- One second at a temperature, in units of 2^-32 min. -/
def agingStep (t : Int) : Nat := (agingFactor t / (60 * 65536)).toNat

/-- AGING_CLOCK_TICK. -/
def execAgingClockTick (temps : List Int) (s : State) : Host.Outcome State Fault Refusal :=
  answer s (onlyIf s.running (fun s =>
    let l := (List.range s.dies.aging.length).map (fun d =>
      s.dies.aging.getD d 0 + (match temps[d]? with | some t => if s.dieFits d then agingStep t else 0 | none => 0))
    { s with dies := { s.dies with aging := l, temps := (List.range s.dies.temps.length).map (fun d => temps.getD d (s.dies.temps.getD d 250)) } }))

/-! ## The gate table's versions (R385) -/

/-- RULE_EPOCH_DRAIN_LIMIT: the module's own reads of an older epoch are dispatched again under the current one. -/
def execRuleEpochDrainLimit (s : State) : Host.Outcome State Fault Refusal :=
  work (onlyIf s.running (fun s =>
    let old := s.dies.reads.filter (fun r => r.use ≠ 0 && !r.done && r.epoch < s.nib.epoch)
    let again := old.filter (fun r => r.staged && !r.recon && r.step ≠ 9 && !r.bad)
    let s := old.foldl (fun s r => modRd r.id (fun x => { x with epoch := s.nib.epoch }) s) s
    again.foldl (fun s r =>
      enqueue [{ die := r.die, cls := r.cls, kind := .read r.id, minRun := false }] (modRd r.id (fun x => { x with staged := false }) s)) s)) s

end Sys2Proof.Machine
end

