-- ==== Sys2Proof/Machine/MapLog.lean ====
section
/-! DEFINITION. The map log (chapters 09 and 12): pages assembled, pages verified, checkpoints. -/

namespace Sys2Proof.Machine

open Sys2Proof

/-- The log is written: the map is there, in the start modes that use it. -/
def State.logOn (s : State) : Bool := s.running && s.rst.recovered && s.rst.io

/-- LOG_PAGE_FILL: 496 records, or fewer where persistence asks for a page (R247, R328). -/
def execLogPageFill (s : State) : Host.Outcome State Fault Refusal := work (onlyIf (s.logOn && s.pageDue && !s.pageWaits) (fun s => fillPage (openMedia s))) s

/-- LOG_PAGE_VERIFIED: the oldest page under way, once its program has passed verify (R277, R327, R331). -/
def execLogPageVerified (s : State) : Host.Outcome State Fault Refusal := work (onlyIf (s.logOn && s.pageThere) pageVerified) s

/-- CHECKPOINT_START (R248, R333). -/
def execCheckpointStart (s : State) : Host.Outcome State Fault Refusal :=
  work (onlyIf (s.logOn && s.log.cpWriting.isNone && s.checkpointDue) (fun s => beginCheckpoint (openMedia s))) s

end Sys2Proof.Machine
end

