-- ==== Sys2Proof/Machine/Fault.lean ====
section
/-! DEFINITION. Faults as they are reported (chapter 15): the reaction of each class, wire faults, stalls, watchdogs, scrubs, ALIVE and ACT. -/

namespace Sys2Proof.Machine

open Sys2Proof

/-- The collector records faults: in operation, and while a hold-up dump runs (R395, R409). -/
def State.collects (s : State) : Bool := s.rst.phase ≠ .off && s.rst.faultReleased

/-! ## Sources (Table 15-1, R396, R397) -/

/-- The island in which a source stands, where it has one that a local reset holds. -/
def sourceIsland (source : Nat) : Option Island :=
  if source = 0x02 then some .hostP
  else if source = 0x03 then some .hostN
  else if source = 0x05 then some .nib
  else if source = 0x06 then some .res
  else if source = 0x07 then some .ductus
  else if source = 0x08 then some .map
  else if source = 0x09 then some .par
  else if source = 0x0A then some .boot
  else if source = 0x0B then some .lig
  else if source = 0x0C || (0x30 ≤ source && source ≤ 0x37) then some .ldpc
  else if 0x10 ≤ source && source ≤ 0x19 then some .scribe
  else if 0x20 ≤ source && source ≤ 0x2F then some (.ch (Fin.ofNat 16 (source - 0x20)))
  else if 0x40 ≤ source && source ≤ 0x7F then some (.ch (Fin.ofNat 16 ((source - 0x40) / 4)))
  else none

/-- The island of a source is not in local reset (R20). -/
def State.islandUp (s : State) (source : Nat) : Bool := match sourceIsland source with | some i => s.islandState i = .released | none => true

/-- A source that the collector samples: not muted by a wire fault, its island out of local reset. -/
def State.sampled (s : State) (source : Nat) : Bool :=
  source ∉ s.flt.mutedSources && s.islandUp source

/-! ## Units taken out of service (R281, R319, R405) -/

/-- A channel, decoder or die is taken out of service alone. -/
def takeOut (source : Nat) (s : State) : State :=
  let s := { s with flt := { s.flt with out := withNat source s.flt.out } }
  if 0x20 ≤ source && source ≤ 0x2F then
    failChannel (source - 0x20) s
  else if 0x30 ≤ source && source ≤ 0x37 then
    let s := { s with dies := { s.dies with decoders := without (source - 0x30) s.dies.decoders } }
    if s.dies.decoders = [] then recordLevel 10 2 5 0x0C 0xFF 2 s else s
  else if 0x40 ≤ source && source ≤ 0x7F && !s.dieDead (source - 0x40) then dieFails (source - 0x40) s
  else s

/-- An aborted program is to be issued again: its wordline is the next one of the die's blocks. -/
def unissue (o : DieOp) (s : State) : State :=
  match o.kind with
  | .program pg => (match s.prog? pg with
    | some p => if p.wl < 768 then modBlks p.band (fun x => x.key / 4 = o.die) (fun x => { x with nextWl := p.wl }) s else s
    | none => s)
  | _ => s

/-- What a local reset of a channel island aborts: the operations of its dies, the suspended ones too, are dispatched again, and its class 0 reads are served by
reconstruction (R20, R29, R309). -/
def abortChannel (c : Nat) (s : State) : State :=
  (List.range s.groups).foldl (fun s g =>
    let d := dieOf c g
    let x := s.die d
    let ops := x.active.toList ++ x.more ++ x.susp
    let s := ops.foldl (fun s o => unissue o s) { s with dies := { s.dies with queue := ops ++ s.dies.queue } }
    divert d (setDie { x with active := none, more := [], susp := [], owed := [] } s)) s

/-- The island named enters local reset; its release and, for a channel, its training end the retry (R20, R85, Table 15-3). -/
def localReset (source : Nat) (s : State) : State :=
  match sourceIsland source with
  | none => s
  | some i =>
    let s := setIsland i .retried { s with flt := { s.flt with mutedSources := s.flt.mutedSources.filter (fun x => sourceIsland x ≠ some i) } }
    match i with | .ch n => abortChannel n.val s | _ => s

/-- FC10 against a source: retry in a local reset, contain by taking the unit out, or the stop that recordStall made of it. -/
def stallFault (source requester : Nat) (s : State) : State :=
  let level := s.levelFor 10 2
  let s := recordStall 10 2 source requester s
  if !s.running then s
  else if 3 ≤ level then takeOut source s
  else if source = 0x01 then { s with flt := { s.flt with out := withNat 0x01 s.flt.out } }
  else localReset source s

/-- FC13 against a source, which is not sampled until its island has been reset (R396). -/
def wire (source : Nat) (s : State) : State :=
  let s := recordStall 13 3 source 0xFF { s with flt := { s.flt with mutedSources := withNat source s.flt.mutedSources } }
  if s.running then takeOut source s else s

/-! ## Memories (R348, R350, R406, R412) -/

/-- The staged block of a write is poisoned where its data is still to be programmed: the flag set, data of zeros (R348). -/
def poisonStaged (ruling block : Nat) (s : State) : State :=
  let hit := fun (x : Staged) => x.ruling = ruling && x.block = block && !x.verified
  let slots := (s.res.staged.filter hit).filterMap (·.placed)
  let bad := fun (x : Slot) => if x.n ∈ slots then { x with cw := { x.cw with poisoned := true, data := [] } } else x
  { s with
    res := { s.res with staged := mapIf hit (fun x => { x with poisoned := true, data := [] }) s.res.staged }
    ftl := { s.ftl with fill := s.ftl.fill.map bad, progs := s.ftl.progs.map (fun (p : Prog) => { p with slots := p.slots.map bad }) } }

/-- The map words of a stroke are lost: its blocks are poisoned, under the highest ruling assigned (R350). -/
def poisonStroke (k : Nat) (s : State) : State :=
  let r := s.nib.next - 1
  let part := fun (b : Nat) => match s.map.parts.find? (fun p => p.base ≤ b && b < p.base + p.size) with | some p => p.id | none => 0
  let blocks := ((List.range 32).map (32 * k + ·)).filter (fun b => (s.staged? b).isNone)
  let new := blocks.map (fun b =>
    ({ ruling := r, part := part b, hair := 0, block := b, stream := 0, epoch := 0, poisoned := true, placed := none, verified := false, data := [] } : Staged))
  placeWrite r { s with res := { s.res with staged := s.res.staged ++ new } }

/-- A contained queue pair: nothing more is fetched, and its commands before their cancel point complete with the contained status (R406). -/
def containPair (q : Nat) (s : State) : State :=
  let s := modPair q (fun p => { p with contained := true }) s
  let items := s.nib.items.filter (fun i => !i.narrow && i.q = q && !i.past)
  let fetched := s.nib.fetched.filter (fun f => !f.narrow && f.q = q)
  let s := items.foldl (fun s i => failData i (Fail.of 0x14) s) s
  fetched.foldl (fun s f => complete (Ending.ofFetched s f) (Fail.of 0x14) 0 { s with nib := { s.nib with fetched := s.nib.fetched.erase f } }) s

/-- The contained task: frozen, its command before the cancel point fails with the contained status (R406). -/
def containTask (s : State) : State :=
  let s := match s.nib.fetched.find? (·.narrow) with
    | some f => complete (Ending.ofFetched s f) (Fail.of 0x14) 0 { s with nib := { s.nib with fetched := s.nib.fetched.erase f } }
    | none => match s.task? with
      | some i => if i.past then s else failData i (Fail.of 0x14) s
      | none => s
  { s with nb := { s.nb with task := .frozen, contained := true } }

/-- The failing block as the host names it (Table 08-7). -/
def State.hitBlock (s : State) (i : Item) (b : Nat) : Option Nat := (s.partOf i).map (fun p => hostBlock p i.entry (b - p.base))

/-- The contain action of FC1 and FC3 on what the bad word held (Table 15-3). -/
def wordLost (cls : Nat) (hit : Hit) (s : State) : State :=
  match hit with
  | .write r b =>
    (match s.item? r with
     | some i => if i.past then poisonStaged r b s else finish i { Fail.of 0x0A with cls := cls, block := s.hitBlock i b } 0 s
     | none => poisonStaged r b s)
  | .read r b => (match s.item? r with
      | some i => if i.past then s else failData i { Fail.of 0x0A with cls := cls, block := some b } s
      | none => s)
  | .pair q => containPair q s
  | .task => containTask s
  | .stroke k ok => if ok then s else poisonStroke k s
  | .cache b => { s with ftl := { s.ftl with cache := without b s.ftl.cache } }
  | .table => { s with ftl := { s.ftl with bands := s.ftl.bands.map forgetClasses } }
  | _ => s

/-- A word of control state (Table 15-4): the report says so, or the SRAM is scribe SRAM or FAULT's own. -/
def controlWord (cls source : Nat) (hit : Hit) : Bool := hit = .control || (cls = 1 && (source = 0 || (0x10 ≤ source && source ≤ 0x19)))

/-- The contain action of a corrected word: its row is remapped, in an SRAM to one of the 8 spare rows of its macro of 1 MiB. Where none is left the action
has not succeeded: a further fault is recorded (Table 15-3, R402). -/
def remapRow (cls source : Nat) (detail : BitVec 64) (s : State) : State :=
  let a := detail.toNat
  if cls = 2 then { s with flt := { s.flt with dramRows := a / 2048 :: s.flt.dramRows } }
  else if (s.flt.sramRows.filter (fun r => r / 1024 = a / 1048576)).length < 8 then { s with flt := { s.flt with sramRows := a / 1024 :: s.flt.sramRows } }
  else recordFault cls 1 source detail 2 s

/-- FC0 to FC3: a corrected word is written back, and its row remapped at contain; an uncorrectable word loses what it held. -/
def memoryFault (cls source : Nat) (detail : BitVec 64) (hit : Hit) (s : State) : State :=
  if cls = 0 || cls = 2 then
    let level := s.levelFor cls 1
    let s := recordFault cls 1 source detail 2 s
    if !s.running || s.flt.stopping then s
    else if level ≤ 2 then ackReaction cls source s
    else remapRow cls source detail s
  else
    let s := recordFault cls (if controlWord cls source hit then 5 else 3) source detail 2 s
    if s.running then wordLost cls hit s else s

/-! ## The other classes -/

/-- FC14 of the debug port: at contain the unlock is revoked and DBGUNLK refused (Table 15-3). -/
def debugFault (detail : BitVec 64) (s : State) : State :=
  let level := s.levelFor 14 1
  let s := recordFault 14 1 0x0F detail 2 s
  if !s.running then s
  else if level ≤ 2 then ackReaction 14 0x0F s
  else { s with dbg := { s.dbg with unlocked := false, scope := 0, refused := true } }

/-- A supply out of its range: FC12 at the safe level (R399). -/
def supplyFault (rail mv : Nat) (s : State) : State :=
  recordFault 12 4 0x0D (BitVec.ofNat 64 (rail + mv % 65536 * 65536)) 2 { s with sup := { s.sup with inRange := false } }

/-- A scribe core leaves service; with fewer than 2 the module stops (R318). -/
def retireCore (core : Nat) (s : State) : State :=
  let s := { s with flt := { s.flt with cores := without core s.flt.cores } }
  if s.flt.cores.length < 2 then recordLevel 15 2 5 (0x10 + core) (BitVec.ofNat 64 core) 2 s else s

/-- FC15 of a core: it is reset and its item dispatched again, or it is retired at contain or at its third reset within an hour (R318, R410). -/
def coreFault (core : Nat) (s : State) : State :=
  let level := s.levelFor 15 2
  let s := recordFault 15 2 (0x10 + core) (BitVec.ofNat 64 core) 2 s
  if !s.running then s
  else
    let l := (s.flt.coreResets.filter (fun x => s.health.powerOnMs < x.2 + 3600000)) ++ [(core, s.health.powerOnMs)]
    let s := { s with flt := { s.flt with coreResets := l } }
    if 3 ≤ level then retireCore core s
    else
      let s := ackReaction 15 (0x10 + core) s
      if 3 ≤ (l.filter (fun x => x.1 = core)).length then retireCore core s else s

/-- FC7 outside a command's own operation: at contain the download is withdrawn and its command fails (Table 15-3). -/
def flashFault (source : Nat) (detail : BitVec 64) (s : State) : State :=
  let level := s.levelFor 7 2
  let s := recordFault 7 2 source detail 2 s
  if s.running && 3 ≤ level && s.boot.dl.isSome then failBoot (dropDownload s) else s

/-- PS0 or PS1, as the step in force has it (Table 17-2). -/
def powerOfStep (s : State) : State :=
  if s.awake then { s with pwr := { s.pwr with ps := if 2 ≤ s.effectiveStep then 1 else 0 } } else s

/-- FC11 as a report: contain, or from 110 degrees on the safe level and the thermal safe state (Tables 15-3, 15-4, R458). -/
def thermalFault (source : Nat) (detail : BitVec 64) (s : State) : State :=
  if 1100 ≤ detail.toInt then recordFault 11 4 source detail 2 (powerOfStep { s with pwr := { s.pwr with thermalSafe := true } })
  else recordFault 11 3 source detail 2 s

/-- FC4 as a report: a CRC32C that does not match after decode fails the read with the data-integrity status (R21). -/
def mediaReport (source : Nat) (detail : BitVec 64) (hit : Hit) (s : State) : State :=
  let s := recordFault 4 3 source detail 2 s
  match hit with
  | .read _ _ | .write _ _ => if s.running then wordLost 4 hit s else s
  | _ => s

/-- The reaction of each class (Table 15-3). -/
def react (source cls : Nat) (detail : BitVec 64) (hit : Hit) (s : State) : State :=
  match cls with
  | 0 | 1 | 2 | 3 => memoryFault cls source detail hit s
  | 4 => mediaReport source detail hit s
  | 5 => (match hit with
      | .die d => if s.running && s.dieFits d && !s.dieDead d then dieFails d s else s
      | _ => s)
  | 6 => (match hit with
      | .channel c => if s.running && c < 16 && c ∉ s.rec_.failedChannels then failChannel c s else s
      | _ => s)
  | 7 => flashFault source detail s
  | 8 => linkFault (detail.setWidth 32) (emit .retrain) s
  | 9 => recordHandled 9 1 source 0 s
  | 10 => if source = 0x04 then recordLevel 10 5 5 0x04 0xFF 2 s else stallFault source (detail.toNat % 256) s
  | 11 => thermalFault source detail s
  | 12 => supplyFault (detail.toNat % 256) (bits detail.toNat 16 16) s
  | 13 => wire source s
  | 14 => (match hit with
      | .gate p w r => gateFault source p w r s
      | _ => debugFault detail s)
  | _ => if source = 0x1A then recordLevel 15 5 5 0x1A 0x1A 1 s else coreFault (source - 0x10) s

/-! ## Rows -/

/-- FAULT_REPORT (R395): a class that exists, from a source that is sampled. -/
def execFaultReport (source cls : Nat) (detail : BitVec 64) (hit : Hit) (s : State) : Host.Outcome State Fault Refusal :=
  work (onlyIf (s.collects && cls < 16 && s.sampled source) (react source cls detail hit)) s

/-- WIRE_FAULT (R396). -/
def execWireFault (source : Nat) (s : State) : Host.Outcome State Fault Refusal :=
  work (onlyIf (s.collects && s.sampled source) (wire source)) s

/-- ISLAND_STALL: of a crossing between islands of which neither is in local reset, which would have ended it (R18, R19, R20). -/
def execIslandStall (source requester : Nat) (s : State) : Host.Outcome State Fault Refusal :=
  work (onlyIf (s.collects && s.sampled source && s.islandUp requester) (stallFault source requester)) s

/-- LOCKSTEP_DISAGREEMENT (R413). -/
def execLockstepDisagreement (s : State) : Host.Outcome State Fault Refusal := answer s (onlyIf s.collects (recordLevel 10 5 5 0x04 0xFF 2))

/-- SAFE_LEVEL_END: both supplies have stayed in range for 100 ms; the level that FC12 raised ends where it is acknowledged (R408). -/
def execSafeLevelEnd (s : State) : Host.Outcome State Fault Refusal :=
  work (onlyIf s.running (fun s =>
    let s := { s with sup := { s.sup with inRange := true } }
    if .supply ∈ s.flt.safe && !s.flt.unack.any (fun u => u.cls = 12 && u.level = 4) then
      aliveUpdate (addNote 0x07 0 { s with flt := { s.flt with safe := s.flt.safe.filter (· ≠ .supply) } })
    else s)) s

/-- SCRIBE_WATCHDOG_EXPIRY (R410). -/
def execScribeWatchdogExpiry (core : Nat) (s : State) : Host.Outcome State Fault Refusal :=
  work (onlyIf (s.collects && core ∈ s.flt.cores) (coreFault core)) s

/-- DEVICE_WATCHDOG_EXPIRY: the timer runs from the release of the order-2 islands (R411). -/
def execDeviceWatchdogExpiry (s : State) : Host.Outcome State Fault Refusal :=
  answer s (onlyIf (s.collects && s.ordersDone 2) (recordLevel 15 5 5 0x1A 0x1A 1))

/-- BROWN_OUT (R399, R479). -/
def execBrownOut (millivolts : Nat) (s : State) : Host.Outcome State Fault Refusal :=
  work (onlyIf (s.running && s.sup.brownArmed) (supplyFault 0 millivolts)) s

/-- VCCQ_OUT_OF_RANGE (R37). -/
def execVccqOutOfRange (millivolts : Nat) (s : State) : Host.Outcome State Fault Refusal :=
  work (onlyIf (s.running && !vccqInRange s.strap.vccq18 millivolts) (supplyFault 1 millivolts)) s

/-- Where a scrubbed address stands (Table 15-1): DRAM, scribe SRAM, or the nib's tables. -/
def scrubSource (dram : Bool) (address : Nat) : Nat := if dram then 0x08 else if address < 0x200000 then 0x10 else 0x05

/-- MEMORY_SCRUB (R412). -/
def execMemoryScrub (dram : Bool) (address wrongBits : Nat) (hit : Hit) (s : State) : Host.Outcome State Fault Refusal :=
  work (onlyIf (s.running && wrongBits ≠ 0) (fun s =>
    let cls := (if dram then 2 else 0) + (if wrongBits = 1 then 0 else 1)
    memoryFault cls (scrubSource dram address) (BitVec.ofNat 64 address) hit s)) s

/-- ALIVE_EDGE (R418). -/
def execAliveEdge (s : State) : Host.Outcome State Fault Refusal :=
  answer s (onlyIf (s.lands.alive ≠ .low) (fun s => { s with lands := { s.lands with aliveHigh := !s.lands.aliveHigh } }))

/-- ACT_HOLD_EXPIRY (R56). -/
def execActHoldExpiry (s : State) : Host.Outcome State Fault Refusal :=
  answer s (onlyIf s.lands.act (fun s => actUpdate { s with lands := { s.lands with actHeld := true } }))

end Sys2Proof.Machine
end

