-- ==== Sys2Proof/Machine/Supply.lean ====
section
/-! DEFINITION. The input lands and the hold-up bank (chapters 02, 12, 19): the ejection warning, the switch, the bank. -/

namespace Sys2Proof.Machine

open Sys2Proof

/-- A write that has not reached its cancel point when a warning is ruled (R345). -/
def unreached (i : Item) : Bool := Entry.opcode i.entry = 1 && !i.past

/-- The warning is ruled: writes before their cancel point are aborted, and the reservoir is drained (R345). It ends idleness (R447). -/
def warn (s : State) : State :=
  let s := if s.awake then touch s else wake s
  let t := ruleEvent s
  let s := { t.1 with sup := { t.1.sup with warning := some t.2, draining := true } }
  drainFill ((s.nib.items.filter unreached).foldl (fun s i => abortItem i true s) s)

/-- EJECTION_WARNING: a fall of EJECTn that stood high before; one warning stands until the next reset (R46). -/
def execEjectionWarning (s : State) : Host.Outcome State Fault Refusal :=
  work (onlyIf (s.running && s.ejectUsed && s.sup.ejectArmed && s.sup.warning.isNone) warn) s

/-- EJECTN_RISE (R46). -/
def execEjectnRise (s : State) : Host.Outcome State Fault Refusal :=
  answer s (onlyIf (s.running && s.ejectUsed) (fun s => { s with sup := { s.sup with ejectArmed := true } }))

/-- WPSW_PIN_EVENT: a new level takes a ruling; the card is capped by the switch while it is low (R44, R178, R387). -/
def execWpswPinEvent (low : Bool) (s : State) : Host.Outcome State Fault Refusal :=
  answer s (onlyIf (s.running && s.sup.wpswLow != low) (fun s =>
    let t := ruleEvent s
    { t.1 with sup := { t.1.sup with wpswLow := low } }))

/-- The bank is charged: hold-up fitted, outside minimal recovery mode (R50, R99). -/
def State.bankUsed (s : State) : Bool := s.running && s.holdupFitted && !s.recovery

/-- VHU stands above a threshold of Table 19-9: certainly from its maximum on and never below its minimum; between the two the module decides (a
free value, log entry 113). -/
def State.above (s : State) (least most mv : Nat) : Bool := most ≤ mv || (least ≤ mv && Config.freeBool s.drawn)

/-- BANK_READY: the bank is ready at or above 4.75 V, within the threshold's tolerance (R50, Table 19-9). -/
def execBankReady (millivolts : Nat) (s : State) : Host.Outcome State Fault Refusal :=
  answer s (onlyIf s.bankUsed (fun s =>
    draw (if s.above 4700 4800 millivolts then { s with sup := { s.sup with bank := .ready, vhuMv := millivolts } } else s)))

/-- BANK_READY_LOST: at or below 4.60 V, within the threshold's tolerance, the bank charges again (R487). -/
def execBankReadyLost (millivolts : Nat) (s : State) : Host.Outcome State Fault Refusal :=
  answer s (onlyIf (s.bankUsed && s.sup.bank = .ready) (fun s =>
    draw (if s.above 4550 4650 millivolts then s else { s with sup := { s.sup with bank := .charging, vhuMv := millivolts } })))

/-- BANK_FAULT_TIMEOUT (R487). -/
def execBankFaultTimeout (millivolts : Nat) (s : State) : Host.Outcome State Fault Refusal :=
  answer s (onlyIf (s.bankUsed && s.sup.bank ≠ .ready) (fun s => { s with sup := { s.sup with bank := .fault, vhuMv := millivolts } }))

end Sys2Proof.Machine
end

