-- ==== Sys2Proof/Machine/Debug.lean ====
section
/-! DEFINITION. The debug port (R390 to R394): the address register, debug accesses under the regions' locks, the unlock, and EXTEST. -/

namespace Sys2Proof.Machine

open Sys2Proof

/-- The port is active (Table 03-4, R69, R390). -/
def State.portOn (s : State) : Bool := s.running && s.debugOn

/-- The test instructions (Table 14-4). -/
inductive TestInstr where
  | idcode | sample | extest | dbgaddr | dbgdata | dbgstat | dbgchal | dbgunlk | bypass
deriving DecidableEq, Repr

/-- The instruction of an opcode of 5 bits; an unlisted one acts as BYPASS (R390). -/
def testInstr (op : BitVec 5) : TestInstr :=
  match op.toNat with
  | 1 => .idcode | 2 => .sample | 3 => .extest | 8 => .dbgaddr | 9 => .dbgdata | 10 => .dbgstat | 12 => .dbgchal | 13 => .dbgunlk | _ => .bypass

/-- Where the table offers an instruction: EXTEST after an unlock with scope bit 1, DBGUNLK until three failures. -/
def State.testOffered (s : State) (i : TestInstr) : Bool :=
  match i with
  | .extest => s.dbg.unlocked && s.dbg.scope.getLsbD 1
  | .dbgunlk => !s.dbg.refused && s.dbg.fails < 3
  | _ => true

/-- The data register of IDCODE: version 1, part 6400h, manufacturer code 535h. -/
def idCode : BitVec 32 := 0x16400A6B

/-- The data register of DBGSTAT. -/
def State.dbgStat (s : State) : Nat :=
  flag s.dbg.unlocked 0 + (if s.dbg.unlocked then 2 * s.dbg.scope.toNat else 0) + flag s.dbg.met 3 + min 3 s.dbg.fails * 16

/-- The regions of Table 14-5. -/
inductive Region where
  | memory     -- scribe SRAM, reservoir, read staging, DRAM
  | bootFlash
  | status     -- island status, fault collector, blotter, AON
  | locked
deriving DecidableEq, Repr

def within (a lo n : Nat) : Bool := lo ≤ a && a < lo + n

def regionOf (a : Nat) : Region :=
  if within a 0x000000000 0x200000 || within a 0x001000000 0x1000000 || within a 0x002000000 0x400000
    || within a 0x800000000 (1820 * 1048576) then .memory
  else if within a 0x010000000 0x805000 then .bootFlash
  else if within a 0x020000000 0x100000 || within a 0x020100000 0x1000 then .status
  else .locked

/-- A read is permitted: always of boot flash and status, of the memories after an unlock (bit 0, and with it bit 1). -/
def State.mayRead (s : State) (r : Region) : Bool :=
  match r with | .locked => false | .memory => s.dbg.unlocked && s.dbg.scope ≠ 0 | _ => true

/-- A write is permitted: of the memories, after an unlock with scope bit 1. -/
def State.mayWrite (s : State) (r : Region) : Bool := r = .memory && s.dbg.unlocked && s.dbg.scope.getLsbD 1

/-- DBGADDR: bits [1:0] are taken as 00b. -/
def execDbgaddr (value : BitVec 36) (s : State) : Host.Outcome State Fault Refusal :=
  answer s (onlyIf s.portOn (fun s => { s with dbg := { s.dbg with addr := value.toNat / 4 * 4 } }))

/-- A swap slot's bytes as the record in it gives them (Table 13-7); an erased slot reads FFh. -/
def swapByte (r : Option SwapRec) (off : Nat) : Byte :=
  match r with
  | none => 0xFF
  | some x =>
    let body := Mem.ofFields [(0x000, 4, 0x31505753), (0x004, 2, 1), (0x008, 8, x.seq), (0x010, 1, if x.active = .b then 1 else 0),
      (0x011, 1, flag x.trial 0), (0x012, 1, x.revoked.toNat), (0x014, 4, x.floor), (0x018, 1, x.cause)]
    let check := crc32c (Mem.bytes 0 body 0xFFC)
    if 0xFFC ≤ off then BitVec.ofNat 8 (check / 256 ^ (off - 0xFFC)) else Mem.get 0 body off

/-- A byte of the boot flash by its address (Table 13-1). -/
def State.flashByte (s : State) (a : Nat) : Byte :=
  if a < 0x400000 then Mem.get 0xFF s.boot.bankA.bytes a
  else if a < 0x800000 then Mem.get 0xFF s.boot.bankB.bytes (a - 0x400000)
  else if a < 0x801000 then s.calibrationRow (a - 0x800000)
  else if a < 0x803000 then s.identityRow (a - 0x801000)
  else if a < 0x804000 then swapByte s.boot.swap0 (a - 0x803000)
  else swapByte s.boot.swap1 (a - 0x804000)

/-- The bank of a boot flash address erases or programs (R354, R392); the information array counts as a third bank. -/
def State.flashBusy (s : State) (a : Nat) : Bool :=
  if a < 0x400000 then s.boot.swapWork.isNone && s.boot.busy = some .a
  else if a < 0x800000 then s.boot.swapWork.isNone && s.boot.busy = some .b
  else s.boot.swapWork.isSome

/-- A word of an SRAM that the reset has cleared and nothing has written since: scribe SRAM below the loader's area until the image is copied, and the
reservoir and read staging until the start fetches from the host (Table 04-4). -/
def State.stillClear (s : State) (a : Nat) : Bool :=
  (within a 0x000000000 0x1C0000 && !s.rst.imageRuns) || ((within a 0x001000000 0x1000000 || within a 0x002000000 0x400000) && !s.rst.admin)

/-- The word that a permitted debug read finds: boot flash by its content, a word written through the port as written, an SRAM still clear as 0; what
the firmware and the collector hold there is a free value (log entry 5). -/
def State.debugWord (s : State) (a : Nat) : Nat :=
  match regionOf a with
  | .bootFlash => (List.range 4).foldr (fun i acc => (s.flashByte (a - 0x10000000 + i)).toNat + 256 * acc) 0
  | _ => (((s.dbg.written.find? (fun x => x.1 = a)).map (·.2)).getD (if s.stillClear a then 0 else Config.freeWord s.drawn)).toNat

/-- An access that its region does not permit: DBGSTAT bit 3, and FC14 (R392). -/
def metLock (s : State) : State := debugFault (BitVec.ofNat 64 s.dbg.addr) { s with dbg := { s.dbg with met := true } }

def debugRead (s : State) : State :=
  let a := s.dbg.addr
  if !s.mayRead (regionOf a) then emit (.tdo 0) (metLock s)
  else if regionOf a = .bootFlash && s.flashBusy (a - 0x10000000) then emit (.tdo 0) (debugFault (BitVec.ofNat 64 a) s)
  else draw (emit (.tdo (s.debugWord a)) s)

def debugWrite (data : BitVec 32) (s : State) : State :=
  let a := s.dbg.addr
  if s.mayWrite (regionOf a) then
    { s with dbg := { s.dbg with written := (a, data) :: s.dbg.written.filter (fun (x : Nat × BitVec 32) => x.1 ≠ a), dirty := true } }
  else metLock s

/-- DBGDATA: the access runs at Update-DR, and the address then advances by 4. -/
def execDbgdata (value : BitVec 33) (s : State) : Host.Outcome State Fault Refusal :=
  work (onlyIf s.portOn (fun s =>
    let s := if value.getLsbD 32 then debugWrite (value.setWidth 32) s else debugRead s
    if s.running then { s with dbg := { s.dbg with addr := (s.dbg.addr + 4) % 2 ^ 36 } } else s)) s

/-- The 12 characters of the serial (R359), byte 0 first. -/
def State.serial12 (s : State) : Nat := ((s.unit.serial.map serialChar).take 12).foldr (fun c acc => c + 256 * acc) 0

/-- DBGCHAL: a new challenge, then the serial and 4 bytes of zeros. -/
def execDbgchal (s : State) : Host.Outcome State Fault Refusal :=
  answer s (onlyIf s.portOn (fun s =>
    let c := Config.freeChallenge s.drawn
    draw (emit (.tdo (c.toNat + s.serial12 * 2 ^ 256)) { s with dbg := { s.dbg with challenge := some c } })))

/-- DBGUNLK: a challenge serves one attempt; three failures refuse it until the next reset. Where the failure's FC14 has no address of its own,
its detail is a free value (log entry 5). -/
def execDbgunlk (scope : BitVec 8) (verifies : Bool) (s : State) : Host.Outcome State Fault Refusal :=
  work (onlyIf (s.portOn && s.testOffered .dbgunlk) (fun s =>
    let good := verifies && s.dbg.challenge.isSome
    let s := { s with dbg := { s.dbg with challenge := none } }
    if good then
      addNote 0x04 0 { s with dbg := { s.dbg with unlocked := true, scope := scope.setWidth 2, everUnlocked := true } }
    else
      debugFault ((Config.freeWord s.drawn).setWidth 64) (draw { s with dbg := { s.dbg with fails := s.dbg.fails + 1 } }))) s

/-- EXTEST: boundary cells drive the lands after an unlock with scope bit 1; before it the opcode acts as BYPASS (R390). -/
def execExtest (levels : List (Nat × Bool)) (s : State) : Host.Outcome State Fault Refusal :=
  answer s (onlyIf (s.portOn && s.testOffered .extest) (fun s => { s with lands := { s.lands with extest := some levels } }))

end Sys2Proof.Machine
end

