-- ==== Sys2Proof/Machine/Ligature.lean ====
section
/-! DEFINITION. The ligature (chapter 16): the leader's clock and roll call, frames sent and received, the commit sequence and its timers,
in-doubt epochs. -/

namespace Sys2Proof.Machine

open Sys2Proof

/-! ## Frames received (R425, Table 16-2) -/

def State.inDoubt (s : State) : Bool := s.rec_.epochs.any (fun e => e.state = 4)

/-- Present: I/O ready, strap mismatch, in-doubt epochs held. -/
def State.presentValue (s : State) : Nat := flag s.rst.io 0 + flag s.mismatch 1 + flag s.inDoubt 2

/-- The effect of a frame's type on a card that takes part. Only a joined card rules one. -/
def frameEffect (typ src : Nat) (value : BitVec 29) (s : State) : State :=
  let v := value.toNat
  let n := bits v 0 24
  match typ with
  | 0x0 => { s with lig := { s.lig with time := n } }
  | 0x1 => if s.leader then s else sendFrame 2 s.presentValue s
  | 0x2 => if s.leader && src < 24 then { s with lig := { s.lig with answered := s.lig.answered ||| BitVec.ofNat 24 (2 ^ src) } } else s
  | 0x3 => receiveMuster (BitVec.ofNat 24 n) s
  | 0x4 => if s.joinedLig then { s with lig := { s.lig with held := some (src, n) } } else s
  | 0x5 => if !s.joinedLig then s else match s.lig.held with
    | some (from_, e) => if from_ = src then yieldPrepare src (rulePrepare src e (BitVec.ofNat 24 n) s) else s
    | none => s
  | 0x6 => if s.opens n && src < 24 then { s with lig := { s.lig with readies := s.lig.readies ||| BitVec.ofNat 24 (2 ^ src) } } else s
  | 0x7 => if s.opens n then { s with lig := { s.lig with refused := true } } else s
  | 0x8 => if s.joinedLig then receiveCommit n s else s
  | 0x9 => if s.joinedLig then receiveAbort n s else s
  | 0xA => if s.joinedLig && src ≠ s.own then
      (match s.epoch? n with | some e => sendFrame 0xB (n + stateCode e * 2 ^ 24) s | none => s) else s
  | 0xB => if s.joinedLig && src ≠ s.own then receiveState src v s else s
  | _ => s

/-- A held Prepare is void unless its Members frame is the next frame (R425). -/
def dropHeld (typ : Nat) (s : State) : State := if typ = 4 then s else { s with lig := { s.lig with held := none } }

/-- A frame that the card takes: one that ruled an item as host work brings the module back to PS0 (R447). -/
def takeFrame (typ src : Nat) (value : BitVec 29) (s : State) : State :=
  let t := dropHeld typ (frameEffect typ src value s)
  if t.nib.next ≠ s.nib.next && !t.awake then wake t else t

/-- A frame from another card, with a good check (R423, R443). -/
def receive (typ src : Nat) (value : BitVec 29) (s : State) : Host.Outcome State Fault Refusal :=
  work (onlyIf (s.running && s.ligOn && src ≠ s.own) (fun s =>
    takeFrame typ src value { s with lig := { s.lig with frames := sat 32 (s.lig.frames + 1) } })) s

/-- TICK (R426). -/
def execTick (source : Nat) (value : BitVec 29) (s : State) : Host.Outcome State Fault Refusal := receive 0x0 source value s

/-- CALL (R427). -/
def execCall (source : Nat) (value : BitVec 29) (s : State) : Host.Outcome State Fault Refusal := receive 0x1 source value s

/-- PRESENT (R427). -/
def execPresent (source : Nat) (value : BitVec 29) (s : State) : Host.Outcome State Fault Refusal := receive 0x2 source value s

/-- MUSTER (R427). -/
def execMuster (source : Nat) (value : BitVec 29) (s : State) : Host.Outcome State Fault Refusal := receive 0x3 source value s

/-- PREPARE (R425). -/
def execPrepare (source : Nat) (value : BitVec 29) (s : State) : Host.Outcome State Fault Refusal := receive 0x4 source value s

/-- MEMBERS (R425, R433). -/
def execMembers (source : Nat) (value : BitVec 29) (s : State) : Host.Outcome State Fault Refusal := receive 0x5 source value s

/-- READY (R433). -/
def execReady (source : Nat) (value : BitVec 29) (s : State) : Host.Outcome State Fault Refusal := receive 0x6 source value s

/-- REFUSE (R433). -/
def execRefuse (source : Nat) (value : BitVec 29) (s : State) : Host.Outcome State Fault Refusal := receive 0x7 source value s

/-- COMMIT (R431, R435). -/
def execCommit (source : Nat) (value : BitVec 29) (s : State) : Host.Outcome State Fault Refusal := receive 0x8 source value s

/-- ABORT (R433, R435). -/
def execAbort (source : Nat) (value : BitVec 29) (s : State) : Host.Outcome State Fault Refusal := receive 0x9 source value s

/-- QUERY (R437, R440). -/
def execQuery (source : Nat) (value : BitVec 29) (s : State) : Host.Outcome State Fault Refusal := receive 0xA source value s

/-- STATE (R436, R437, R441). -/
def execState (source : Nat) (value : BitVec 29) (s : State) : Host.Outcome State Fault Refusal := receive 0xB source value s

/-- A frame of 48 bits whose check, end bit and type are good (R424). -/
def frameGood (frame : BitVec 48) : Bool :=
  let x := frame.toNat
  ligCheck x = bits x 1 8 && bit x 0 && bits x 38 4 ≤ 0xB

/-- LIGATURE_FRAME_ERROR: discarded and counted (R424); a Prepare before it is no longer the frame just before a Members frame (R425). -/
def execLigatureFrameError (frame : BitVec 48) (s : State) : Host.Outcome State Fault Refusal :=
  answer s (onlyIf (s.running && s.ligOn && !frameGood frame) (fun s =>
    { s with lig := { s.lig with errors := sat 32 (s.lig.errors + 1), held := none } }))

/-! ## Frames sent (R421, R422) -/

/-- A frame has gone out whole: its sender rules it too, and the end bit of a Ready or Refuse releases LRDY (Table 16-4). -/
def frameSent (f : LigFrame) (s : State) : State :=
  let s := emit (.ligFrame f.bits) { s with lig := { s.lig with sendQ := s.lig.sendQ.drop 1 } }
  let s := if f.typ = 6 || f.typ = 7 then { s with lig := { s.lig with pulls := false } } else s
  takeFrame f.typ f.source f.value s

/-- LIGATURE_FRAME_SEND: a difference in Start, Source or Type (bits 47 to 38) is an ordinary loss; a later one, a duplicate address. -/
def execLigatureFrameSend (differs : Option Nat) (s : State) : Host.Outcome State Fault Refusal :=
  work (onlyIf (s.running && s.ligOn) (fun s =>
    match s.lig.sendQ with
    | [] => s
    | f :: _ =>
      match differs with
      | none => frameSent f s
      | some b => if b < 38 then abandonCommits (leaveLigature 3 s) else if f.typ = 4 then withdrawPrepare s else s)) s

/-! ## The leader (R420, R426, R427, R436) -/

/-- The leader that drives LCK. -/
def State.leads (s : State) : Bool := s.running && s.ligOn && s.leader && s.lig.drivesLck

/-- LEADER_LCK_WATCH_END. -/
def execLeaderLckWatchEnd (toggled : Bool) (s : State) : Host.Outcome State Fault Refusal :=
  answer s (onlyIf (s.running && s.ligOn && s.leader && !s.lig.drivesLck) (fun s =>
    if toggled then leaveLigature 3 s else { s with lig := { s.lig with drivesLck := true } }))

/-- LEADER_TICK_TIMER. -/
def execLeaderTickTimer (s : State) : Host.Outcome State Fault Refusal :=
  answer s (onlyIf s.leads (fun s => sendFrame 0x0 ((s.lig.time + 1) % 2 ^ 24) s))

/-- LEADER_CALL_TIMER. -/
def execLeaderCallTimer (s : State) : Host.Outcome State Fault Refusal :=
  answer s (onlyIf s.leads (fun s =>
    sendFrame 0x1 s.lig.joined.toNat { s with lig := { s.lig with answeredLast := s.lig.answered, answered := 0 } }))

/-- MUSTER_TIMER: addresses that answered this Call or the one before, and always bit 0. -/
def execMusterTimer (s : State) : Host.Outcome State Fault Refusal :=
  answer s (onlyIf s.leads (fun s => sendFrame 0x3 (s.lig.answered ||| s.lig.answeredLast ||| 1).toNat s))

/-- LEADER_DECISION_TIMER: first a Query, and 1 ms later Commit where a State answered committed, else the rule of step 5. -/
def execLeaderDecisionTimer (s : State) : Host.Outcome State Fault Refusal :=
  work (onlyIf s.leads (fun s =>
    match s.lig.open_ with
    | none => s
    | some (i, n) =>
      if i = s.own then s
      else if !s.lig.leaderAsked then sendFrame 0xA n { s with lig := { s.lig with leaderAsked := true, sawCommitted := false } }
      else if s.lig.sawCommitted then sendFrame 0x8 n s
      else decideOpen s)) s

/-! ## Membership (R427) -/

/-- TICK_LOSS_TIMEOUT: the member leaves and discards what it still had to send (R422). -/
def execTickLossTimeout (s : State) : Host.Outcome State Fault Refusal :=
  work (onlyIf (s.running && s.ligOn) (fun s => attemptAll (leaveLigature 1 s))) s

/-! ## The commit sequence (Table 16-4) -/

/-- This card initiates the open prepare. -/
def State.initiates (s : State) (n : Nat) : Bool := s.lig.open_ = some (s.own, n)

/-- The initiator's step 5. -/
def stepFive (n : Nat) (s : State) : State := decideOpen { s with lig := { s.lig with initiating := some (n, 5) } }

/-- LRDY_RISE: step 5 where the prepare is this card's, step 7 after its Commit, and the start of an Epoch Commit that waited (R433). -/
def execLrdyRise (s : State) : Host.Outcome State Fault Refusal :=
  work (onlyIf (s.running && s.ligOn && !s.lig.pulls) (fun s =>
    let s := { s with lig := { s.lig with lrdyHigh := true } }
    match s.lig.initiating with
    | some (n, 6) =>
      let s := { s with lig := { s.lig with initiating := none } }
      attemptAll (match s.commitItem? n with | some i => succeed i 0 s | none => s)
    | some (n, 0) => if s.initiates n then stepFive n s else s
    | _ => attemptAll s)) s

/-- The epoch of the open prepare that this card prepares, not refused. -/
def State.preparing (s : State) : Option Epoch :=
  match s.lig.open_ with
  | some (_, n) => (s.openEpoch? n).bind (fun e =>
      if e.state = 2 && s.lig.pulls && !s.lig.sendQ.any (fun f => f.typ = 7) then some e else none)
  | none => none

/-- PREPARE_PERSISTENT: every item ruled up to the prepare is persistent, and the prepared record with them; Ready is sent (step 3). -/
def execPreparePersistent (s : State) : Host.Outcome State Fault Refusal :=
  work (onlyIf (s.running && s.ligOn) (fun s =>
    match s.preparing with
    | some e =>
      if s.writesBefore e.prepRuling then sendFrame 6 e.n (modEpoch e.n (fun e => { e with state := 3, prepared := true }) s) else s
    | none => s)) s

/-- COMMIT_PERSISTENT: the commit records of this card are persistent, and it releases LRDY (step 6). -/
def execCommitPersistent (s : State) : Host.Outcome State Fault Refusal :=
  work (onlyIf (s.running && s.ligOn && s.lig.pulls && s.lig.open_.isNone) (fun s =>
    let waits := s.nib.items.any (fun i => Entry.opcode i.entry = commitOpcode)
      || s.rec_.epochs.any (fun e => e.state = 5 && e.outcomeRuling ∈ s.nib.unsettled)
    if waits then s else { s with lig := { s.lig with pulls := false } })) s

/-- PREPARE_TIMEOUT: 2 s without LRDY high, so the initiator sends Abort (step 5). -/
def execPrepareTimeout (s : State) : Host.Outcome State Fault Refusal :=
  work (onlyIf (s.running && s.ligOn) (fun s =>
    match s.lig.initiating with
    | some (n, 0) => if s.initiates n then sendFrame 9 n { s with lig := { s.lig with initiating := some (n, 5) } } else s
    | _ => s)) s

/-- COMMIT_RELEASE_TIMEOUT: step 7 at its limit; Epoch Commit completes with success and its entry carries flag 1. -/
def execCommitReleaseTimeout (s : State) : Host.Outcome State Fault Refusal :=
  work (onlyIf s.running (fun s =>
    match s.lig.initiating with
    | some (n, 6) =>
      let s := flagLatest n (fun e => { e with atLimit := true }) { s with lig := { s.lig with initiating := none } }
      match s.commitItem? n with | some i => succeed i 0 s | none => s
    | _ => s)) s

/-- PREPARED_QUERY_TIMER: a prepared participant without an outcome 1 ms after LRDY rose asks (R437). -/
def execPreparedQueryTimer (s : State) : Host.Outcome State Fault Refusal :=
  answer s (onlyIf (s.running && s.joinedLig && s.lig.lrdyHigh) (fun s =>
    match s.rec_.epochs.find? (fun e => e.state = 3 && !s.deciding e.n) with | some e => sendFrame 0xA e.n s | none => s))

/-- INDOUBT_QUERY_WINDOW_END: the decision of Table 16-6, or the epoch stays in doubt and the next one is asked about (R440, R441). -/
def execIndoubtQueryWindowEnd (s : State) : Host.Outcome State Fault Refusal :=
  work (onlyIf (s.running && s.joinedLig) (fun s =>
    match s.lig.querying with
    | none => s
    | some n =>
      let next := s.doubtAfter n
      let s := match s.openEpoch? n with
        | some e => (match s.doubtDecision e true with
          | some f => decideDoubt n f (if s.awake then s else wake s)
          | none => { s with lig := { s.lig with querying := none, answers := [] } })
        | none => { s with lig := { s.lig with querying := none, answers := [] } }
      match next with | some m => queryEpoch m s | none => s)) s

end Sys2Proof.Machine
end

