-- ==== Sys2Proof/Machine/Power.lean ====
section
/-! DEFINITION. Power states, temperature and throttling (chapter 17, with the start modes of chapter 18). -/

namespace Sys2Proof.Machine

open Sys2Proof

/-! ## Idleness and entry (R446, R447, R450 to R453) -/

/-- Cache data that is not yet folded. -/
def State.unfolded (s : State) : Bool :=
  s.hybrid && s.ftl.bands.any (fun b => b.cache && b.st ≠ .free && b.st ≠ .dissolved && s.liveSlots b.n ≠ [])

/-- Background work is queued; under hint 02h folding, demotion and collection above the reserve floor do not count (Table 17-4). -/
def State.backgroundQueued (s : State) : Bool :=
  let put := s.pwr.hint = 2 && s.reserveFloor ≤ s.freeBands
  s.ftl.emptying.any (fun e => !put || 2 ≤ e.kind) || (s.unfolded && !put)
    || s.ftl.moves.any (fun m => !put || m.stroke.isNone) || s.dies.queue ≠ [] || s.dies.reads.any (fun r => !r.done)

/-- The module is idle (R447). -/
def State.idle (s : State) : Bool :=
  s.nib.items = [] && s.nib.fetched = []
  && !(s.nb.task = .admitting || s.nb.task = .dataIn || s.nb.task = .dataOut || s.nb.task = .busy)
  && !s.lops.list.any (fun o => o.state = 1) && !s.backgroundQueued && s.res.staged = []

/-- Idle times run: the module is idle, not under hint 01h, and not already entering PS4 (Table 17-4). -/
def State.sinks (s : State) : Bool := s.running && s.idle && s.pwr.hint ≠ 1 && !s.pwr.entering4

/-- The link follows a power state (Table 17-5, R161): L1 where the host has enabled it, its substate, CLKREQn released in L1.1 and L1.2; only
where no TLP waits (R452). -/
def coupleLink (ps : Nat) (s : State) : State :=
  if s.rst.face = .pcie && s.pcie.speed ≠ 0 && s.pcie.host.aspmL1 && s.pcie.tx = [] then
    let sub := if ps = 2 then (if s.pcie.host.l11 then 2 else 1) else (if s.pcie.host.l12 then 3 else 1)
    let s := emit (.linkL1 sub) { s with pcie := { s.pcie with l1 := sub } }
    if 2 ≤ sub then { s with lands := { s.lands with clkreqLow := false } } else s
  else s

/-- A state deeper than PS1 is entered: its LTR message first, then the link (R452). -/
def enterState (ps : Nat) (s : State) : State := coupleLink ps (ltrUpdate { s with pwr := { s.pwr with ps := ps, entering4 := false } })

/-- PS2_ENTRY. -/
def execPs2Entry (s : State) : Host.Outcome State Fault Refusal := answer s (onlyIf (s.sinks && s.awake) (enterState 2))

/-- PS3_ENTRY: from PS2; under hint 02h as soon as the module is idle. Minimal recovery mode goes no further than PS2 (R467). -/
def execPs3Entry (s : State) : Host.Outcome State Fault Refusal :=
  answer s (onlyIf (s.sinks && !s.recovery && (s.pwr.ps = 2 || (s.awake && s.pwr.hint = 2))) (enterState 3))

/-- PS4_ENTRY: from PS3, through steps 3 to 6 of the shutdown sequence; not in strap mismatch (R468). -/
def execPs4Entry (s : State) : Host.Outcome State Fault Refusal :=
  answer s (onlyIf (s.sinks && s.pwr.ps = 3 && !s.recovery && !s.mismatch) beginPs4)

/-- PS4_ENTRY_COMPLETE: the Clean page has passed verify. -/
def execPs4EntryComplete (s : State) : Host.Outcome State Fault Refusal :=
  answer s (onlyIf (s.running && s.pwr.entering4 && s.quiet 0) (fun s =>
    enterState 4 (if s.rst.io then finishShutdown s else { s with log := { s.log with closing := false } })))

/-- WAKE_EVENT: from PS2 to PS4, or while PS4 is being entered; a task in admitting goes on (R449, R450, R454). -/
def execWakeEvent (s : State) : Host.Outcome State Fault Refusal :=
  work (onlyIf (s.running && !s.pcie.d3hot && (!s.awake || s.pwr.entering4)) (fun s => ruleTask (wake s))) s

/-! ## Temperature (R455 to R458) -/

/-- The highest step whose entry threshold either reading has reached (Table 17-6); tenths of a degree. -/
def entryStep (junction nand : Int) : Nat :=
  if 990 ≤ nand then 4
  else if 1050 ≤ junction || 960 ≤ nand then 3
  else if 1000 ≤ junction || 930 ≤ nand then 2
  else if 950 ≤ junction || 900 ≤ nand then 1
  else 0

/-- Both readings stand below a step's leave threshold. -/
def belowLeave (step : Nat) (junction nand : Int) : Bool :=
  match step with
  | 1 => junction < 920 && nand < 870
  | 2 => junction < 970 && nand < 900
  | 3 => junction < 1020 && nand < 930
  | _ => nand < 960

/-- A temperature as FC11's detail (Table 15-7): signed, in tenths, over 64 bits. -/
def thermalDetail (t : Int) : BitVec 64 := BitVec.ofInt 64 t

/-- The step rises: FC11 from 0 or 1 to 2 or higher, its detail the reading that reached the threshold (R456, R457). -/
def raiseStep (junction nand : Int) (s : State) : State :=
  let old := s.pwr.step
  let new := max old (entryStep junction nand)
  let s := powerOfStep { s with pwr := { s.pwr with step := new } }
  if old < 2 && 2 ≤ new then
    recordFault 11 3 0x0E (thermalDetail (if entryStep junction 0 = new then junction else nand)) 2 s
  else s

/-- The junction reaches 110 degrees: FC11 at the safe level, and the thermal safe state (R458). -/
def thermalSafeEntry (junction : Int) (s : State) : State :=
  if 1100 ≤ junction && !s.pwr.thermalSafe then
    recordFault 11 4 0x0E (thermalDetail junction) 2 (powerOfStep { s with pwr := { s.pwr with thermalSafe := true } })
  else s

/-- TEMPERATURE_READING. -/
def execTemperatureReading (junction nand : Int) (s : State) : Host.Outcome State Fault Refusal :=
  work (onlyIf s.running (fun s =>
    let s := raiseStep junction nand { s with pwr := { s.pwr with junction := junction, nand := nand } }
    if s.running then thermalSafeEntry junction s else s)) s

/-- THROTTLE_LEAVE: one step down (R456). -/
def execThrottleLeave (s : State) : Host.Outcome State Fault Refusal :=
  work (onlyIf (s.running && 0 < s.pwr.step && belowLeave s.pwr.step s.pwr.junction s.pwr.nand) (fun s =>
    powerOfStep { s with pwr := { s.pwr with step := s.pwr.step - 1 } })) s

/-- THERMAL_SAFE_EXIT (R458, R408). -/
def execThermalSafeExit (s : State) : Host.Outcome State Fault Refusal :=
  work (onlyIf (s.running && s.pwr.thermalSafe && s.pwr.junction < 1000) (fun s =>
    let s := { s with pwr := { s.pwr with thermalSafe := false }, flt := { s.flt with safe := s.flt.safe.filter (· ≠ .thermal) } }
    aliveUpdate (addNote 0x07 0 (powerOfStep s)))) s

/-! ## Time (log entry 2) -/

/-- A crossing into AON that had stalled is tried again, and the copies that waited go over (R19, R417). -/
def retryAon (s : State) : State :=
  if 0x01 ∈ s.flt.out then ackReaction 10 0x01 (aonDrain { s with flt := { s.flt with out := without 0x01 s.flt.out } }) else s

/-- Channels on which a rebuild's operation runs that was served as class 2 because it had waited (R312). -/
def State.raisedNow (s : State) : List Nat :=
  (List.range 16).filter (fun c => s.dies.dies.any (fun x => dieChannel x.n = c && x.active.any (·.raised)))

/-- One millisecond passes: time since reset release, wall time, power-on time, and the active time of long operations. -/
def passMillisecond (s : State) : State :=
  if s.running then
    retryAon { s with
      rst := { s.rst with timeMs := s.rst.timeMs + 1 }
      wall := s.wall.map (· + 1)
      health := { s.health with powerOnMs := s.health.powerOnMs + 1 }
      lops := { s.lops with list := mapIf (fun o => o.state = 1) (fun o => { o with active := o.active + 1 }) s.lops.list }
      dies := { s.dies with raisedMs := s.dies.raisedMs.filter (fun x => s.rst.timeMs < x.2 + 100) ++ s.raisedNow.map (fun c => (c, s.rst.timeMs + 1)) } }
  else s

end Sys2Proof.Machine
end

