-- ==== Sys2Proof/Machine/Dispatch.lean ====
section
/-! DEFINITION. The one match over the commands: each arm is one direct call of that command's meaning. -/

namespace Sys2Proof.Machine

def exec (i : Instr) (s : State) : Host.Outcome State Fault Refusal :=
  match i with
  | .powerOnReset aonGood => Sys2Proof.Machine.execPowerOnReset aonGood s
  | .powerLoss => Sys2Proof.Machine.execPowerLoss s
  | .dumpComplete ranOut vcc3Up aonGood => Sys2Proof.Machine.execDumpComplete ranOut vcc3Up aonGood s
  | .pinReset => Sys2Proof.Machine.execPinReset s
  | .sequencerRowRead calGood => Sys2Proof.Machine.execSequencerRowRead calGood s
  | .strapSample microvolts => Sys2Proof.Machine.execStrapSample microvolts s
  | .faultIslandRelease => Sys2Proof.Machine.execFaultIslandRelease s
  | .resetStretchEnd vccqMv => Sys2Proof.Machine.execResetStretchEnd vccqMv s
  | .vccqSettled vccqMv => Sys2Proof.Machine.execVccqSettled vccqMv s
  | .resetRelease ejectHigh badCores badDecoders => Sys2Proof.Machine.execResetRelease ejectHigh badCores badDecoders s
  | .islandRelease isl wpswLow => Sys2Proof.Machine.execIslandRelease isl wpswLow s
  | .islandClockTimeout isl => Sys2Proof.Machine.execIslandClockTimeout isl s
  | .faceSelection ts1 frame => Sys2Proof.Machine.execFaceSelection ts1 frame s
  | .imageCheck => Sys2Proof.Machine.execImageCheck s
  | .dramTrained => Sys2Proof.Machine.execDramTrained s
  | .adminReady => Sys2Proof.Machine.execAdminReady s
  | .recovery probes badPage => Sys2Proof.Machine.execRecovery probes badPage s
  | .ioReady => Sys2Proof.Machine.execIoReady s
  | .failedStartLimit => Sys2Proof.Machine.execFailedStartLimit s
  | .narrowIdReady => Sys2Proof.Machine.execNarrowIdReady s
  | .linkTrained speed width reversed host => Sys2Proof.Machine.execLinkTrained speed width reversed host s
  | .bootstrapEnable => Sys2Proof.Machine.execBootstrapEnable s
  | .bootstrapEnableClear => Sys2Proof.Machine.execBootstrapEnableClear s
  | .shutdownRequest => Sys2Proof.Machine.execShutdownRequest s
  | .shutdownComplete => Sys2Proof.Machine.execShutdownComplete s
  | .bar0RegisterWrite off len value => Sys2Proof.Machine.execBar0RegisterWrite off len value s
  | .bar0OversizedRead off len => Sys2Proof.Machine.execBar0OversizedRead off len s
  | .submissionTailDoorbell q value => Sys2Proof.Machine.execSubmissionTailDoorbell q value s
  | .pair0ResumeDoorbell value => Sys2Proof.Machine.execPair0ResumeDoorbell value s
  | .completionHeadDoorbell q value => Sys2Proof.Machine.execCompletionHeadDoorbell q value s
  | .msixVectorUnmask v => Sys2Proof.Machine.execMsixVectorUnmask v s
  | .hotReset => Sys2Proof.Machine.execHotReset s
  | .linkDown => Sys2Proof.Machine.execLinkDown s
  | .functionLevelReset => Sys2Proof.Machine.execFunctionLevelReset s
  | .d3hotEntry => Sys2Proof.Machine.execD3hotEntry s
  | .d3hotExit => Sys2Proof.Machine.execD3hotExit s
  | .linkError e aer header => Sys2Proof.Machine.execLinkError e aer header s
  | .moduleRequestFailure ruling q aer => Sys2Proof.Machine.execModuleRequestFailure ruling q aer s
  | .clkreqnHostAssert => Sys2Proof.Machine.execClkreqnHostAssert s
  | .fetchTurn entries => Sys2Proof.Machine.execFetchTurn entries s
  | .admissionStallEnd => Sys2Proof.Machine.execAdmissionStallEnd s
  | .rangeLockGranted ruling => Sys2Proof.Machine.execRangeLockGranted ruling s
  | .writeDataReceived ruling data segments => Sys2Proof.Machine.execWriteDataReceived ruling data segments s
  | .readDataDelivered ruling segments => Sys2Proof.Machine.execReadDataDelivered ruling segments s
  | .write q => Sys2Proof.Machine.execWrite q s
  | .read q => Sys2Proof.Machine.execRead q s
  | .flush q => Sys2Proof.Machine.execFlush q s
  | .release q => Sys2Proof.Machine.execRelease q s
  | .verify q => Sys2Proof.Machine.execVerify q s
  | .planeRead q => Sys2Proof.Machine.execPlaneRead q s
  | .precisionRead q => Sys2Proof.Machine.execPrecisionRead q s
  | .createQueuePair => Sys2Proof.Machine.execCreateQueuePair s
  | .deleteQueuePair => Sys2Proof.Machine.execDeleteQueuePair s
  | .resumeQueue => Sys2Proof.Machine.execResumeQueue s
  | .cancelCommand => Sys2Proof.Machine.execCancelCommand s
  | .controllerRestart => Sys2Proof.Machine.execControllerRestart s
  | .awaitEvent => Sys2Proof.Machine.execAwaitEvent s
  | .identify q segments => Sys2Proof.Machine.execIdentify q segments s
  | .getLogPage q segments => Sys2Proof.Machine.execGetLogPage q segments s
  | .getLogPageClear q segments => Sys2Proof.Machine.execGetLogPageClear q segments s
  | .getLogPageAcknowledge q segments => Sys2Proof.Machine.execGetLogPageAcknowledge q segments s
  | .setTime => Sys2Proof.Machine.execSetTime s
  | .powerHint => Sys2Proof.Machine.execPowerHint s
  | .powerHintExpiry => Sys2Proof.Machine.execPowerHintExpiry s
  | .createPartition => Sys2Proof.Machine.execCreatePartition s
  | .deletePartition => Sys2Proof.Machine.execDeletePartition s
  | .cap => Sys2Proof.Machine.execCap s
  | .uncap => Sys2Proof.Machine.execUncap s
  | .fix => Sys2Proof.Machine.execFix s
  | .setAccess => Sys2Proof.Machine.execSetAccess s
  | .sanitizeDevice => Sys2Proof.Machine.execSanitizeDevice s
  | .sanitizeComplete => Sys2Proof.Machine.execSanitizeComplete s
  | .selfTest => Sys2Proof.Machine.execSelfTest s
  | .selfTestSegmentDone ok => Sys2Proof.Machine.execSelfTestSegmentDone ok s
  | .calibrate => Sys2Proof.Machine.execCalibrate s
  | .calibrationComplete tables => Sys2Proof.Machine.execCalibrationComplete tables s
  | .operationSuspend => Sys2Proof.Machine.execOperationSuspend s
  | .operationResume => Sys2Proof.Machine.execOperationResume s
  | .operationCancel => Sys2Proof.Machine.execOperationCancel s
  | .longOperationSuspended handle => Sys2Proof.Machine.execLongOperationSuspended handle s
  | .rebuildComplete handle => Sys2Proof.Machine.execRebuildComplete handle s
  | .firmwareDownload data segments => Sys2Proof.Machine.execFirmwareDownload data segments s
  | .bootFlashOperationComplete ok => Sys2Proof.Machine.execBootFlashOperationComplete ok s
  | .firmwareActivateNextReset => Sys2Proof.Machine.execFirmwareActivateNextReset s
  | .firmwareActivateImmediate => Sys2Proof.Machine.execFirmwareActivateImmediate s
  | .firmwareActivationRestart => Sys2Proof.Machine.execFirmwareActivationRestart s
  | .firmwareActivateOtherBank => Sys2Proof.Machine.execFirmwareActivateOtherBank s
  | .attest segments => Sys2Proof.Machine.execAttest segments s
  | .epochCommit => Sys2Proof.Machine.execEpochCommit s
  | .epochResolve => Sys2Proof.Machine.execEpochResolve s
  | .selectVersion tag arg => Sys2Proof.Machine.execSelectVersion tag arg s
  | .versionEffective => Sys2Proof.Machine.execVersionEffective s
  | .identificationPhaseEntry => Sys2Proof.Machine.execIdentificationPhaseEntry s
  | .readStatus tag arg => Sys2Proof.Machine.execReadStatus tag arg s
  | .writeTaskRegister tag arg => Sys2Proof.Machine.execWriteTaskRegister tag arg s
  | .readTaskRegister tag arg => Sys2Proof.Machine.execReadTaskRegister tag arg s
  | .writeTaskBlock tag arg => Sys2Proof.Machine.execWriteTaskBlock tag arg s
  | .readTaskBlock tag arg => Sys2Proof.Machine.execReadTaskBlock tag arg s
  | .executeTask tag arg => Sys2Proof.Machine.execExecuteTask tag arg s
  | .writeData tag arg => Sys2Proof.Machine.execWriteData tag arg s
  | .hostDataBlock data crcs => Sys2Proof.Machine.execHostDataBlock data crcs s
  | .readData tag arg => Sys2Proof.Machine.execReadData tag arg s
  | .resumeTask tag arg => Sys2Proof.Machine.execResumeTask tag arg s
  | .cancelTask tag arg => Sys2Proof.Machine.execCancelTask tag arg s
  | .sendTuningBlock tag arg => Sys2Proof.Machine.execSendTuningBlock tag arg s
  | .busReset tag arg => Sys2Proof.Machine.execBusReset tag arg s
  | .malformedCommandFrame frame => Sys2Proof.Machine.execMalformedCommandFrame frame s
  | .channelDispatch c => Sys2Proof.Machine.execChannelDispatch c s
  | .nestedSuspendLimit die => Sys2Proof.Machine.execNestedSuspendLimit die s
  | .dieProgramComplete die pass overLoop readBack plane => Sys2Proof.Machine.execDieProgramComplete die pass overLoop readBack plane s
  | .dieEraseComplete die pass plane => Sys2Proof.Machine.execDieEraseComplete die pass plane s
  | .dieReadComplete die errors => Sys2Proof.Machine.execDieReadComplete die errors s
  | .ldpcDecodeComplete read decoder corrected crcOk => Sys2Proof.Machine.execLdpcDecodeComplete read decoder corrected crcOk s
  | .decoderTimeout decoder => Sys2Proof.Machine.execDecoderTimeout decoder s
  | .dieReadyTimeout die => Sys2Proof.Machine.execDieReadyTimeout die s
  | .dieResetWaitExpiry die => Sys2Proof.Machine.execDieResetWaitExpiry die s
  | .dieSlowDiversion die => Sys2Proof.Machine.execDieSlowDiversion die s
  | .failureHoldbackExpiry die => Sys2Proof.Machine.execFailureHoldbackExpiry die s
  | .logPageFill => Sys2Proof.Machine.execLogPageFill s
  | .logPageVerified => Sys2Proof.Machine.execLogPageVerified s
  | .checkpointStart => Sys2Proof.Machine.execCheckpointStart s
  | .garbageCollectionStart => Sys2Proof.Machine.execGarbageCollectionStart s
  | .settledWaitExpiry => Sys2Proof.Machine.execSettledWaitExpiry s
  | .foldStart => Sys2Proof.Machine.execFoldStart s
  | .demotion stroke => Sys2Proof.Machine.execDemotion stroke s
  | .wearLevelling => Sys2Proof.Machine.execWearLevelling s
  | .patrol band => Sys2Proof.Machine.execPatrol band s
  | .agingClockTick temps => Sys2Proof.Machine.execAgingClockTick temps s
  | .ejectionWarning => Sys2Proof.Machine.execEjectionWarning s
  | .wpswPinEvent low => Sys2Proof.Machine.execWpswPinEvent low s
  | .bankReady millivolts => Sys2Proof.Machine.execBankReady millivolts s
  | .bankReadyLost millivolts => Sys2Proof.Machine.execBankReadyLost millivolts s
  | .bankFaultTimeout millivolts => Sys2Proof.Machine.execBankFaultTimeout millivolts s
  | .faultReport source cls detail hit => Sys2Proof.Machine.execFaultReport source cls detail hit s
  | .wireFault source => Sys2Proof.Machine.execWireFault source s
  | .islandStall source requester => Sys2Proof.Machine.execIslandStall source requester s
  | .lockstepDisagreement => Sys2Proof.Machine.execLockstepDisagreement s
  | .safeLevelEnd => Sys2Proof.Machine.execSafeLevelEnd s
  | .scribeWatchdogExpiry core => Sys2Proof.Machine.execScribeWatchdogExpiry core s
  | .deviceWatchdogExpiry => Sys2Proof.Machine.execDeviceWatchdogExpiry s
  | .brownOut millivolts => Sys2Proof.Machine.execBrownOut millivolts s
  | .vccqOutOfRange millivolts => Sys2Proof.Machine.execVccqOutOfRange millivolts s
  | .memoryScrub dram address wrongBits hit => Sys2Proof.Machine.execMemoryScrub dram address wrongBits hit s
  | .aliveEdge => Sys2Proof.Machine.execAliveEdge s
  | .actHoldExpiry => Sys2Proof.Machine.execActHoldExpiry s
  | .dbgaddr value => Sys2Proof.Machine.execDbgaddr value s
  | .dbgdata value => Sys2Proof.Machine.execDbgdata value s
  | .dbgchal => Sys2Proof.Machine.execDbgchal s
  | .dbgunlk scope verifies => Sys2Proof.Machine.execDbgunlk scope verifies s
  | .extest levels => Sys2Proof.Machine.execExtest levels s
  | .leaderLckWatchEnd toggled => Sys2Proof.Machine.execLeaderLckWatchEnd toggled s
  | .leaderTickTimer => Sys2Proof.Machine.execLeaderTickTimer s
  | .leaderCallTimer => Sys2Proof.Machine.execLeaderCallTimer s
  | .musterTimer => Sys2Proof.Machine.execMusterTimer s
  | .ligatureFrameSend differs => Sys2Proof.Machine.execLigatureFrameSend differs s
  | .tick source value => Sys2Proof.Machine.execTick source value s
  | .call source value => Sys2Proof.Machine.execCall source value s
  | .present source value => Sys2Proof.Machine.execPresent source value s
  | .muster source value => Sys2Proof.Machine.execMuster source value s
  | .prepare source value => Sys2Proof.Machine.execPrepare source value s
  | .members source value => Sys2Proof.Machine.execMembers source value s
  | .ready source value => Sys2Proof.Machine.execReady source value s
  | .refuse source value => Sys2Proof.Machine.execRefuse source value s
  | .commit source value => Sys2Proof.Machine.execCommit source value s
  | .abort source value => Sys2Proof.Machine.execAbort source value s
  | .query source value => Sys2Proof.Machine.execQuery source value s
  | .state source value => Sys2Proof.Machine.execState source value s
  | .ligatureFrameError frame => Sys2Proof.Machine.execLigatureFrameError frame s
  | .tickLossTimeout => Sys2Proof.Machine.execTickLossTimeout s
  | .lrdyRise => Sys2Proof.Machine.execLrdyRise s
  | .preparePersistent => Sys2Proof.Machine.execPreparePersistent s
  | .commitPersistent => Sys2Proof.Machine.execCommitPersistent s
  | .prepareTimeout => Sys2Proof.Machine.execPrepareTimeout s
  | .commitReleaseTimeout => Sys2Proof.Machine.execCommitReleaseTimeout s
  | .leaderDecisionTimer => Sys2Proof.Machine.execLeaderDecisionTimer s
  | .preparedQueryTimer => Sys2Proof.Machine.execPreparedQueryTimer s
  | .indoubtQueryWindowEnd => Sys2Proof.Machine.execIndoubtQueryWindowEnd s
  | .ps2Entry => Sys2Proof.Machine.execPs2Entry s
  | .ps3Entry => Sys2Proof.Machine.execPs3Entry s
  | .ps4Entry => Sys2Proof.Machine.execPs4Entry s
  | .ps4EntryComplete => Sys2Proof.Machine.execPs4EntryComplete s
  | .wakeEvent => Sys2Proof.Machine.execWakeEvent s
  | .temperatureReading junction nand => Sys2Proof.Machine.execTemperatureReading junction nand s
  | .throttleLeave => Sys2Proof.Machine.execThrottleLeave s
  | .thermalSafeExit => Sys2Proof.Machine.execThermalSafeExit s
  | .ejectnRise => Sys2Proof.Machine.execEjectnRise s
  | .interfaceTrainingComplete c ok ids => Sys2Proof.Machine.execInterfaceTrainingComplete c ok ids s
  | .minimumRunAfterResumeExpiry die => Sys2Proof.Machine.execMinimumRunAfterResumeExpiry die s
  | .ruleEpochDrainLimit => Sys2Proof.Machine.execRuleEpochDrainLimit s
  | .reservedIndexFrame tag index arg => Sys2Proof.Machine.execReservedIndexFrame tag index arg s
  | .invalidOpcodeCommand q => Sys2Proof.Machine.execInvalidOpcodeCommand q s

end Sys2Proof.Machine
end

