-- ==== Sys2Proof/Safety.lean ====
section
/-! DEFINITION. What counts as a state of the module that no step spoils: the fixed sizes of its logs, rulings given once, codes that
stay within their tables, and memories in canonical form. -/

namespace Sys2Proof.Machine

open Sys2Proof

/-- Every step keeps these, from any state that has them. -/
structure State.Sound (s : State) : Prop where
  /-- the blotter holds at most 32 entries (R415) -/
  blotter : s.flt.blotter.length ≤ 32
  /-- the AON tail keeps at most 8 (R417) -/
  tail : s.aon.tail.length ≤ 8
  /-- at most 8 copies wait for AON (R417) -/
  queue : s.aon.queue.length ≤ 8
  /-- the error log holds at most 256 entries (R222) -/
  errors : s.elog.list.length ≤ 256
  /-- the failed-start counter has 4 bits (R94) -/
  failed : s.aon.failed ≤ 15
  /-- an outstanding command's ruling lies below the next one, so that the next one is new (R177) -/
  rulings : ∀ i ∈ s.nib.items, i.ruling < s.nib.next
  first : 1 ≤ s.nib.next
  /-- power states PS0 to PS4 (R446) -/
  power : s.pwr.ps ≤ 4
  /-- throttle steps 0 to 4 (R456) -/
  step : s.pwr.step ≤ 4
  /-- the narrow bus is in its identification phase or runs N1, N2 or N3 (R107) -/
  version : s.nb.version ≤ 3
  granted : (s.nb.grantedNext.all (fun x => x.1 ≤ 3)) = true
  /-- Granted is 0, 1 or 2 (R153) -/
  kinetic : s.pcie.granted ≤ 2
  /-- at most three failed unlock attempts (R393) -/
  debug : s.dbg.fails ≤ 3
  /-- standalone, not joined, joined or duplicate (R443) -/
  ligature : s.lig.state ≤ 3
  /-- the MSI-X table keeps the canonical form of a memory (R151) -/
  msix : Mem.wf 0 s.pcie.msixTable = true
  /-- the boot flash banks keep it; an erased byte reads FFh (R351) -/
  bankA : Mem.wf 0xFF s.boot.bankA.bytes = true
  bankB : Mem.wf 0xFF s.boot.bankB.bytes = true
  /-- and so does the piece of a download that is being programmed (R368) -/
  piece : ∀ d, s.boot.dl = some d → Mem.wf 0xFF d.piece = true

/-! ## Admission, in the terms that statements use -/

/-- The state in which the oldest unadmitted entry of a ring is evaluated: it has left the fetched commands, and the ruling is taken (R177). -/
def State.ruledBy (s : State) (f : Fetched) : State :=
  takeRuling false (Entry.opcode f.entry) { s with out := [], nib := { s.nib with fetched := s.nib.fetched.erase f } }

/-- The command under that ruling. -/
def State.ruledItem (s : State) (q : Nat) (f : Fetched) : Item := (s.ruledBy f).newItem false q f.slot f.entry s.nib.next

/-- What a row gives the command: its own operands, and the failed reads that its entry already counts (R164). -/
def Given.for_ (g : Given) (f : Fetched) : Given := { g with retries := f.retries / 2 * 2 }

/-- The command as it stands in the nib, with its segment list (R166). -/
def State.listedItem (s : State) (q : Nat) (f : Fetched) (g : Given) : Item :=
  { s.ruledItem q f with segs := g.segs, retries := f.retries / 2 * 2 }

/-- The same state with the command in the nib. -/
def State.listed (s : State) (q : Nat) (f : Fetched) (g : Given) : State := enlist (s.ruledItem q f) (g.for_ f) (s.ruledBy f)

/-- The oldest unadmitted entry of ring q, which the nib can rule now (R176, R179). -/
structure State.Rules (s : State) (q : Nat) (f : Fetched) : Prop where
  front : s.front? q = some f
  canRule : s.canRule = true
  awake : s.awake = true
  waiting : f.stalled = false
  resources : s.mustStall f = false
  first : s.outranked q f = false

/-- Its early checks pass, and it does not wait for I/O ready. -/
structure State.Enters (s : State) (q : Nat) (f : Fetched) (g : Given) : Prop extends s.Rules q f where
  early : (s.ruledBy f).checkEarly false q f.entry = none
  media : (s.listed q f g).waitsForMedia f.entry = false

/-- Every check of Table 07-6 passes, the lock is granted at once, and nothing known at the ruling stops the execution: the command `i`
begins in the state `t`. -/
structure State.Admits (s : State) (q : Nat) (f : Fetched) (g : Given) (t : State) (i : Item) : Prop extends s.Enters q f g where
  late : (s.listed q f g).checkLate (s.ruledItem q f).well f.entry = none
  state : t = admitted (s.listedItem q f g) (s.listed q f g)
  item : t.item? s.nib.next = some i
  lock : t.granted i = true
  verdict : i.verdict = 0
  reads : i.retries < 2
  doubt : (isBlockCmd (Entry.opcode i.entry) && t.rangeInDoubt i) = false

/-- The rows of Table 08-1: the ring that each serves and the entries that are of its kind. -/
def State.hostRow (s : State) (c : Instr) : Option (Nat × (Entry → Bool)) :=
  match c with
  | .write q => some (q, isOp 0x01)
  | .read q => some (q, isOp 0x02)
  | .flush q => some (q, isOp 0x03)
  | .release q => some (q, isOp 0x04)
  | .verify q => some (q, isOp 0x05)
  | .planeRead q => some (q, isOp 0x06)
  | .precisionRead q => some (q, isOp 0x07)
  | .createQueuePair => some (0, isOp 0x80)
  | .deleteQueuePair => some (0, isOp 0x81)
  | .resumeQueue => some (0, isOp 0x82)
  | .cancelCommand => some (0, isOp 0x83)
  | .controllerRestart => some (0, isOp 0x84)
  | .awaitEvent => some (0, isOp 0x85)
  | .identify q _ => some (q, isOp 0x88)
  | .getLogPage q _ => some (q, fun e => isOp 0x89 e && !logClear e && !logAck e)
  | .getLogPageClear q _ => some (q, fun e => isOp 0x89 e && logClear e)
  | .getLogPageAcknowledge q _ => some (q, fun e => isOp 0x89 e && !logClear e && logAck e)
  | .setTime => some (0, isOp 0x8A)
  | .powerHint => some (0, isOp 0x8B)
  | .createPartition => some (0, isOp 0x90)
  | .deletePartition => some (0, isOp 0x91)
  | .cap => some (0, isOp 0x92)
  | .uncap => some (0, isOp 0x93)
  | .fix => some (0, isOp 0x94)
  | .setAccess => some (0, isOp 0x95)
  | .sanitizeDevice => some (0, isOp 0x98)
  | .selfTest => some (0, isOp 0x99)
  | .calibrate => some (0, isOp 0x9A)
  | .operationSuspend => some (0, fun e => isOp 0x9B e && Entry.b2E e ≠ 2 && Entry.b2E e ≠ 3)
  | .operationResume => some (0, fun e => isOp 0x9B e && Entry.b2E e = 2)
  | .operationCancel => some (0, fun e => isOp 0x9B e && Entry.b2E e = 3)
  | .firmwareDownload _ _ => some (0, isOp 0xA0)
  | .firmwareActivateNextReset => some (0, fun e => isOp 0xA1 e && Entry.b2C e ≠ 1 && Entry.b2C e ≠ 2)
  | .firmwareActivateImmediate => some (0, fun e => isOp 0xA1 e && Entry.b2C e = 1)
  | .firmwareActivateOtherBank => some (0, fun e => isOp 0xA1 e && Entry.b2C e = 2)
  | .attest _ => some (0, isOp 0xA2)
  | .epochCommit => some (0, isOp 0xA8)
  | .epochResolve => some (0, isOp 0xA9)
  | .invalidOpcodeCommand q => some (q, fun e => !s.opcodeAllowed false q e)
  | _ => none

/-- What a row brings with it: the bytes of a Firmware Download's piece, and the lengths of the segment list (R166, R231). -/
def rowGiven (c : Instr) : Given :=
  match c with
  | .firmwareDownload d l => ⟨d, l, 0⟩
  | .identify _ l | .getLogPage _ l | .getLogPageClear _ l | .getLogPageAcknowledge _ l | .attest l => ⟨[], l, 0⟩
  | _ => .nothing

/-- The row rules the entry f of ring q. -/
def State.Takes (s : State) (c : Instr) (q : Nat) (f : Fetched) : Prop :=
  ∃ k, s.hostRow c = some (q, k) ∧ k f.entry = true

/-- The row rules the entry, every check passes and its lock is free: the command i begins in the state t. -/
def State.Begins (s : State) (c : Instr) (q : Nat) (f : Fetched) (t : State) (i : Item) : Prop :=
  s.Sound ∧ s.Takes c q f ∧ s.Admits q f (rowGiven c) t i

/-! ## After a reset (R92, Table 04-4) -/

/-- What every reset leaves, whatever its cause: RESETn driven low, the islands held, the volatile state at its reset values, and the media
as they stand. -/
structure State.ResetLeaves (s t : State) : Prop where
  low : t.lands.resetLow = true ∧ t.lands.act = false ∧ t.lands.alive = .low
  islands : ∀ x ∈ t.rst.islands, x.2 = .held
  started : t.rst.face = .none ∧ t.rst.admin = false ∧ t.rst.io = false ∧ t.rst.recovered = false ∧ t.rst.imageRuns = false
  straps : t.strap = Strap.init
  host : t.pcie = Pcie.init ∧ t.nb = Narrow.init ∧ t.nib = Nib.init ∧ t.res = Res.init
  logs : t.flt.blotter = [] ∧ t.flt.unack = [] ∧ t.flt.safe = [] ∧ t.elog = ErrLog.init ∧ t.wall = none
  ligature : t.lig = Lig.init
  debug : t.dbg = Dbg.init
  ended : ∀ o ∈ t.lops.list, 3 ≤ o.state
  media : t.unit = s.unit ∧ t.rec_ = s.rec_ ∧ t.log.pages = s.log.pages ∧ t.log.cps = s.log.cps ∧ t.ftl.slots = s.ftl.slots
  flash : t.boot.bankA = s.boot.bankA ∧ t.boot.bankB = s.boot.bankB ∧ t.boot.swap0 = s.boot.swap0 ∧ t.boot.swap1 = s.boot.swap1

end Sys2Proof.Machine
end

