-- ==== Sys2Proof/Certificates/Slice0/Obligations.lean ====
section
/-! DEFINITION. The statements about the block, for the provers. A command of Table 08-1 is stated through `State.Admits`: its entry is at the
front of its ring, the nib can rule, every check passes and its lock is granted at once; `settleUp` is the work that a step leaves to be done
(commands at their turn, completions that persistence held, the ACT land, the LTR message), stated by itself in `WhatSettlingKeeps`. -/

open Sys2Proof Sys2Proof.Machine

/-! ## The machine as a whole -/

/-- A step runs the command at the front of the queue on the state with the queue's rest, and no command is refused and none faults: what the spec gives the
command happens, or nothing does. -/
def Obligations.StepRunsTheFrontCommand : Prop :=
  (∀ (c : Instr) (rest : List Instr) (s : State), s.pending = c :: rest → step s = exec c { s with pending := rest })
  ∧ (∀ (c : Instr) (s : State), ∃ t, exec c s = .next t)

/-- The model's choice of log entry 2: on an empty queue one millisecond passes, and time runs only while the module runs. -/
def Obligations.EmptyQueuePassesOneMillisecond : Prop :=
  ∀ s : State, s.pending = [] →
    (s.running = false → step s = .next { s with out := [] })
    ∧ (s.running = true → 0x01 ∉ s.flt.out → step s = .next { s with
        out := []
        rst := { s.rst with timeMs := s.rst.timeMs + 1 }
        wall := s.wall.map (· + 1)
        health := { s.health with powerOnMs := s.health.powerOnMs + 1 }
        lops := { s.lops with list := s.lops.list.map (fun o => if o.state = 1 then { o with active := o.active + 1 } else o) }
        dies := { s.dies with raisedMs := s.dies.raisedMs.filter (fun x => s.rst.timeMs < x.2 + 100) ++ s.raisedNow.map (fun c => (c, s.rst.timeMs + 1)) } })

/-- Every step keeps the sizes of the logs, the codes within their tables, rulings given once, and memories in canonical form. -/
def Obligations.EveryStepKeepsSoundness : Prop :=
  ∀ s t : State, s.Sound → step s = .next t → t.Sound

/-- The state after reset is sound, and it is the state of chapter 04: the reset stretch of a power-on reset (the values of log entries 3 and 4 are the
model's and are not stated here). -/
def Obligations.ResetIsSoundAndInTheStretch : Prop :=
  (State.reset.Sound)
  ∧ (State.reset.rst.phase = .stretch ∧ State.reset.rst.power = true ∧ State.reset.lands.resetLow = true
  ∧ (∀ x ∈ State.reset.rst.islands, x.2 = .held)
  ∧ State.reset.rst.admin = false ∧ State.reset.rst.io = false ∧ State.reset.rst.face = .none
  ∧ State.reset.aon.por = BitVec.allOnes 64 ∧ State.reset.aon.failed = 0
  ∧ State.reset.flt.blotter = [] ∧ State.reset.nib.pairs = [] ∧ State.reset.nib.items = [] ∧ State.reset.nb.task = .idle
  ∧ State.reset.pcie.ready = false ∧ State.reset.pcie.granted = 0 ∧ State.reset.dbg.unlocked = false ∧ State.reset.pending = [])

/-- What is permanent stays through every step, resets, power loss and Sanitize Device included: the factory data, worn read-only, and every
die and channel recorded as failed. -/
def Obligations.FailuresAndWearArePermanent : Prop :=
  ∀ s t : State, step s = .next t →
    t.unit = s.unit
    ∧ (s.rec_.worn = true → t.rec_.worn = true)
    ∧ (∀ d ∈ s.rec_.failedDies, d ∈ t.rec_.failedDies)
    ∧ (∀ c ∈ s.rec_.failedChannels, c ∈ t.rec_.failedChannels)

/-- While the module runs, the next ruling never goes back, and in a sound state no outstanding command has the next ruling or one above it. -/
def Obligations.RulingsNeverGoBack : Prop :=
  ∀ s t : State, s.Sound → s.running = true → t.running = true → step s = .next t →
    s.nib.next ≤ t.nib.next ∧ (∀ i ∈ t.nib.items, i.ruling < t.nib.next) ∧ t.nib.next ≠ 0

/-- What the settling work of a step keeps: the unit, the reset and start state, the straps, the always-on domain, the fault collector, the long
operations, the debug port, the wall time, the next ruling, the free values drawn and the queue of waiting commands. With nothing outstanding and nothing due, settling changes nothing: no command waits, no stall of the pool begins or ends, the lands and
the LTR row stand as they should. -/
def Obligations.WhatSettlingKeeps : Prop :=
  (∀ s : State,
    (settleUp s).unit = s.unit ∧ (settleUp s).rst = s.rst ∧ (settleUp s).strap = s.strap ∧ (settleUp s).aon = s.aon ∧ (settleUp s).flt = s.flt
    ∧ (settleUp s).lops = s.lops ∧ (settleUp s).dbg = s.dbg ∧ (settleUp s).wall = s.wall ∧ (settleUp s).nib.next = s.nib.next
    ∧ (settleUp s).drawn = s.drawn ∧ (settleUp s).pending = s.pending)
  ∧ (∀ s : State, s.nib.items = [] → s.pcie.clearing = false → s.pcie.d3Next = false → s.dies.reads = [] → s.nib.versions = [] → s.sup.draining = false →
    poolUpdate s = s → actUpdate s = s → s.pwr.ltr = s.ltrRow → settleUp s = s)

/-- A command of Table 08-1 leaves alone whatever is no business of its own: the unit, the reset and start state, the straps, the debug port and the
queue; it takes no reset and records no failure (R177, R201). -/
def Obligations.HostCommandsLeaveTheMachineAlone : Prop :=
  ∀ (c : Instr) (s t : State), (s.hostRow c).isSome = true → exec c s = .next t →
    t.unit = s.unit ∧ t.rst = s.rst ∧ t.strap = s.strap ∧ t.dbg = s.dbg ∧ t.drawn = s.drawn ∧ t.pending = s.pending
    ∧ t.flt.counts = s.flt.counts ∧ t.rec_.failedDies = s.rec_.failedDies ∧ t.rec_.failedChannels = s.rec_.failedChannels

/-! ## Resets and the stretch (chapters 02, 03, 04) -/

/-- Every reset that is taken drives RESETn low and leaves what Table 04-4 gives; AON keeps its content, counts the reset and, where the reset
is a pin reset of a start that has not reached ready, the failed start; it is initialised where it is found lost (R81, R92, R94, R98). -/
def Obligations.ResetsAreTaken : Prop :=
  (∀ (s : State) (good : Bool), s.rst.phase ≠ .dump → ∃ t, exec (.powerOnReset good) s = .next t ∧ s.ResetLeaves t ∧ t.health = s.health
    ∧ t.rst.phase = .stretch ∧ t.rst.power = true ∧ t.rst.aonValid = good ∧ t.sup.bank = .notFitted
    ∧ t.aon = if good then { s.aon with por := BitVec.allOnes 64, queue := [], resetNo := (s.aon.resetNo + 1) % 65536 } else Aon.lost)
  ∧ (∀ s : State, s.running = true → ∃ t, exec .pinReset s = .next t ∧ s.ResetLeaves t ∧ t.health = s.health
    ∧ t.rst.phase = .stretch ∧ t.rst.power = false ∧ t.rst.aonValid = true
    ∧ t.sup.bank = (if s.sup.bank = .ready then .ready else .notFitted)
    ∧ t.aon = { s.aon with failed := if s.startFails then min 15 (s.aon.failed + 1) else s.aon.failed
                           pin := BitVec.allOnes 64, queue := [], resetNo := (s.aon.resetNo + 1) % 65536 })
  ∧ (∀ s : State, s.startFails = true → ∃ t b, exec .failedStartLimit s = .next t ∧ s.ResetLeaves t ∧ t.rst.power = false
    ∧ t.aon.failed = min 15 (s.aon.failed + 1) ∧ t.aon.resetNo = (s.aon.resetNo + 1) % 65536
    ∧ (0x01 ∉ s.flt.out → b ∈ t.aon.tail ∧ b.kind = 2 ∧ b.detail = 3 ∧ b.seq = s.aon.nextSeq))
  ∧ (∀ s : State, s.rst.phase ≠ .off → s.rst.phase ≠ .dump → (s.running = false ∨ s.sup.bank ≠ .ready) →
      ∃ t, exec .powerLoss s = .next t ∧ t.rst.phase = .off ∧ t.aon = { s.aon with queue := [] } ∧ t.nib = Nib.init ∧ t.pcie = Pcie.init
        ∧ t.flt.blotter = [] ∧ t.rec_ = s.rec_ ∧ t.log.pages = s.log.pages ∧ t.ftl.slots = s.ftl.slots ∧ t.lands.resetLow = false)
  ∧ (∀ s : State, s.running = true → s.sup.bank = .ready → ∃ t, exec .powerLoss s = .next t ∧ t.rst.phase = .dump ∧ t.lands.resetLow = true
      ∧ t.nib.stopped = true ∧ t.nib.fetched = [] ∧ (∀ i ∈ t.nib.items, i ∈ s.nib.items ∧ i.past = true) ∧ t.out = []
      ∧ t.aon = s.aon ∧ t.log = s.log ∧ t.map = s.map)
  ∧ (∀ (s : State) (ranOut good : Bool), s.rst.phase = .dump → (s.rst.recovered = false ∨ ranOut = true) →
      ∃ t, exec (.dumpComplete ranOut true good) s = .next t ∧ s.ResetLeaves t ∧ t.rst.phase = .stretch ∧ t.rst.aonValid = good)
  ∧ (∀ (s : State) (ranOut good : Bool), s.rst.phase = .dump → (s.rst.recovered = false ∨ ranOut = true) →
      ∃ t, exec (.dumpComplete ranOut false good) s = .next t ∧ t.rst.phase = .off ∧ t.log.pages = s.log.pages)
  ∧ (∀ (s : State) (vcc3 good : Bool), s.rst.phase = .dump → s.rst.recovered = true →
      ∃ t l p, exec (.dumpComplete false vcc3 good) s = .next t ∧ t.rst.phase = (if vcc3 then .stretch else .off)
        ∧ t.log.pages = l ++ [p] ∧ p.dump = true ∧ p.clean = false ∧ p.opened = false ∧ t.nib = Nib.init ∧ t.out = [])

/-- The events of the reset stretch, in their order: the rows are read, eight samples are taken and decided, the collector is released, and at the
end of the stretch VCCQ is classified, the mode is that of the straps and the drive of RESETn is released (R37, R59, R60, R69, R81, R84). A land whose eight readings lie in one band takes the band's code, unless the code is reserved there or SA6 and SA7 together are reserved;
every other land has a strap fault, its bit in the map, and the setting of Table 03-7 (R61, R68, R71). -/
def Obligations.StretchEventsBuildTheStart : Prop :=
  (∀ (s : State) (good : Bool), s.rst.phase = .stretch → s.rst.rowsRead = false →
    exec (.sequencerRowRead good) s = .next { s with out := [], rst := { s.rst with rowsRead := true, calGood := good, osc50 := true } })
  ∧ (∀ (s : State) (l : List Nat), s.rst.phase = .stretch → s.rst.rowsRead = true → s.rst.samples.length < 7 →
    exec (.strapSample l) s = .next { s with
      out := [], rst := { s.rst with samples := s.rst.samples ++ [(List.range 9).map (fun n => l.getD n 0 * 1000 / s.senseCurrent)] } })
  ∧ (∀ (s : State) (l : List Nat), s.rst.phase = .stretch → s.rst.rowsRead = true → s.rst.samples.length = 7 →
    exec (.strapSample l) s = .next { s with
      out := [], rst := { s.rst with samples := s.rst.samples ++ [(List.range 9).map (fun n => l.getD n 0 * 1000 / s.senseCurrent)] }
      strap := decideStraps (s.rst.samples ++ [(List.range 9).map (fun n => l.getD n 0 * 1000 / s.senseCurrent)]) })
  ∧ (∀ s : State, s.rst.phase = .stretch → exec .faultIslandRelease s = .next { s with out := [], rst := { s.rst with faultReleased := true } })
  ∧ (∀ (s : State) (mv : Nat), s.rst.phase = .stretch → s.rst.samples.length = 8 → mv < 1650 →
    exec (.resetStretchEnd mv) s = .next { s with out := [], rst := { s.rst with phase := .extended } })
  ∧ (∀ (s : State) (mv : Nat) (c : Instr), 1650 ≤ mv → (mv < 2300 ∨ 2500 < mv) →
    (c = .resetStretchEnd mv ∧ s.rst.phase = .stretch ∧ s.rst.samples.length = 8 ∨ c = .vccqSettled mv ∧ s.rst.phase = .extended) →
    exec c s = .next { s with
      out := [], strap := { s.strap with vccq18 := some (decide (mv < 2300)), vccqMv := mv }
      rst := { s.rst with phase := .waitRelease, mode := if s.strap.faults = 0 then .normal else .recStrap }
      lands := { s.lands with resetLow := false } })
  ∧ (∀ (s : State) (mv : Nat) (c : Instr), 2300 ≤ mv → mv ≤ 2500 →
    (c = .resetStretchEnd mv ∧ s.rst.phase = .stretch ∧ s.rst.samples.length = 8 ∨ c = .vccqSettled mv ∧ s.rst.phase = .extended) →
    ∃ low, exec c s = .next { s with
      out := [], strap := { s.strap with vccq18 := some low, vccqMv := mv }, drawn := s.drawn + 1
      rst := { s.rst with phase := .waitRelease, mode := if s.strap.faults = 0 then .normal else .recStrap }
      lands := { s.lands with resetLow := false } })
  ∧ (∀ (x : List (List Nat)) (n : Nat), n < 9 → x ≠ [] →
    (∀ c, (∀ r ∈ x, strapBand (r.getD n 0) = some c) → strapReserved n c = false →
      (n = 6 ∨ n = 7 → pairFault (strapCode 6 (landReadings x 6)) (strapCode 7 (landReadings x 7)) = false) →
      (decideStraps x).codes.getD n 0 = c ∧ (decideStraps x).faults.getLsbD n = false)
    ∧ ((∀ c, ¬ ∀ r ∈ x, strapBand (r.getD n 0) = some c) ∨ (∃ c, strapReserved n c = true ∧ ∀ r ∈ x, strapBand (r.getD n 0) = some c) →
      (decideStraps x).codes.getD n 0 = (if n ≤ 2 then 7 else 0) ∧ (decideStraps x).faults.getLsbD n = true ∧ (decideStraps x).state = 1))

/-! ## Islands, face, image and readiness (chapter 04) -/

/-- An island that is due is released, or a channel's retry with it; a host face is armed with its island. A clock that does not come is tried
once more under FC10; a channel whose clock fails twice is left in reset (R85 to R89, R387). At reset release the start begins with the mode and the bank of Table 04-5 by the failed-start counter, the blotter refilled from the tail as
entries of an earlier start, EJECTn armed where it stands high, and the card not joined where it has a ligature address (R46, R96, R102, R404). -/
def Obligations.TheStartIsChosenAndIslandsReleased : Prop :=
  (∀ (s : State) (i : Island) (low : Bool), s.islandDue i = true → s.islandState i = .held → i ≠ .hostP → i ≠ .hostN →
    exec (.islandRelease i low) s = .next { s with
      out := [], rst := { s.rst with islands := s.rst.islands.map (fun x => if x.1 = i then (i, .released) else x) }
      sup := { s.sup with wpswLow := if i = .lig ∧ s.rst.admin = false then low else s.sup.wpswLow } })
  ∧ (∀ (s : State) (low : Bool), s.islandDue .hostP = true → s.islandState .hostP = .held → s.rst.admin = false → s.rst.face ≠ .narrow →
    exec (.islandRelease .hostP low) s = .next { s with
      out := [], sup := { s.sup with wpswLow := low }, lands := { s.lands with clkreqLow := true }
      rst := { s.rst with islands := s.rst.islands.map (fun x => if x.1 = .hostP then (.hostP, .released) else x), armedPcie := true
                          face := if s.sa0 = 2 then .pcie else s.rst.face } })
  ∧ (∀ (s : State) (low : Bool), s.islandDue .hostN = true → s.islandState .hostN = .held → s.rst.admin = false → s.rst.face ≠ .pcie →
    exec (.islandRelease .hostN low) s = .next { s with
      out := [], sup := { s.sup with wpswLow := low }
      rst := { s.rst with islands := s.rst.islands.map (fun x => if x.1 = .hostN then (.hostN, .released) else x), armedNarrow := true
                          face := if s.sa0 = 3 ∨ s.sa0 = 5 then .narrow else s.rst.face } })
  ∧ (∀ (s : State) (i : Island) (low : Bool), s.islandDue i = true → s.islandState i = .held → s.rst.admin = false →
    (i = .hostP ∧ s.rst.face = .narrow ∨ i = .hostN ∧ s.rst.face = .pcie) → exec (.islandRelease i low) s = .next { s with
      out := [], sup := { s.sup with wpswLow := low }, rst := { s.rst with islands := s.rst.islands.map (fun x => if x.1 = i then (i, .released) else x) } })
  ∧ (∀ (s : State) (i : Island), s.islandDue i = true → (i, .held) ∈ s.rst.islands → s.islandState i = .held → s.flt.unack = [] → s.flt.stopping = false →
    ∃ t b, exec (.islandClockTimeout i) s = .next t ∧ t.islandState i = .retried ∧ b ∈ t.flt.blotter ∧ b.kind = 1 ∧ b.cls = 10 ∧ b.level = 2
      ∧ b.source = islandSource i ∧ b.seq = s.aon.nextSeq ∧ t.rst.phase = .run)
  ∧ (∀ (s : State) (n : Fin 16), s.islandDue (.ch n) = true → s.islandState (.ch n) = .retried → s.recovery = true → s.flt.unack = [] →
    s.flt.stopping = false → ∃ t, exec (.islandClockTimeout (.ch n)) s = .next t ∧ t.islandState (.ch n) = .failed ∧ n.val ∈ t.dies.chHeld)
  ∧ (∀ (s : State) (i : Island), (∀ n, i ≠ .ch n) → s.islandDue i = true → s.islandState i = .retried → s.flt.unack = [] → s.flt.stopping = false →
    ∃ t, exec (.islandClockTimeout i) s = .next t ∧ s.ResetLeaves t ∧ t.rst.phase = .stretch
      ∧ t.aon.failed = if s.startFails then min 15 (s.aon.failed + 1) else s.aon.failed)
  ∧ (∀ (s : State) (high : Bool), s.rst.phase = .waitRelease → s.rst.calGood = true → vccqInRange s.strap.vccq18 s.strap.vccqMv = true →
    (s.boot.swap0.isSome = true ∨ s.boot.swap1.isSome = true) → 2 ≤ s.flt.cores.length → s.dies.decoders ≠ [] → s.flt.stopping = false →
    ∃ t, exec (.resetRelease high [] []) s = .next t ∧ t.rst.phase = .run ∧ t.rst.timeMs = 0 ∧ t.rst.startCount = s.aon.failed
      ∧ t.rst.mode = (if s.rst.mode = .recStrap then .recStrap else if 6 ≤ s.aon.failed then .recCount else .normal)
      ∧ t.rst.bank = (if t.rst.mode ≠ .normal then .a else if 3 ≤ s.aon.failed then otherBank s.boot.record.active else s.boot.record.active)
      ∧ t.rst.fallback = (decide (3 ≤ s.aon.failed) && decide (t.rst.mode = .normal))
      ∧ t.sup.ejectArmed = (high && s.ejectUsed)
      ∧ t.flt.blotter.length = s.aon.tail.length ∧ (∀ b ∈ t.flt.blotter, b.earlier = true)
      ∧ t.lig.state = (if s.ligAddress.isSome && decide (t.rst.mode = .normal) then 1 else 0)
      ∧ t.lands.alive = (if t.rst.mode ≠ .normal ∨ s.safe = true then .hz8 else .khz1)
      ∧ t.aon = s.aon ∧ t.strap = s.strap ∧ t.nib = s.nib ∧ t.pcie = s.pcie ∧ t.log = s.log ∧ t.out = [])

/-- The first event on an armed face selects it, the preferred face on a tie, and the other face is disarmed; with no event both stay (R89). -/
def Obligations.TheFirstEventSelectsTheFace : Prop :=
  ∀ (s : State) (ts1 frame : Bool), s.running = true → s.rst.face = .none →
    exec (.faceSelection ts1 frame) s = .next (
      if frame = true ∧ s.rst.armedNarrow = true ∧ (ts1 = false ∨ s.rst.armedPcie = false ∨ s.sa0 = 1) then
        { s with out := [], rst := { s.rst with face := .narrow, armedPcie := false }, lands := { s.lands with clkreqLow := false } }
      else if ts1 = true ∧ s.rst.armedPcie = true then { s with out := [], rst := { s.rst with face := .pcie, armedNarrow := false } }
      else { s with out := [] })

/-- The image runs where its check passes, else FC7 is recorded and the start ends in a reset; the DRAM is trained while the image runs; in minimal
recovery mode the start reaches admin ready without either (R90, R95, R100, R366). -/
def Obligations.TheStartReachesAdminReady : Prop :=
  (∀ s : State, s.running = true → s.recovery = false → s.rst.imageRuns = false → s.ordersDone 2 = true → s.imagePasses s.rst.bank = true →
    ∃ x : Boot, exec .imageCheck s = .next { s with out := [], rst := { s.rst with imageRuns := true }, boot := x }
      ∧ x.bankA = s.boot.bankA ∧ x.bankB = s.boot.bankB ∧ x.swap0 = s.boot.swap0 ∧ x.swap1 = s.boot.swap1
      ∧ x.runVersion = s.bankVersion s.rst.bank ∧ x.runMeasure = measurement (s.bankOf s.rst.bank).bytes)
  ∧ (∀ s : State, s.running = true → s.recovery = false → s.rst.imageRuns = false → s.rst.io = false → s.rst.admin = false → s.ordersDone 2 = true →
    s.imagePasses s.rst.bank = false → s.flt.unack = [] → s.flt.stopping = false → ∃ t, exec .imageCheck s = .next t ∧ s.ResetLeaves t
      ∧ t.aon.failed = min 15 (s.aon.failed + 1) ∧ t.aon.resetNo = (s.aon.resetNo + 1) % 65536)
  ∧ (∀ s : State, s.running = true → s.rst.imageRuns = true → exec .dramTrained s = .next { s with out := [], rst := { s.rst with dram := true } })
  ∧ (∀ s : State, s.running = true → s.rst.admin = false → s.ordersDone 4 = true → s.recovery = true → s.nib.fetched = [] →
    exec .adminReady s = .next (settleUp { s with
      out := [], rst := { s.rst with admin := true }, pcie := { s.pcie with ready := s.pcie.ready || (s.pair? 0).isSome } }))
  ∧ (∀ s : State, s.running = true → s.rst.admin = false → s.ordersDone 4 = true → s.recovery = false → s.rst.imageRuns = true → s.rst.dram = true →
    s.nib.fetched = [] → mismatchMap s.rec_.profile s.profile = 0 →
    ∃ u, exec .adminReady s = .next (settleUp u) ∧ u.rst = { s.rst with admin := true } ∧ u.strap.state = 0
      ∧ u.pcie.ready = (s.pcie.ready || (s.pair? 0).isSome)
      ∧ u.nib.next = max s.nib.next (match newestPage s.log.pages with | some p => p.ceiling | none => 1)
      ∧ u.nib.ceiling = (match newestPage s.log.pages with | some p => p.ceiling | none => 1) + 0x100000000
      ∧ u.log.pages.length = s.log.pages.length + 1 ∧ u.aon = s.aon ∧ u.health = s.health)
  ∧ (∀ s : State, s.running = true → s.rst.admin = false → s.ordersDone 4 = true → s.recovery = false → s.rst.imageRuns = true → s.rst.dram = true →
    s.nib.fetched = [] → mismatchMap s.rec_.profile s.profile ≠ 0 → s.rst.fallback = false → s.boot.rebuild = false →
    ∃ u, exec .adminReady s = .next (settleUp u) ∧ u.rst = { s.rst with admin := true } ∧ u.strap.state = 2
      ∧ u.strap.recorded = BitVec.ofNat 8 s.rec_.profile ∧ u.aon.failed = 0 ∧ u.health.starts = sat 32 (s.health.starts + 1))

/-- After a clean shutdown recovery presents the checkpoint's map; after any other stop it presents the items ruled at or below the Settled ruling
of the log, counts the unclean start and writes an Opened page. I/O ready then clears the failed-start counter and
begins the sweep of the swatches; in a stroke-only profile the data of a single-level band is moved on (R93, R94, R279, R292, R321, R336, R338, R470). -/
def Obligations.RecoveryPresentsThePrefix : Prop :=
  (∀ (s : State) (errors : List (List (List Nat))) (bad : Option Nat), s.running = true → s.rst.admin = true → s.recovery = false →
    s.mismatch = false → s.rst.recovered = false → s.rst.clean = true → s.rec_.sanitize = none → (∀ b ∈ s.ftl.bands, b.st ≠ .erasing) →
    ∃ t, exec (.recovery errors bad) s = .next t ∧ t.rst = { s.rst with recovered := true } ∧ t.nib = { s.nib with adm := t.map }
      ∧ t.map = (match s.validCp with | some c => c.map | none => MapState.empty) ∧ t.log = s.log ∧ t.health = s.health ∧ t.ftl.slots = s.ftl.slots
      ∧ t.ftl.bands.map (fun b => (b.n, b.st, b.erases)) = s.ftl.bands.map (fun b => (b.n, b.st, b.erases)))
  ∧ (∀ (s : State) (errors : List (List (List Nat))) (bad : Option Nat), s.running = true → s.rst.admin = true → s.recovery = false →
    s.mismatch = false → s.rst.recovered = false → s.rst.clean = false → s.rec_.sanitize = none → bad = none → (∀ b ∈ s.ftl.bands, b.st ≠ .erasing) →
    ∃ t p, exec (.recovery errors bad) s = .next t ∧ t.rst = { s.rst with recovered := true } ∧ t.map = (s.recovered_ none).2 ∧ t.nib.adm = t.map
      ∧ t.log.pages = s.log.pages ++ [p] ∧ p.opened = true ∧ p.settled = maxSettled s.log.pages ∧ p.ceiling = s.nib.ceiling
      ∧ t.health = { s.health with unclean := sat 32 (s.health.unclean + 1) } ∧ t.flt = s.flt ∧ t.ftl.slots = s.ftl.slots)
  ∧ (∀ (s : State) (errors : List (List (List Nat))) (b : Band) (c : Nat) (x : Blk), s.running = true → s.rst.admin = true → s.recovery = false →
    s.mismatch = false → s.rst.recovered = false → s.ftl.bands = [b] → b.st = .erasing → c ∈ b.chans → s.dieDead (dieOf c (bandGroup b.n)) = false →
    x ∈ b.blks → x.key / 4 = dieOf c (bandGroup b.n) → x.st ≠ .erased → dieOf c (bandGroup b.n) ∉ s.namedDies →
    ∃ t, exec (.recovery errors none) s = .next t
      ∧ { die := dieOf c (bandGroup b.n), cls := 3, kind := .erase b.n, minRun := false, since := s.rst.timeMs } ∈ t.dies.queue)
  ∧ (∀ (s : State) (b : Band) (d k : Nat), s.running = true → s.recovery = false → s.mismatch = false → s.rst.admin = true → s.rst.io = false →
    s.rst.recovered = true → s.nib.items = [] → s.nib.fetched = [] → s.rec_.sanitize = none → s.rec_.rebuilds = [] → s.lops.list = [] → s.spareCount ≠ 0 →
    s.lig.state = 0 → s.ftl.bands = [b] → s.dies.sweep = [] → s.dies.probes = [] → s.dies.chHeld = [] → s.namedDies = [] → d < 64 → (d, b.n, k) ∈ b.probed →
    ∃ u pr, exec .ioReady s = .next (settleUp u) ∧ pr ∈ u.dies.probes ∧ pr.die = d ∧ pr.band = b.n ∧ pr.cls = 3 ∧ pr.rd = none ∧ pr.todo.length = 4
      ∧ { die := d, cls := 3, kind := .probe pr.id, minRun := false, since := s.rst.timeMs } ∈ u.dies.queue)
  ∧ (∀ (s : State) (b : Band), s.running = true → s.recovery = false → s.mismatch = false → s.rst.admin = true → s.rst.io = false →
    s.rst.recovered = true → s.nib.items = [] → s.nib.fetched = [] → s.rec_.sanitize = none → s.rec_.rebuilds = [] → s.lops.list = [] → s.spareCount ≠ 0 →
    s.lig.state = 0 → s.boot.swapWork = none → s.ftl.bands = [b] → b.probed = [] → s.dies.sweep = [] → s.strokeOnly = true → b.tlc = false → s.isHostBand b.n = true →
    (b.st = .closed ∨ b.st = .closedEarly) → s.liveSlots b.n ≠ [] → s.ftl.emptying = [] → s.ftl.moves = [] →
    ∃ u e, exec .ioReady s = .next (settleUp u) ∧ e ∈ u.ftl.emptying ∧ e.band = b.n ∧ e.cls = 3 ∧ u.ftl.slots = s.ftl.slots ∧ u.map = s.map
      ∧ ∀ n ∈ s.liveSlots b.n, ∃ m ∈ u.ftl.moves, m.old = n)
  ∧ (∀ s : State, s.running = true → s.recovery = false → s.rst.admin = true → s.rst.io = false → s.rst.recovered = true → s.nib.items = [] → s.nib.fetched = [] →
    s.boot.swapWork = none → (s.strokeOnly = true → ∀ b ∈ s.ftl.bands, s.liveSlots b.n = []) → (∀ b ∈ s.ftl.bands, b.probed = []) → s.dies.sweep = [] → s.dies.chHeld = [] → s.namedDies = [] → s.rec_.sanitize = none → s.rec_.rebuilds = [] → s.lops.list = [] → s.spareCount ≠ 0 → s.lig.state = 0 → s.rst.fallback = false →
    s.boot.rebuild = false → s.boot.record.trial = false →
    exec .ioReady s = .next (settleUp { s with
      out := [], rst := { s.rst with io := true }, aon := { s.aon with failed := 0 }
      health := { s.health with starts := sat 32 (s.health.starts + 1) }, boot := { s.boot with owed := false, rebuild := false } }))

/-! ## The PCI Express face (chapter 06) -/

/-- The link trains to no more than the SA1 ceiling; hot reset, link down, function level reset and the exit from D3hot take the bootstrap block, the
queues and the MSI-X table to their reset values, end every command of the host without a completion, and start no reset stretch (R146, R163). -/
def Obligations.InBandEventsEndTheHostsCommands : Prop :=
  (∀ (s : State) (speed width : Nat) (rev : Bool) (h : HostCfg), s.onPcie = true → speed ≠ 0 → ∃ x : Flt,
    exec (.linkTrained speed width rev h) s = .next (settleUp { s with
      out := if h.command.getLsbD 2 = true then s.pcie.tx else []
      pcie := { s.pcie with
        speed := min speed s.linkCeiling.1, width := min width s.linkCeiling.2, lane0 := if rev = true ∧ s.linkCeiling.2 = 2 then 1 else 0, host := h
        tx := if h.command.getLsbD 2 = true then [] else s.pcie.tx }
      flt := x })
    ∧ (∀ u ∈ x.unack, u ∈ s.flt.unack) ∧ x.counts = s.flt.counts ∧ x.events = s.flt.events ∧ (s.flt.unack = [] → x = s.flt))
  ∧ (∀ (s : State) (c : Instr) (p : Pcie), s.onPcie = true →
    (c = .hotReset ∧ p = Pcie.init ∨ c = .linkDown ∧ p = Pcie.init
      ∨ c = .functionLevelReset ∧ p = { Pcie.init with
          speed := s.pcie.speed, width := s.pcie.width, lane0 := s.pcie.lane0, host := flrHost s.pcie.host,
          aerUncor := s.pcie.aerUncor, aerCor := s.pcie.aerCor, aerHeader := s.pcie.aerHeader }) →
    ∃ u, exec c s = .next (settleUp u) ∧ u.pcie = p
      ∧ u.nib.pairs = [] ∧ u.nib.fetched = s.nib.fetched.filter (·.narrow)
      ∧ (.retrain ∈ u.out ↔ c = .linkDown) ∧ (∀ y ∈ u.out, y = .retrain ∨ ∃ q cid, y = .undefinedBuffer q cid)
      ∧ (∀ i ∈ u.nib.items, i.narrow = true ∨ i.q = 65535)
      ∧ (∀ i ∈ s.nib.items, i.narrow = false → i.q ≠ 65535 → i.past = false → ∀ j ∈ u.nib.items, j.ruling ≠ i.ruling)
      ∧ u.rst = s.rst ∧ u.strap = s.strap ∧ u.aon = s.aon ∧ u.log = s.log ∧ u.map = s.map ∧ u.rec_ = s.rec_ ∧ u.nib.next = s.nib.next)
  ∧ (∀ s : State, s.onPcie = true → s.pcie.d3hot = true → ∃ u, exec .d3hotExit s = .next (settleUp u)
      ∧ u.pcie = { Pcie.init with speed := s.pcie.speed, width := s.pcie.width, lane0 := s.pcie.lane0 } ∧ u.nib.pairs = []
      ∧ u.pwr.ps = (if 2 ≤ s.effectiveStep then 1 else 0) ∧ u.pwr.entering4 = false ∧ u.lands.clkreqLow = true ∧ u.rst = s.rst ∧ u.aon = s.aon)
  ∧ (∀ s : State, s.onPcie = true → s.pcie.d3hot = false → s.pcie.ready = false → s.pcie.clearing = false → s.recovery = false → s.mismatch = false →
    ∃ u, exec .d3hotEntry s = .next (settleUp u) ∧ u.pcie = { s.pcie with enable := false, d3hot := true, d3Next := false } ∧ u.pwr = { s.pwr with entering4 := true }
      ∧ u.log = { s.log with closing := true } ∧ u.nib = s.nib ∧ u.rst = s.rst ∧ u.out = [])
  ∧ (∀ s : State, s.onPcie = true → s.pcie.d3hot = false → s.pcie.ready = true → s.pcie.clearing = false → s.nib.items = [] → s.nib.fetched = [] →
    s.recovery = false → s.mismatch = false → ∃ u, exec .d3hotEntry s = .next (settleUp u) ∧ u.pcie.granted = 0 ∧ u.pcie.ready = false
      ∧ u.pcie.d3hot = true ∧ u.nib.pairs = [] ∧ u.pwr.entering4 = true ∧ u.rst = s.rst)
  ∧ (∀ (s : State) (i : Item), s.onPcie = true → s.pcie.d3hot = false → s.pcie.ready = true → s.pcie.clearing = false → s.nib.items = [i] → i.narrow = false →
    i.q ≠ 65535 → i.past = true → ∃ u, exec .d3hotEntry s = .next (settleUp u) ∧ u.pcie.enable = false ∧ u.pcie.ready = true ∧ u.pcie.d3hot = false
      ∧ u.pcie.d3Next = true ∧ u.nib.items = [i] ∧ u.pwr = s.pwr ∧ u.rst = s.rst)
  ∧ (∀ s : State, s.onPcie = true → 2 ≤ s.pcie.l1 → exec .clkreqnHostAssert s = .next { s with
      out := [], pcie := { s.pcie with l1 := 0 }, lands := { s.lands with clkreqLow := true } })

/-- Setting Enable checks the request, the bases and the sizes: a failure sets Refused and leaves Ready and Granted; success clears Refused, grants
the version, and makes queue pair 0, the admin pair: well 0, vector 0, Burst 32. Ready follows at once, or at admin ready (R155). Clearing Enable while Ready is 1 aborts every command of the host before its cancel point and, once none is left, deletes the pairs and clears
Granted and Ready. The shutdown request starts the shutdown sequence; its end sets the field to 10b (R156, R157, R341). -/
def Obligations.EnableIsSetClearedAndShutDown : Prop :=
  (∀ s : State, s.barOpen = true → s.pcie.enable = false → s.pcie.clearing = false → s.enablePasses = false →
    exec .bootstrapEnable s = .next (settleUp { s with out := [], pcie := { s.pcie with enable := true, refused := true } }))
  ∧ (∀ s : State, s.barOpen = true → s.pcie.enable = false → s.pcie.clearing = false → s.nib.pairs = [] →
    s.pcie.request ≤ 2 → s.pcie.asq % 4096 = 0 → s.pcie.acq % 4096 = 0 → 2 ≤ s.pcie.asqSize → s.pcie.asqSize ≤ 4096 → 2 ≤ s.pcie.acqSize →
    s.pcie.acqSize ≤ 4096 → exec .bootstrapEnable s = .next (settleUp { s with
      out := []
      pcie := { s.pcie with enable := true, refused := false, granted := if s.pcie.request = 2 then 2 else 1, ready := s.rst.admin, shutReq := false, shutdown := 0 }
      nib := { s.nib with pairs := [{ id := 0, well := 0, vector := 0, burst := 32, sqBase := s.pcie.asq, cqBase := s.pcie.acq, sqSize := s.pcie.asqSize
                                      cqSize := s.pcie.acqSize, tail := 0, head := 0, cqHead := 0, cqTail := 0, phase := true, frozen := none
                                      refetch := false, retry := [], contained := false, deleting := false }] } }))
  ∧ (∀ s : State, s.barOpen = true → s.pcie.enable = true → s.pcie.ready = false → exec .bootstrapEnableClear s = .next (settleUp { s with
      out := [], pcie := { s.pcie with enable := false } }))
  ∧ (∀ s : State, s.barOpen = true → s.pcie.enable = true → s.pcie.ready = true → s.pcie.clearing = false → s.nib.items = [] → s.nib.fetched = [] →
    exec .bootstrapEnableClear s = .next (settleUp { s with
      out := [], nib := { s.nib with pairs := [], paused := s.boot.activating }, pcie := { s.pcie with enable := false, granted := 0, ready := false } }))
  ∧ (∀ s : State, s.barOpen = true → s.pcie.enable = true → s.pcie.ready = true → s.pcie.clearing = false → (∀ i ∈ s.nib.items, i.ruling ≠ 0) →
    ∃ u, exec .bootstrapEnableClear s = .next (settleUp u) ∧ u.pcie.enable = false ∧ (∀ i ∈ u.nib.items, i.narrow = true ∨ i.past = true)
      ∧ (∀ f ∈ u.nib.fetched, f.narrow = true) ∧ u.rst = s.rst ∧ u.map = s.map ∧ u.log = s.log ∧ u.nib.next = s.nib.next)
  ∧ (∀ s : State, s.barOpen = true → s.pcie.ready = true → s.pcie.shutdown = 0 → s.ftl.fill = [] → exec .shutdownRequest s = .next (settleUp { s with
      out := [], pcie := { s.pcie with shutReq := true, shutdown := 1 }, log := { s.log with closing := true } }))
  ∧ (∀ s : State, s.running = true → s.log.closing = true → s.pwr.entering4 = false → s.rst.io = true → s.nib.fetched = [] → s.nib.items = [] →
    s.res.staged = [] → s.ftl.emptying = [] → ∃ u p l, exec .shutdownComplete s = .next (settleUp u)
      ∧ u.log.pages = l ++ [p] ∧ p.clean = true ∧ u.log.buf = [] ∧ u.log.inflight = [] ∧ u.log.closing = false ∧ u.log.needOpened = true
      ∧ u.pcie.shutdown = (if s.pcie.shutdown = 1 then 2 else s.pcie.shutdown) ∧ u.rst = s.rst ∧ u.map = s.map ∧ u.nib.next = s.nib.next)
  ∧ (∀ s : State, s.running = true → s.log.closing = true → s.pwr.entering4 = false → s.rst.io = false → (s.recovery = true ∨ s.mismatch = true) →
    s.nib.fetched = [] → s.nib.items = [] → s.res.staged = [] → exec .shutdownComplete s = .next (settleUp { s with
      out := [], log := { s.log with closing := false }, pcie := { s.pcie with shutdown := if s.pcie.shutdown = 1 then 2 else s.pcie.shutdown } }))

/-- A read of 1 to 8 bytes within 8 returns its bytes, a wider one Completer Abort, which AER reports; while the function claims no address, an access is
an Unsupported Request (R148, R151, R164). A write acts only as 4 bytes at a 4-byte boundary or 8 at an 8-byte
boundary, as the lower half and then the upper; the writable fields of the bootstrap block ignore writes while Enable or Ready is 1 (R151, R154). A doorbell names the new tail or head of a pair that exists; an index beyond the ring is discarded with an error log entry of the invalid-doorbell
status, and freezes nothing (R169, R191). -/
def Obligations.Bar0AnswersAndDoorbellsMoveTheRings : Prop :=
  (∀ (s : State) (off len : Nat), s.barOpen = true → (8 < len ∨ 8 < off % 8 + len) → ∃ (c : BitVec 32) (h : BitVec 128) (o : List Out),
    exec (.bar0OversizedRead off len) s = .next { s with
      out := o ++ [.completerAbort]
      pcie := { s.pcie with status := s.pcie.status ||| 0x0800, aerUncor := s.pcie.aerUncor ||| 0x8000, aerCor := c, aerHeader := h } }
    ∧ ∀ y ∈ o, ∃ k, y = .errMessage k)
  ∧ (∀ (s : State) (off len : Nat), s.linkUp = true → s.barOpen = false → ∃ (c : BitVec 32) (h : BitVec 128) (o : List Out),
    exec (.bar0OversizedRead off len) s = .next { s with
      out := o ++ [.unsupportedRequest], pcie := { s.pcie with aerUncor := s.pcie.aerUncor ||| 0x100000, aerCor := c, aerHeader := h } }
    ∧ ∀ y ∈ o, ∃ k, y = .errMessage k)
  ∧ (∀ (s : State) (off len : Nat) (v : BitVec 64), s.linkUp = true → s.barOpen = false → ∃ (h : BitVec 128) (o : List Out),
    exec (.bar0RegisterWrite off len v) s = .next (settleUp { s with
      out := o, pcie := { s.pcie with aerUncor := s.pcie.aerUncor ||| 0x100000, aerHeader := h } })
    ∧ ∀ y ∈ o, ∃ k, y = .errMessage k)
  ∧ (∀ (s : State) (off len : Nat), s.barOpen = true → len ≤ 8 → off % 8 + len ≤ 8 →
    exec (.bar0OversizedRead off len) s = .next { s with out := [.barData (s.barRead off len)] })
  ∧ (∀ (s : State) (off len : Nat) (v : BitVec 64), s.barOpen = true → ¬ (len = 4 ∧ off % 4 = 0) → ¬ (len = 8 ∧ off % 8 = 0) →
    exec (.bar0RegisterWrite off len v) s = .next (settleUp { s with out := [] }))
  ∧ (∀ (s : State) (off len : Nat) (v : BitVec 64), s.barOpen = true → (off < 0x1000 ∨ 0x1024 ≤ off ∧ off < 0x4000 ∨ 0x10000 ≤ off) →
    (len = 4 ∨ len = 8 ∧ (off + 8 ≤ 0x1000 ∨ 0x1024 ≤ off ∧ off + 8 ≤ 0x4000 ∨ 0x10000 ≤ off)) →
    exec (.bar0RegisterWrite off len v) s = .next (settleUp { s with out := [] }))
  ∧ (∀ (s : State) (off : Nat) (v : BitVec 64), s.barOpen = true → (s.pcie.enable = true ∨ s.pcie.ready = true) → 0x1000 ≤ off → off < 0x1024 →
    off % 4 = 0 → off ≠ 0x1008 → exec (.bar0RegisterWrite off 4 v) s = .next (settleUp { s with out := [] }))
  ∧ (∀ (s : State) (v : BitVec 64), s.barOpen = true → s.pcie.enable = false → s.pcie.ready = false →
    exec (.bar0RegisterWrite 0x1004 4 v) s = .next (settleUp { s with out := [], pcie := { s.pcie with request := (v.extractLsb' 0 8).toNat } })
    ∧ exec (.bar0RegisterWrite 0x1010 8 v) s = .next (settleUp { s with out := [], pcie := { s.pcie with asq := v.toNat } })
    ∧ exec (.bar0RegisterWrite 0x1018 8 v) s = .next (settleUp { s with out := [], pcie := { s.pcie with acq := v.toNat } })
    ∧ exec (.bar0RegisterWrite 0x1020 4 v) s = .next (settleUp { s with
        out := [], pcie := { s.pcie with asqSize := (v.extractLsb' 0 16).toNat, acqSize := (v.extractLsb' 16 16).toNat } }))
  ∧ (∀ s : State, s.barByte 0x1000 = 3 ∧ s.barByte 0x1005 = BitVec.ofNat 8 s.pcie.granted ∧ s.barByte 0x100C = BitVec.ofNat 8 s.bootstrapStatus
    ∧ ∀ a, (0x1024 ≤ a ∧ a < 0x8000 ∨ 0x10100 ≤ a) → s.barByte a = 0)
  ∧ (∀ (s : State) (q : Nat) (v : BitVec 32) (p : Pair), s.barOpen = true → s.pair? q = some p → (v.extractLsb' 0 16).toNat < p.sqSize →
    (q ≠ 0 ∨ v.getLsbD 31 = false) → exec (.submissionTailDoorbell q v) s = .next { s with
      out := [], pwr := { s.pwr with entering4 := false }
      nib := { s.nib with pairs := s.nib.pairs.map (fun x => if x.id = q then { x with tail := (v.extractLsb' 0 16).toNat } else x) } })
  ∧ (∀ (s : State) (q : Nat) (v : BitVec 32) (p : Pair), s.barOpen = true → s.pair? q = some p → (v.extractLsb' 0 16).toNat < p.cqSize →
    exec (.completionHeadDoorbell q v) s = .next { s with
      out := [], pwr := { s.pwr with entering4 := false }
      nib := { s.nib with pairs := s.nib.pairs.map (fun x => if x.id = q then { x with cqHead := (v.extractLsb' 0 16).toNat } else x) } })
  ∧ (∀ (s : State) (q : Nat) (v : BitVec 32) (p : Pair) (c : Instr) (d : Nat), s.barOpen = true → s.pair? q = some p →
    (c = .submissionTailDoorbell q v ∧ p.sqSize ≤ (v.extractLsb' 0 16).toNat ∧ d = 0
      ∨ c = .completionHeadDoorbell q v ∧ p.cqSize ≤ (v.extractLsb' 0 16).toNat ∧ d = 1) →
    ∃ e, exec c s = .next { s with out := [], elog := { list := (e :: s.elog.list).take 256, count := s.elog.count + 1 } }
      ∧ e.detail = d ∧ e.status = 8 ∧ e.q = q ∧ e.pos = (v.extractLsb' 0 16).toNat ∧ e.ruling = 0 ∧ e.count = s.elog.count + 1)
  ∧ (∀ (s : State) (q : Nat) (v : BitVec 32), s.barOpen = true → s.pair? q = none →
    exec (.submissionTailDoorbell q v) s = .next { s with out := [] } ∧ exec (.completionHeadDoorbell q v) s = .next { s with out := [] })

/-- Pair 0 is resumed by its tail doorbell alone: a Resume Queue that names it fails the field check; a frozen pair 0 takes the resume, with retry or
skip, and the new tail from the one write; an unfrozen one takes the tail and nothing else (R192). -/
def Obligations.PairZeroIsResumedByItsDoorbell : Prop :=
  (∀ (s : State) (e : Entry), Entry.opcode e = 0x82 → Entry.h2C e = 0 → s.recovery = false → s.mismatch = false →
    ∃ f, s.checkEarly false 0 e = some f ∧ f.status = 2)
  ∧ (∀ (s : State) (v : BitVec 32) (p : Pair) (k : Nat), s.barOpen = true → s.pair? 0 = some p → p.frozen = some k →
    (v.extractLsb' 0 16).toNat < p.sqSize → exec (.pair0ResumeDoorbell v) s = .next { s with
      out := [], pwr := { s.pwr with entering4 := false }
      nib := { s.nib with pairs := s.nib.pairs.map (fun x => if x.id = 0 then
        { x with tail := (v.extractLsb' 0 16).toNat, frozen := none, retry := if v.getLsbD 30 then x.retry else x.retry ++ x.frozen.toList } else x) } })
  ∧ (∀ (s : State) (v : BitVec 32) (p : Pair), s.barOpen = true → s.pair? 0 = some p → p.frozen = none → (v.extractLsb' 0 16).toNat < p.sqSize →
    exec (.pair0ResumeDoorbell v) s = .next { s with
      out := [], pwr := { s.pwr with entering4 := false }
      nib := { s.nib with pairs := s.nib.pairs.map (fun x => if x.id = 0 then { x with tail := (v.extractLsb' 0 16).toNat } else x) } })

/-- A message goes out where MSI-X is enabled and neither the function nor the vector is masked; a masked vector keeps a pending bit, and its
unmasking sends the one message. While Bus Master is 0 a message waits in the transmit path, and stands there for every further entry of its vector (R148, R159). -/
def Obligations.MsixMessagesAndPendingBits : Prop :=
  (∀ (s : State) (v : Nat), sendMsix v s =
    if s.pcie.host.msixEnable = false ∨ s.pcie.host.msixMask = true then s
    else if s.vectorMasked v = true then { s with pcie := { s.pcie with msixPending := if v ∈ s.pcie.msixPending then s.pcie.msixPending else s.pcie.msixPending ++ [v] } }
    else if .msix v ∈ s.pcie.tx then s
    else if s.pcie.host.command.getLsbD 2 = true then { s with out := s.out ++ [.msix v] }
    else { s with pcie := { s.pcie with tx := s.pcie.tx ++ [.msix v] } })
  ∧ (∀ (s : State) (v : Nat), s.barOpen = true → v < 2048 → s.pcie.host.msixEnable = true → s.pcie.host.msixMask = false → v ∈ s.pcie.msixPending →
    Mem.wf 0 s.pcie.msixTable = true → ∃ m, exec (.msixVectorUnmask v) s = .next { s with
      out := if s.busMaster = true then [.msix v] else []
      pcie := { s.pcie with
        msixTable := m, msixPending := s.pcie.msixPending.filter (· ≠ v), tx := if s.busMaster = true then s.pcie.tx else s.pcie.tx ++ [.msix v] } }
      ∧ ∀ a, Mem.get 0 m a = if a = 16 * v + 12 then 1 else Mem.get 0 s.pcie.msixTable a)
  ∧ (∀ (s : State) (v : Nat), s.barOpen = true → v < 2048 → v ∉ s.pcie.msixPending → Mem.wf 0 s.pcie.msixTable = true →
    ∃ m, exec (.msixVectorUnmask v) s = .next { s with out := [], pcie := { s.pcie with msixTable := m } }
      ∧ ∀ a, Mem.get 0 m a = if a = 16 * v + 12 then 1 else Mem.get 0 s.pcie.msixTable a)

/-- The link errors of Table 06-10, each with its bits in the AER registers: a corrected one counts in the health log, a poisoned or unsupported request that is
non-posted is answered as unsupported; the others record FC8, with the AER status word as detail, and retrain; a failed read of host memory is issued again
once, and then its command fails with the host-transfer status (R164). -/
def Obligations.LinkErrorsAreReported : Prop :=
  (∀ (s : State) (aer : BitVec 32) (hd : BitVec 128), s.onPcie = true → ∃ o : List Out, exec (.linkError .corrected aer hd) s = .next (settleUp { s with
      out := o, pcie := { s.pcie with aerCor := s.pcie.aerCor ||| aer }, health := { s.health with linkErrors := sat 32 (s.health.linkErrors + 1) } })
      ∧ ∀ y ∈ o, ∃ k, y = .errMessage k)
  ∧ (∀ (s : State) (aer : BitVec 32) (hd : BitVec 128) (posted : Bool), s.onPcie = true → ∃ (o : List Out) (x : BitVec 32) (h : BitVec 128),
    exec (.linkError (.poisonedRequest posted) aer hd) s = .next (settleUp { s with
      out := o
      pcie := { s.pcie with
        status := s.pcie.status ||| (if aer.getLsbD 12 = true then 0x8000 else 0), aerUncor := s.pcie.aerUncor ||| aer, aerCor := x, aerHeader := h } })
      ∧ (.unsupportedRequest ∈ o ↔ posted = false) ∧ (∀ y ∈ o, y = .unsupportedRequest ∨ ∃ k, y = .errMessage k))
  ∧ (∀ (s : State) (aer : BitVec 32) (hd : BitVec 128) (posted : Bool), s.onPcie = true → ∃ (o : List Out) (x : BitVec 32) (h : BitVec 128),
    exec (.linkError (.unsupported posted) aer hd) s = .next (settleUp { s with
      out := o, pcie := { s.pcie with aerUncor := s.pcie.aerUncor ||| 0x100000, aerCor := x, aerHeader := h } })
      ∧ (.unsupportedRequest ∈ o ↔ posted = false) ∧ (∀ y ∈ o, y = .unsupportedRequest ∨ ∃ k, y = .errMessage k))
  ∧ (∀ (s : State) (aer : BitVec 32) (hd : BitVec 128), s.onPcie = true → s.flt.unack = [] → s.flt.stopping = false → s.nib.items = [] →
    ∃ u b, exec (.linkError .replay aer hd) s = .next (settleUp u) ∧ .retrain ∈ u.out ∧ u.pcie = { s.pcie with aerCor := s.pcie.aerCor ||| aer } ∧ u.rst = s.rst
      ∧ b ∈ u.flt.blotter ∧ b.kind = 1 ∧ b.cls = 8 ∧ b.level = 2 ∧ b.source = 2 ∧ b.detail.toNat = (s.pcie.aerCor ||| aer).toNat)
  ∧ (∀ (s : State) (aer : BitVec 32) (hd : BitVec 128), s.onPcie = true → s.flt.unack = [] → s.flt.stopping = false → s.nib.items = [] →
    ∃ u b h, exec (.linkError (.fatal false) aer hd) s = .next (settleUp u) ∧ .retrain ∈ u.out ∧ u.rst = s.rst
      ∧ u.pcie = { s.pcie with aerUncor := s.pcie.aerUncor ||| aer, aerHeader := h }
      ∧ b ∈ u.flt.blotter ∧ b.kind = 1 ∧ b.cls = 8 ∧ b.level = 2 ∧ b.source = 2 ∧ b.detail.toNat = (s.pcie.aerUncor ||| aer).toNat)
  ∧ (∀ (s : State) (aer : BitVec 32) (hd : BitVec 128) (e : LinkErr), s.onPcie = true → s.pcie.ready = true → s.flt.unack = [] → s.flt.stopping = false → s.nib.items = [] →
    (e = .surpriseDown ∨ e = .fatal true) → ∃ u b, exec (.linkError e aer hd) s = .next (settleUp u) ∧ .retrain ∈ u.out ∧ u.pcie = Pcie.init
      ∧ u.nib.pairs = [] ∧ u.rst = s.rst ∧ b ∈ u.flt.blotter ∧ b.cls = 8 ∧ b.level = 2)
  ∧ (∀ (s : State) (r q : Nat) (aer : BitVec 32) (i : Item), r ≠ 0 → s.item? r = some i → s.readsHost i = true → i.retries = 0 → s.flt.unack = [] →
    s.flt.stopping = false → s.nib.items = [i] → ∃ u, exec (.moduleRequestFailure r q aer) s = .next (settleUp u) ∧ .reissue r ∈ u.out
      ∧ u.item? r = some { i with retries := 1 } ∧ u.pcie.aerUncor = s.pcie.aerUncor ||| aer ∧ (∃ b ∈ u.flt.blotter, b.cls = 8 ∧ b.level = 2))
  ∧ (∀ (s : State) (r q : Nat) (aer : BitVec 32) (i : Item), r ≠ 0 → s.item? r = some i → s.readsHost i = true → i.retries ≠ 0 → s.flt.unack = [] →
    s.flt.stopping = false → s.nib.items = [i] → ∃ u, exec (.moduleRequestFailure r q aer) s = .next (settleUp u) ∧ u.item? r = none
      ∧ (∃ e ∈ u.elog.list, e.status = 9 ∧ e.ruling = r ∧ e.cls = 8) ∧ (∀ p, u.pair? i.q = some p → p.frozen.isSome = true)
      ∧ (∀ x ∈ u.res.staged, x.ruling ≠ r))
  ∧ (∀ (s : State) (q : Nat) (aer : BitVec 32) (p : Pair), s.onPcie = true → s.pair? q = some p → s.nib.fetched = [] → p.refetch = false → s.flt.unack = [] →
    s.flt.stopping = false → s.nib.items = [] → ∃ u, exec (.moduleRequestFailure 0 q aer) s = .next (settleUp u) ∧ .reissue 0 ∈ u.out
      ∧ u.pair? q = some { p with refetch := true } ∧ u.pcie.aerUncor = s.pcie.aerUncor ||| aer ∧ (∃ b ∈ u.flt.blotter, b.cls = 8 ∧ b.level = 2))

/-! ## Fetching, admission and completion (chapter 07) -/

/-- A fetch turn serves one fetchable pair, pair 0 before all others, and takes no more than its burst, its pending entries and the room for their
completions; the entries to retry come first, each from its own slot, in the order of the resumes; with no fetchable pair, or while Bus Master is 0, nothing
is fetched (R148, R174, R175, R191). -/
def Obligations.FetchTurnsServeOnePair : Prop :=
  (∀ (s : State) (l : List Entry), s.onPcie = true → s.awake = true → s.pcie.d3hot = false → (∀ p ∈ s.nib.pairs, s.fetchable p = false) →
    exec (.fetchTurn l) s = .next { s with out := [] })
  ∧ (∀ (s : State) (l : List Entry), s.onPcie = true → s.awake = true → s.busMaster = true → s.pcie.d3hot = false → (∃ p ∈ s.nib.pairs, s.fetchable p = true) →
    ∃ t p fs, exec (.fetchTurn l) s = .next t ∧ p ∈ s.nib.pairs ∧ s.fetchable p = true
      ∧ (p.id = 0 ∨ ∀ x ∈ s.nib.pairs, s.fetchable x = true → x.id ≠ 0)
      ∧ t.nib.fetched = s.nib.fetched ++ fs ∧ fs.length = min l.length (min p.burst (min p.pendingEntries (s.allowance p)))
      ∧ (∀ x ∈ fs, x.q = p.id ∧ x.narrow = false ∧ x.stalled = false ∧ x.entry ∈ l) ∧ t.nib.items = s.nib.items ∧ t.nib.next = s.nib.next
      ∧ t.out = [.hostRead p.id (cut s.readMax (64 * fs.length))] ∧ t.map = s.map ∧ t.rst = s.rst ∧ t.pcie = s.pcie)
  ∧ (∀ (s : State) (e : Entry) (p : Pair), s.onPcie = true → s.awake = true → s.busMaster = true → s.pcie.d3hot = false → s.nib.pairs = [p] →
    s.fetchable p = true → 1 ≤ p.burst → ∃ t, exec (.fetchTurn [e]) s = .next t
      ∧ t.nib.fetched = s.nib.fetched
          ++ [{ narrow := false, q := p.id, slot := p.retry.head?.getD p.head, entry := e, stalled := false, retries := 0 }]
      ∧ t.nib.pairs = [{ p with refetch := false, retry := p.retry.tail, head := if p.retry = [] then (p.head + 1) % p.sqSize else p.head }])
  ∧ (∀ (s : State) (l : List Entry), s.busMaster = false → exec (.fetchTurn l) s = .next { s with out := [] })

/-- While a resource of Table 07-5 is short, or an earlier command still waits for one that it needs too, the oldest entry of a ring waits without a ruling; when it is there again, the entries that waited are
ruled in the order in which they were fetched; a granted lock lets its command proceed (R177, R179, R184). A command that begins has taken the next ruling and no more: it is the one new item, it leaves the fetched commands, a change of the gate table
begins a rule epoch, and nothing else of the machine moves but what admission claims (R177, R179, R181, R384). -/
def Obligations.AdmissionTakesOneRulingOrStalls : Prop :=
  (∀ (s : State) (c : Instr) (q : Nat) (f : Fetched), s.Takes c q f → s.front? q = some f → s.canRule = true → s.awake = true → f.stalled = false →
    s.mustStall f = true → exec c s = .next { s with
      out := [], nib := { s.nib with fetched := s.nib.fetched.map (fun x => if x = f then { x with stalled := true } else x) } })
  ∧ (∀ (s : State) (f : Fetched) (l : List Fetched) (x : Fail), f.narrow = false → f.stalled = true → s.nib.fetched = f :: l → (∀ g ∈ l, g.stalled = false) →
    s.canRule = true → s.awake = true → s.shortFor false f.entry = false → s.nib.pairs = [] →
    (s.ruledBy f).checkEarly false f.q f.entry = some x → x.status ≠ 0 →
    ∃ u, exec .admissionStallEnd s = .next (settleUp u) ∧ u.nib.fetched = l ∧ u.nib.next = s.nib.next + 1 ∧ u.nib.items = s.nib.items
      ∧ (∃ e ∈ u.elog.list, e.ruling = s.nib.next ∧ e.status = x.status ∧ e.q = f.q ∧ e.pos = f.slot))
  ∧ (∀ s : State, (∀ f ∈ s.nib.fetched, f.stalled = false) → exec .admissionStallEnd s = .next (settleUp { s with out := [] }))
  ∧ (∀ (s : State) (i : Item), s.running = true → s.nib.stopped = false → s.nib.items = [i] → i.wait = .lock → i.narrow = false →
    Entry.opcode i.entry = 1 → i.verdict = 0 → s.rec_.sanitize = none → s.rec_.epochs = [] →
    exec (.rangeLockGranted i.ruling) s = .next (settleUp { s with out := [], nib := { s.nib with items := [{ i with wait := .data }] } }))
  ∧ (∀ (s : State) (i j : Item) (k l : Lock), s.running = true → s.item? i.ruling = some i → i.wait = .lock → i.lock = some k → j ∈ s.nib.items →
    j.ruling < i.ruling → j.lock = some l → l.overlaps k = true →
    exec (.rangeLockGranted i.ruling) s = .next (settleUp { s with out := [] }))
  ∧ (∀ (s : State) (c : Instr) (q : Nat) (f : Fetched) (t : State) (i : Item), s.Begins c q f t i → Entry.opcode f.entry ≠ 0x98 →
    i.ruling = s.nib.next ∧ i.entry = f.entry ∧ i.q = q ∧ i.slot = f.slot ∧ i.narrow = false ∧ i.well = s.wellOf q
    ∧ t.nib.items = s.nib.items ++ [i] ∧ t.nib.next = s.nib.next + 1 ∧ t.nib.fetched = s.nib.fetched.erase f ∧ t.nib.pairs = s.nib.pairs
    ∧ t.nib.epoch = (if isGateChange (Entry.opcode f.entry) = true then s.nib.epoch + 1 else s.nib.epoch) ∧ i.epoch = t.nib.epoch
    ∧ (∀ k, i.lock = some k → ∀ j ∈ s.nib.items, ∀ l, j.lock = some l → l.overlaps k = false)
    ∧ t.out = [] ∧ t.unit = s.unit ∧ t.rst = s.rst ∧ t.strap = s.strap ∧ t.aon = s.aon ∧ t.sup = s.sup ∧ t.lands = s.lands ∧ t.pcie = s.pcie
    ∧ t.nb = s.nb ∧ t.map = s.map ∧ t.log = s.log ∧ t.dies = s.dies ∧ t.health = s.health ∧ t.flt = s.flt ∧ t.lops = s.lops ∧ t.lig = s.lig
    ∧ t.dbg = s.dbg ∧ t.elog = s.elog ∧ t.wall = s.wall ∧ t.drawn = s.drawn ∧ t.res.staged = s.res.staged
    ∧ (Entry.opcode f.entry ≠ 0xA0 → t.boot = s.boot) ∧ (Entry.opcode f.entry ≠ 1 → t.rec_ = s.rec_)
    ∧ (Entry.opcode f.entry ≠ 1 → Entry.opcode f.entry ≠ 4 → t.ftl = s.ftl))

/-- A command that fails a check completes with the status of the first one that fails, under its ruling, and takes no effect: an error log entry, and
the completion at its pair's tail; an opcode that the pair does not take is the invalid-opcode status (R168, R181, R190, R201). -/
def Obligations.FailedChecksTakeNoEffect : Prop :=
  (∀ (s : State) (c : Instr) (q : Nat) (f : Fetched) (x : Fail), s.Takes c q f → s.Rules q f → (s.ruledBy f).checkEarly false q f.entry = some x →
    x.status ≠ 0 → ∃ u e l, exec c s = .next (settleUp u) ∧ u.elog.list = e :: l ∧ e.status = x.status ∧ e.ruling = s.nib.next ∧ e.q = q
      ∧ e.cid = Entry.cid f.entry ∧ e.pos = f.slot ∧ e.detail = x.detail ∧ e.opcode = Entry.opcode f.entry
      ∧ u.nib.next = s.nib.next + 1 ∧ u.nib.items = s.nib.items ∧ u.nib.fetched = s.nib.fetched.erase f
      ∧ (∀ p, s.pair? q = some p → ∃ m, (if s.busMaster = true then u.out else u.pcie.tx) = (if s.busMaster = true then [] else s.pcie.tx)
          ++ .completion (p.cqBase + 16 * p.cqTail) (completionEntry 0 s.nib.next p.head q (Entry.cid f.entry) p.phase x.status) :: m)
      ∧ u.map = s.map ∧ u.log = s.log ∧ u.rec_ = s.rec_ ∧ u.res = s.res ∧ u.ftl = s.ftl ∧ u.dies = s.dies ∧ u.wall = s.wall ∧ u.lops = s.lops ∧ u.rst = s.rst)
  ∧ (∀ (s : State) (q : Nat) (f : Fetched), s.Rules q f → s.opcodeAllowed false q f.entry = false → s.recovery = false → s.mismatch = false →
    ∃ u e l, exec (.invalidOpcodeCommand q) s = .next (settleUp u) ∧ u.elog.list = e :: l ∧ e.status = 1 ∧ e.ruling = s.nib.next ∧ e.q = q ∧ e.pos = f.slot
      ∧ e.opcode = Entry.opcode f.entry ∧ u.nib.next = s.nib.next + 1 ∧ u.nib.items = s.nib.items ∧ u.map = s.map ∧ u.rec_ = s.rec_)
  ∧ (∀ (s : State) (c : Instr) (q : Nat) (f : Fetched) (x : Fail), s.Sound → s.Takes c q f → s.Enters q f (rowGiven c) →
    (s.listed q f (rowGiven c)).checkLate (s.wellOf q) f.entry = some x → x.status ≠ 0 →
    ∃ u e l, exec c s = .next (settleUp u) ∧ u.elog.list = e :: l ∧ e.status = x.status ∧ e.ruling = s.nib.next ∧ e.q = q ∧ e.pos = f.slot
      ∧ u.nib.next = s.nib.next + 1 ∧ u.nib.items = s.nib.items
      ∧ u.map = s.map ∧ u.log = s.log ∧ u.rec_ = s.rec_ ∧ u.ftl = s.ftl ∧ u.wall = s.wall ∧ u.lops = s.lops ∧ u.rst = s.rst)

/-- Posting completions one after another writes Phase 1 through the first pass of the ring, Phase 0 through the second, and so on; each entry stands at
the pair's tail, and the tail moves to the next slot (R168). While Bus Master is 0 it waits in the transmit path (R148). -/
def Obligations.PhaseAlternatesWithEachPass : Prop :=
  (∀ (s : State) (k : Bool) (e : Entry), (adminPair s).phase = true ∧ (adminPair s).cqTail = 0 ∧ (newPair k e).phase = true ∧ (newPair k e).cqTail = 0)
  ∧ (∀ result ruling head q cid status phase, (completionEntry result ruling head q cid phase status).getLsbD 112 = phase)
  ∧ (∀ (s : State) (q cid result ruling status : Nat) (p : Pair), s.pair? q = some p → ∃ m,
    (if s.busMaster = true then (postCompletion q cid result ruling status s).out else (postCompletion q cid result ruling status s).pcie.tx)
      = (if s.busMaster = true then s.out else s.pcie.tx)
        ++ .completion (p.cqBase + 16 * p.cqTail) (completionEntry result ruling p.head q cid p.phase status) :: m)
  ∧ (∀ (s : State) (q : Nat) (p : Pair) (l : List (Nat × Nat × Nat × Nat)), s.pair? q = some p → 1 ≤ p.cqSize → p.phase = true → p.cqTail = 0 →
    (l.foldl (fun s x => postCompletion q x.1 x.2.1 x.2.2.1 x.2.2.2 s) s).pair? q
      = some { p with cqTail := l.length % p.cqSize, phase := decide (l.length / p.cqSize % 2 = 0) })

/-- A completion without success makes one error log entry and freezes its ring at its own slot, unless the ring is frozen already; a frozen ring is not
fetched from; success does neither (R189, R190, R222). -/
def Obligations.FailuresAreLoggedAndFreezeTheRing : Prop :=
  (∀ (s : State) (e : Ending) (f : Fail) (r : Nat) (p : Pair), f.status ≠ 0 → e.narrow = false → e.freezes = true → s.pair? e.q = some p →
    (∃ x, (complete e f r s).elog = { list := (x :: s.elog.list).take 256, count := s.elog.count + 1 } ∧ x.count = s.elog.count + 1
      ∧ x.slot = s.elog.count % 256 ∧ x.ruling = e.ruling ∧ x.q = e.q ∧ x.cid = Entry.cid e.entry ∧ x.pos = e.slot ∧ x.status = f.status
      ∧ x.opcode = Entry.opcode e.entry ∧ x.part = Entry.part e.entry ∧ x.well = e.well ∧ x.time = s.rst.timeMs)
    ∧ (∃ p', (complete e f r s).pair? e.q = some p' ∧ p'.frozen = (match p.frozen with | some k => some k | none => some e.slot)
        ∧ (complete e f r s).fetchable p' = false))
  ∧ (∀ (s : State) (e : Ending) (f : Fail) (r : Nat), f.status = 0 → (complete e f r s).elog = s.elog
    ∧ ∀ q p, s.pair? q = some p → ∃ p', (complete e f r s).pair? q = some p' ∧ p'.frozen = p.frozen)
  ∧ (∀ (s : State) (e : Ending) (f : Fail) (r q : Nat), q ≠ e.q → (complete e f r s).pair? q = s.pair? q)
  ∧ (∀ (s : State) (e : Ending) (f : Fail) (r : Nat), (complete e f r s).map = s.map ∧ (complete e f r s).log = s.log ∧ (complete e f r s).rec_ = s.rec_
    ∧ (complete e f r s).nib.items = s.nib.items ∧ (complete e f r s).nib.next = s.nib.next ∧ (complete e f r s).rst = s.rst
    ∧ (complete e f r s).res = s.res ∧ (complete e f r s).ftl = s.ftl ∧ (complete e f r s).lops = s.lops
    ∧ (complete e f r s).health.commands = sat 64 (s.health.commands + 1))

/-! ## Block commands (chapters 07, 08) -/

/-- A Write waits for its data under its lock. A Read, Plane Read or Precision Read whose blocks are staged, cached or never written, and a Verify whose blocks
are staged or never written, needs no die: the reads wait for delivery and Verify succeeds; otherwise each block's slot is read, in class 0. A poisoned
block fails the command (R24, R209, R210, R245). -/
def Obligations.BlockCommandsBegin : Prop :=
  (∀ (s : State) (q : Nat) (f : Fetched) (t : State) (i : Item), s.Begins (.write q) q f t i →
    exec (.write q) s = .next (settleUp { t with nib := { t.nib with items := s.nib.items ++ [{ i with wait := .data }] } }))
  ∧ (∀ (s : State) (c : Instr) (q : Nat) (f : Fetched) (t : State) (i : Item) (p : Part), (c = .read q ∨ c = .planeRead q ∨ c = .precisionRead q) →
    s.Begins c q f t i → t.partOf i = some p → s.dies.reads = [] → t.poisonedRead i p = none →
    (∀ b ∈ t.blocksRead i p, (t.staged? b).isSome = true ∨ b ∈ t.ftl.cache ∨ t.map.lookup b = none) → ∃ l : List Nat,
    exec c s = .next (settleUp { t with nib := { t.nib with items := s.nib.items ++ [{ i with wait := .data }] }, ftl := { t.ftl with cache := l } })
      ∧ ∀ b, b ∈ l ↔ b ∈ t.ftl.cache)
  ∧ (∀ (s : State) (q : Nat) (f : Fetched) (t : State) (i : Item) (p : Part), s.Begins (.verify q) q f t i → t.partOf i = some p → s.dies.reads = [] →
    t.poisonedRead i p = none → (∀ b ∈ t.blocksRead i p, (t.staged? b).isSome = true ∨ t.map.lookup b = none) →
    exec (.verify q) s = .next (settleUp (succeed { i with wait := .data } 0 { t with nib := { t.nib with items := s.nib.items ++ [{ i with wait := .data }] } })))
  ∧ (∀ (s : State) (c : Instr) (q : Nat) (f : Fetched) (t : State) (i : Item) (p : Part) (b sl : Nat),
    (c = .read q ∨ c = .verify q ∨ c = .planeRead q ∨ c = .precisionRead q) → s.Begins c q f t i → t.partOf i = some p →
    b ∈ t.blocksRead i p → (t.staged? b).isSome = false → (b ∉ t.ftl.cache ∨ c = .verify q) → t.map.lookup b = some sl → t.dieDead (t.dieOfSlot sl) = false →
    (∀ x ∈ t.dies.dies, x.slow = false) →
    ∃ u r, exec c s = .next (settleUp u) ∧ u.item? i.ruling = some { i with wait := .data } ∧ r ∈ u.dies.reads ∧ r.ruling = i.ruling ∧ r.block = b
      ∧ r.slot = sl ∧ r.cls = 0 ∧ r.done = false
      ∧ { die := t.dieOfSlot sl, cls := 0, kind := .read r.id, minRun := false, since := s.rst.timeMs } ∈ u.dies.queue ∧ u.map = s.map)
  ∧ (∀ (s : State) (q : Nat) (f : Fetched) (t : State) (i : Item) (p : Part) (b : Nat), s.Begins (.verify q) q f t i → t.partOf i = some p →
    s.dies.reads = [] → t.poisonedRead i p = some b →
    (∀ b ∈ t.blocksRead i p, (t.staged? b).isSome = true ∨ t.map.lookup b = none) →
    exec (.verify q) s = .next (settleUp (finish { i with wait := .data } { status := 0x0C, detail := 0, cls := 255, block := some b } 0
      { t with nib := { t.nib with items := s.nib.items ++ [{ i with wait := .data }] } })))
  ∧ (∀ (s : State) (c : Instr) (q : Nat) (f : Fetched) (t : State) (i : Item) (p : Part) (b : Nat), (c = .read q ∨ c = .planeRead q ∨ c = .precisionRead q) →
    s.Begins c q f t i → t.partOf i = some p → s.dies.reads = [] → t.poisonedRead i p = some b →
    (∀ b ∈ t.blocksRead i p, (t.staged? b).isSome = true ∨ b ∈ t.ftl.cache ∨ t.map.lookup b = none) → ∃ l : List Nat,
    exec c s = .next (settleUp (finish { i with wait := .data } { status := 0x0C, detail := 0, cls := 255, block := some b } 0
      { t with out := [.undefinedBuffer q (Entry.cid i.entry)], nib := { t.nib with items := s.nib.items ++ [{ i with wait := .data }] }
               ftl := { t.ftl with cache := l } })) ∧ ∀ b, b ∈ l ↔ b ∈ t.ftl.cache)

/-- The data of a Write passes its cancel point once all of it is in the reservoir; a durable one has its stripes closed and waits for persistence, any other
completes. A Write that covers part of a group reads the rest first, and goes on at the last of these reads. The data of a read goes to the host buffer, the
lock goes, and the read completes. A segment list whose sum is not the Length fails the command, and so does an access that its gate refuses: FC14, and no data moves
(R150, R166, R185, R186, R251, R258, R381, R382, R383, R494). -/
def Obligations.DataMovesWithTheHost : Prop :=
  (∀ (s : State) (i : Item) (p : Part) (data : Mem) (segs : List Nat), s.running = true → s.nib.stopped = false → s.nib.items = [i] → i.narrow = false →
    i.wait = .data → i.retries = 0 → Entry.opcode i.entry = 1 → s.partOf i = some p → segmentsFit i.entry segs = true → s.dataWaits i = false →
    s.gateRefuses i = false → s.mergeBlocks i p = [] → ∃ u, (exec (.writeDataReceived i.ruling data segs) s = if Entry.durable i.entry = true ∨ s.afterWarning i.ruling = true
        then .next (settleUp (pushStripes u))
        else .next (settleUp (pushStripes (succeed { i with past := true, resClaim := 0, hairClaim := 0, wait := .persist } 0 u))))
      ∧ u.nib.items = [{ i with past := true, resClaim := 0, hairClaim := 0, wait := .persist }]
      ∧ u.res.claimed = s.res.claimed - i.resClaim ∧ u.health.writtenBytes = sat 64 (s.health.writtenBytes + Entry.length i.entry)
      ∧ u.res.staged.map (fun x => (x.ruling, x.block, x.poisoned, x.data)) = s.res.staged.map (fun x => (x.ruling, x.block, x.poisoned, x.data))
          ++ (s.stageBlocks i p (Mem.norm 0 (Entry.length i.entry) data)).map (fun x => (x.ruling, x.block, x.poisoned, x.data))
      ∧ u.map = s.map ∧ u.log.pages = s.log.pages ∧ u.out = [.hostRead i.q ((i.pieces segs).flatMap (cut s.readMax))])
  ∧ (∀ (s : State) (i : Item) (p : Part) (data : Mem) (segs : List Nat), s.running = true → s.nib.stopped = false → s.nib.items = [i] → i.narrow = false →
    i.wait = .data → i.retries = 0 → Entry.opcode i.entry = 1 → s.partOf i = some p → segmentsFit i.entry segs = true → s.dataWaits i = false →
    s.gateRefuses i = false → s.mergeBlocks i p ≠ [] →
    ∃ u, exec (.writeDataReceived i.ruling data segs) s = .next (settleUp u) ∧ u.nib.items = [{ i with resClaim := 0, hairClaim := 0, wait := .merge }]
      ∧ u.res.staged = s.res.staged ++ s.stageBlocks i p (Mem.norm 0 (Entry.length i.entry) data) ∧ u.res.claimed = s.res.claimed - i.resClaim
      ∧ (∀ x ∈ s.mergeBlocks i p, ∃ r ∈ u.dies.reads, r.ruling = i.ruling ∧ r.block = x.1 ∧ r.slot = x.2 ∧ r.use = 5 ∧ r.cls = 0 ∧ r.done = false)
      ∧ u.map = s.map ∧ u.log = s.log ∧ u.out = [.hostRead i.q ((i.pieces segs).flatMap (cut s.readMax))])
  ∧ (∀ (s : State) (i : Item) (data : Mem) (segs : List Nat), s.running = true → s.nib.stopped = false → s.nib.items = [i] → i.narrow = false →
    i.wait = .data → i.retries = 0 → Entry.opcode i.entry = 1 → segmentsFit i.entry segs = true → s.dataWaits i = true →
    exec (.writeDataReceived i.ruling data segs) s = .next (settleUp { s with out := [] }))
  ∧ (∀ (s : State) (i : Item) (data : Mem) (segs : List Nat), s.running = true → s.nib.stopped = false → s.nib.items = [i] → i.narrow = false →
    i.wait = .data → i.retries = 0 → Entry.opcode i.entry = 1 → segmentsFit i.entry segs = true → s.dataWaits i = false → s.gateRefuses i = true →
    s.flt.unack = [] → s.flt.stopping = false →
    ∃ u b rest, exec (.writeDataReceived i.ruling data segs) s = .next (settleUp (finish i { status := 0x0E, detail := 0, cls := 14, block := none } 0 u))
      ∧ u.flt.blotter = b :: rest ∧ b.cls = 14 ∧ b.level = 1 ∧ b.source = (if i.fast = true then 0x1B else 0x07)
      ∧ b.detail = BitVec.ofNat 64 (Entry.part i.entry % 256 + 256 * (i.well % 256)) ∧ u.nib.items = s.nib.items ∧ u.res = s.res ∧ u.map = s.map)
  ∧ (∀ (s : State) (id dec n : Nat) (r : Rd) (i : Item), s.running = true → dec ∈ s.dies.decoders → s.dies.reads = [r] → r.id = id → r.staged = true →
    r.done = false → r.bad = false → r.step = 0 → r.falsely = none → r.use = 5 → n ≤ 132 → r.tried.getLastD 0 < 56 → s.flt.unack = [] → s.nib.items = [i] →
    i.ruling = r.ruling → i.wait = .merge → Entry.opcode i.entry = 1 → Entry.durable i.entry = false → s.afterWarning i.ruling = false →
    ∃ u, exec (.ldpcDecodeComplete id dec (some n) true) s = .next (settleUp (pushStripes (succeed { i with past := true, wait := .persist } 0 u)))
      ∧ u.dies.reads = [] ∧ u.nib.items = [{ i with past := true, wait := .persist }] ∧ u.map = s.map
      ∧ u.res.staged.map (fun x => (x.ruling, x.block, x.poisoned, x.data)) = s.res.staged.map (fun x => (x.ruling, x.block, x.poisoned, x.data)))
  ∧ (∀ (s : State) (i : Item) (data : Mem) (segs : List Nat), s.running = true → s.nib.stopped = false → s.nib.items = [i] → i.narrow = false →
    i.wait = .data → i.retries = 0 → Entry.opcode i.entry = 1 → Entry.segmented i.entry = true → segs.sum ≠ Entry.length i.entry →
    exec (.writeDataReceived i.ruling data segs) s = .next (settleUp (finish i { status := 2, detail := 0x10, cls := 255, block := none } 0 { s with out := [] })))
  ∧ (∀ (s : State) (i : Item) (p : Part) (segs : List Nat), s.running = true → s.nib.stopped = false → s.item? i.ruling = some i → i.narrow = false →
    i.wait = .data → (Entry.opcode i.entry = 2 ∨ Entry.opcode i.entry = 6 ∨ Entry.opcode i.entry = 7) → s.readsOpen i.ruling = false → s.partOf i = some p →
    segmentsFit i.entry segs = true →
    exec (.readDataDelivered i.ruling segs) s = .next (settleUp (succeed i 0 (post
      (.hostData i.q (Entry.cid i.entry) (s.readPayload i p) s.pcie.host.relaxed ((i.pieces segs).flatMap (cut (min s.pcie.host.mps 512))))
      { s with out := [], health := { s.health with readBytes := sat 64 (s.health.readBytes + Entry.length i.entry) } }))))
  ∧ (∀ (s : State) (i : Item) (p : Part) (segs : List Nat), s.running = true → s.nib.stopped = false → s.item? i.ruling = some i → i.narrow = false →
    i.wait = .data → (Entry.opcode i.entry = 2 ∨ Entry.opcode i.entry = 6 ∨ Entry.opcode i.entry = 7) → s.readsOpen i.ruling = false → s.partOf i = some p →
    Entry.segmented i.entry = true → segs.sum ≠ Entry.length i.entry →
    exec (.readDataDelivered i.ruling segs) s = .next (settleUp (finish i { status := 2, detail := 0x10, cls := 255, block := none } 0
      { s with out := [.undefinedBuffer i.q (Entry.cid i.entry)] })))
  ∧ (∀ (s : State) (i : Item) (segs : List Nat), s.item? i.ruling = some i → s.readsOpen i.ruling = true →
    exec (.readDataDelivered i.ruling segs) s = .next (settleUp { s with out := [] }))

/-- Flush completes at once where every write ruled before it is persistent, and else waits with the stripes closed that hold their data. A Release of whole quanta frees their map
entries, enters its records under its ruling and completes; it waits while an earlier write of its blocks is staged; while the device is read-only it
succeeds without effect. A Release that names a 4 KiB block or group in part reads the rest of it first (R187, R205, R206, R241, R258, R327). -/
def Obligations.FlushAndReleaseTakeEffect : Prop :=
  (∀ (s : State) (q : Nat) (f : Fetched) (t : State) (i : Item), s.Begins (.flush q) q f t i → (∀ r ∈ s.nib.unsettled, s.nib.next ≤ r) →
    exec (.flush q) s = .next (settleUp (succeed i 0 t)))
  ∧ (∀ (s : State) (q : Nat) (f : Fetched) (t : State) (i : Item), s.Begins (.flush q) q f t i → (∃ r ∈ s.nib.unsettled, r < s.nib.next) →
    exec (.flush q) s = .next (settleUp (pushStripes { t with nib := { t.nib with items := s.nib.items ++ [{ i with wait := .persist }] } })))
  ∧ (∀ (s : State) (q : Nat) (f : Fetched) (t : State) (i : Item) (p : Part), s.Begins (.release q) q f t i → t.partOf i = some p →
    t.clearOf i.ruling (p.base + (t.extentOf i p).1) ((t.extentOf i p).2 - (t.extentOf i p).1) = true →
    (∀ x ∈ t.releaseChunks i p, x.2.2 = true) → s.sup.warning = none →
    ∃ v, exec (.release q) s = .next (settleUp (succeed i 0 v)) ∧ v.nib = t.nib ∧ v.res = t.res ∧ v.ftl = t.ftl ∧ v.rec_ = t.rec_ ∧ v.out = []
      ∧ v.map = (joinChunks (t.releaseChunks i p)).foldl (fun m x => m.releaseRun (p.base + x.1) x.2) t.map
      ∧ v.log.buf.length = t.log.buf.length + (joinChunks (t.releaseChunks i p)).length
      ∧ (∀ r ∈ v.log.buf.drop t.log.buf.length, r.ruling = i.ruling ∧ r.typ = 2 ∧ r.part = p.id))
  ∧ (∀ (s : State) (q : Nat) (f : Fetched) (t : State) (i : Item) (p : Part), s.Begins (.release q) q f t i → t.partOf i = some p →
    t.clearOf i.ruling (p.base + (t.extentOf i p).1) ((t.extentOf i p).2 - (t.extentOf i p).1) = false →
    exec (.release q) s = .next (settleUp { t with nib := { t.nib with items := s.nib.items ++ [{ i with wait := .turn }] } }))
  ∧ (∀ (i : Item) (s : State), i.verdict = 0x100 → Machine.begin i s = succeed i 0 (settle i.ruling s))
  ∧ (∀ (s : State) (e : Entry), Entry.opcode e = 4 → s.sanitizeResumed = false → s.partContained (Entry.part e) = false → s.readOnly.isSome = true → s.verdictOf e = 0x100)
  ∧ (∀ (s : State) (q : Nat) (f : Fetched) (t : State) (i : Item) (p : Part), s.Begins (.release q) q f t i → t.partOf i = some p →
    t.clearOf i.ruling (p.base + (t.extentOf i p).1) ((t.extentOf i p).2 - (t.extentOf i p).1) = true →
    (∃ x ∈ t.releaseChunks i p, x.2.2 = false) → t.mergeBlocks i p ≠ [] →
    ∃ u, exec (.release q) s = .next (settleUp u) ∧ u.nib.items = s.nib.items ++ [{ i with wait := .merge }] ∧ u.map = s.map ∧ u.res = t.res ∧ u.log = t.log
      ∧ ∀ x ∈ t.mergeBlocks i p, ∃ r ∈ u.dies.reads, r.ruling = i.ruling ∧ r.block = x.1 ∧ r.slot = x.2 ∧ r.use = 5 ∧ r.cls = 0)

/-! ## Queue commands (chapter 07) -/

/-- Create Queue Pair makes the pair it describes, Delete Queue Pair removes a pair with no command left, Resume Queue unfreezes a frozen pair with retry or
skip; each fails with its status where the pair stands otherwise, and a Create or Delete waits for an earlier one of its pair (R171, R181, R191, R196). -/
def Obligations.QueuePairsAreMadeDeletedAndResumed : Prop :=
  (∀ (s : State) (f : Fetched) (t : State) (i : Item), s.Begins .createQueuePair 0 f t i → s.pair? (Entry.h2C i.entry) = none →
    (∀ j ∈ s.nib.items, j.pairCmd (Entry.h2C i.entry) = false) → ∃ p, exec .createQueuePair s = .next (settleUp (succeed i 0 { t with nib := { t.nib with pairs := insertPair p s.nib.pairs } }))
      ∧ p.id = Entry.h2C i.entry ∧ p.sqBase = Entry.pointer i.entry ∧ p.cqBase = Entry.aux i.entry ∧ p.sqSize = Entry.h2E i.entry
      ∧ p.cqSize = Entry.h30 i.entry ∧ p.vector = Entry.h32 i.entry ∧ p.well = (if s.pcie.granted = 1 then 0 else Entry.b34 i.entry)
      ∧ p.burst = 2 ^ (Entry.b35 i.entry % 8) ∧ p.phase = true ∧ p.head = 0 ∧ p.tail = 0 ∧ p.cqHead = 0 ∧ p.cqTail = 0
      ∧ p.frozen = none ∧ p.retry = [])
  ∧ (∀ (s : State) (f : Fetched) (t : State) (i : Item) (p : Pair), s.Begins .createQueuePair 0 f t i → s.pair? (Entry.h2C i.entry) = some p →
    (∀ j ∈ s.nib.items, j.pairCmd (Entry.h2C i.entry) = false) → exec .createQueuePair s = .next (settleUp (failWith i 5 t)))
  ∧ (∀ (s : State) (f : Fetched) (t : State) (i : Item), s.Begins .deleteQueuePair 0 f t i → Entry.h2C i.entry ≠ 0 →
    (∀ j ∈ s.nib.items, j.q ≠ Entry.h2C i.entry ∧ j.pairCmd (Entry.h2C i.entry) = false) → (∀ g ∈ s.nib.fetched, g.q ≠ Entry.h2C i.entry) →
    (∀ p, s.pair? (Entry.h2C i.entry) = some p → p.deleting = false) →
    exec .deleteQueuePair s = .next (settleUp (succeed { i with wait := .turn } 0 { t with nib := { t.nib with
      pairs := s.nib.pairs.filter (fun p => p.id ≠ Entry.h2C i.entry), items := s.nib.items ++ [{ i with wait := .turn }] } })))
  ∧ (∀ (s : State) (c : Instr) (f : Fetched) (t : State) (i j : Item), (c = .createQueuePair ∨ c = .deleteQueuePair) → s.Begins c 0 f t i → s.nib.items = [j] →
    j.pairCmd (Entry.h2C i.entry) = true → exec c s = .next (settleUp { t with nib := { t.nib with items := [j, { i with wait := .turn }] } }))
  ∧ (∀ (s : State) (f : Fetched) (t : State) (i : Item) (p : Pair), s.Begins .resumeQueue 0 f t i → s.pair? (Entry.h2C i.entry) = some p →
    p.frozen.isSome = true → p.contained = false → p.deleting = false → exec .resumeQueue s = .next (settleUp (succeed i 0 { t with nib := { t.nib with
      pairs := s.nib.pairs.map (fun x => if x.id = Entry.h2C i.entry then
        { x with frozen := none, retry := if Entry.b2E i.entry = 1 then x.retry else x.retry ++ x.frozen.toList } else x) } })))
  ∧ (∀ (s : State) (f : Fetched) (t : State) (i : Item) (p : Pair), s.Begins .resumeQueue 0 f t i → s.pair? (Entry.h2C i.entry) = some p →
    (p.frozen = none ∨ p.contained = true ∨ p.deleting = true) → exec .resumeQueue s = .next (settleUp (failWith i 6 t)))

/-- Cancel Command aborts its target before the cancel point, awaits a ruled target past it with Result 2, and succeeds with Result 1 where there is no such
command. Controller Restart with nothing else outstanding deletes every I/O pair, unfreezes pair 0 and completes (R194, R195, R197). -/
def Obligations.CommandsAreCancelledAndRestarted : Prop :=
  (∀ (s : State) (f : Fetched) (t : State) (i : Item), s.Begins .cancelCommand 0 f t i → Entry.h2C i.entry ≠ 0 →
    (∀ j ∈ s.nib.items, j.q ≠ Entry.h2C i.entry ∨ Entry.cid j.entry ≠ Entry.h2E i.entry) →
    (∀ g ∈ s.nib.fetched, g.q ≠ Entry.h2C i.entry ∨ Entry.cid g.entry ≠ Entry.h2E i.entry) →
    exec .cancelCommand s = .next (settleUp (succeed i 1 t)))
  ∧ (∀ (s : State) (f : Fetched) (t : State) (i j : Item), s.Begins .cancelCommand 0 f t i → s.nib.items = [j] → j.narrow = false → j.past = true →
    j.q = Entry.h2C i.entry → Entry.cid j.entry = Entry.h2E i.entry →
    exec .cancelCommand s = .next (settleUp { t with nib := { t.nib with
      items := [j, { i with wait := .turn, result := 2, after := some j.ruling }] } }))
  ∧ (∀ (s : State) (f : Fetched) (t : State) (i j : Item), s.Begins .cancelCommand 0 f t i → s.nib.items = [j] → j.narrow = false → j.past = false →
    j.q = Entry.h2C i.entry → Entry.cid j.entry = Entry.h2E i.entry → ∃ v, exec .cancelCommand s = .next (settleUp (succeed i 0 v))
      ∧ v.nib.items = [i] ∧ (∃ e ∈ v.elog.list, e.status = 7 ∧ e.ruling = j.ruling) ∧ (∀ x ∈ v.res.staged, x.ruling ≠ j.ruling)
      ∧ v.map = s.map ∧ v.log = s.log)
  ∧ (∀ (s : State) (f : Fetched) (t : State) (i : Item), s.Begins .controllerRestart 0 f t i → s.nib.items = [] → s.nib.fetched = [f] →
    exec .controllerRestart s = .next (settleUp (succeed { i with wait := .turn } 0 { t with nib := { t.nib with
      pairs := (s.nib.pairs.filter (fun p => p.id = 0)).map (fun p => if p.id = 0 then { p with head := p.tail, frozen := none, retry := [] } else p)
      paused := s.boot.activating, items := [{ i with wait := .turn }] } })))
  ∧ (∀ (s : State) (f : Fetched) (t : State) (i j : Item), s.Begins .controllerRestart 0 f t i → s.nib.items = [j] → s.nib.fetched = [f] →
    j.narrow = false → j.past = false → j.q ≠ 65535 → ∃ v, exec .controllerRestart s = .next (settleUp (succeed { i with wait := .turn } 0 v))
      ∧ (∃ e ∈ v.elog.list, e.status = 7 ∧ e.ruling = j.ruling) ∧ (∀ p ∈ v.nib.pairs, p.id = 0 ∧ p.frozen = none) ∧ v.nib.next = s.nib.next + 1)

/-! ## Data structures, events, time (chapter 08) -/

/-- Identify, Get Log Page and Attest write their structure, cut to the transfer and padded with zeros, to the host buffer, with the structure's size as
Result; each fails where its segment list does not sum to its Length, and Attest while the calibration row could not be read (R150, R166, R220, R221, R357, R376). -/
def Obligations.StructuresGoToTheHost : Prop :=
  (∀ (s : State) (q : Nat) (g : List Nat) (f : Fetched) (t : State) (i : Item) (n : Nat) (l : List Field), s.Begins (.identify q g) q f t i →
    segmentsFit i.entry g = true →
    (Entry.b2C i.entry = 0 ∧ n = 2048 ∧ l = t.deviceFields ∨ Entry.b2C i.entry = 2 ∧ n = 576 ∧ l = partListFields s.nib.adm
      ∨ Entry.b2C i.entry = 1 ∧ n = 256 ∧ (∃ p, s.nib.adm.part? (Entry.part i.entry) = some p ∧ l = t.partFields p)) →
    exec (.identify q g) s = .next (settleUp (succeed i n (post (.hostData q (Entry.cid i.entry)
      { len := Entry.length i.entry, data := Mem.slice 0 (Entry.length i.entry) (Mem.ofFields l) } false
      ((i.pieces g).flatMap (cut (min s.pcie.host.mps 512)))) t))))
  ∧ (∀ (s : State) (q : Nat) (g : List Nat) (f : Fetched) (t : State) (i : Item) (n : Nat) (l : List Field), s.Begins (.getLogPage q g) q f t i →
    segmentsFit i.entry g = true →
    (Entry.b2C i.entry = 1 ∧ n = 16448 ∧ l = t.errorPage ∨ Entry.b2C i.entry = 2 ∧ n = 512 ∧ l = t.healthPage
      ∨ Entry.b2C i.entry = 3 ∧ n = 1088 ∧ l = t.blotterPage ∨ Entry.b2C i.entry = 4 ∧ n = 64 ∧ l = [(0, 4, t.resetCause (s.wellOf q))]
      ∨ Entry.b2C i.entry = 5 ∧ n = 256 ∧ l = t.eventsPage ∨ Entry.b2C i.entry = 6 ∧ n = 544 ∧ l = t.longOpsPage
      ∨ Entry.b2C i.entry = 7 ∧ n = 32 ∧ l = strapFields s.strap ∨ Entry.b2C i.entry = 8 ∧ n = 2112 ∧ l = t.ligaturePage) →
    exec (.getLogPage q g) s = .next (settleUp (succeed i n (post (.hostData q (Entry.cid i.entry)
      { len := Entry.length i.entry, data := Mem.slice (Entry.w30 i.entry) (Entry.length i.entry) (Mem.ofFields l) } false
      ((i.pieces g).flatMap (cut (min s.pcie.host.mps 512)))) t))))
  ∧ (∀ (s : State) (g : List Nat) (f : Fetched) (t : State) (i : Item), s.Begins (.attest g) 0 f t i → segmentsFit i.entry g = true → s.rst.calGood = true → ∃ m,
    exec (.attest g) s = .next (settleUp (succeed i 8192 (post (.hostData 0 (Entry.cid i.entry) { len := Entry.length i.entry, data := m } false
      ((i.pieces g).flatMap (cut (min s.pcie.host.mps 512)))) t))))
  ∧ (∀ (s : State) (g : List Nat) (f : Fetched) (t : State) (i : Item), s.Begins (.attest g) 0 f t i → s.rst.calGood = false →
    exec (.attest g) s = .next (settleUp (failWith i 0x0A { t with out := [.undefinedBuffer 0 (Entry.cid i.entry)] })))
  ∧ (∀ (s : State) (c : Instr) (q : Nat) (g : List Nat) (f : Fetched) (t : State) (i : Item),
    (c = .identify q g ∨ c = .getLogPage q g ∨ c = .getLogPageClear q g ∨ c = .getLogPageAcknowledge q g ∨ c = .attest g ∧ q = 0 ∧ s.rst.calGood = true) →
    s.Begins c q f t i → Entry.segmented i.entry = true → g.sum ≠ Entry.length i.entry → exec c s = .next (settleUp (finish i
      { status := 2, detail := 0x10, cls := 255, block := none } 0 { t with out := [.undefinedBuffer q (Entry.cid i.entry)] })))

/-- Clear on page 04h clears the two sticky bits of the reading well's copy, on page 05h every pending bit; the page returned shows them as they stood (R102,
R219, R221). Acknowledge ends a contain-level fault whose entry it returns in full, and the containment that it caused (R403, R406). -/
def Obligations.LogPagesClearAndAcknowledge : Prop :=
  (∀ (s : State) (q : Nat) (g : List Nat) (f : Fetched) (t : State) (i : Item), s.Begins (.getLogPageClear q g) q f t i → segmentsFit i.entry g = true →
    Entry.b2C i.entry = 4 → ∃ a m, exec (.getLogPageClear q g) s = .next (settleUp (succeed i 64 (post
        (.hostData q (Entry.cid i.entry) { len := Entry.length i.entry, data := m } false ((i.pieces g).flatMap (cut (min s.pcie.host.mps 512))))
        { t with aon := a })))
      ∧ m = Mem.slice 0 (Entry.length i.entry) (Mem.slice (Entry.w30 i.entry) (Entry.length i.entry) (Mem.ofFields [(0, 4, s.resetCause (s.wellOf q))]))
      ∧ (∀ w, a.por.getLsbD w = (s.aon.por.getLsbD w && decide (w ≠ s.wellOf q))) ∧ (∀ w, a.pin.getLsbD w = (s.aon.pin.getLsbD w && decide (w ≠ s.wellOf q)))
      ∧ a.failed = s.aon.failed ∧ a.tail = s.aon.tail ∧ a.resetNo = s.aon.resetNo)
  ∧ (∀ (s : State) (q : Nat) (g : List Nat) (f : Fetched) (t : State) (i : Item), s.Begins (.getLogPageClear q g) q f t i → segmentsFit i.entry g = true →
    Entry.b2C i.entry = 5 → ∃ m, exec (.getLogPageClear q g) s = .next (settleUp (succeed i 256 (post
        (.hostData q (Entry.cid i.entry) { len := Entry.length i.entry, data := m } false ((i.pieces g).flatMap (cut (min s.pcie.host.mps 512))))
        { t with flt := { s.flt with events := s.flt.events.map (fun e => { e with pending := false, count := 0 }) } })))
      ∧ m = Mem.slice 0 (Entry.length i.entry) (Mem.slice (Entry.w30 i.entry) (Entry.length i.entry) (Mem.ofFields s.eventsPage)))
  ∧ (∀ (s : State) (q : Nat) (g : List Nat) (f : Fetched) (t : State) (i : Item) (u : Unack) (b : Blot), s.Begins (.getLogPageAcknowledge q g) q f t i →
    segmentsFit i.entry g = true → Entry.b2C i.entry = 3 →
    s.flt.unack = [u] → u.level = 3 → s.flt.blotter = [b] → b.seq = u.seq → b.kind = 1 → Entry.w30 i.entry ≤ 0x40 + 32 * b.slot →
    0x40 + 32 * b.slot + 32 ≤ Entry.w30 i.entry + Entry.length i.entry → s.flt.safe = [] → ∃ v, exec (.getLogPageAcknowledge q g) s = .next (settleUp (succeed i 1088 v))
      ∧ v.flt.unack = [] ∧ v.flt.blotter = [{ b with acked := true, hostAcked := true }]
      ∧ v.flt.containedParts = s.flt.containedParts.filter (fun x => x.2 ≠ u.seq) ∧ v.out.length = (if s.busMaster = true then 1 else 0)
      ∧ v.pcie.tx.length = s.pcie.tx.length + (if s.busMaster = true then 0 else 1) ∧ v.nib = t.nib)
  ∧ (∀ (s : State) (q : Nat) (g : List Nat) (f : Fetched) (t : State) (i : Item), s.Begins (.getLogPageAcknowledge q g) q f t i → segmentsFit i.entry g = true →
    Entry.b2C i.entry = 3 → (∀ u ∈ s.flt.unack, u.level ≠ 3 ∧ u.level ≠ 4) → s.flt.safe = [] →
    ∃ v, exec (.getLogPageAcknowledge q g) s = .next (settleUp (succeed i 1088 v)) ∧ v.flt.unack = s.flt.unack ∧ v.flt.blotter = s.flt.blotter)

/-- Await Event waits for an event type, or takes the lowest one pending at once with its level and count as Result; a fifth one is an invalid state. Set
Time sets the wall time; a Power Hint is in force from its ruling until its Duration has passed (R218, R225, R226). -/
def Obligations.EventsTimeAndHints : Prop :=
  (∀ (s : State) (f : Fetched) (t : State) (i : Item), s.Begins .awaitEvent 0 f t i → (∀ j ∈ s.nib.items, j.wait ≠ .event) →
    (∀ k < 16, (s.flt.events.getD k Ev.none).pending = false) →
    exec .awaitEvent s = .next (settleUp { t with nib := { t.nib with items := s.nib.items ++ [{ i with wait := .event }] } }))
  ∧ (∀ (s : State) (f : Fetched) (t : State) (i : Item) (k : Nat) (e : Ev), s.Begins .awaitEvent 0 f t i → (∀ j ∈ s.nib.items, j.wait ≠ .event) → k < 16 →
    (∀ m < k, (s.flt.events.getD m Ev.none).pending = false) → s.flt.events.getD k Ev.none = e → e.pending = true →
    exec .awaitEvent s = .next (settleUp (succeed { i with wait := .event } (k + 16 * e.level + 65536 * e.count) { t with
      nib := { t.nib with items := s.nib.items ++ [{ i with wait := .event }] }
      flt := { s.flt with events := s.flt.events.set k { e with pending := false, count := 0 } } })))
  ∧ (∀ (s : State) (f : Fetched) (t : State) (i : Item), s.Begins .awaitEvent 0 f t i → 4 ≤ (s.nib.items.filter (fun j => j.wait = .event)).length →
    exec .awaitEvent s = .next (settleUp (failWith i 6 t)))
  ∧ (∀ (s : State) (f : Fetched) (t : State) (i : Item), s.Begins .setTime 0 f t i → s.rec_.lastWall = 0 →
    exec .setTime s = .next (settleUp (succeed i 0 { t with wall := some (Entry.d2C i.entry) })))
  ∧ (∀ (s : State) (f : Fetched) (t : State) (i : Item), s.Begins .powerHint 0 f t i →
    exec .powerHint s = .next (settleUp (succeed i 0 { t with pwr := { t.pwr with hint := Entry.b2C i.entry } })))
  ∧ (∀ s : State, s.running = true → exec .powerHintExpiry s = .next { s with out := [], pwr := { s.pwr with hint := 0 } })

/-! ## Partitions and protection (chapters 08, 09, 14) -/

/-- Create Partition places its region in the lowest gap, Delete Partition frees its blocks; each enters its record under its ruling and waits until it is
persistent; either waits its turn behind an earlier one (R205, R212, R217, R237). Cap, Uncap and Fix act on the card with Partition 0 and else on the partition; Set Access replaces both maps of its partition. Each enters one record of
type 07h and waits until it is persistent; what changes nothing enters none (R205, R380, R386). -/
def Obligations.PartitionsAndProtectionAreRecorded : Prop :=
  (∀ (s : State) (f : Fetched) (t : State) (i : Item) (base : Nat), s.Begins .createPartition 0 f t i → s.nib.items = [] →
    findGap t.logicalBlocks (Entry.d2C i.entry) 0 (byBase s.map.parts) = some base → ∃ u p r, exec .createPartition s = .next (settleUp u)
      ∧ u.map = s.map.addPart p ∧ p.id = Entry.part i.entry ∧ p.base = base ∧ p.size = Entry.d2C i.entry ∧ p.owner = Entry.b38 i.entry
      ∧ p.sector = decide (Entry.b34 i.entry = 1) ∧ p.layout = Entry.b35 i.entry ∧ p.rd = BitVec.ofNat 64 (2 ^ Entry.b38 i.entry) ∧ p.wr = p.rd
      ∧ p.capped = false ∧ p.fixed = false ∧ p.born = i.ruling
      ∧ u.log.buf = s.log.buf ++ [r] ∧ r.typ = 4 ∧ r.ruling = i.ruling ∧ r.last = true ∧ r.chg = .create p
      ∧ u.nib = { t.nib with items := [{ i with wait := .persist }] } ∧ u.res = t.res ∧ u.ftl = s.ftl)
  ∧ (∀ (s : State) (f : Fetched) (t : State) (i : Item) (p : Part), s.Begins .deletePartition 0 f t i → s.nib.items = [] →
    s.map.part? (Entry.part i.entry) = some p → (∀ x ∈ s.res.staged, x.block < p.base ∨ p.base + p.size ≤ x.block) →
    ∃ u r, exec .deletePartition s = .next (settleUp u) ∧ u.map = s.map.deletePart (Entry.part i.entry)
      ∧ u.log.buf = s.log.buf ++ [r] ∧ r.typ = 5 ∧ r.ruling = i.ruling ∧ r.last = true
      ∧ u.nib = { t.nib with items := [{ i with wait := .persist }] } ∧ (∀ b ∈ u.ftl.cache, b < p.base ∨ p.base + p.size ≤ b))
  ∧ (∀ (s : State) (c : Instr) (f : Fetched) (t : State) (i j : Item), (c = .createPartition ∨ c = .deletePartition) → s.Begins c 0 f t i → s.nib.items = [j] →
    (Entry.opcode j.entry = 0x90 ∨ Entry.opcode j.entry = 0x91) → j.wait ≠ .persist →
    exec c s = .next (settleUp { t with nib := { t.nib with items := [j, { i with wait := .turn }] } }))
  ∧ (∀ (s : State) (c : Instr) (f : Fetched) (t : State) (i : Item) (m : MapState), s.Begins c 0 f t i → s.nib.items = [] →
    (c = .cap ∧ Entry.part i.entry = 0 ∧ s.map.cardFix = false ∧ s.map.cardCap = false ∧ m = { s.map with cardCap := true }
      ∨ c = .uncap ∧ Entry.part i.entry = 0 ∧ s.map.cardCap = true ∧ m = { s.map with cardCap := false }
      ∨ c = .fix ∧ Entry.part i.entry = 0 ∧ s.map.cardFix = false ∧ m = { s.map with cardFix := true }
      ∨ (∃ p, s.map.part? (Entry.part i.entry) = some p ∧ Entry.part i.entry ≠ 0
        ∧ (c = .cap ∧ s.map.cardFix = false ∧ p.fixed = false ∧ p.capped = false ∧ m = s.map.modPart (Entry.part i.entry) (fun p => { p with capped := true })
          ∨ c = .uncap ∧ p.capped = true ∧ m = s.map.modPart (Entry.part i.entry) (fun p => { p with capped := false })
          ∨ c = .fix ∧ s.map.cardFix = false ∧ p.fixed = false ∧ m = s.map.modPart (Entry.part i.entry) (fun p => { p with fixed := true })
          ∨ c = .setAccess ∧ m = s.map.modPart (Entry.part i.entry) (fun p =>
              { p with rd := BitVec.ofNat 64 (Entry.d2C i.entry), wr := BitVec.ofNat 64 (Entry.d34 i.entry) })))) →
    ∃ u r, exec c s = .next (settleUp u) ∧ u.map = m ∧ u.log.buf = s.log.buf ++ [r] ∧ r.typ = 7 ∧ r.ruling = i.ruling ∧ r.last = true
      ∧ u.nib = { t.nib with items := [{ i with wait := .persist }] } ∧ u.res = t.res ∧ u.ftl = s.ftl ∧ u.rec_ = s.rec_)
  ∧ (∀ (s : State) (c : Instr) (f : Fetched) (t : State) (i : Item), s.Begins c 0 f t i → s.nib.items = [] →
    (Entry.part i.entry = 0 ∧ (c = .cap ∧ s.map.cardCap = true ∨ c = .uncap ∧ s.map.cardCap = false)
      ∨ (c = .cap ∨ c = .fix) ∧ s.map.cardFix = true
      ∨ (∃ p, s.map.part? (Entry.part i.entry) = some p ∧ Entry.part i.entry ≠ 0
        ∧ (c = .cap ∧ (p.capped = true ∨ p.fixed = true) ∨ c = .uncap ∧ p.capped = false ∨ c = .fix ∧ p.fixed = true))) →
    ∃ u, exec c s = .next (settleUp u) ∧ u.map = s.map ∧ u.log = s.log ∧ i.ruling ∉ u.nib.unsettled ∧ u.nib.items = [{ i with wait := .persist }])

/-! ## Long operations (chapters 08, 10, 11, 12) -/

/-- Sanitize Device is recorded in the media records, its operation runs and its command waits for the format; at the end of the format no data, map or
checkpoint is left, the log is one page, the recorded profile is that of the straps, no epoch holds a pending entry, and a mismatch ends (R74, R227, R230, R323, R439). -/
def Obligations.SanitizeErasesTheMedia : Prop :=
  (∀ (s : State) (f : Fetched) (t : State) (i : Item), s.Begins .sanitizeDevice 0 f t i → (s.lops.list.map (·.handle)).Nodup →
    ∃ u o, exec .sanitizeDevice s = .next (settleUp u)
      ∧ u.rec_.sanitize = some s.nib.next ∧ o ∈ u.lops.list ∧ o.typ = 1 ∧ o.state = 1 ∧ o.target = 0xFFFF ∧ o.ruling = s.nib.next
      ∧ (∀ x ∈ u.lops.list, x.typ ≠ 1 → 3 ≤ x.state) ∧ (∃ j, u.item? s.nib.next = some j ∧ j.wait = .sanitize ∧ j.result = o.handle)
      ∧ u.nib.next = s.nib.next + 1 ∧ u.map = s.map ∧ u.ftl.slots = s.ftl.slots)
  ∧ (∀ (s : State) (r : Nat) (o : LongOp), s.running = true → (s.rst.io = true ∨ s.mismatch = true) → s.rec_.sanitize = some r → s.lops.list = [o] →
    o.typ = 1 → o.state = 1 → (∀ c ∈ s.dies.chHeld, c ∈ s.rec_.failedChannels) → ∃ u p, exec .sanitizeComplete s = .next (settleUp u) ∧ u.map = MapState.empty ∧ u.ftl.slots = [] ∧ u.log.pages = [p]
      ∧ p.opened = true ∧ u.log.cps = [] ∧ (∀ x ∈ u.log.buf, x.typ = 0x0A) ∧ u.rec_.sanitize = none ∧ (∀ e ∈ u.rec_.epochs, e.pend = [])
      ∧ (s.nib.items = [] → u.rec_.epochs = []) ∧ u.rec_.profile = s.profile ∧ u.rec_.failedDies = s.rec_.failedDies
      ∧ (∀ x ∈ u.res.staged, r < x.ruling) ∧ u.rst.io = true ∧ u.mismatch = false ∧ (∀ j ∈ u.nib.items, j.ruling ≠ r)
      ∧ u.lops.list = [{ o with state := 3, outcome := 0, detail := 0, wants := [], progress := 10000 }] ∧ u.nib.next = s.nib.next)

/-- Self-test and Calibrate create an operation that runs, and complete with its handle; a second of the kind is refused. A segment begins with the class 3
operations of its row; one that fails, or that found a loss, ends the test with its outcome, and records a fault of its own class where none stands; the last one
that passes ends it complete. Calibration ends once every die in its scope has been read, and writes their tables (R227, R230, R298, R299). -/
def Obligations.TestsAndCalibrationRun : Prop :=
  (∀ (s : State) (c : Instr) (f : Fetched) (t : State) (i : Item) (typ target : Nat), s.Begins c 0 f t i → s.lops.list = [] → s.rec_.sanitize = none →
    (∀ j ∈ s.nib.items, Entry.opcode j.entry ≠ 0x98) →
    (c = .selfTest ∧ typ = 1 + Entry.b2C i.entry ∧ target = 0xFFFF
      ∨ c = .calibrate ∧ typ = 4 ∧ target = (if Entry.b2C i.entry = 1 then s.nthDie (Entry.b2D i.entry) else 0xFFFF)) →
    ∃ h, exec c s = .next (settleUp (testWork (succeed i h { t with lops := { t.lops with next := h + 1, list := [
      { handle := h, typ := typ, state := 1, progress := 0, outcome := 0, detail := 0, ruling := i.ruling, started := s.rst.timeMs, active := 0
        target := target, wants := [], lost := false, total := (t.bandsWith (targetDies typ target)).length, doneDies := [], begun := false
        found := false }] } }))) ∧ h = freeHandle [] 32 s.lops.next)
  ∧ (∀ (s : State) (c : Instr) (f : Fetched) (t : State) (i : Item), s.Begins c 0 f t i → (c = .selfTest ∨ c = .calibrate) →
    ((∃ o ∈ s.lops.list, o.state < 3 ∧ (c = .selfTest ∧ (o.typ = 2 ∨ o.typ = 3) ∧ (Entry.b2C i.entry = 1 ∨ Entry.b2C i.entry = 2)
        ∨ c = .calibrate ∧ o.typ = 4))
      ∨ s.recovery = false ∧ s.rec_.sanitize ≠ none ∨ ∃ j ∈ s.nib.items, Entry.opcode j.entry = 0x98 ∧ j.verdict = 0) →
    exec c s = .next (settleUp (failWith i 0x1B t)))
  ∧ (∀ (s : State) (o : LongOp) (ok : Bool), s.lops.list = [o] → (o.typ = 2 ∨ o.typ = 3) → o.state = 1 → o.begun = false → o.segment ≠ 8 →
    ∃ u, exec (.selfTestSegmentDone ok) s = .next (settleUp u) ∧ u.lops.list = [{ o with begun := true, found := false }] ∧ u.rst = s.rst ∧ u.nib = s.nib)
  ∧ (∀ (s : State) (o : LongOp) (ok : Bool), s.lops.list = [o] → (o.typ = 2 ∨ o.typ = 3) → o.state = 1 → o.begun = true → o.found = true → o.wants = [] →
    s.testIdle = true → ∃ u, exec (.selfTestSegmentDone ok) s = .next (settleUp u)
      ∧ u.lops.list = [{ o with state := 4, outcome := segmentOutcome o.segment, detail := o.segment, wants := [] }] ∧ u.rst = s.rst ∧ u.nib = s.nib
      ∧ u.flt = s.flt)
  ∧ (∀ (s : State) (o : LongOp), s.lops.list = [o] → (o.typ = 2 ∨ o.typ = 3) → o.state = 1 → o.begun = true → o.found = false → o.wants = [] →
    s.testIdle = true → (o.segment = 3 ∨ o.segment = 4 ∨ 6 ≤ o.segment) → ∃ u, exec (.selfTestSegmentDone false) s = .next (settleUp u)
      ∧ u.lops.list = [{ o with state := 4, outcome := segmentOutcome o.segment, detail := o.segment, wants := [] }] ∧ u.rst = s.rst ∧ u.nib = s.nib)
  ∧ (∀ (s : State) (o : LongOp), s.running = true → s.flt.stopping = false → s.flt.unack = [] → s.lops.list = [o] → (o.typ = 2 ∨ o.typ = 3) →
    o.state = 1 → o.begun = true → o.found = false → o.wants = [] → s.testIdle = true → (o.segment = 1 ∨ o.segment = 2 ∨ o.segment = 5) →
    ∃ u b, exec (.selfTestSegmentDone false) s = .next (settleUp u)
      ∧ u.lops.list = [{ o with state := 4, outcome := segmentOutcome o.segment, detail := o.segment, wants := [] }]
      ∧ b ∈ u.flt.blotter ∧ b.kind = 1 ∧ b.cls = (if o.segment = 1 then 7 else if o.segment = 2 then 3 else 10))
  ∧ (∀ (s : State) (o : LongOp), s.lops.list = [o] → o.typ = 2 → o.state = 1 → o.begun = true → o.found = false → o.wants = [] → s.testIdle = true →
    o.segment < 5 → ∃ u, exec (.selfTestSegmentDone true) s = .next (settleUp u)
      ∧ u.lops.list = [{ o with progress := 2000 * o.segment, begun := true, found := false }] ∧ (o.segment ≠ 3 → u.ftl = s.ftl ∧ u.dies = s.dies))
  ∧ (∀ (s : State) (o : LongOp), s.lops.list = [o] → (o.typ = 2 ∧ 5 ≤ o.segment ∨ o.typ = 3 ∧ 8 ≤ o.segment) → o.state = 1 → o.begun = true → o.found = false →
    o.wants = [] → s.testIdle = true → ∃ u, exec (.selfTestSegmentDone true) s = .next (settleUp u)
      ∧ u.lops.list = [{ o with state := 3, outcome := 0, detail := 0, wants := [], progress := 10000 }])
  ∧ (∀ (s : State) (o : LongOp) (d : DieTable), s.lops.list = [o] → o.typ = 4 → o.state = 1 → o.wants = [] → (∀ x ∈ s.scopeDies o, x ∈ o.doneDies) →
    s.dieFits d.die = true → (o.target = 0xFFFF ∨ o.target = d.die) →
    ∃ u, exec (.calibrationComplete [d]) s = .next (settleUp u) ∧ u.rec_.tables = s.rec_.tables.filter (fun x => x.die ≠ d.die) ++ [d] ∧ u.tableOf d.die = d
      ∧ u.lops.list = [{ o with state := 3, outcome := 0, detail := 0, wants := [], progress := 10000 }])

/-- Operation Control suspends and cancels a running operation once its die operations have ended, and a test asks for no more of them meanwhile; it resumes a
suspended one, a test from the start of its segment or die; an unknown handle and an
action that the operation's type or state does not allow fail; a rebuild ends with its outcome and its blotter entry (R229, R301, R313, R317). -/
def Obligations.LongOperationsAreControlled : Prop :=
  (∀ (s : State) (c : Instr) (f : Fetched) (t : State) (i : Item) (o : LongOp) (w : Nat), s.Begins c 0 f t i → s.lops.list = [o] → o.handle = Entry.h2C i.entry →
    o.state = 1 → o.wants = [] → (o.typ = 2 ∨ o.typ = 3 ∨ o.typ = 4) → Entry.b2E i.entry ≤ 3 → Entry.b2E i.entry ≠ 0 →
    (c = .operationSuspend ∧ w = 2 ∨ c = .operationCancel ∧ w = 5) →
    exec c s = .next (settleUp { t with lops := { t.lops with list := [{ o with wants := [w] }] }
                                        nib := { t.nib with items := s.nib.items ++ [{ i with wait := .turn }] }
                                        dies := { t.dies with queue := t.dies.queue.filter (fun x => !t.isTest x.kind) } }))
  ∧ (∀ (s : State) (f : Fetched) (t : State) (i : Item) (o : LongOp), s.Begins .operationResume 0 f t i → s.lops.list = [o] → o.handle = Entry.h2C i.entry →
    o.state = 2 → o.wants = [] → o.typ ≠ 1 → (∀ j ∈ s.nib.items, j.wait ≠ .turn) →
    ∃ v, exec .operationResume s = .next (settleUp ((if isRebuild o.typ then rebuildNext else testWork) (succeed { i with wait := .turn } 1 v)))
      ∧ v.lops.list = [{ o with state := 1, begun := isRebuild o.typ && o.begun, found := isRebuild o.typ && o.found }]
      ∧ v.nib = { t.nib with items := s.nib.items ++ [{ i with wait := .turn }] } ∧ v.map = s.map)
  ∧ (∀ (s : State) (c : Instr) (f : Fetched) (t : State) (i : Item), (c = .operationSuspend ∨ c = .operationResume ∨ c = .operationCancel) → s.Begins c 0 f t i →
    (∀ o ∈ s.lops.list, o.handle ≠ Entry.h2C i.entry) → exec c s = .next (settleUp (failWith i 0x1A t)))
  ∧ (∀ (s : State) (c : Instr) (f : Fetched) (t : State) (i : Item) (o : LongOp), (c = .operationSuspend ∨ c = .operationResume ∨ c = .operationCancel) →
    s.Begins c 0 f t i → s.lops.list = [o] → o.handle = Entry.h2C i.entry → (o.typ = 1 ∨ 3 ≤ o.state) → exec c s = .next (settleUp (failWith i 6 t)))
  ∧ (∀ (s : State) (o : LongOp), s.lops.list = [o] → s.nib.items = [] → o.wants = [2] → (isRebuild o.typ = true ∨ s.testStill = true) →
    ∃ u, exec (.longOperationSuspended o.handle) s = .next (settleUp u)
      ∧ u.lops.list = [{ o with state := 2, wants := [], begun := isRebuild o.typ && o.begun, found := isRebuild o.typ && o.found }] ∧ u.nib = s.nib)
  ∧ (∀ (s : State) (o : LongOp), s.lops.list = [o] → s.nib.items = [] → o.wants = [5] → o.state < 3 → isRebuild o.typ = false → s.testStill = true →
    ∃ u, exec (.longOperationSuspended o.handle) s = .next (settleUp u)
      ∧ u.lops.list = [{ o with state := 5, outcome := 7, detail := 0, wants := [], begun := false, found := false }])
  ∧ (∀ (s : State) (o : LongOp), s.lops.list = [o] → s.lops.queued = [] → (o.typ = 5 ∨ o.typ = 6) → o.state = 1 → o.lost = false → s.ftl.bands = [] →
    ∃ u b, exec (.rebuildComplete o.handle) s = .next (settleUp u) ∧ u.rec_.rebuilds = s.rec_.rebuilds.filter (fun x => x ≠ (o.typ, o.target))
      ∧ u.lops.list = [{ o with state := 3, outcome := 0, detail := 0, wants := [], progress := 10000 }]
      ∧ b ∈ u.flt.blotter ∧ b.kind = 6 ∧ b.detail = BitVec.ofNat 64 o.handle ∧ u.flt.unack = s.flt.unack)

/-! ## Firmware (chapters 07, 08, 13) -/

/-- A Firmware Download piece in its place waits on the boot flash with its bytes; at offset 0 a pending activation is withdrawn by a swap record, and then the
target bank holds no image any more. A piece out of place is an invalid state, an update that SA8 forbids fails, and a piece behind another firmware command, or
behind a record that BOOT writes, waits its turn; a list whose lengths do not make up the piece fails with invalid-field (R166, R231, R233, R367, R368). -/
def Obligations.FirmwarePiecesAreTaken : Prop :=
  (∀ (s : State) (data : Mem) (g : List Nat) (f : Fetched) (t : State) (i : Item), s.Begins (.firmwareDownload data g) 0 f t i → segmentsFit i.entry g = true → s.updateAllowed = true →
    (∀ j ∈ s.nib.items, isFirmware (Entry.opcode j.entry) = false) → s.boot.swapWork = none → (∀ x ∈ s.boot.held, x.1 ≠ s.nib.next) → Entry.w2C i.entry = 0 →
    ∃ u d b, exec (.firmwareDownload data g) s = .next (settleUp u) ∧ b = (if s.withdrawNeeded then otherBank s.rst.bank else s.targetBank)
      ∧ u.boot.dl = some d ∧ d.piece = Mem.norm 0xFF (Entry.length i.entry) data ∧ d.pieceLen = Entry.length i.entry ∧ d.pieceOff = 0 ∧ d.at_ = 0
      ∧ d.complete = false ∧ d.fails = [] ∧ u.boot.busy = some b ∧ (∀ x, (u.bankOf x).bytes = (s.bankOf x).bytes)
      ∧ (s.withdrawNeeded = false → (u.bankOf b).present = false) ∧ (s.withdrawNeeded = true → u.bankOf b = s.bankOf b)
      ∧ u.boot.swapWork = (if s.withdrawNeeded then some { rec_ := withdrawRecord s, fails := 0, ruling := i.ruling } else none)
      ∧ u.nib.items = s.nib.items ++ [{ i with wait := .boot }])
  ∧ (∀ (s : State) (data : Mem) (g : List Nat) (f : Fetched) (t : State) (i : Item) (d : Download), s.Begins (.firmwareDownload data g) 0 f t i → segmentsFit i.entry g = true → s.updateAllowed = true →
    (∀ j ∈ s.nib.items, isFirmware (Entry.opcode j.entry) = false) → s.boot.swapWork = none → (∀ x ∈ s.boot.held, x.1 ≠ s.nib.next) → s.boot.dl = some d →
    Entry.w2C i.entry = d.next → Entry.w2C i.entry ≠ 0 → ∃ u e, exec (.firmwareDownload data g) s = .next (settleUp u)
      ∧ u.boot.dl = some e ∧ e.piece = Mem.norm 0xFF (Entry.length i.entry) data ∧ e.pieceLen = Entry.length i.entry ∧ e.pieceOff = d.next ∧ e.at_ = d.next
      ∧ e.fails = d.fails ∧ u.boot.busy = some s.targetBank ∧ u.boot.bankA = s.boot.bankA ∧ u.boot.bankB = s.boot.bankB ∧ u.boot.swapWork = none)
  ∧ (∀ (s : State) (data : Mem) (g : List Nat) (f : Fetched) (t : State) (i : Item), s.Begins (.firmwareDownload data g) 0 f t i → segmentsFit i.entry g = true → s.updateAllowed = true →
    (∀ j ∈ s.nib.items, isFirmware (Entry.opcode j.entry) = false) → s.boot.swapWork = none → Entry.w2C i.entry ≠ 0 →
    (∀ d, s.boot.dl = some d → Entry.w2C i.entry ≠ d.next) →
    ∃ u, exec (.firmwareDownload data g) s = .next (settleUp (failWith i 6 u)) ∧ u.nib = t.nib ∧ u.boot.dl = s.boot.dl ∧ u.boot.bankA = s.boot.bankA
      ∧ u.boot.bankB = s.boot.bankB)
  ∧ (∀ (s : State) (data : Mem) (g : List Nat) (f : Fetched) (t : State) (i : Item), s.Begins (.firmwareDownload data g) 0 f t i → s.updateAllowed = false →
    exec (.firmwareDownload data g) s = .next (settleUp (failWith i 0x19 t)))
  ∧ (∀ (s : State) (data : Mem) (g : List Nat) (f : Fetched) (t : State) (i j : Item), s.Begins (.firmwareDownload data g) 0 f t i → segmentsFit i.entry g = true → s.updateAllowed = true →
    s.nib.items = [j] → isFirmware (Entry.opcode j.entry) = true →
    exec (.firmwareDownload data g) s = .next (settleUp { t with nib := { t.nib with items := [j, { i with wait := .turn }] } }))
  ∧ (∀ (s : State) (data : Mem) (g : List Nat) (f : Fetched) (t : State) (i : Item) (w : SwapWork), s.Begins (.firmwareDownload data g) 0 f t i →
    segmentsFit i.entry g = true → s.updateAllowed = true → s.nib.items = [] → s.boot.swapWork = some w →
    exec (.firmwareDownload data g) s = .next (settleUp { t with nib := { t.nib with items := [{ i with wait := .turn }] } }))
  ∧ (∀ (s : State) (data : Mem) (g : List Nat) (f : Fetched) (t : State) (i : Item), s.Begins (.firmwareDownload data g) 0 f t i →
    s.updateAllowed = true → segmentsFit i.entry g = false → exec (.firmwareDownload data g) s = .next (settleUp (finish i Fail.segments 0 t)))

/-- An operation of BOOT that passes its margin verify brings a swap record into force, with what the record is for, or programs the part of the piece that lies in the sector at work and goes
on with the next sector; the bytes elsewhere in the boot flash stand. One that fails is FC7, and counts against its sector (R356, R362, R368). -/
def Obligations.BootFlashOperationsEnd : Prop :=
  (∀ (s : State) (w : SwapWork), s.running = true → s.flt.stopping = false → s.boot.swapWork = some w → s.boot.owed = false → s.flt.unack = [] →
    s.item? w.ruling = none →
    exec (.bootFlashOperationComplete true) s = .next (settleUp { s with out := [], boot := { s.boot.put w.rec_ with swapWork := none } }))
  ∧ (∀ (s : State) (w : SwapWork), s.running = true → s.flt.stopping = false → s.boot.swapWork = some w → s.boot.owed = true → s.flt.unack = [] →
    w.ruling = 0 → w.rec_.cause ≠ 3 → exec (.bootFlashOperationComplete true) s = .next (settleUp { s with
      out := [], boot := { s.boot.put w.rec_ with swapWork := none, owed := false, rebuild := false } }))
  ∧ (∀ (s : State) (w : SwapWork) (i : Item) (b : BankId), s.running = true → s.flt.stopping = false → s.boot.swapWork = some w → s.boot.owed = false →
    s.flt.unack = [] → s.item? w.ruling = some i → Entry.opcode i.entry = 0xA0 → s.boot.busy = some b →
    ∃ u, exec (.bootFlashOperationComplete true) s = .next (settleUp u) ∧ (u.bankOf b).present = false ∧ (u.bankOf b).bytes = (s.bankOf b).bytes
      ∧ u.bankOf (otherBank b) = s.bankOf (otherBank b) ∧ u.boot.swapWork = none ∧ u.boot.record = (s.boot.put w.rec_).record ∧ u.boot.dl = s.boot.dl
      ∧ u.boot.busy = some b ∧ u.nib = s.nib ∧ u.out = [])
  ∧ (∀ (b : Boot) (r : SwapRec), b.record.seq < r.seq → (b.put r).record = r)
  ∧ (∀ (s : State) (d : Download) (b : BankId) (hi : Nat), s.running = true → s.flt.stopping = false → s.boot.swapWork = none → s.boot.dl = some d →
    s.boot.busy = some b → s.flt.unack = [] → hi = min (d.pieceOff + d.pieceLen) (sectorEnd (sectorOf d.at_)) → hi < d.pieceOff + d.pieceLen →
    ∃ u, exec (.bootFlashOperationComplete true) s = .next (settleUp u) ∧ u.boot.dl = some { d with at_ := hi } ∧ u.boot.busy = some b
      ∧ u.bankOf (otherBank b) = s.bankOf (otherBank b) ∧ u.nib = s.nib
      ∧ (u.bankOf b).bytes = Mem.patch (if d.at_ = sectorStart (sectorOf d.at_) then
            (s.bankOf b).bytes.filter (fun c => c.1 < sectorStart (sectorOf d.at_) || sectorEnd (sectorOf d.at_) ≤ c.1) else (s.bankOf b).bytes)
          (Mem.slice (d.at_ - d.pieceOff) (hi - d.at_) d.piece) d.at_ (hi - d.at_))
  ∧ (∀ (s : State) (d : Download) (b : BankId) (hi : Nat), s.running = true → s.flt.stopping = false → s.boot.swapWork = none → s.boot.dl = some d →
    s.boot.busy = some b → s.flt.unack = [] → s.nib.items = [] → hi = d.pieceOff + d.pieceLen → hi ≤ sectorEnd (sectorOf d.at_) →
    ∃ u e, exec (.bootFlashOperationComplete true) s = .next (settleUp u) ∧ u.boot.dl = some e ∧ e.next = hi ∧ u.boot.busy = none
      ∧ e.complete = imageWhole (u.bankOf b).bytes hi ∧ (e.complete = true → (u.bankOf b).present = true
        ∧ (u.bankOf b).authentic = Config.imageAuthentic (u.bankOf b).bytes) ∧ u.bankOf (otherBank b) = s.bankOf (otherBank b))
  ∧ (∀ (s : State) (d : Download) (b : BankId), s.running = true → s.flt.stopping = false → s.boot.swapWork = none → s.boot.dl = some d →
    s.boot.busy = some b → s.flt.unack = [] → s.nib.items = [] → failsOf d.fails (sectorOf d.at_) = 0 →
    ∃ u e, exec (.bootFlashOperationComplete false) s = .next (settleUp u) ∧ u.boot.dl = some { d with fails := e } ∧ failsOf e (sectorOf d.at_) = 1
      ∧ (∃ x rest, u.flt.blotter = x :: rest ∧ x.kind = 1 ∧ x.cls = 7 ∧ x.level = 2 ∧ x.source = 0x0A) ∧ u.boot.bankA = s.boot.bankA ∧ u.boot.bankB = s.boot.bankB)

/-- Firmware Activate writes a record that names the bank not active, with Trial set and cause 01h, where the check of its image passes; it fails with
image-invalid where the check fails or no complete download stands, and action 01h with operation-busy while a Sanitize runs. The record in force ends actions
00h and 02h; action 01h restarts once every other command has ended, on the new image, with the record of ready (R198, R232, R369, R370). -/
def Obligations.FirmwareIsActivated : Prop :=
  (∀ (s : State) (c : Instr) (f : Fetched) (t : State) (i : Item) (r : SwapRec),
    (c = .firmwareActivateNextReset ∨ c = .firmwareActivateImmediate ∧ s.sanitizeRuns = false ∨ c = .firmwareActivateOtherBank) → s.Begins c 0 f t i →
    s.updateAllowed = true → (∀ j ∈ s.nib.items, isFirmware (Entry.opcode j.entry) = false) → s.boot.swapWork = none → s.imagePasses s.targetBank = true →
    (c = .firmwareActivateOtherBank ∨ ∃ d, s.boot.dl = some d ∧ d.complete = true) →
    r = { s.boot.record with active := otherBank s.boot.record.active, trial := true, cause := 1, seq := s.boot.record.seq + 1 } →
    exec c s = .next (settleUp { t with
      boot := { t.boot.clearSlot with swapWork := some { rec_ := r, fails := 0, ruling := i.ruling } }
      nib := { t.nib with items := s.nib.items ++ [{ i with wait := .boot }] } }))
  ∧ (∀ (s : State) (c : Instr) (f : Fetched) (t : State) (i : Item),
    (c = .firmwareActivateNextReset ∨ c = .firmwareActivateImmediate ∧ s.sanitizeRuns = false ∨ c = .firmwareActivateOtherBank) → s.Begins c 0 f t i →
    s.updateAllowed = true → (∀ j ∈ s.nib.items, isFirmware (Entry.opcode j.entry) = false) → s.boot.swapWork = none →
    (s.imagePasses s.targetBank = false ∨ c ≠ .firmwareActivateOtherBank ∧ s.boot.dl = none) → exec c s = .next (settleUp (failWith i 0x18 t)))
  ∧ (∀ (s : State) (f : Fetched) (t : State) (i : Item), s.Begins .firmwareActivateImmediate 0 f t i → s.updateAllowed = true →
    (s.recovery = false ∧ s.rec_.sanitize ≠ none ∨ ∃ o ∈ s.lops.list, o.typ = 1 ∧ o.state < 3) →
    (∀ j ∈ s.nib.items, isFirmware (Entry.opcode j.entry) = false) → s.boot.swapWork = none → exec .firmwareActivateImmediate s = .next (settleUp (failWith i 0x1B t)))
  ∧ (∀ (s : State) (w : SwapWork) (i : Item), s.running = true → s.recovery = false → s.flt.stopping = false → s.boot.swapWork = some w → s.boot.owed = false →
    s.flt.unack = [] → s.item? w.ruling = some i → Entry.opcode i.entry = 0xA1 → Entry.b2C i.entry ≠ 1 → exec (.bootFlashOperationComplete true) s = .next (settleUp (succeed i 0
      { s with out := [], boot := { s.boot.put w.rec_ with swapWork := none, dl := none } })))
  ∧ (∀ (s : State) (w : SwapWork) (i : Item), s.running = true → s.recovery = false → s.flt.stopping = false → s.boot.swapWork = some w → s.boot.owed = false →
    s.flt.unack = [] → s.item? w.ruling = some i → Entry.opcode i.entry = 0xA1 → Entry.b2C i.entry = 1 →
    ∃ u, exec (.bootFlashOperationComplete true) s = .next (settleUp u) ∧ u.boot.activating = true ∧ u.nib.paused = true ∧ u.boot.dl = none
      ∧ u.boot.record = (s.boot.put w.rec_).record)
  ∧ (∀ (s : State) (i : Item), s.running = true → s.boot.activating = true → s.nib.fetched = [] → s.nib.items = [i] → i.wait = .restart → s.lops.list = [] →
    s.ftl.bands = [] → s.recovery = false → s.boot.swapWork = none → s.boot.record.trial = true → s.boot.rebuild = false →
    ∃ u w, exec .firmwareActivationRestart s = .next (settleUp (succeed i 0 u)) ∧ u.rst.bank = s.boot.record.active ∧ u.boot.activating = false
      ∧ u.nib.paused = false ∧ u.boot.runMeasure = measurement (s.bankOf s.boot.record.active).bytes
      ∧ u.boot.runSecurity = imgField (s.bankOf s.boot.record.active).bytes 0x14 4 ∧ u.boot.owed = true
      ∧ u.boot.record = s.boot.record ∧ u.boot.swapWork = some w ∧ w.fails = 0 ∧ w.rec_ = { s.boot.record with
        seq := s.boot.record.seq + 1, trial := false, cause := 2, floor := max s.boot.record.floor (imgField (s.bankOf s.boot.record.active).bytes 0x14 4)
        revoked := s.boot.record.revoked ||| BitVec.ofNat 4 (imgField (s.bankOf s.boot.record.active).bytes 0x19 1) }
      ∧ u.nib.pairs = s.nib.pairs ∧ u.nib.next = s.nib.next ∧ u.map = s.map)

/-! ## The narrow bus (chapter 05) -/

/-- A command frame of 52 bits that is correct is the command of its index, with its tag and argument; one whose check, Lead, Kind or end bit is wrong is the
row of R114 (R112, R114, R115). A response frame carries a start bit 0, Lead 1, Kind 01b, its tag, index, status and result, the CRC7 over its bits [51:8], and the end bit (R112, R113). A frame's 48 bits: start bit 0, source, type, value, the CRC8 over bits [47:9], end bit 1 (R423, Table 16-1). -/
def Obligations.FramesCarryTheirChecks : Prop :=
  (∀ frame : BitVec 52, frame.getLsbD 51 = false → frame.getLsbD 50 = true → bits frame.toNat 48 2 = 2 →
    bits frame.toNat 1 7 = crc 7 0x09 0 (msbFirst (frame.toNat / 256) 44) → frame.getLsbD 0 = true →
    frameCommand frame = some (indexCommand (frame.extractLsb' 45 3) (frame.extractLsb' 40 5) (frame.extractLsb' 8 32)))
  ∧ (∀ frame : BitVec 52, frame.getLsbD 51 = false → (frame.getLsbD 50 = false ∨ bits frame.toNat 48 2 ≠ 2
      ∨ bits frame.toNat 1 7 ≠ crc 7 0x09 0 (msbFirst (frame.toNat / 256) 44) ∨ frame.getLsbD 0 = false) →
    frameCommand frame = some (.malformedCommandFrame frame))
  ∧ (∀ (tag : BitVec 3) (index : BitVec 5) (arg : BitVec 32), (index = 0 ∨ 0x0D ≤ index.toNat ∧ index ≠ 0x1F) →
    indexCommand tag index arg = .reservedIndexFrame tag index arg)
  ∧ (∀ (tag : BitVec 3) (arg : BitVec 32), indexCommand tag 1 arg = .selectVersion tag arg ∧ indexCommand tag 2 arg = .readStatus tag arg
    ∧ indexCommand tag 3 arg = .writeTaskRegister tag arg ∧ indexCommand tag 4 arg = .readTaskRegister tag arg ∧ indexCommand tag 5 arg = .writeTaskBlock tag arg
    ∧ indexCommand tag 6 arg = .readTaskBlock tag arg ∧ indexCommand tag 7 arg = .executeTask tag arg ∧ indexCommand tag 8 arg = .writeData tag arg
    ∧ indexCommand tag 9 arg = .readData tag arg ∧ indexCommand tag 10 arg = .resumeTask tag arg ∧ indexCommand tag 11 arg = .cancelTask tag arg
    ∧ indexCommand tag 12 arg = .sendTuningBlock tag arg ∧ indexCommand tag 0x1F arg = .busReset tag arg)
  ∧   (∀ (tag : BitVec 3) (index status result : Nat), index < 32 →
    (responseFrame tag index status result).getLsbD 51 = false ∧ (responseFrame tag index status result).getLsbD 50 = true
    ∧ bits (responseFrame tag index status result).toNat 48 2 = 1 ∧ bits (responseFrame tag index status result).toNat 45 3 = tag.toNat
    ∧ bits (responseFrame tag index status result).toNat 40 5 = index ∧ bits (responseFrame tag index status result).toNat 24 16 = status % 65536
    ∧ bits (responseFrame tag index status result).toNat 8 16 = result % 65536
    ∧ bits (responseFrame tag index status result).toNat 1 7 = crc 7 0x09 0 (msbFirst ((responseFrame tag index status result).toNat / 256) 44)
    ∧ (responseFrame tag index status result).getLsbD 0 = true)
  ∧ (∀ f : LigFrame, f.source < 32 → f.typ < 16 →
    f.bits.getLsbD 47 = false ∧ bits f.bits.toNat 42 5 = f.source ∧ bits f.bits.toNat 38 4 = f.typ ∧ bits f.bits.toNat 9 29 = f.value.toNat
    ∧ bits f.bits.toNat 1 8 = crc 8 0x07 0 (msbFirst (f.bits.toNat / 512) 39) ∧ f.bits.getLsbD 0 = true
    ∧ crc 8 0x07 0 ([0x31, 0x32, 0x33, 0x34, 0x35, 0x36, 0x37, 0x38, 0x39].flatMap (fun b => msbFirst b 8)) = 0xF4)

/-- Select Version: N1 and N2 are granted, N3 where VCCQ is classified as 1.8 V and SA0 does not cap the bus at N2; otherwise N3 is refused and N2 offered, and the
phase stays. Outside the identification phase the frame is illegal (R109); a grant takes effect at VERSION_EFFECTIVE (R110). -/
def Obligations.SelectVersionGrantsAVersion : Prop :=
  ∀ (s : State) (tag : BitVec 3) (arg : BitVec 32) (v : Nat) (w : Bool), s.nbOn = true → v = bits arg.toNat 0 4 → w = bit arg.toNat 4 →
    (s.nb.version = 0 → (v = 1 ∨ v = 2 ∨ v = 3 ∧ s.strap.vccq18 = some true ∧ s.sa0 ≠ 4 ∧ s.sa0 ≠ 5) →
      exec (.selectVersion tag arg) s = .next (respond tag 0x01 (v + flag w 8) { s with out := [], nb := { s.nb with grantedNext := some (v, w) } }))
    ∧ (s.nb.version = 0 → v = 3 → (s.strap.vccq18 ≠ some true ∨ s.sa0 = 4 ∨ s.sa0 = 5) →
      exec (.selectVersion tag arg) s = .next (respond tag 0x01 (2 * 16 + flag w 8) { s with out := [] }))
    ∧ (s.nb.version ≠ 0 ∨ v = 0 ∨ 3 < v → exec (.selectVersion tag arg) s = .next (illegal tag 0x01 { s with out := [] }))
    ∧ (s.nb.grantedNext = some (v, w) →
      exec .versionEffective s = .next { s with out := [], nb := { s.nb with version := v, wide := w, grantedNext := none } })

/-- A frame with a wrong check, Lead, Kind or end bit gets no response: the frame check error bit is set and FC9 recorded. A correct frame with a reserved index, or
sent where its phase or task state does not accept it, gets a response that reports the illegal bit and changes nothing else (R114, R115, R116, R117). -/
def Obligations.FramesOutOfPlaceHaveNoEffect : Prop :=
  (∀ (s : State) (frame : BitVec 52), s.running = true → s.rst.armedNarrow = true → malformed frame = true → s.flt.unack = [] → s.flt.stopping = false →
    s.nib.items = [] → ∃ u b rest, exec (.malformedCommandFrame frame) s = .next u ∧ u.nb = { s.nb with frameErr := true } ∧ u.out = [] ∧ u.nib = s.nib
      ∧ u.flt.blotter = b :: rest ∧ b.kind = 1 ∧ b.cls = 9 ∧ b.level = 1 ∧ b.source = 0x03 ∧ u.flt.unack = [])
  ∧ (∀ (s : State) (tag : BitVec 3) (index : BitVec 5) (arg : BitVec 32), s.nbOn = true → (index.toNat = 0 ∨ 0x0D ≤ index.toNat ∧ index.toNat ≤ 0x1E) →
    exec (.reservedIndexFrame tag index arg) s = .next (illegal tag index.toNat { s with out := [] }))
  ∧ (∀ (s : State) (tag : BitVec 3) (arg : BitVec 32) (c : Instr) (index : Nat), s.nbOn = true → (s.nb.version = 0 ∨ ¬(s.nb.task = .idle ∨ s.nb.task = .done)) →
    (c = .writeTaskRegister tag arg ∧ index = 3 ∨ c = .writeTaskBlock tag arg ∧ index = 5) → exec c s = .next (illegal tag index { s with out := [] }))
  ∧ (∀ (s : State) (tag : BitVec 3) (arg : BitVec 32), s.nbOn = true → (s.nb.version = 0 ∨ ¬(s.nb.task = .idle ∨ s.nb.task = .done)) →
    exec (.executeTask tag arg) s = .next (settleUp (illegal tag 7 { s with out := [] })))
  ∧ (∀ (s : State) (tag : BitVec 3) (arg : BitVec 32), s.nbOn = true → (s.nb.version = 0 ∨ s.nb.task ≠ .dataIn) →
    exec (.writeData tag arg) s = .next (illegal tag 8 { s with out := [] }))
  ∧ (∀ (s : State) (tag : BitVec 3) (arg : BitVec 32), s.nbOn = true → (s.nb.version = 0 ∨ s.nb.task ≠ .dataOut) →
    exec (.readData tag arg) s = .next (settleUp (illegal tag 9 { s with out := [] })))
  ∧ (∀ (s : State) (tag : BitVec 3) (index : Nat), illegal tag index s = { s with
      nb := { s.nb with frameErr := false, dataErr := false, illegal := false }
      out := s.out ++ [.response (responseFrame tag index ({ s with nb := { s.nb with illegal := true } } : State).narrowStatus 0)] })

/-- Read Status answers the status word and the blocks remaining of a data phase; a frame of the task registers writes a word of the task entry or reads one of the
file, a task block moves as one, Send Tuning Block sends the pattern on each line, Bus Reset sends the string and leads to the identification phase (R107, R116,
R118, R120, R121, R126, R131, R134). A 16-bit write to the task entry changes its own two bytes and no other (R121). -/
def Obligations.NarrowFramesAreAnswered : Prop :=
  (∀ (s : State) (tag : BitVec 3) (arg : BitVec 32), s.nbOn = true → exec (.readStatus tag arg) s = .next
    (respond tag 0x02 (if s.nb.task = .dataIn ∨ s.nb.task = .dataOut then s.nb.remaining else 0) { s with out := [] }))
  ∧ (∀ (s : State) (tag : BitVec 3) (arg : BitVec 32) (off : Nat), s.nbOn = true → s.nb.version ≠ 0 → off = 2 * bits arg.toNat 0 8 →
    ((s.nb.task = .idle ∨ s.nb.task = .done) → off < 0x40 → exec (.writeTaskRegister tag arg) s = .next (respond tag 0x03 0 { s with
        out := [], nb := { s.nb with entry := Entry.put s.nb.entry off 2 (bits arg.toNat 16 16) } }))
    ∧ ((s.nb.task = .idle ∨ s.nb.task = .done) → 0x40 ≤ off → exec (.writeTaskRegister tag arg) s = .next (illegal tag 0x03 { s with out := [] }))
    ∧ (off < 0x100 → exec (.readTaskRegister tag arg) s = .next (respond tag 0x04 (Mem.getLE 0 s.taskFile off 2) { s with out := [] }))
    ∧ (0x100 ≤ off → exec (.readTaskRegister tag arg) s = .next (illegal tag 0x04 { s with out := [] })))
  ∧ (∀ (s : State) (tag : BitVec 3) (arg : BitVec 32), s.nbOn = true → s.nb.version ≠ 0 → (s.nb.task = .idle ∨ s.nb.task = .done) →
    exec (.writeTaskBlock tag arg) s = .next (respond tag 0x05 0 { s with out := [], nb := { s.nb with taskBlock := true } }))
  ∧ (∀ (s : State) (tag : BitVec 3) (arg : BitVec 32), s.nbOn = true → s.nb.version ≠ 0 → s.nb.task ≠ .dataOut → exec (.readTaskBlock tag arg) s = .next
    (emit (blockOut s.nb.wide s.ddr 128 (Mem.slice 0 128 s.taskFile)) (respond tag 0x06 0 { s with out := [] })))
  ∧ (∀ (s : State) (tag : BitVec 3) (arg : BitVec 32), s.nbOn = true → s.nb.version ≠ 0 → s.nb.task ≠ .dataIn → s.nb.task ≠ .dataOut →
    exec (.sendTuningBlock tag arg) s = .next (emit (.block
      (List.replicate (if s.nb.wide then 4 else 1) (lineBlock s.ddr (tuningBytes.flatMap byteBits))) { len := 128, data := Mem.ofBytes 0 tuningBytes })
      (respond tag 0x0C 0 { s with out := [] })))
  ∧ (∀ (s : State) (tag : BitVec 3) (arg : BitVec 32) (t : State), s.nbOn = true → (s.nb.task = .idle ∨ s.nb.task = .busy ∨ s.nb.task = .done
      ∨ s.nb.task = .frozen ∧ s.nb.contained = false) →
    t = { s with out := [], nb := { s.nb with idNext := decide (s.nb.version ≠ 0), grantedNext := none, taskBlock := false } } →
    (s.nb.idReady = true → exec (.busReset tag arg) s = .next (settleUp (emit t.idBlock (respond tag 0x1F t.idString.length t))))
    ∧ (s.nb.idReady = false → exec (.busReset tag arg) s = .next (settleUp (respond tag 0x1F 0 t))))
  ∧ (∀ s : State, s.nbOn = true → s.nb.idNext = true → exec .identificationPhaseEntry s = .next { s with
      out := [], nb := { s.nb with version := 0, wide := false, idNext := false, grantedNext := none } })
  ∧ (∀ s : State, s.running = true → s.islandState .hostN = .released → exec .narrowIdReady s = .next { s with out := [], nb := { s.nb with idReady := true } })
  ∧ (∀ (e : Entry) (j k x : Nat), j < 32 → k < 32 → x < 65536 →
    Entry.field (Entry.put e (2 * j) 2 x) (2 * k) 2 = (if j = k then x else Entry.field e (2 * k) 2))

/-- Execute Task hands the task entry to the nib and the task is admitting; the phase bit of the completion area then reads 0. Admitted, it is in data-in, data-out
or busy by its command's data. Resume Task retries the entry under a new ruling, or skips it; Cancel Task and Bus Reset end a task that is not past its cancel
point with the aborted status (R122, R123, R125, R126). -/
def Obligations.TasksRunAndEnd : Prop :=
  (∀ (s : State) (tag : BitVec 3) (arg : BitVec 32), s.nbOn = true → s.nb.version ≠ 0 → (s.nb.task = .idle ∨ s.nb.task = .done) →
    ∃ u, exec (.executeTask tag arg) s = .next (settleUp (ruleTask u)) ∧ u.nb.task = .admitting ∧ u.nb.completion.getLsbD 112 = false ∧ u.nb.ruling = 0
      ∧ u.nib.fetched = s.nib.fetched ++ [{ narrow := true, q := 0, slot := 0, entry := s.nb.entry, stalled := false, retries := 0 }] ∧ u.out.length = 1 ∧ u.nb.entry = s.nb.entry)
  ∧ (∀ (s : State) (f : Fetched), s.nib.fetched = [f] → f.narrow = true → f.stalled = false → s.taskReady f.entry = true → s.mustStall f = false →
    ruleTask s = rule true 0 0 f.entry .nothing { s with nib := { s.nib with fetched := [] } })
  ∧ (∀ (s : State) (i : Item) (x : CmdInfo), i.narrow = true → cmdInfo (Entry.opcode i.entry) = some x →
    (taskAdmitted i s).nb.task = (if x.data = 1 then .dataIn else if x.data = 2 then .dataOut else .busy))
  ∧ (∀ (s : State) (tag : BitVec 3) (arg : BitVec 32), s.nbOn = true → s.nb.version ≠ 0 → s.nb.task = .frozen → s.nb.contained = false → bit arg.toNat 0 = true →
    exec (.resumeTask tag arg) s = .next (settleUp (respond tag 0x0A 0 { s with out := [], nb := { s.nb with task := .idle } })))
  ∧ (∀ (s : State) (tag : BitVec 3) (arg : BitVec 32), s.nbOn = true → s.nb.version ≠ 0 → s.nb.task = .frozen → s.nb.contained = false → bit arg.toNat 0 = false →
    ∃ u, exec (.resumeTask tag arg) s = .next (settleUp (ruleTask u)) ∧ u.nb.task = .admitting ∧ u.nb.entry = s.nb.entry
      ∧ u.nib.fetched = s.nib.fetched ++ [{ narrow := true, q := 0, slot := 0, entry := s.nb.entry, stalled := false, retries := 0 }])
  ∧ (∀ (s : State) (tag : BitVec 3) (arg : BitVec 32) (f : Fetched), s.nbOn = true → s.nb.version ≠ 0 → s.nb.task = .admitting → s.nib.fetched = [f] →
    f.narrow = true → ∃ u, exec (.cancelTask tag arg) s = .next (settleUp u) ∧ u.nb.task = .frozen ∧ u.nib.fetched = [] ∧ u.nib.items = s.nib.items
      ∧ u.nb.completion = completionEntry 0 0 0 0 (Entry.cid f.entry) true 7 ∧ u.out.length = 1 ∧ u.map = s.map)
  ∧ (∀ (s : State) (tag : BitVec 3) (arg : BitVec 32) (i : Item), s.nbOn = true → s.nb.version ≠ 0 → (s.nb.task = .dataIn ∨ s.nb.task = .dataOut) →
    s.nib.fetched = [] → s.nib.items = [i] → i.narrow = true → ∃ u, exec (.cancelTask tag arg) s = .next (settleUp u) ∧ u.nb.task = .frozen ∧ u.nib.items = []
      ∧ u.nb.completion = completionEntry 0 i.ruling 0 0 (Entry.cid i.entry) true 7 ∧ (∀ x ∈ u.res.staged, x.ruling ≠ i.ruling) ∧ u.map = s.map)
  ∧ (∀ (s : State) (tag : BitVec 3) (arg : BitVec 32) (i : Item), s.nbOn = true → s.nb.version ≠ 0 → s.nb.task = .busy → s.nib.items = [i] → i.narrow = true →
    i.past = true → exec (.cancelTask tag arg) s = .next (settleUp (respond tag 0x0B 0 { s with out := [] })))

/-- Write Data grants slots; a block whose check is good is taken and confirmed, one whose check is wrong uses up its slot, is reported, and records FC9. Read Data
sends the blocks that stand ready, the last one again on a resend, and confirms the last with the completion (R131, R132, R133). -/
def Obligations.DataPhasesMoveBlocks : Prop :=
  (∀ (s : State) (tag : BitVec 3) (arg : BitVec 32) (n : Nat), s.nbOn = true → s.nb.version ≠ 0 → s.nb.task = .dataIn → n = bits arg.toNat 0 13 →
    (1 ≤ n → n ≤ 4096 → exec (.writeData tag arg) s = .next
      (respond tag 0x08 (min n s.nb.remaining) { s with out := [], nb := { s.nb with slots := min n s.nb.remaining, slotNo := 0 } }))
    ∧ (n = 0 ∨ 4096 < n → exec (.writeData tag arg) s = .next (illegal tag 0x08 { s with out := [] })))
  ∧ (∀ (s : State) (data : Mem) (crcs : List (BitVec 16)), s.nbOn = true → s.nb.taskBlock = true → crcs = blockChecks s.nb.wide 64 (Mem.norm 0 64 data) →
    exec (.hostDataBlock data crcs) s = .next (settleUp { s with
      out := [tokenOf 1 true], nb := { s.nb with taskBlock := false, entry := BitVec.ofNat 512 (Mem.getLE 0 (Mem.norm 0 64 data) 0 64) } }))
  ∧ (∀ (s : State) (data : Mem) (crcs : List (BitVec 16)) (n : Nat), s.nbOn = true → s.nb.taskBlock = false → s.nb.task = .dataIn → 0 < s.nb.slots →
    1 < s.nb.remaining → n = min 4096 (Entry.length s.nb.entry - s.nb.inLen) → crcs = blockChecks s.nb.wide n (Mem.norm 0 n data) →
    exec (.hostDataBlock data crcs) s = .next (settleUp { s with
      out := [tokenOf (s.nb.slotNo + 1) true]
      nb := { s.nb with slots := s.nb.slots - 1, slotNo := s.nb.slotNo + 1, remaining := s.nb.remaining - 1, inLen := s.nb.inLen + n
                        inData := Mem.patch s.nb.inData (Mem.norm 0 n data) s.nb.inLen n } }))
  ∧ (∀ (s : State) (data : Mem) (crcs : List (BitVec 16)) (n : Nat), s.nbOn = true → s.nb.taskBlock = false → s.nb.task = .dataIn → 0 < s.nb.slots →
    n = min 4096 (Entry.length s.nb.entry - s.nb.inLen) → crcs ≠ blockChecks s.nb.wide n (Mem.norm 0 n data) → s.flt.unack = [] → s.flt.stopping = false →
    s.nib.items = [] → ∃ u b rest, exec (.hostDataBlock data crcs) s = .next (settleUp u) ∧ u.out = [tokenOf (s.nb.slotNo + 1) false]
      ∧ u.nb = { s.nb with slots := s.nb.slots - 1, slotNo := s.nb.slotNo + 1, dataErr := true } ∧ u.flt.blotter = b :: rest ∧ b.cls = 9 ∧ b.level = 1)
  ∧ (∀ (s : State) (tag : BitVec 3) (arg : BitVec 32) (n k : Nat) (p : Payload), s.nbOn = true → s.nb.version ≠ 0 → s.nb.task = .dataOut → n = bits arg.toNat 0 13 →
    1 ≤ n → n ≤ 4096 → bit arg.toNat 31 = false → s.nb.remaining ≠ 0 → s.nb.outData = some p → k = min n (blocksOf p - s.nb.sent) →
    ∃ u, exec (.readData tag arg) s = .next (settleUp u) ∧ u = { sendBlocks p s.nb.sent k (respond tag 0x09 k { s with out := [] }) with nb := u.nb }
      ∧ u.nb.sent = s.nb.sent + k ∧ u.nb.remaining = s.nb.remaining - k ∧ u.nb.task = .dataOut ∧ u.nb.outData = some p ∧ u.out.length = k + 1)
  ∧ (∀ (s : State) (tag : BitVec 3) (arg : BitVec 32) (n k : Nat) (p : Payload), s.nbOn = true → s.nb.version ≠ 0 → s.nb.task = .dataOut → n = bits arg.toNat 0 13 →
    1 ≤ n → n ≤ 4096 → bit arg.toNat 31 = true → s.nb.sent ≠ 0 → s.nb.outData = some p → k = min n (1 + (blocksOf p - s.nb.sent)) →
    ∃ u, exec (.readData tag arg) s = .next (settleUp u) ∧ u = { sendBlocks p (s.nb.sent - 1) k (respond tag 0x09 k { s with out := [] }) with nb := u.nb }
      ∧ u.nb.sent = s.nb.sent + k - 1 ∧ u.nb.remaining = s.nb.remaining - (k - 1) ∧ u.nb.task = .dataOut)
  ∧ (∀ (s : State) (tag : BitVec 3) (arg : BitVec 32) (i : Item), s.nbOn = true → s.nb.version ≠ 0 → s.nb.task = .dataOut →
    bit arg.toNat 31 = false → 1 ≤ bits arg.toNat 0 13 → bits arg.toNat 0 13 ≤ 4096 → s.nb.remaining = 0 → s.nib.items = [i] → i.narrow = true → i.wait = .data →
    s.nb.outData ≠ none → ∃ u, exec (.readData tag arg) s = .next (settleUp (succeed i i.result u)) ∧ u.out.length = 1 ∧ u.nib = s.nib ∧ u.nb.task = .busy)

/-! ## The flash at work (chapters 09, 10, 11) -/

/-- A channel serves, of the operations that can start, one of the lowest class; a read may suspend a program in TLC mode or an erase, never a read, and none where the
policy is not to suspend; reads of different planes run side by side; the operation issued runs on its die and what it suspends waits there, to be resumed at its
limits; before a die's first operation in a start the die is reset. Collection below the reserve floor, folding far above the cache's size and a rebuild that has
waited are served as class 2; a test's operation waits while host work is queued for its channel. The block state table moves with what is issued, a read has
the offsets of its class at the thresholds of its page, a program that the table refuses is FC10 and is dispatched again, and a read that the gate refuses is FC14 and
is not issued (R26 to R27, R255, R270 to R271, R275 to R276, R282 to R283, R289, R300, R312, R381 to R383, Table 10-7). -/
def Obligations.DiesAreServedByClass : Prop :=
  (∀ (s : State) (c : Nat) (o : DieOp) (b : Bool), s.nextOp c = some (o, b) → o ∈ s.dies.queue ∧ dieChannel o.die = c ∧ s.canStart o = some b
    ∧ ∀ x ∈ s.dies.queue, dieChannel x.die = c → s.canStart x ≠ none → s.effClass o ≤ s.effClass x)
  ∧ (∀ (s : State) (o : DieOp), s.canStart o = some true → s.suspendPolicy ≠ 0 ∧ (s.die o.die).susp.length < 2
    ∧ ∃ a, (s.die o.die).active = some a ∧ s.suspendable a.kind = true)
  ∧ (∀ (s : State) (o a : DieOp), s.canStart o = some false → (s.die o.die).active = some a → o.kind.isRead = true ∧ a.kind.isRead = true
    ∧ ∀ q ∈ a :: (s.die o.die).more, s.opPlane q.kind ≠ s.opPlane o.kind)
  ∧ (∀ (s : State) (o : DieOp), (s.dieDead o.die = true ∨ (s.die o.die).resetWait = true ∨ s.channelUp (dieChannel o.die) = false) → s.canStart o = none)
  ∧ (∀ (s : State) (o q : DieOp), s.isTest o.kind = true → q ∈ s.dies.queue → dieChannel q.die = dieChannel o.die → q.cls < 3 → s.canStart o = none)
  ∧ (∀ (s : State) (o : DieOp), (o.cls ≠ 3 → s.effClass o = o.cls) ∧ (o.cls = 3 → s.effClass o = if s.freeBands < s.reserveFloor ∧ s.empties forCollection o = true
      ∨ s.cacheSize + 8 ≤ s.cacheBands ∧ s.empties (· = 1) o = true ∨ s.raises (dieChannel o.die) = true ∧ s.empties forRebuild o = true then 2 else 3))
  ∧ (∀ (s : State) (c : Nat) (o : DieOp) (b : Bool), s.running = true → s.nextOp c = some (o, b) → o.die ∉ s.dies.cold → s.gateFor o = none → s.programAllowed o = true → ∃ u y,
    exec (.channelDispatch c) s = .next u ∧ u.dies.queue = s.dies.queue.erase o
      ∧ ((s.die o.die).active = none ∨ b = true → (u.die o.die).active = some { o with raised := y } ∧ (u.die o.die).more = (s.die o.die).more)
      ∧ (∀ a, (s.die o.die).active = some a → b = false → (u.die o.die).active = some a ∧ (u.die o.die).more = (s.die o.die).more ++ [{ o with raised := y }])
      ∧ (u.die o.die).susp = (match b, (s.die o.die).active with | true, some a => a :: (s.die o.die).susp | _, _ => (s.die o.die).susp)
      ∧ u.map = s.map ∧ u.nib.items = s.nib.items ∧ u.ftl.slots = s.ftl.slots ∧ (o.kind.isRead = true → u.ftl = s.ftl ∧ u.log = s.log)
      ∧ (∀ pg p, o.kind = .program pg → s.prog? pg = some p → p.wl < 768 → ∀ x ∈ u.ftl.bands, x.n = p.band → ∀ k ∈ x.blks, k.key / 4 = o.die →
        k.st = .opened ∧ k.nextWl = p.wl + 1)
      ∧ (∀ n, o.kind = .erase n → ∀ x ∈ u.ftl.bands, x.n = n → ∀ k ∈ x.blks, k.key / 4 = o.die → k.st = .erasing ∨ k.st = .retired))
  ∧ (∀ (s : State) (c : Nat) (o : DieOp) (b : Bool), s.running = true → s.nextOp c = some (o, b) → o.die ∈ s.dies.cold → ∃ u,
    exec (.channelDispatch c) s = .next u ∧ (u.die o.die).resetWait = true ∧ o.die ∉ u.dies.cold ∧ u.dies.queue = s.dies.queue
      ∧ (u.die o.die).active = (s.die o.die).active ∧ u.ftl = s.ftl)
  ∧ (∀ (s : State) (c n z m : Nat) (o : DieOp) (b : Bool) (r : Rd) (x : Band) (k : Blk) (y : ZoneTh), s.running = true → s.nextOp c = some (o, b) →
    o.die ∉ s.dies.cold → s.gateFor o = none → o.kind = .read n → s.rd? n = some r → s.rdBlk r = some (x, k, z) → k.zones.find? (fun y => y.zone = z) = some y →
    (s.dieTemp r.die - y.temp).natAbs < 10 → (r.tried = [] ∧ m = s.classOf x k z ∨ ∃ l, r.tried = l ++ [m]) →
    ∃ u w, exec (.channelDispatch c) s = .next u ∧ u.rd? n = some w ∧ w.tried.getLast? = some m
      ∧ w.thr = (stepSenses r.step).map (fun d => (pageThresholds x.tlc (r.slot % bandSlots)).map (fun i =>
          (if x.tlc = true then (s.tableOf r.die).tlc.getD m [] else [(s.tableOf r.die).slc.getD m 0]).getD i 0 + d)))
  ∧ (∀ (s : State) (c : Nat) (o : DieOp) (b : Bool) (i : Item), s.running = true → s.nextOp c = some (o, b) → o.die ∉ s.dies.cold → s.gateFor o = some i →
    s.flt.unack = [] → s.flt.stopping = false → ∃ u f, exec (.channelDispatch c) s = .next u ∧ f ∈ u.flt.blotter ∧ f.cls = 14 ∧ f.level = 1
      ∧ f.source = (if i.fast = true then 0x1B else 0x07) ∧ (∀ r ∈ u.dies.reads, ¬ (r.use = 0 ∧ r.ruling = i.ruling)) ∧ u.ftl = s.ftl ∧ u.map = s.map)
  ∧ (∀ (s : State) (c pg : Nat) (o : DieOp) (b : Bool) (p : Prog), s.running = true → s.nextOp c = some (o, b) → o.die ∉ s.dies.cold → s.programAllowed o = false →
    o.kind = .program pg → s.prog? pg = some p → s.band? p.band ≠ none → s.flt.unack = [] → s.flt.stopping = false → s.nib.items = [] →
    ∃ u f, exec (.channelDispatch c) s = .next u ∧ u.dies.queue = s.dies.queue.erase o ++ [o] ∧ f ∈ u.flt.blotter ∧ f.cls = 10 ∧ f.level = 2
      ∧ f.source = 0x20 + c ∧ u.map = s.map ∧ u.ftl.progs = s.ftl.progs
      ∧ (s.bandRec p.band = none → s.ftl.progs = [p] → o.die ∈ p.wait → (∀ x, s.band? p.band = some x → ∀ k ∈ x.on o.die,
          (k.st = .erased ∨ k.st = .opened) ∧ k.tlc = p.tlc) → u.programAllowed o = true))
  ∧ (∀ (s : State) (d : Nat) (a : DieOp) (rest : List DieOp), s.running = true → s.suspendPolicy = 2 → (s.die d).active = none → (s.die d).susp = a :: rest → ∃ u,
    exec (.nestedSuspendLimit d) s = .next u ∧ (u.die d).active = some { a with minRun := true } ∧ (u.die d).susp = rest ∧ u.dies.queue = s.dies.queue ∧ u.ftl = s.ftl)
  ∧ (∀ (s : State) (d : Nat) (a : DieOp), s.running = true → (s.die d).active = some a → ∃ u,
    exec (.minimumRunAfterResumeExpiry d) s = .next u ∧ (u.die d).active = some { a with minRun := false } ∧ u.dies.queue = s.dies.queue ∧ u.ftl = s.ftl)

/-- A program that verifies on its last die puts the wordline's slots on the media; one that fails retires its block, closes its band early and has it emptied, and a
log page is programmed again under a new sequence. An erase that ends on its last die frees the band, older by the wear of the mode it was erased for, with none of
its slots left, or lets an open band's programs begin. A band of the system region that is dissolved gives its place to the lowest free host band of group 0 (R249,
R270, R272, R277, R278, R279, R331). -/
def Obligations.ProgramsAndErasesEnd : Prop :=
  (∀ (s : State) (d : Nat) (a : DieOp) (ov rb : Bool) (pl : Nat) (p : Prog), s.running = true → (s.die d).active = some a → a.kind = .program p.id →
    s.prog? p.id = some p → (rb = true ∨ s.readBackDue p ov = false) → (∃ x ∈ p.wait, x ≠ d) → s.lops.list = [] →
    exec (.dieProgramComplete d true ov rb pl) s = .next (settleUp (modProgs (fun q => q.id = p.id)
      (fun _ => { p with wait := p.wait.filter (fun x => x ≠ d) }) (endDieOp d { s with out := [] }))))
  ∧ (∀ (s : State) (d : Nat) (a : DieOp) (ov rb : Bool) (pl : Nat) (p : Prog), s.running = true → (s.die d).active = some a → a.kind = .program p.id →
    s.prog? p.id = some p → (rb = true ∨ s.readBackDue p ov = false) → p.wait = [d] → ∃ u, exec (.dieProgramComplete d true ov rb pl) s = .next (settleUp u)
      ∧ (∀ x ∈ p.slots, ∃ y ∈ u.ftl.slots, y.n = x.n) ∧ (∀ y ∈ s.ftl.slots, ∃ z ∈ u.ftl.slots, z.n = y.n)
      ∧ (∀ z ∈ u.res.staged, (∃ x ∈ p.slots, z.placed = some x.n) → z.verified = true))
  ∧ (∀ (s : State) (d : Nat) (a : DieOp) (ov rb pass : Bool) (pl : Nat) (p : Prog), s.running = true → (s.die d).active = some a → a.kind = .program p.id →
    s.prog? p.id = some p → (pass = false ∨ s.readBackDue p ov = true ∧ rb = false) → s.isSystem p.band = false → s.ftl.testBand = none → s.res.staged = [] →
    s.ftl.moves = [] → s.ftl.fill = [] → s.dies.grown = [] →
    ∃ u, exec (.dieProgramComplete d pass ov rb pl) s = .next (settleUp u) ∧ u.ftl.retired = s.ftl.retired + 1 ∧ (∀ q ∈ u.ftl.progs, q.band ≠ p.band)
      ∧ (∀ b ∈ u.ftl.bands, b.n = p.band → ∀ x ∈ b.blks, x.key = 4 * d + pl % 4 → x.st = .retired)
      ∧ (∀ b ∈ u.ftl.bands, b.n = p.band → b.st = .closedEarly) ∧ u.dies.grown = [(d, s.health.powerOnMs)] ∧ (∃ e ∈ u.ftl.emptying, e.band = p.band) ∧ u.map = s.map)
  ∧ (∀ (s : State) (d : Nat) (a : DieOp) (ov rb pass : Bool) (pl : Nat) (p : Prog) (g : LogPage), s.running = true → (s.die d).active = some a →
    a.kind = .program p.id → s.prog? p.id = some p → (pass = false ∨ rb = false) → s.isSystem p.band = true → s.dies.grown = [] → s.log.inflight = [g] →
    s.log.progs = [(g.seq, p.id)] → s.lops.list = [] →
    ∃ u, exec (.dieProgramComplete d pass ov rb pl) s = .next (settleUp u) ∧ u.ftl.retired = s.ftl.retired + 1
      ∧ u.log.inflight = [{ g with seq := s.log.nextPage }] ∧ u.log.nextPage = s.log.nextPage + 1 ∧ u.log.pages = s.log.pages ∧ u.map = s.map)
  ∧ (∀ (s : State) (d n : Nat) (a : DieOp) (pl : Nat) (b : Band), s.running = true → (s.die d).active = some a → a.kind = .erase n → s.ftl.bands = [b] → b.n = n →
    d ∈ b.eraseWait → (∃ x ∈ b.eraseWait, x ≠ d) → s.ftl.testBand = none → s.dies.grown = [] → ∃ u, exec (.dieEraseComplete d true pl) s = .next (settleUp u)
      ∧ u.ftl.bands =
        [{ b with eraseWait := b.eraseWait.filter (fun x => x ≠ d), blks := mapIf (fun x => x.key / 4 = d && x.st ≠ .retired) Blk.erase b.blks }]
      ∧ u.ftl.slots = s.ftl.slots)
  ∧ (∀ (s : State) (d n : Nat) (a : DieOp) (pl : Nat) (b : Band), s.running = true → (s.die d).active = some a → a.kind = .erase n → s.ftl.bands = [b] → b.n = n →
    b.eraseWait = [d] → b.st = .opened → s.ftl.testBand = none → s.dies.grown = [] → ∃ u, exec (.dieEraseComplete d true pl) s = .next (settleUp u)
      ∧ u.ftl.bands = [{ b with eraseWait := [], erases := b.erases + 1, blks := mapIf (fun x => x.key / 4 = d && x.st ≠ .retired) Blk.erase b.blks }]
      ∧ u.ftl.slots = s.ftl.slots)
  ∧ (∀ (s : State) (d n : Nat) (a : DieOp) (pl : Nat) (b : Band), s.running = true → (s.die d).active = some a → a.kind = .erase n → s.ftl.bands = [b] → b.n = n →
    b.eraseWait = [d] → b.st = .erasing → b.retireAfter = [] → b.soft = [] → (∀ x ∈ b.blks, x.st ≠ .retired) → s.ftl.testBand = none → s.ftl.fill = [] →
    s.dies.grown = [] → s.lops.list = [] →
    ∃ u x r, exec (.dieEraseComplete d true pl) s = .next (settleUp u) ∧ u.ftl.bands = [x] ∧ x.n = n ∧ x.st = .free ∧ x.erases = b.erases + 1
      ∧ (∀ y ∈ x.blks, ∃ k ∈ b.blks, y = if k.key / 4 = d then { k with st := .erased, nextWl := 0, reads := 0, zones := [], wear :=
           k.wear + (if k.tlc = true then 10 else 1) } else k) ∧ u.ftl.slots = s.ftl.slots.filter (fun y => bandOfSlot y.n ≠ n)
      ∧ (∀ e ∈ u.ftl.emptying, e.band ≠ n) ∧ u.log.buf = s.log.buf ++ [r] ∧ r.typ = 0x0A ∧ r.ruling = 0)
  ∧ (∀ (s : State) (d n : Nat) (a : DieOp) (pl : Nat) (b : Band), s.running = true → (s.die d).active = some a → a.kind = .erase n → s.ftl.bands = [b] → b.n = n →
    b.st = .erasing → d ∈ b.eraseWait → (∃ x ∈ b.eraseWait, x ≠ d) → s.ftl.testBand = none → s.dies.grown = [] →
    ∃ u, exec (.dieEraseComplete d false pl) s = .next (settleUp u)
      ∧ u.ftl.retired = s.ftl.retired + 1 ∧ u.dies.grown = [(d, s.health.powerOnMs)]
      ∧ (∀ c ∈ u.ftl.bands, ∀ x ∈ c.blks, x.key = 4 * d + pl % 4 → x.st = .retired))
  ∧ (∀ (s : State) (n m : Nat) (b : Band), s.band? n = some b → s.isSystem n = true → s.lowestFree = some m →
    (dissolve n s).ftl.system = s.ftl.system.filter (fun x => x ≠ n) ++ [m] ∧ (dissolve n s).ftl.spares = s.ftl.spares ++ b.blks.filter (fun x => x.st ≠ .retired)
    ∧ ∀ x ∈ (dissolve n s).ftl.bands, x.n = n → x.st = .dissolved ∧ x.blks = [])

/-- A die read puts its codeword in staging; a decode whose CRC32C matches brings it in hand, any other takes the read a step up the ladder, and the last step's
failure is FC4 and the media-uncorrectable status. A decoder that times out leaves the pool with FC10 (R289, R293, R295, R319). -/
def Obligations.ReadsAreDecodedOrClimb : Prop :=
  (∀ (s : State) (d e id : Nat) (a : DieOp) (r : Rd), s.running = true → (s.die d).active = some a → a.kind = .read id → s.rd? id = some r →
    ∃ u x, exec (.dieReadComplete d e) s = .next (settleUp u) ∧ u.rd? id = some x ∧ x.staged = true ∧ x.slot = r.slot ∧ x.step = r.step ∧ x.thr = r.thr)
  ∧ (∀ (s : State) (d e id x y : Nat) (a : DieOp) (p : Probe) (l : List Nat), s.running = true → (s.die d).active = some a → a.kind = .probe id →
    s.dies.probes = [p] → p.id = id → p.todo = x :: y :: l → ∃ u q, exec (.dieReadComplete d e) s = .next (settleUp u)
      ∧ u.dies.probes = [{ p with todo := y :: l, found := p.found ++ [(x, e)] }] ∧ u.map = s.map
      ∧ q ∈ u.dies.queue ∧ q.die = p.die ∧ q.cls = p.cls ∧ q.kind = .probe p.id)
  ∧ (∀ (s : State) (id dec n : Nat) (r : Rd), s.running = true → dec ∈ s.dies.decoders → s.rd? id = some r → r.staged = true → r.done = false → r.bad = false → r.step = 0 →
    r.falsely = none → r.use = 0 → n ≤ 132 → r.tried.getLastD 0 < 56 → s.flt.unack = [] → ∃ u, exec (.ldpcDecodeComplete id dec (some n) true) s = .next (settleUp u)
      ∧ (∀ x ∈ u.dies.reads, x.id = id → x.done = true) ∧ u.map = s.map ∧ u.ftl.bands = s.ftl.bands)
  ∧ (∀ (s : State) (id dec : Nat) (r : Rd), s.running = true → dec ∈ s.dies.decoders → s.rd? id = some r → r.staged = true → r.done = false → r.step < 9 →
    r.use ≠ 4 → ∃ u x, exec (.ldpcDecodeComplete id dec none true) s = .next (settleUp u) ∧ u.rd? id = some x ∧ r.step < x.step ∧ x.step ≤ 9 ∧ x.slot = r.slot
      ∧ u.nib.items = s.nib.items ∧ u.map = s.map)
  ∧ (∀ (s : State) (id dec : Nat) (r : Rd), s.running = true → dec ∈ s.dies.decoders → s.rd? id = some r → r.staged = true → r.done = false → r.step = 0 →
    r.use ≠ 4 → s.dieAway r.die = false → ∃ u p q, exec (.ldpcDecodeComplete id dec none true) s = .next (settleUp u) ∧ p ∈ u.dies.probes ∧ p.rd = some id
      ∧ p.die = r.die ∧ p.band = bandOfSlot r.slot ∧ p.cls = 0 ∧ p.todo.length = 4 ∧ q ∈ u.dies.queue ∧ q.die = r.die ∧ q.cls = 0 ∧ q.kind = .probe p.id)
  ∧ (∀ (s : State) (id dec d : Nat) (r : Rd), s.running = true → dec ∈ s.dies.decoders → s.rd? id = some r → r.staged = true → r.done = false → r.step = 8 →
    r.use ≠ 4 → s.peersThere r.slot r.die = true → d ∈ s.peerDies r.slot r.die → ∃ u y q, exec (.ldpcDecodeComplete id dec none true) s = .next (settleUp u)
      ∧ y ∈ u.dies.reads ∧ y.parent = some id ∧ y.die = d ∧ y.slot = r.slot ∧ y.cls = 0 ∧ y.step = 0
      ∧ q ∈ u.dies.queue ∧ q.die = d ∧ q.cls = 0 ∧ q.kind = .read y.id)
  ∧ (∀ (s : State) (id dec : Nat) (r : Rd) (i : Item) (p : Part), s.running = true → dec ∈ s.dies.decoders → s.rd? id = some r → r.staged = true → r.done = false →
    r.step = 9 → s.nib.items = [i] → i.ruling = r.ruling → (r.use = 0 ∧ i.wait = .data ∨ r.use = 5 ∧ i.wait = .merge) → s.partOf i = some p → s.flt.unack = [] → s.flt.stopping = false →
    ∃ u b rest, exec (.ldpcDecodeComplete id dec none true) s = .next (settleUp u) ∧ u.nib.items = [] ∧ u.flt.blotter = b :: rest ∧ b.kind = 1 ∧ b.cls = 4
      ∧ b.level = 3 ∧ (∃ e ∈ u.elog.list, e.status = 0x0B ∧ e.ruling = r.ruling ∧ e.cls = 4) ∧ u.map = s.map)
  ∧ (∀ (s : State) (dec : Nat), s.running = true → dec ∈ s.dies.decoders → (∃ x ∈ s.dies.decoders, x ≠ dec) → s.flt.unack = [] → s.flt.stopping = false → s.nib.items = [] →
    ∃ u b rest, exec (.decoderTimeout dec) s = .next (settleUp u) ∧ u.dies.decoders = s.dies.decoders.filter (fun x => x ≠ dec) ∧ u.flt.blotter = b :: rest
      ∧ b.kind = 1 ∧ b.cls = 10 ∧ b.level = 2 ∧ b.source = 0x0C)

/-- A die that stays busy is reset once, its operation repeated, and failed at the second time; class 0 reads of a slow die go to reconstruction. A failure is recorded
for good when its hold-back ends, with a rebuild; a die whose identification read disagrees with the factory record has failed, and a channel that fails its
training twice is failed as a whole (R281, R308, R309, R313). -/
def Obligations.FailingDiesAreTakenOut : Prop :=
  (∀ (s : State) (d : Nat) (a : DieOp), s.running = true → (s.die d).active = some a → (s.die d).resetWait = false → (s.die d).timeouts = 0 →
    ∃ u, exec (.dieReadyTimeout d) s = .next (settleUp u) ∧ (u.die d).resetWait = true ∧ (u.die d).timeouts = 1 ∧ (u.die d).active = some a ∧ u.ftl = s.ftl)
  ∧ (∀ (s : State) (d : Nat) (a : DieOp), s.running = true → (s.die d).active = some a → (s.die d).resetWait = false → (s.die d).timeouts ≠ 0 → s.ftl.bands = [] →
    (∃ g < s.groups, dieOf (dieChannel d) g ≠ d ∧ (s.die (dieOf (dieChannel d) g)).holdback = false) →
    ∃ u, exec (.dieReadyTimeout d) s = .next (settleUp u) ∧ (u.die d).failed = true ∧ (u.die d).holdback = true ∧ (u.die d).active = none
      ∧ (∀ q ∈ u.dies.queue, q.die ≠ d) ∧ ∃ x ∈ u.log.buf, x.typ = 0x0A ∧ x.chg = .die d)
  ∧ (∀ (s : State) (d : Nat) (a : DieOp), s.running = true → (s.die d).active = some a → ∃ u, exec (.dieResetWaitExpiry d) s = .next u
      ∧ (u.die d).resetWait = false ∧ (u.die d).active = some a ∧ u.dies.queue = s.dies.queue ∧ u.ftl = s.ftl)
  ∧ (∀ (s : State) (d : Nat) (a : DieOp), s.running = true → (s.die d).active = some a → ∃ u, exec (.dieSlowDiversion d) s = .next u ∧ (u.die d).slow = true
      ∧ (∀ q ∈ u.dies.queue, q.die = d → q.cls = 0 → ∀ r ∈ s.dies.reads, q.kind = .read r.id → r.use = 4 ∨ s.dies.nextRd ≤ r.id)
      ∧ (∀ q ∈ s.dies.queue, ∀ id, q.die = d → q.cls = 0 → q.kind = .read id → ∀ r ∈ u.dies.reads, r.id = id → r.use = 4 ∨ (r.recon = true ∧ r.step = 9)))
  ∧ (∀ (s : State) (d : Nat), s.running = true → (s.die d).holdback = true → s.recovery = false → s.flt.unack = [] → s.flt.stopping = false → s.nib.items = [] →
    (∃ g < s.groups, (s.die (dieOf (dieChannel d) g)).holdback = false) → ∃ u, exec (.failureHoldbackExpiry d) s = .next (settleUp u)
      ∧ d ∈ u.rec_.failedDies ∧ (5, d) ∈ u.rec_.rebuilds ∧ (∃ b ∈ u.flt.blotter, b.kind = 1 ∧ (b.cls = 5 ∨ b.cls = 6)))
  ∧ (∀ (s : State) (c : Nat) (ids : List Nat), s.running = true → c < 16 → s.channelUp c = true → s.flt.unack = [] →
    ((∀ g < s.groups, ∀ x, ids[g]? = some x → x = s.unit.dieIds.getD (dieOf c g) 0) →
      exec (.interfaceTrainingComplete c true ids) s = .next (settleUp { s with out := [], dies := { s.dies with trainFailed := s.dies.trainFailed.filter (fun x => x ≠ c) } }))
    ∧ (∀ g x, g < s.groups → ids[g]? = some x → x ≠ s.unit.dieIds.getD (dieOf c g) 0 →
        (∀ k < s.groups, k ≠ g → ∀ y, ids[k]? = some y → y = s.unit.dieIds.getD (dieOf c k) 0) → s.dieDead (dieOf c g) = false → s.ftl.bands = [] →
        s.flt.stopping = false → ∃ u, exec (.interfaceTrainingComplete c true ids) s = .next (settleUp u) ∧ (u.die (dieOf c g)).failed = true)
    ∧ (c ∉ s.dies.trainFailed → exec (.interfaceTrainingComplete c false ids) s = .next (settleUp { s with
        out := [], dies := { s.dies with trainFailed := s.dies.trainFailed ++ [c] } }))
    ∧ (c ∈ s.dies.trainFailed → s.recovery = false → s.rst.recovered = true → s.ftl.bands = [] → s.flt.stopping = false → s.nib.items = [] →
        ∃ u, exec (.interfaceTrainingComplete c false ids) s = .next (settleUp u) ∧ c ∈ u.rec_.failedChannels ∧ c ∈ u.dies.chHeld))

/-- Once 496 records wait, or a command's persistence asks for it, a page of at most 496 is programmed, unless its settled ruling would lie below that of one under
way; a page whose program has passed joins the log with its
ceiling and its settled ruling; a checkpoint, due after 512 MiB of records, brackets its map with its two records. Bands are emptied with their data in place when
their work is due, and clocks and rule epochs go on (R241, R247, R248, R255, R260, R261, R263, R286, R287, R296, R326, R331, R333, R334, R385). -/
def Obligations.LogAndBandsMoveOn : Prop :=
  (∀ s : State, s.logOn = true → s.log.needOpened = false → (496 ≤ s.log.buf.length ∨ s.persistDue = true) → s.pageWaits = false → ∃ p,
    exec .logPageFill s = .next (settleUp (launchPage p.seq { s with out := [], log := { s.log with
      buf := s.log.buf.drop 496, inflight := s.log.inflight ++ [p], nextPage := s.log.nextPage + 1 } })) ∧ p.recs = s.log.buf.take 496 ∧ p.seq = s.log.nextPage
      ∧ s.nib.ceiling ≤ p.ceiling ∧ s.settled ≤ p.settled ∧ p.clean = false ∧ p.opened = false)
  ∧ (∀ s : State, (s.log.buf.length < 496 ∧ s.persistDue = false ∨ s.pageWaits = true) → exec .logPageFill s = .next (settleUp { s with out := [] }))
  ∧ (∀ (s : State) (p : LogPage) (rest : List LogPage), s.logOn = true → s.log.inflight = p :: rest → s.pageThere = true →
    ∃ u, exec .logPageVerified s = .next (settleUp u)
      ∧ u.log.pages = s.log.pages ++ [p] ∧ u.log.inflight = rest ∧ u.nib.ceiling = max s.nib.ceiling p.ceiling ∧ u.settled = max s.settled p.settled
      ∧ (∀ r ∈ u.nib.unsettled, u.settled < r) ∧ u.map = s.map)
  ∧ (∀ s : State, s.pageThere = false → exec .logPageVerified s = .next (settleUp { s with out := [] }))
  ∧ (∀ s : State, s.logOn = true → s.log.needOpened = false → s.log.cpWriting = none → s.checkpointDue = true →
    ∃ u c a b, exec .checkpointStart s = .next (settleUp u)
      ∧ u.log.cpWriting = some c ∧ c.cs = s.settled ∧ c.map = s.settledMap ∧ c.start = s.log.nextSeq ∧ c.valid = false
      ∧ c.aging = s.dies.aging.map (· / 2 ^ 32) ∧ c.tables = s.ftl.bands.map Band.tables
      ∧ u.log.buf = s.log.buf ++ [a, b] ∧ a.typ = 8 ∧ b.typ = 9 ∧ u.map = s.map)
  ∧ (∀ s : State, s.checkpointDue = false → exec .checkpointStart s = .next (settleUp { s with out := [] }))
  ∧ (∀ (s : State) (b : Band), s.ownWork = true → s.deferred = false → (collectUpdate s).victim = some b → (collectUpdate s).ftl.collecting = true →
    ∃ u e, exec .garbageCollectionStart s = .next (settleUp u) ∧ e ∈ u.ftl.emptying ∧ e.band = b.n ∧ e.kind = 0 ∧ u.ftl.slots = s.ftl.slots ∧ u.map = s.map)
  ∧ (∀ (s : State) (b : Band), s.ownWork = true → s.hybrid = true → s.deferred = false → (s.cacheSize < s.cacheBands ∨ s.nib.lastWrite + 50 ≤ s.rst.timeMs) →
    s.ftl.bands = [b] → b.cache = true → b.st = .closed → s.isHostBand b.n = true → s.ftl.progs = [] → s.ftl.emptying = [] →
    ∃ u e, exec .foldStart s = .next (settleUp u) ∧ e ∈ u.ftl.emptying ∧ e.band = b.n ∧ e.kind = 1 ∧ u.ftl.slots = s.ftl.slots ∧ u.map = s.map)
  ∧ (∀ s : State, s.cacheBands ≤ s.cacheSize → s.rst.timeMs < s.nib.lastWrite + 50 → exec .foldStart s = .next (settleUp { s with out := [] }))
  ∧ (∀ (s : State) (a b : Band), s.ownWork = true → s.ftl.bands = [a, b] → a.n ≠ b.n → s.isHostBand a.n = true → s.isHostBand b.n = true → a.st = .closed →
    b.st ≠ .dissolved → s.ftl.progs = [] → s.ftl.emptying = [] → (s.hostBands ≤ 2 ∨ a.erases ≤ s.ftl.freshErases) →
    a.erases + 1000 ≤ b.erases → ∃ u e, exec .wearLevelling s = .next (settleUp u) ∧ e ∈ u.ftl.emptying ∧ e.band = a.n ∧ e.kind = 2 ∧ u.ftl.slots = s.ftl.slots)
  ∧ (∀ (s : State) (e : Emptying), s.ownWork = true → s.ftl.emptying = [e] → e.logged = true → e.waited = false → s.durableTo e.logSeq = true → s.settled < e.dueStale →
    ∃ u x, exec .settledWaitExpiry s = .next (settleUp u) ∧ u.ftl.emptying = [x] ∧ x.band = e.band ∧ x.waited = true ∧ u.map = s.map ∧ u.ftl.slots = s.ftl.slots)
  ∧ (∀ (s : State) (k : Nat) (x : Stroke), s.ownWork = true → s.strokeOnly = false → s.deferred = false → s.map.stroke? k = some x → 2 ≤ x.kind →
    (24 ≤ s.map.hairCount k ∨ s.touchedAt k + 600000 ≤ s.health.powerOnMs ∧ s.nib.items = [] ∧ s.nib.fetched = []) →
    (∃ i < 32, s.map.lookup (32 * k + i) ≠ none) → s.ftl.moves = [] → ∃ u, exec (.demotion k) s = .next (settleUp u) ∧ u.map = s.map
      ∧ ∀ i < 32, ∀ n, s.map.lookup (32 * k + i) = some n → ∃ m ∈ u.ftl.moves, m.old = n ∧ m.stroke = some k ∧ m.new = none)
  ∧ (∀ (s : State) (n : Nat) (b : Band), s.ownWork = true → s.band? n = some b → (s.liveSlots n ≠ [] ∨ s.isSystem n = true) →
    ∃ u, exec (.patrol n) s = .next (settleUp u) ∧ u.pwr.ps < 2 ∧ u.map = s.map
      ∧ ∀ x ∈ s.codewords b, ∃ r ∈ u.dies.reads, r.slot = x.1 ∧ r.die = x.2 ∧ r.use = 2 ∧ r.cls = 3 ∧ r.done = false)
  ∧ (∀ (s : State) (l : List Int), s.running = true → ∃ u, exec (.agingClockTick l) s = .next u ∧ u.dies.aging.length = s.dies.aging.length
      ∧ (∀ d, s.dies.aging.getD d 0 ≤ u.dies.aging.getD d 0) ∧ u.map = s.map ∧ u.nib = s.nib ∧ u.ftl = s.ftl
      ∧ (∀ d t, d < s.dies.aging.length → l[d]? = some t → s.dieFits d = true → u.dies.aging.getD d 0 = s.dies.aging.getD d 0 + agingStep t)
      ∧ (∀ d t, d < s.dies.temps.length → l[d]? = some t → u.dies.temps[d]? = some t))
  ∧ (∀ s : State, s.running = true → ∃ u, exec .ruleEpochDrainLimit s = .next (settleUp u) ∧ u.map = s.map ∧ u.nib = s.nib
      ∧ ∀ r ∈ u.dies.reads, r.use ≠ 0 → r.done = false → s.nib.epoch ≤ r.epoch)

/-! ## Faults (chapter 15) -/

/-- A repeated fault is one level above the highest unacknowledged one of its class; a report makes a blotter entry, pends its event and copies to the AON tail; each
source and class takes its own reaction, from a notice that is acknowledged at once to the stop sequence (R18, R318, R395 to R402, R406 to R418). -/
def Obligations.FaultsTakeTheirReactions : Prop :=
  (∀ (s : State) (cls base : Nat), ((∀ u ∈ s.flt.unack, sameClass u.cls cls = true → u.level = 0) → s.levelFor cls base = base)
    ∧ (∀ u ∈ s.flt.unack, sameClass u.cls cls = true → 0 < u.level → min 5 (max base (u.level + 1)) ≤ s.levelFor cls base ∧ s.levelFor cls base ≤ 5))
  ∧ (∀ (s : State) (source : Nat) (detail : BitVec 64) (hit : Hit), s.collects = true → s.sampled source = true → s.flt.unack = [] → s.flt.stopping = false →
    (∀ i ∈ s.nib.items, i.wait ≠ .event) → ∃ u b, exec (.faultReport source 4 detail hit) s = .next (settleUp u)
      ∧ u.flt.blotter = (b :: s.flt.blotter).take 32 ∧ b.slot = s.flt.nextSlot ∧ b.seq = s.aon.nextSeq ∧ b.kind = 1 ∧ b.cls = 4 ∧ b.level = 3
      ∧ b.escalated = false ∧ b.acked = false ∧ b.source = source ∧ b.detail = detail ∧ b.resetNo = s.aon.resetNo ∧ b.time = s.rst.timeMs
      ∧ u.flt.nextSlot = (s.flt.nextSlot + 1) % 32 ∧ u.aon.nextSeq = (s.aon.nextSeq + 1) % 2 ^ 32 ∧ (∃ x, u.flt.unack = [x] ∧ x.cls = 4 ∧ x.level = 3 ∧ x.seq = b.seq)
      ∧ (s.flt.events.length = 16 → (u.flt.events.getD 4 Ev.none).pending = true ∧ (u.flt.events.getD 4 Ev.none).level = 3)
      ∧ (0x01 ∉ s.flt.out → s.aon.queue = [] → u.aon.queue = [] ∧ u.aon.tail = (s.aon.tail ++ [b]).drop ((s.aon.tail ++ [b]).length - 8))
      ∧ (0x01 ∈ s.flt.out → u.aon.tail = s.aon.tail) ∧ u.map = s.map)
  ∧ (∀ (s : State) (source : Nat) (detail : BitVec 64) (hit : Hit), s.running = true → s.rst.faultReleased = true → s.sampled source = true → s.flt.unack = [] →
    s.flt.stopping = false → (∀ i ∈ s.nib.items, i.wait ≠ .event) → ∃ u b rest, exec (.faultReport source 9 detail hit) s = .next (settleUp u)
      ∧ u.flt.blotter = b :: rest ∧ b.kind = 1 ∧ b.cls = 9 ∧ b.level = 1 ∧ b.acked = true ∧ b.hostAcked = false ∧ u.flt.unack = [])
  ∧ (∀ (s : State) (x : Nat), s.running = true → s.rst.faultReleased = true → x ∈ s.dies.decoders → (∃ y ∈ s.dies.decoders, y ≠ x) → x < 8 →
    s.sampled (0x30 + x) = true → s.flt.unack = [] → s.flt.stopping = false → (∀ i ∈ s.nib.items, i.wait ≠ .event) →
    ∃ u b rest, exec (.wireFault (0x30 + x)) s = .next (settleUp u) ∧ u.flt.blotter = b :: rest ∧ b.cls = 13 ∧ b.level = 3 ∧ b.source = 0x30 + x
      ∧ 0x30 + x ∈ u.flt.mutedSources ∧ 0x30 + x ∈ u.flt.out ∧ u.dies.decoders = s.dies.decoders.filter (fun y => y ≠ x))
  ∧ (∀ (s : State) (source requester : Nat) (i : Island), s.running = true → s.rst.faultReleased = true → s.sampled source = true → sourceIsland source = some i →
    (∀ n, i ≠ .ch n) → source ≠ 1 → (i, .released) ∈ s.rst.islands → s.flt.unack = [] → s.flt.stopping = false → (∀ j ∈ s.nib.items, j.wait ≠ .event) →
    ∃ u b rest, exec (.islandStall source requester) s = .next (settleUp u) ∧ u.flt.blotter = b :: rest ∧ b.cls = 10 ∧ b.level = 2 ∧ b.source = source
      ∧ b.detail = BitVec.ofNat 64 requester ∧ u.islandState i = .retried ∧ u.map = s.map)
  ∧ (∀ (s : State) (c : Instr) (cls cause : Nat), s.running = true → s.rst.faultReleased = true → s.flt.stopping = false →
    (c = .lockstepDisagreement ∧ cls = 10 ∧ cause = 2 ∨ c = .deviceWatchdogExpiry ∧ s.ordersDone 2 = true ∧ cls = 15 ∧ cause = 1) → s.flt.counts.length = 16 →
    ∃ t, exec c s = .next t ∧ s.ResetLeaves t ∧ t.rst.phase = .stretch ∧ t.rst.power = false
      ∧ t.aon.failed = (if s.startFails then min 15 (s.aon.failed + 1) else s.aon.failed)
      ∧ (0x01 ∉ s.flt.out → ∃ b ∈ t.aon.tail, b.kind = 2 ∧ b.cls = cls ∧ b.detail = BitVec.ofNat 64 cause))
  ∧ (∀ (s : State) (core : Nat), s.running = true → s.rst.faultReleased = true → core ∈ s.flt.cores → s.flt.unack = [] → s.flt.stopping = false →
    (∀ i ∈ s.nib.items, i.wait ≠ .event) → s.flt.coreResets = [] → ∃ u b rest, exec (.scribeWatchdogExpiry core) s = .next (settleUp u)
      ∧ u.flt.blotter = b :: rest ∧ b.cls = 15 ∧ b.level = 2 ∧ b.source = 0x10 + core ∧ b.detail = BitVec.ofNat 64 core ∧ b.acked = true
      ∧ u.flt.cores = s.flt.cores ∧ u.flt.coreResets = [(core, s.health.powerOnMs)])
  ∧ (∀ (s : State) (core t1 t2 : Nat), s.running = true → s.rst.faultReleased = true → core ∈ s.flt.cores → s.flt.unack = [] → s.flt.stopping = false →
    (∀ i ∈ s.nib.items, i.wait ≠ .event) → s.flt.coreResets = [(core, t1), (core, t2)] → s.health.powerOnMs < t1 + 3600000 → s.health.powerOnMs < t2 + 3600000 →
    2 ≤ (s.flt.cores.filter (fun x => x ≠ core)).length → ∃ u, exec (.scribeWatchdogExpiry core) s = .next (settleUp u)
      ∧ u.flt.cores = s.flt.cores.filter (fun x => x ≠ core))
  ∧ (∀ (s : State) (c : Instr) (rail mv : Nat), s.running = true → (c = .brownOut mv ∧ s.sup.brownArmed = true ∧ rail = 0
      ∨ c = .vccqOutOfRange mv ∧ vccqInRange s.strap.vccq18 mv = false ∧ rail = 1) →
    s.flt.unack = [] → s.flt.stopping = false → (∀ i ∈ s.nib.items, i.wait ≠ .event) → ∃ u b rest, exec c s = .next (settleUp u)
      ∧ u.flt.blotter = b :: rest ∧ b.cls = 12 ∧ b.level = 4 ∧ b.source = 0x0D ∧ b.detail = BitVec.ofNat 64 (rail + mv % 65536 * 65536)
      ∧ u.sup.inRange = false ∧ .supply ∈ u.flt.safe ∧ u.lands.alive = .hz8)
  ∧ (∀ s : State, s.running = true → .supply ∈ s.flt.safe → (∀ u ∈ s.flt.unack, ¬ (u.cls = 12 ∧ u.level = 4)) → ∃ u b rest,
    exec .safeLevelEnd s = .next (settleUp u) ∧ u.sup.inRange = true ∧ u.flt.safe = s.flt.safe.filter (fun x => x ≠ .supply)
      ∧ u.flt.blotter = b :: rest ∧ b.kind = 7 ∧ u.flt.unack = s.flt.unack)
  ∧ (∀ (s : State) (dram : Bool) (a : Nat) (hit : Hit), s.running = true → s.flt.unack = [] → s.flt.stopping = false → (∀ i ∈ s.nib.items, i.wait ≠ .event) →
    ∃ u b rest, exec (.memoryScrub dram a 1 hit) s = .next (settleUp u) ∧ u.flt.blotter = b :: rest ∧ b.cls = (if dram = true then 2 else 0) ∧ b.level = 1
      ∧ b.acked = true ∧ b.detail = BitVec.ofNat 64 a ∧ u.flt.unack = [] ∧ u.res = s.res ∧ u.map = s.map)
  ∧ (∀ (s : State) (dram : Bool) (a n r blk : Nat), s.running = true → 2 ≤ n → (dram = true ∨ 0x200000 ≤ a) → s.flt.unack = [] → s.flt.stopping = false → (∀ i ∈ s.nib.items, i.wait ≠ .event) →
    s.item? r = none → ∃ u b rest, exec (.memoryScrub dram a n (.write r blk)) s = .next (settleUp u) ∧ u.flt.blotter = b :: rest
      ∧ b.cls = (if dram = true then 3 else 1) ∧ b.level = 3
      ∧ (∀ x ∈ u.res.staged, x.ruling = r → x.block = blk → x.verified = true ∨ x.poisoned = true ∧ x.data = []) ∧ u.map = s.map)
  ∧ (∀ (s : State) (a n : Nat) (hit : Hit), s.running = true → 2 ≤ n → a < 0x200000 → s.flt.stopping = false →
    ∃ t, exec (.memoryScrub false a n hit) s = .next t ∧ s.ResetLeaves t ∧ t.rst.phase = .stretch ∧ t.rst.power = false)
  ∧ (∀ s : State, s.lands.alive ≠ .low → exec .aliveEdge s = .next { s with out := [], lands := { s.lands with aliveHigh := !s.lands.aliveHigh } })
  ∧ (∀ s : State, s.lands.act = true → s.running = true → s.recovery = false →
    (s.busy = false → exec .actHoldExpiry s = .next { s with out := [], lands := { s.lands with act := false, actHeld := true } })
    ∧ (s.busy = true → exec .actHoldExpiry s = .next { s with out := [], lands := { s.lands with actHeld := true } }))

/-! ## The input lands, the bank and the debug port (chapters 02, 12, 14, 19) -/

/-- A warning takes a ruling, drains the reservoir and leaves no write before its cancel point; a change of the switch takes a ruling too; the bank follows its events.
The debug port reads and writes as its locks and its unlock allow, each access advancing the address (R44, R46, R50, R345, R390 to R394, R487). -/
def Obligations.LandsBankAndDebugPort : Prop :=
  (∀ s : State, s.running = true → s.ejectUsed = true → s.sup.ejectArmed = true → s.sup.warning = none → s.canRule = true →
    ∃ u, exec .ejectionWarning s = .next (settleUp u) ∧ u.sup.warning = some s.nib.next ∧ u.nib.next = s.nib.next + 1 ∧ u.sup.draining = true
      ∧ u.pwr.ps < 2 ∧ (∀ i ∈ u.nib.items, i ∈ s.nib.items ∧ unreached i = false) ∧ u.map = s.map)
  ∧ (∀ s : State, s.running = true → s.ejectUsed = true → exec .ejectnRise s = .next { s with out := [], sup := { s.sup with ejectArmed := true } })
  ∧ (∀ (s : State) (low : Bool), s.running = true → s.sup.wpswLow ≠ low → s.canRule = true → exec (.wpswPinEvent low) s = .next { s with
      out := [], nib := { s.nib with next := s.nib.next + 1 }, sup := { s.sup with wpswLow := low } })
  ∧ (∀ (s : State) (low : Bool), s.sup.wpswLow = low → exec (.wpswPinEvent low) s = .next { s with out := [] })
  ∧ (∀ (s : State) (mv : Nat), s.running = true → s.holdupFitted = true → s.recovery = false →
    (4800 ≤ mv → exec (.bankReady mv) s = .next { s with out := [], drawn := s.drawn + 1, sup := { s.sup with bank := .ready, vhuMv := mv } })
    ∧ (mv < 4700 → exec (.bankReady mv) s = .next { s with out := [], drawn := s.drawn + 1 })
    ∧ (mv < 4550 → s.sup.bank = .ready → exec (.bankReadyLost mv) s = .next { s with out := [], drawn := s.drawn + 1, sup := { s.sup with bank := .charging, vhuMv := mv } })
    ∧ (4650 ≤ mv → exec (.bankReadyLost mv) s = .next { s with out := [], drawn := s.drawn + (if s.sup.bank = .ready then 1 else 0) })
    ∧ (s.sup.bank ≠ .ready → exec (.bankFaultTimeout mv) s = .next { s with out := [], sup := { s.sup with bank := .fault, vhuMv := mv } }))
  ∧ (∀ (s : State) (x : BitVec 36), s.portOn = true → exec (.dbgaddr x) s = .next { s with out := [], dbg := { s.dbg with addr := x.toNat / 4 * 4 } })
  ∧ (∀ (s : State) (x : BitVec 33), s.portOn = true → x.getLsbD 32 = false → s.mayRead (regionOf s.dbg.addr) = true →
    (regionOf s.dbg.addr = .bootFlash → s.flashBusy (s.dbg.addr - 0x10000000) = false) → exec (.dbgdata x) s = .next (settleUp { s with
      out := [.tdo (s.debugWord s.dbg.addr)], drawn := s.drawn + 1, dbg := { s.dbg with addr := (s.dbg.addr + 4) % 2 ^ 36 } }))
  ∧ (∀ (s : State) (x : BitVec 33), s.portOn = true → x.getLsbD 32 = true → s.mayWrite (regionOf s.dbg.addr) = true →
    ∃ u, exec (.dbgdata x) s = .next (settleUp u) ∧ (s.dbg.addr, x.setWidth 32) ∈ u.dbg.written ∧ u.debugWord s.dbg.addr = x.toNat % 2 ^ 32
      ∧ u.dbg.addr = (s.dbg.addr + 4) % 2 ^ 36 ∧ u.dbg.dirty = true ∧ u.map = s.map ∧ u.nib = s.nib ∧ u.res = s.res)
  ∧ (∀ (s : State) (x : BitVec 33), s.portOn = true → (x.getLsbD 32 = false ∧ s.mayRead (regionOf s.dbg.addr) = false
      ∨ x.getLsbD 32 = true ∧ s.mayWrite (regionOf s.dbg.addr) = false) → s.flt.unack = [] → s.flt.stopping = false → (∀ i ∈ s.nib.items, i.wait ≠ .event) →
    ∃ u b rest, exec (.dbgdata x) s = .next (settleUp u) ∧ u.dbg.met = true ∧ u.dbg.written = s.dbg.written ∧ u.dbg.addr = (s.dbg.addr + 4) % 2 ^ 36
      ∧ u.flt.blotter = b :: rest ∧ b.cls = 14 ∧ b.level = 1 ∧ b.source = 0x0F ∧ b.detail = BitVec.ofNat 64 s.dbg.addr
      ∧ (x.getLsbD 32 = false → .tdo 0 ∈ u.out))
  ∧ (∀ s : State, s.portOn = true → ∃ c, exec .dbgchal s = .next { s with
      out := [.tdo (c.toNat + s.serial12 * 2 ^ 256)], drawn := s.drawn + 1, dbg := { s.dbg with challenge := some c } })
  ∧ (∀ (s : State) (scope : BitVec 8), s.portOn = true → s.dbg.refused = false → s.dbg.fails < 3 → s.dbg.challenge ≠ none → ∃ u b rest,
    exec (.dbgunlk scope true) s = .next (settleUp u)
      ∧ u.dbg = { s.dbg with challenge := none, unlocked := true, scope := scope.setWidth 2, everUnlocked := true }
      ∧ u.flt.blotter = b :: rest ∧ b.kind = 4)
  ∧ (∀ (s : State) (scope : BitVec 8) (v : Bool), s.portOn = true → s.dbg.refused = false → s.dbg.fails < 3 → (v = false ∨ s.dbg.challenge = none) →
    s.flt.unack = [] → s.flt.stopping = false → (∀ i ∈ s.nib.items, i.wait ≠ .event) → ∃ u b rest, exec (.dbgunlk scope v) s = .next (settleUp u)
      ∧ u.dbg = { s.dbg with challenge := none, fails := s.dbg.fails + 1 } ∧ u.flt.blotter = b :: rest ∧ b.cls = 14 ∧ b.level = 1)
  ∧ (∀ (s : State) (scope : BitVec 8) (v : Bool), 3 ≤ s.dbg.fails ∨ s.dbg.refused = true → exec (.dbgunlk scope v) s = .next (settleUp { s with out := [] }))
  ∧ (∀ (s : State) (l : List (Nat × Bool)), (s.portOn = true ∧ s.dbg.unlocked = true ∧ s.dbg.scope.getLsbD 1 = true →
      exec (.extest l) s = .next { s with out := [], lands := { s.lands with extest := some l } })
    ∧ (s.portOn = false ∨ s.dbg.unlocked = false ∨ s.dbg.scope.getLsbD 1 = false → exec (.extest l) s = .next { s with out := [] }))

/-! ## Power states and temperature (chapter 17) -/

/-- An idle module sinks from PS0 or PS1 to PS2, PS3 and, over the shutdown sequence, PS4, and wakes to the state of its step. The step rises to the highest entry
threshold reached and falls one at a time; FC11 marks the rise to step 2 and, at the safe level, 110 degrees (R446, R449 to R458). -/
def Obligations.PowerStatesAndTemperature : Prop :=
  (∀ s : State, s.sinks = true → s.awake = true → ∃ u, exec .ps2Entry s = .next u ∧ u.pwr.ps = 2 ∧ u.nib = s.nib ∧ u.map = s.map ∧ u.log = s.log
    ∧ (s.rst.face = .pcie → s.pcie.speed ≠ 0 → s.pcie.host.aspmL1 = true → s.pcie.tx = [] → u.pcie.l1 = (if s.pcie.host.l11 = true then 2 else 1)
        ∧ .linkL1 (if s.pcie.host.l11 = true then 2 else 1) ∈ u.out))
  ∧ (∀ s : State, s.sinks = true → s.recovery = false → (s.pwr.ps = 2 ∨ s.awake = true ∧ s.pwr.hint = 2) → ∃ u, exec .ps3Entry s = .next u ∧ u.pwr.ps = 3
    ∧ u.nib = s.nib ∧ u.map = s.map ∧ u.log = s.log ∧ (s.rst.face = .pcie → s.pcie.speed ≠ 0 → s.pcie.host.aspmL1 = true → s.pcie.tx = [] → s.pcie.host.l12 = true →
        u.pcie.l1 = 3 ∧ u.lands.clkreqLow = false))
  ∧ (∀ s : State, s.sinks = true → s.pwr.ps = 3 → s.recovery = false → s.mismatch = false → s.ftl.fill = [] →
    exec .ps4Entry s = .next { s with out := [], pwr := { s.pwr with entering4 := true }, log := { s.log with closing := true } })
  ∧ (∀ s : State, s.running = true → s.pwr.entering4 = true → s.quiet 0 = true → s.rst.io = true → ∃ u l p, exec .ps4EntryComplete s = .next u ∧ u.pwr.ps = 4
    ∧ u.pwr.entering4 = false ∧ u.log.pages = l ++ [p] ∧ p.clean = true ∧ p.opened = false ∧ u.log.buf = [] ∧ u.log.inflight = [] ∧ u.log.needOpened = true
    ∧ u.log.closing = false ∧ u.map = s.map)
  ∧ (∀ s : State, s.running = true → s.pcie.d3hot = false → (s.awake = false ∨ s.pwr.entering4 = true) → s.nib.fetched = [] →
    exec .wakeEvent s = .next (settleUp { s with
      out := [], pwr := { s.pwr with ps := if 2 ≤ s.effectiveStep then 1 else 0, entering4 := false }, pcie := { s.pcie with l1 := 0 }
      lands := { s.lands with clkreqLow := s.lands.clkreqLow || s.rst.face = .pcie }
      log := { s.log with closing := s.log.closing && (s.pcie.shutdown = 1 || s.shutdownTask.isSome) } }))
  ∧ (∀ (s : State) (j n : Int), s.running = true → (2 ≤ s.pwr.step ∨ entryStep j n < 2) → (j < 1100 ∨ s.pwr.thermalSafe = true) → ∃ ps,
    exec (.temperatureReading j n) s = .next (settleUp { s with
      out := [], pwr := { s.pwr with junction := j, nand := n, step := max s.pwr.step (entryStep j n), ps := ps } })
      ∧ ps = (if s.awake = false then s.pwr.ps
        else if (2 ≤ max s.pwr.step (entryStep j n) ∨ s.pwr.thermalSafe = true) then 1 else 0))
  ∧ (∀ (s : State) (j n : Int), s.running = true → s.pwr.step < 2 → 2 ≤ entryStep j n → j < 1100 → s.flt.unack = [] → s.flt.stopping = false →
    (∀ i ∈ s.nib.items, i.wait ≠ .event) → ∃ u b rest, exec (.temperatureReading j n) s = .next (settleUp u) ∧ u.pwr.step = entryStep j n
      ∧ (s.awake = true → u.pwr.ps = 1) ∧ u.flt.blotter = b :: rest ∧ b.cls = 11 ∧ b.level = 3 ∧ b.source = 0x0E)
  ∧ (∀ (s : State) (j n : Int), s.running = true → 2 ≤ s.pwr.step → 1100 ≤ j → s.pwr.thermalSafe = false → s.flt.unack = [] → s.flt.stopping = false →
    (∀ i ∈ s.nib.items, i.wait ≠ .event) → ∃ u b rest, exec (.temperatureReading j n) s = .next (settleUp u) ∧ u.pwr.thermalSafe = true
      ∧ .thermal ∈ u.flt.safe ∧ u.flt.blotter = b :: rest ∧ b.cls = 11 ∧ b.level = 4 ∧ b.detail = BitVec.ofInt 64 j ∧ u.lands.alive = .hz8)
  ∧ (∀ s : State, s.running = true → 0 < s.pwr.step → belowLeave s.pwr.step s.pwr.junction s.pwr.nand = true → ∃ ps,
    exec .throttleLeave s = .next (settleUp { s with out := [], pwr := { s.pwr with step := s.pwr.step - 1, ps := ps } })
      ∧ ps = (if s.awake = false then s.pwr.ps else if 3 ≤ s.pwr.step ∨ s.pwr.thermalSafe = true then 1 else 0))
  ∧ (∀ s : State, s.running = true → s.pwr.thermalSafe = true → s.pwr.junction < 1000 → ∃ u b rest, exec .thermalSafeExit s = .next (settleUp u)
    ∧ u.pwr.thermalSafe = false ∧ .thermal ∉ u.flt.safe ∧ u.pwr.step = s.pwr.step ∧ u.flt.blotter = b :: rest ∧ b.kind = 7)

/-! ## The ligature (chapter 16) -/

/-- A frame whose check fails, whose end bit is 0 or whose type is reserved is discarded: it is counted in the ligature log, no fault is recorded, and a
Prepare that was held for the frame after it is void; nothing else happens (R424, R425). A frame of the card's own making is no such frame. -/
def Obligations.BadLigatureFramesAreCounted : Prop :=
  (∀ (s : State) (frame : BitVec 48), s.running = true → s.ligOn = true →
    (ligCheck frame.toNat ≠ bits frame.toNat 1 8 ∨ frame.getLsbD 0 = false ∨ 0xC ≤ bits frame.toNat 38 4) →
    exec (.ligatureFrameError frame) s = .next { s with out := [], lig := { s.lig with errors := min (s.lig.errors + 1) 0xFFFFFFFF, held := none } })
  ∧ (∀ (s : State) (f : LigFrame), f.source < 32 → f.typ < 12 → exec (.ligatureFrameError f.bits) s = .next { s with out := [] })

/-- The leader watches LCK before it drives it, sends Tick with the count that follows, Call, and the Muster of the addresses that answered; a member keeps the tick
count, answers Call with Present, joins with the Muster that sets its bit, and leaves when Ticks end; its prepared epochs are then in doubt (R420, R426, R427). -/
def Obligations.MembersJoinAndLeave : Prop :=
  (∀ s : State, s.running = true → s.ligOn = true → s.leader = true → s.lig.drivesLck = false →
    exec (.leaderLckWatchEnd false) s = .next { s with out := [], lig := { s.lig with drivesLck := true } }
    ∧ (s.lig.initiating = none → ∃ u, exec (.leaderLckWatchEnd true) s = .next u ∧ u.lig.state = 3 ∧ u.lig.drivesLck = false ∧ u.lig.sendQ = [] ∧ u.nib = s.nib))
  ∧ (∀ s : State, s.leads = true →
    exec .leaderTickTimer s = .next { s with out := [], lig := { s.lig with
      sendQ := s.lig.sendQ ++ [{ source := s.own, typ := 0, value := BitVec.ofNat 29 ((s.lig.time + 1) % 2 ^ 24) }] } }
    ∧ exec .leaderCallTimer s = .next { s with out := [], lig := { s.lig with
      answeredLast := s.lig.answered, answered := 0, sendQ := s.lig.sendQ ++ [{ source := s.own, typ := 1, value := BitVec.ofNat 29 s.lig.joined.toNat }] } }
    ∧ exec .musterTimer s = .next { s with out := [], lig := { s.lig with
      sendQ := s.lig.sendQ ++ [{ source := s.own, typ := 3, value := BitVec.ofNat 29 (s.lig.answered ||| s.lig.answeredLast ||| 1).toNat }] } })
  ∧ (∀ (s : State) (src : Nat) (v : BitVec 29), s.running = true → s.ligOn = true → src ≠ s.own →
    exec (.tick src v) s = .next (settleUp { s with out := [], lig := { s.lig with frames := sat 32 (s.lig.frames + 1), time := bits v.toNat 0 24, held := none } })
    ∧ (s.leader = false → exec (.call src v) s = .next (settleUp { s with out := [], lig := { s.lig with
        frames := sat 32 (s.lig.frames + 1), held := none
        sendQ := s.lig.sendQ ++ [{ source := s.own, typ := 2, value := BitVec.ofNat 29 (flag s.rst.io 0 + flag s.mismatch 1 + flag s.inDoubt 2) }] } }))
    ∧ (s.leader = true → src < 24 → exec (.present src v) s = .next (settleUp { s with out := [], lig := { s.lig with
        frames := sat 32 (s.lig.frames + 1), held := none, answered := s.lig.answered ||| BitVec.ofNat 24 (2 ^ src) } }))
    ∧ ((BitVec.ofNat 24 (bits v.toNat 0 24)).getLsbD s.own = true → s.inDoubt = false → s.nib.items = [] →
        ∃ u, exec (.muster src v) s = .next (settleUp u) ∧ u.lig.state = 2 ∧ u.lig.joined = BitVec.ofNat 24 (bits v.toNat 0 24) ∧ u.nib = s.nib ∧ u.rec_ = s.rec_)
    ∧ ((BitVec.ofNat 24 (bits v.toNat 0 24)).getLsbD s.own = false → s.lig.state = 2 → s.nib.items = [] → ∃ u, exec (.muster src v) s = .next (settleUp u)
        ∧ u.lig.state = 1 ∧ u.lig.joined = BitVec.ofNat 24 (bits v.toNat 0 24) ∧ u.lig.pulls = false ∧ u.lig.sendQ = [] ∧ (∀ e ∈ u.rec_.epochs, e.state ≠ 3)))
  ∧ (∀ s : State, s.running = true → s.ligOn = true → s.nib.items = [] → ∃ u, exec .tickLossTimeout s = .next (settleUp u) ∧ u.lig.state = 1 ∧ u.lig.joined = 0
      ∧ u.lig.sendQ = [] ∧ u.lig.pulls = false ∧ u.lig.open_ = none ∧ u.map = s.map
      ∧ u.rec_.epochs = s.rec_.epochs.map (fun e => if e.state = 3 then { e with state := 4 } else e))

/-- A frame that goes out whole is on the line, is taken by its sender as by the others, and a Ready or Refuse releases LRDY; a loss in the start, source or type
field withdraws a Prepare, a later one takes the card out of the ligature as a duplicate (R421, R422, R425, R433). -/
def Obligations.FramesAreSentUnderArbitration : Prop :=
  (∀ (s : State) (f : LigFrame) (rest : List LigFrame), s.running = true → s.ligOn = true → s.lig.sendQ = f :: rest →
    exec (.ligatureFrameSend none) s = .next (settleUp (takeFrame f.typ f.source f.value { s with
      out := [.ligFrame f.bits]
      lig := { s.lig with sendQ := rest, pulls := s.lig.pulls && decide (f.typ ≠ 6) && decide (f.typ ≠ 7) } }))
    ∧ (∀ b : Nat, b < 38 → s.lig.initiating = none → s.nib.items = [] → ∃ u, exec (.ligatureFrameSend (some b)) s = .next (settleUp u) ∧ u.lig.state = 3 ∧ u.lig.sendQ = []
        ∧ u.lig.pulls = false ∧ u.nib = s.nib)
    ∧ (∀ b : Nat, 38 ≤ b → f.typ ≠ 4 → exec (.ligatureFrameSend (some b)) s = .next (settleUp { s with out := [] }))
    ∧ (∀ b : Nat, 38 ≤ b → f.typ = 4 → s.nib.items = [] → exec (.ligatureFrameSend (some b)) s = .next (settleUp { s with
        out := [], lig := { s.lig with initiating := none, sendQ := s.lig.sendQ.filter (fun x => x.typ ≠ 4 && x.typ ≠ 5) } })))
  ∧ (∀ (s : State) (typ src : Nat) (v : BitVec 29), typ ≠ 4 → (takeFrame typ src v s).lig.held = none)

/-- Epoch Commit sends Prepare and Members where every participant is joined and no prepare stands; it fails on a card that is not joined or where a participant is
not, and waits while LRDY is low or a prepare is open. Epoch Resolve closes an epoch that is in doubt, under its ruling, and nothing else (R235, R433, R442). -/
def Obligations.EpochCommandsActThroughTheLigature : Prop :=
  (∀ (s : State) (c : Instr) (f : Fetched) (t : State) (i : Item), (c = .epochCommit ∨ c = .epochResolve) → s.Begins c 0 f t i → s.lig.state ≠ 2 →
    exec c s = .next (settleUp (failWith i 0x1C t)))
  ∧ (∀ (s : State) (f : Fetched) (t : State) (i : Item) (m : BitVec 24), s.Begins .epochCommit 0 f t i → s.lig.state = 2 → m = BitVec.ofNat 24 (Entry.w30 i.entry) →
    s.epoch? (Entry.w2C i.entry) = none → m &&& s.lig.joined = m → s.lig.lrdyHigh = true → s.lig.open_ = none → s.lig.initiating = none →
    exec .epochCommit s = .next (settleUp { t with
      nib := { t.nib with items := s.nib.items ++ [{ i with wait := .ligature }] }
      lig := { s.lig with
        initiating := some (Entry.w2C i.entry, 0)
        sendQ := s.lig.sendQ ++ [{ source := s.own, typ := 4, value := BitVec.ofNat 29 (Entry.w2C i.entry) },
          { source := s.own, typ := 5, value := BitVec.ofNat 29 m.toNat }] } }))
  ∧ (∀ (s : State) (f : Fetched) (t : State) (i : Item) (m : BitVec 24), s.Begins .epochCommit 0 f t i → s.lig.state = 2 → m = BitVec.ofNat 24 (Entry.w30 i.entry) →
    m &&& s.lig.joined ≠ m → s.lig.lrdyHigh = true → s.lig.open_ = none → ∃ u, exec .epochCommit s = .next (settleUp (failWith { i with wait := .ligature } 0x1D u)) ∧ u.lig = s.lig
      ∧ u.nib.items = s.nib.items ++ [{ i with wait := .ligature }])
  ∧ (∀ (s : State) (f : Fetched) (t : State) (i : Item) (m : BitVec 24), s.Begins .epochCommit 0 f t i → s.lig.state = 2 → m = BitVec.ofNat 24 (Entry.w30 i.entry) →
    (s.lig.lrdyHigh = false ∨ s.lig.open_ ≠ none ∨ (s.epoch? (Entry.w2C i.entry) = none ∧ m &&& s.lig.joined = m ∧ s.lig.initiating ≠ none)) →
    exec .epochCommit s = .next (settleUp { t with nib := { t.nib with items := s.nib.items ++ [{ i with wait := .ligature }] } }))
  ∧ (∀ (s : State) (f : Fetched) (t : State) (i : Item) (e : Epoch), s.Begins .epochResolve 0 f t i → s.lig.state = 2 →
    s.openEpoch? (Entry.w2C i.entry) = some e → e.state = 4 → s.res.staged = [] → ∃ u, exec .epochResolve s = .next (settleUp u)
      ∧ (∃ x ∈ u.rec_.epochs, x.n = e.n ∧ x.state = (if Entry.b30 i.entry = 1 then 5 else 6) ∧ x.outcomeRuling = i.ruling ∧ x.resolved = true)
      ∧ u.openEpoch? e.n = none
      ∧ u.map = (if Entry.b30 i.entry = 1 then (commitRecs s.map i.ruling e.pend).foldl applyRec s.map else s.map)
      ∧ u.nib.items = s.nib.items ++ [{ i with wait := .persist }])
  ∧ (∀ (s : State) (f : Fetched) (t : State) (i : Item), s.Begins .epochResolve 0 f t i → s.lig.state = 2 →
    (∀ e, s.openEpoch? (Entry.w2C i.entry) = some e → e.state ≠ 4) → exec .epochResolve s = .next (settleUp (failWith i 6 t)))

/-- A Prepare is held until its Members frame, which is ruled: a named card pulls LRDY low and either refuses or prepares. Ready and Refuse count for the open
prepare. A Commit is ruled, and a participant enters its pending entries under that ruling; an Abort is ruled and rolls it back; a card that holds an entry answers
Query, a Prepare still to be sent gives way to another card's, and a State that reports the outcome stands for its Commit or Abort (R425, R431, R433, R435, R437). -/
def Obligations.CommitFramesAreRuled : Prop :=
  ∀ (s : State) (src n : Nat) (v : BitVec 29), s.running = true → s.ligOn = true → src ≠ s.own → s.lig.state = 2 → n = bits v.toNat 0 24 →
    exec (.prepare src v) s = .next (settleUp { s with out := [], lig := { s.lig with frames := sat 32 (s.lig.frames + 1), held := some (src, n) } })
    ∧ (∀ e : Nat, s.lig.held = some (src, e) → s.canRule = true → s.awake = true → (BitVec.ofNat 24 n).getLsbD s.own = true → s.openEpoch? e = none →
        (∀ f ∈ s.lig.sendQ, f.typ ≠ 4) → s.mismatch = false → s.rst.io = true → s.safe = false → s.pwr.thermalSafe = false → ∃ u x, exec (.members src v) s = .next (settleUp u)
          ∧ u.nib.next = s.nib.next + 1 ∧ u.lig.open_ = some (src, e) ∧ u.lig.parts = BitVec.ofNat 24 n ∧ u.lig.pulls = true ∧ u.lig.lrdyHigh = false
          ∧ u.openEpoch? e = some x ∧ x.state = 2 ∧ x.prepRuling = s.nib.next ∧ x.members = BitVec.ofNat 24 n ∧ u.map = s.map)
    ∧ (∀ e : Nat, s.lig.held = some (src, e) → s.canRule = true → s.awake = true → (BitVec.ofNat 24 n).getLsbD s.own = true → s.openEpoch? e = none →
        (∀ f ∈ s.lig.sendQ, f.typ ≠ 4) → s.mismatch = true → ∃ u, exec (.members src v) s = .next (settleUp u) ∧ u.nib.next = s.nib.next + 1 ∧ u.lig.pulls = true
          ∧ u.lig.sendQ = s.lig.sendQ ++ [{ source := s.own, typ := 7, value := BitVec.ofNat 29 (e + 3 * 2 ^ 24) }])
    ∧ (∀ e : Nat, s.lig.held = some (src, e) → (BitVec.ofNat 24 n).getLsbD s.own = false → (∃ f ∈ s.lig.sendQ, f.typ = 4) → s.nib.items = [] → n ≠ 0 → s.awake = true →
        ∃ u, exec (.members src v) s = .next (settleUp u) ∧ u.lig.open_ = some (src, e) ∧ u.lig.lrdyHigh = false ∧ u.lig.initiating = none
          ∧ u.lig.sendQ = s.lig.sendQ.filter (fun x => x.typ ≠ 4 && x.typ ≠ 5))
    ∧ (∀ o : Nat, s.lig.open_ = some (o, n) → src < 24 → exec (.ready src v) s = .next (settleUp { s with
        out := [], lig := { s.lig with frames := sat 32 (s.lig.frames + 1), held := none, readies := s.lig.readies ||| BitVec.ofNat 24 (2 ^ src) } }))
    ∧ (∀ o : Nat, s.lig.open_ = some (o, n) → exec (.refuse src v) s = .next (settleUp { s with
        out := [], lig := { s.lig with frames := sat 32 (s.lig.frames + 1), held := none, refused := true } }))
    ∧ (∀ e : Epoch, s.canRule = true → s.awake = true → s.mismatch = false → s.openEpoch? n = some e → 2 ≤ e.state → s.nib.items = [] → s.res.staged = [] →
        (∀ x, s.lig.open_ = some x → x.2 = n) → ∃ u x, exec (.commit src v) s = .next (settleUp u) ∧ u.nib.next = s.nib.next + 1 ∧ u.lig.open_ = none ∧ u.lig.pulls = true
          ∧ x ∈ u.rec_.epochs ∧ x.n = n ∧ x.state = 5 ∧ x.outcomeRuling = s.nib.next ∧ u.openEpoch? n = none
          ∧ u.map = (commitRecs s.map s.nib.next e.pend).foldl applyRec s.map)
    ∧ (∀ e : Epoch, s.canRule = true → s.awake = true → s.mismatch = false → s.openEpoch? n = some e → 2 ≤ e.state → s.nib.items = [] → (∀ x, s.lig.open_ = some x → x.2 = n) →
        (∀ x, s.lig.initiating = some x → x.1 ≠ n) → ∃ u x, exec (.abort src v) s = .next (settleUp u) ∧ u.nib.next = s.nib.next + 1 ∧ u.lig.open_ = none
          ∧ u.lig.pulls = false ∧ x ∈ u.rec_.epochs ∧ x.n = n ∧ x.state = 6 ∧ x.outcomeRuling = s.nib.next ∧ u.openEpoch? n = none ∧ u.map = s.map)
    ∧ (s.canRule = true → s.awake = true → (s.openEpoch? n = none ∨ s.mismatch = true) → s.nib.items = [] → (∀ x, s.lig.initiating = some x → x.1 ≠ n) →
        (∃ u, exec (.commit src v) s = .next (settleUp u) ∧ u.nib.next = s.nib.next + 1 ∧ u.rec_ = s.rec_ ∧ u.map = s.map)
        ∧ ∃ u, exec (.abort src v) s = .next (settleUp u) ∧ u.nib.next = s.nib.next + 1 ∧ u.rec_ = s.rec_ ∧ u.map = s.map)
    ∧ (∀ e : Epoch, s.epoch? n = some e → exec (.query src v) s = .next (settleUp { s with out := [], lig := { s.lig with
        frames := sat 32 (s.lig.frames + 1), held := none
        sendQ := s.lig.sendQ ++ [{ source := s.own, typ := 0xB, value := BitVec.ofNat 29 (n + stateCode e * 2 ^ 24) }] } }))
    ∧ (∀ e : Epoch, s.canRule = true → s.awake = true → s.mismatch = false → s.openEpoch? n = some e → e.state = 3 → bits v.toNat 24 3 = 3 → s.nib.items = [] →
        (∀ x, s.lig.initiating = some x → x.1 ≠ n) → ∃ u x, exec (.state src v) s = .next (settleUp u) ∧ u.nib.next = s.nib.next + 1
          ∧ x ∈ u.rec_.epochs ∧ x.n = n ∧ x.state = 6 ∧ x.outcomeRuling = s.nib.next ∧ u.openEpoch? n = none ∧ u.map = s.map)
    ∧ (∀ e : Epoch, s.openEpoch? n = some e → e.state = 3 → bits v.toNat 24 3 < 2 → exec (.state src v) s = .next (settleUp { s with
        out := [], lig := { s.lig with frames := sat 32 (s.lig.frames + 1), held := none } }))

/-- The steps of Table 16-4 at their times: Ready once the prepared record is persistent, LRDY released once the commit records are, Commit or Abort at LRDY's rise or
at the 2 s limit, the Epoch Commit's success at step 7 or at its limit; the leader asks, then decides in the initiator's place; an in-doubt epoch is decided by
Table 16-6 or stays in doubt (R433, R436, R437, R440, R441). -/
def Obligations.CommitStepsAreTimed : Prop :=
  (∀ (s : State) (e : Epoch), s.running = true → s.ligOn = true → s.preparing = some e → s.nib.unsettled = [] →
    exec .preparePersistent s = .next (settleUp { s with
      out := []
      rec_ := { s.rec_ with epochs := s.rec_.epochs.map (fun x => if x.n = e.n ∧ x.state < 5 then { x with state := 3, prepared := true } else x) }
      lig := { s.lig with sendQ := s.lig.sendQ ++ [{ source := s.own, typ := 6, value := BitVec.ofNat 29 e.n }] } }))
  ∧ (∀ s : State, s.running = true → s.ligOn = true → s.lig.pulls = true → s.lig.open_ = none → s.nib.items = [] → s.nib.unsettled = [] →
    exec .commitPersistent s = .next (settleUp { s with out := [], lig := { s.lig with pulls := false } }))
  ∧ (∀ (s : State) (n : Nat), s.running = true → s.ligOn = true → s.lig.pulls = false → s.lig.initiating = some (n, 0) → s.lig.open_ = some (s.own, n) →
    exec .lrdyRise s = .next (settleUp { s with out := [], lig := { s.lig with
      lrdyHigh := true, initiating := some (n, 5)
      sendQ := s.lig.sendQ ++ [{ source := s.own, typ := if s.lig.readies &&& s.lig.parts = s.lig.parts ∧ s.lig.refused = false then 8 else 9
                                 value := BitVec.ofNat 29 n }] } }))
  ∧ (∀ (s : State) (n : Nat) (i : Item), s.running = true → s.ligOn = true → s.lig.pulls = false → s.lig.initiating = some (n, 6) → s.nib.items = [i] →
    Entry.opcode i.entry = 0xA8 → i.wait = .ligature → Entry.w2C i.entry = n → ∃ u, exec .lrdyRise s = .next (settleUp (succeed i 0 u))
      ∧ u.lig = { s.lig with lrdyHigh := true, initiating := none } ∧ u.nib = s.nib)
  ∧ (∀ (s : State) (n : Nat), s.running = true → s.ligOn = true → s.lig.initiating = some (n, 0) → s.lig.open_ = some (s.own, n) →
    exec .prepareTimeout s = .next (settleUp { s with out := [], lig := { s.lig with
      initiating := some (n, 5), sendQ := s.lig.sendQ ++ [{ source := s.own, typ := 9, value := BitVec.ofNat 29 n }] } }))
  ∧ (∀ (s : State) (n : Nat) (i : Item) (e : Epoch), s.running = true → s.lig.initiating = some (n, 6) → s.nib.items = [i] →
    Entry.opcode i.entry = 0xA8 → i.wait = .ligature → Entry.w2C i.entry = n → s.rec_.epochs = [e] → e.n = n → ∃ u, exec .commitReleaseTimeout s = .next (settleUp (succeed i 0 u))
      ∧ u.lig.initiating = none ∧ u.rec_.epochs = [{ e with atLimit := true }] ∧ u.nib = s.nib)
  ∧ (∀ (s : State) (i n : Nat), s.leads = true → s.lig.open_ = some (i, n) → i ≠ s.own →
    (s.lig.leaderAsked = false → exec .leaderDecisionTimer s = .next (settleUp { s with out := [], lig := { s.lig with
      leaderAsked := true, sawCommitted := false, sendQ := s.lig.sendQ ++ [{ source := s.own, typ := 0xA, value := BitVec.ofNat 29 n }] } }))
    ∧ (s.lig.leaderAsked = true → exec .leaderDecisionTimer s = .next (settleUp { s with out := [], lig := { s.lig with
      sendQ := s.lig.sendQ ++ [{ source := s.own, typ := if s.lig.sawCommitted = true ∨ s.lig.readies &&& s.lig.parts = s.lig.parts ∧ s.lig.refused = false then 8 else 9
                                 value := BitVec.ofNat 29 n }] } })))
  ∧ (∀ (s : State) (e : Epoch), s.running = true → s.lig.state = 2 → s.lig.lrdyHigh = true → s.nib.items = [] → s.rec_.epochs.find? (fun e => e.state = 3) = some e →
    exec .preparedQueryTimer s = .next { s with out := [], lig := { s.lig with
      sendQ := s.lig.sendQ ++ [{ source := s.own, typ := 0xA, value := BitVec.ofNat 29 e.n }] } })
  ∧ (∀ (s : State) (n : Nat) (e : Epoch), s.running = true → s.lig.state = 2 → s.lig.querying = some n → s.openEpoch? n = some e → s.canRule = true → s.awake = true →
    s.mismatch = false → s.rec_.epochs = [e] → e.state = 4 → s.doubtDecision e true = some false → ∃ u x, exec .indoubtQueryWindowEnd s = .next (settleUp u)
      ∧ u.nib.next = s.nib.next + 1 ∧ u.lig.querying = none ∧ u.rec_.epochs = [x] ∧ x.state = 6 ∧ x.outcomeRuling = s.nib.next ∧ x.pend = e.pend ∧ u.map = s.map)
  ∧ (∀ (s : State) (n : Nat) (e : Epoch), s.running = true → s.lig.state = 2 → s.lig.querying = some n → s.openEpoch? n = some e → s.rec_.epochs = [e] →
    s.doubtDecision e true = none → ∃ u, exec .indoubtQueryWindowEnd s = .next (settleUp u) ∧ u.lig.querying = none ∧ u.rec_ = s.rec_ ∧ u.nib = s.nib)
end

