-- ==== Sys2Proof/Laws/Admission.lean ====
section
/-! SUPPORT. Admission of a host command, said once: what a row of Table 08-1 answers when its entry is ruled, by the outcome of the checks. -/

namespace Sys2Proof.Laws

open Sys2Proof Sys2Proof.Machine

/-- A row whose entry is not at the front of its ring, or not of its kind, answers the state as it is. -/
theorem ruleFront_none {q : Nat} {kind : Entry → Bool} {g : Given} {s : State} (h : s.front? q = none) : ruleFront q kind g s = s := by
  unfold ruleFront; rw [h]

/-- The entry that is ruled is evaluated in the state that has taken its ruling. -/
theorem ruleFront_rules {q : Nat} {kind : Entry → Bool} {g : Given} {s : State} {f : Fetched} (h : s.Rules q f) (k : kind f.entry = true) :
    ruleFront q kind g { s with out := [] }
      = settleUp (rule false q f.slot f.entry (g.for_ f) { s with out := [], nib := { s.nib with fetched := s.nib.fetched.erase f } }) := by
  have hf : State.front? { s with out := [] } q = some f := h.front
  have hc : State.canRule { s with out := [] } = true := h.canRule
  have ha : State.awake { s with out := [] } = true := h.awake
  have hr : State.mustStall { s with out := [] } f = false := h.resources
  have ho : State.outranked { s with out := [] } q f = false := h.first
  unfold ruleFront
  simp [hf, hc, ha, hr, ho, h.waiting, k, Given.for_]

/-- The ruling of an entry, in the terms of Safety. -/
theorem rule_listed (q : Nat) (f : Fetched) (g : Given) (s : State) :
    rule false q f.slot f.entry (g.for_ f) { s with out := [], nib := { s.nib with fetched := s.nib.fetched.erase f } }
      = match (s.ruledBy f).checkEarly false q f.entry with
        | some x => complete (Ending.ofItem (s.ruledItem q f)) x 0 (s.ruledBy f)
        | none =>
          if (s.listed q f g).waitsForMedia f.entry then taskAdmitted (s.ruledItem q f) (s.listed q f g)
          else admitItem (s.listedItem q f g) (s.listed q f g) := rfl

/-- An entry that fails an early check completes with the status of that check, under its ruling (R181). -/
theorem ruleFront_fails {q : Nat} {kind : Entry → Bool} {g : Given} {s : State} {f : Fetched} {x : Fail} (h : s.Rules q f) (k : kind f.entry = true)
    (e : (s.ruledBy f).checkEarly false q f.entry = some x) :
    ruleFront q kind g { s with out := [] } = settleUp (complete (Ending.ofItem (s.ruledItem q f)) x 0 (s.ruledBy f)) := by
  rw [ruleFront_rules h k, rule_listed, e]

/-- An entry that fails a late check finishes with the status of that check. -/
theorem ruleFront_late {q : Nat} {kind : Entry → Bool} {g : Given} {s : State} {f : Fetched} {x : Fail} (h : s.Enters q f g)
    (k : kind f.entry = true) (e : (s.listed q f g).checkLate (s.ruledItem q f).well f.entry = some x) :
    ruleFront q kind g { s with out := [] } = settleUp (finish (s.listedItem q f g) x 0 (s.listed q f g)) := by
  rw [ruleFront_rules h.toRules k, rule_listed, h.early]
  have e' : (s.listed q f g).checkLate (s.listedItem q f g).well (s.listedItem q f g).entry = some x := e
  simp only [h.media, Bool.false_eq_true, ↓reduceIte, admitItem, e']

/-- An entry that passes every check begins at once where its lock is free. -/
theorem ruleFront_admits {q : Nat} {kind : Entry → Bool} {g : Given} {s t : State} {f : Fetched} {i : Item} (h : s.Admits q f g t i)
    (k : kind f.entry = true) : ruleFront q kind g { s with out := [] } = settleUp (begin i t) := by
  rw [ruleFront_rules h.toRules k, rule_listed, h.early]
  have e' : (s.listed q f g).checkLate (s.listedItem q f g).well (s.listedItem q f g).entry = none := h.late
  have e5 : t.item? (s.listedItem q f g).ruling = some i := h.item
  simp only [h.media, Bool.false_eq_true, ↓reduceIte, admitItem, e', ← h.state, e5, enterLock, h.lock]

/-- An admitted command that nothing stops is executed by its opcode. -/
theorem begin_admits {q : Nat} {g : Given} {s t : State} {f : Fetched} {i : Item} (h : s.Admits q f g t i) :
    begin i t = match Entry.opcode i.entry with
      | 0x01 => startWrite i t
      | 0x02 | 0x05 | 0x06 | 0x07 => startRead i t
      | 0x03 => runFlush i t
      | 0x04 => runRelease i t
      | 0x80 => runCreatePair i t
      | 0x81 => runDeletePair i t
      | 0x82 => runResumeQueue i t
      | 0x83 => runCancel i t
      | 0x84 => runRestart i t
      | 0x85 => runAwait i t
      | 0x88 => runIdentify i t
      | 0x89 => runGetLog i t
      | 0x8A => runSetTime i t
      | 0x8B => runPowerHint i t
      | 0x90 | 0x91 | 0x92 | 0x93 | 0x94 | 0x95 => runChange i t
      | 0x98 => runSanitize i t
      | 0x99 => runSelfTest i t
      | 0x9A => runCalibrate i t
      | 0x9B => runControl i t
      | 0xA0 => startDownload i t
      | 0xA1 => startFirmware i t
      | 0xA2 => runAttest i t
      | 0xA8 => runEpochCommit i t
      | 0xA9 => runEpochResolve i t
      | 0xF1 => runCommit i t
      | _ => t := by
  unfold begin
  simp only [h.verdict, h.doubt, Nat.not_le.2 h.reads]
  rfl

end Sys2Proof.Laws
end

