-- ==== Sys2Proof/Laws/Begins.lean ====
section
/-! SUPPORT. What a row of Table 08-1 finds when its command begins (`State.Begins`): the row is `begin` and the settling work, and the state in which it
begins is the state before with the ruling taken, the item listed and admission's claims made. -/

namespace Sys2Proof.Laws

open Sys2Proof Sys2Proof.Machine

/-- A row whose command begins is that command's beginning and the settling work. -/
theorem exec_of_begins {c : Instr} {q : Nat} {s t : State} {f : Fetched} {i : Item} (h : s.Begins c q f t i) : exec c s = .next (settleUp (begin i t)) := by
  obtain ⟨_, ⟨k, hk, kf⟩, ha⟩ := h
  cases c <;> simp only [State.hostRow, Option.some.injEq, Prod.mk.injEq, reduceCtorEq] at hk
  all_goals (obtain ⟨rfl, rfl⟩ := hk)
  all_goals first
    | exact congrArg Host.Outcome.next (ruleFront_admits ha kf)

/-- The newest item is found by its ruling where every other ruling lies below it. -/
theorem find?_append_ruling {l : List Item} {i : Item} {n : Nat} (h : ∀ j ∈ l, j.ruling < n) (e : i.ruling = n) :
   (l ++ [i]).find? (fun j => j.ruling = n) = some i := by
  rw [List.find?_append, List.find?_eq_none.2]
  · simp [e]
  · intro x hx; simp; exact (Nat.ne_of_lt (h x hx))

/-- A change of the newest item leaves the others. -/
theorem mapIf_append_ruling {l : List Item} {i j : Item} {n : Nat} (h : ∀ j ∈ l, j.ruling < n) (e : i.ruling = n) :
   mapIf (fun x => x.ruling = n) (fun _ => j) (l ++ [i]) = l ++ [j] := by
  unfold mapIf
  rw [List.map_append]
  congr 1
  · conv_rhs => rw [← List.map_id l]
    apply List.map_congr_left; intro x hx
    have := Nat.ne_of_lt (h x hx); simp [this]
  · simp [e]

/-- Dropping the newest item leaves the others. -/
theorem filter_append_ruling {l : List Item} {i : Item} {n : Nat} (h : ∀ j ∈ l, j.ruling < n) (e : i.ruling = n) :
   (l ++ [i]).filter (fun x => x.ruling ≠ n) = l := by
  rw [List.filter_append]
  have : l.filter (fun x => x.ruling ≠ n) = l := by
    rw [List.filter_eq_self]; intro x hx; have := Nat.ne_of_lt (h x hx); simp [this]
  rw [this]; simp [e]

/-- Taking a ruling (R177, R384). -/
theorem takeRuling_eq (op : Nat) (s : State) : ∃ v e, takeRuling false op s =
   { s with nib := { s.nib with next := s.nib.next + 1, versions := v, epoch := e }, pwr := { s.pwr with entering4 := false } } ∧ v.length ≤ s.nib.versions.length + 1 := by
  unfold takeRuling bumpEpoch touch
  split
  · exact ⟨_, _, rfl, by simp⟩
  · exact ⟨_, _, rfl, by simp⟩

/-- The state in which the item is listed. -/
theorem listed_eq (s : State) (q : Nat) (f : Fetched) (g : Given) : ∃ v e h, s.listed q f g =
   { s with
       out := [], nib := { s.nib with next := s.nib.next + 1, versions := v, epoch := e, fetched := s.nib.fetched.erase f, items := s.nib.items ++ [s.listedItem q f g], unsettled := if marksState f.entry then s.nib.unsettled ++ [s.nib.next] else s.nib.unsettled },
       pwr := { s.pwr with entering4 := false }, boot := { s.boot with held := h } } ∧ (Entry.opcode f.entry ≠ 0xA0 → h = s.boot.held) ∧ v.length ≤ s.nib.versions.length + 1 := by
  obtain ⟨v, e, h, hv⟩ := takeRuling_eq (Entry.opcode f.entry) { s with out := [], nib := { s.nib with fetched := s.nib.fetched.erase f } }
  refine ⟨v, e, if Entry.opcode f.entry = 0xA0 then s.boot.held ++ [(s.nib.next, g.data)] else s.boot.held, ?_, ?_, hv⟩
  · unfold State.listed State.ruledBy
    rw [h]
    unfold enlist
    simp only [show (s.ruledItem q f).entry = f.entry from rfl, show (s.ruledItem q f).ruling = s.nib.next from rfl, show (s.ruledItem q f).narrow = false from rfl]
    by_cases hh : Entry.opcode f.entry = 0xA0 <;> simp only [hh, decide_true, decide_false, Bool.not_false, Bool.and_true, Bool.false_eq_true, ↓reduceIte] <;> rfl
  · intro hh; simp [hh]


/-- A write of an epoch touches the media records alone. -/
theorem touchEpoch_eq (n : Nat) (s : State) : ∃ x, touchEpoch n s = { s with rec_ := x } := by
  unfold touchEpoch addEpoch; split
  · exact ⟨s.rec_, rfl⟩
  · exact ⟨_, rfl⟩

/-- The cached blocks of a write or release leave the read cache, and nothing else goes. -/
theorem dropCached_eq (e : Entry) (s : State) : ∃ y, dropCached e s = { s with ftl := y } ∧ (Entry.opcode e ≠ 1 → Entry.opcode e ≠ 4 → y = s.ftl)
    ∧ ∃ c, y = { s.ftl with cache := c } := by
  unfold dropCached
  split
  · rename_i h
    split
    · exact ⟨s.ftl, rfl, fun _ _ => rfl, _, rfl⟩
    · exact ⟨_, rfl, fun a b => by simp [a, b] at h, _, rfl⟩
  · exact ⟨s.ftl, rfl, fun _ _ => rfl, _, rfl⟩

/-- What a ruling itself does, for every command but Sanitize Device. -/
theorem ruledEffects_eq (i : Item) (s : State) (h98 : Entry.opcode i.entry ≠ 0x98) : ∃ x y, ruledEffects i s =
  { s with nib := { s.nib with adm := applyChanges (if i.verdict = 0 then changesOf s.logicalBlocks s.profile i.ruling s.nib.adm i.entry else []) s.nib.adm }, rec_ := x, ftl := y } ∧ (Entry.opcode i.entry ≠ 1 → x = s.rec_)
   ∧ (Entry.opcode i.entry ≠ 1 → Entry.opcode i.entry ≠ 4 → y = s.ftl) ∧ ∃ c, y = { s.ftl with cache := c } := by
  unfold ruledEffects
  simp only [h98, decide_false, Bool.false_and, Bool.false_eq_true, ↓reduceIte]
  split
  · rename_i h
    obtain ⟨x, hx⟩ := touchEpoch_eq (Entry.w30 i.entry) { s with nib := { s.nib with adm := applyChanges (if i.verdict = 0 then changesOf s.logicalBlocks s.profile i.ruling s.nib.adm i.entry else []) s.nib.adm } }
    rw [hx]
    obtain ⟨y, hy, hy2, hy3⟩ := dropCached_eq i.entry { s with nib := { s.nib with adm := applyChanges (if i.verdict = 0 then changesOf s.logicalBlocks s.profile i.ruling s.nib.adm i.entry else []) s.nib.adm }, rec_ := x }
    exact ⟨x, y, hy, fun a => by simp [a] at h, hy2, hy3⟩
  · rename_i h
    obtain ⟨y, hy, hy2, hy3⟩ := dropCached_eq i.entry { s with nib := { s.nib with adm := applyChanges (if i.verdict = 0 then changesOf s.logicalBlocks s.profile i.ruling s.nib.adm i.entry else []) s.nib.adm } }
    exact ⟨s.rec_, y, hy, fun _ => rfl, hy2, hy3⟩

/-- The state in which an admitted command stands. -/
theorem admitted_eq (s : State) (i : Item) (hn : i.narrow = false) (h98 : Entry.opcode i.entry ≠ 0x98) : ∃ w p x y z, admitted i s =
  { s with
           pwr := z
           nib := { s.nib with lastWrite := w, items := mapIf (fun j => j.ruling = i.ruling) (fun _ => s.claimItem i) s.nib.items, adm := applyChanges (if (s.claimItem i).verdict = 0 then changesOf s.logicalBlocks s.profile i.ruling s.nib.adm i.entry else []) s.nib.adm }
           res := { s.res with claimed := p }, rec_ := x, ftl := y } ∧ (Entry.opcode i.entry ≠ 1 → w = s.nib.lastWrite) ∧ (Entry.opcode i.entry ≠ 1 → x = s.rec_)
   ∧ (Entry.opcode i.entry ≠ 1 → Entry.opcode i.entry ≠ 4 → y = s.ftl) ∧ (∃ c d, y = { s.ftl with cache := c, pacing := d }) ∧ (Entry.opcode i.entry ≠ 1 → z = s.pwr) ∧ z.entering4 = s.pwr.entering4 ∧ z.ps = s.pwr.ps := by
  have e1 : (s.claimItem i).narrow = false := hn
  have e2 : (s.claimItem i).entry = i.entry := rfl
  have e3 : (s.claimItem i).ruling = i.ruling := rfl
  unfold admitted taskAdmitted
  simp only [e1, Bool.false_eq_true, ↓reduceIte]
  by_cases h1 : Entry.opcode i.entry = 1
  · simp only [h1, ↓reduceIte]
    obtain ⟨x, y, h, hx, hy, c, hc⟩ := ruledEffects_eq (s.claimItem i) { setItem (s.claimItem i) { s with res := { s.res with claimed := s.res.claimed + (s.claimItem i).resClaim } } with ftl := { s.ftl with pacing := s.ftl.pacing.map (· - Entry.length i.entry) }, nib := { (setItem (s.claimItem i) { s with res := { s.res with claimed := s.res.claimed + (s.claimItem i).resClaim } }).nib with lastWrite := s.rst.timeMs }, pwr := { s.pwr with writeBytes := (setItem (s.claimItem i) { s with res := { s.res with claimed := s.res.claimed + (s.claimItem i).resClaim } }).writeOver + Entry.length i.entry, writeWindow := s.rst.timeMs / 10 } } (by rw [e2]; exact h98)
    exact ⟨_, _, x, y, _, h, fun a => absurd rfl a, fun a => absurd rfl a, fun a => absurd rfl a, ⟨c, _, hc⟩, fun a => absurd rfl a, rfl, rfl⟩
  · simp only [h1, ↓reduceIte]
    obtain ⟨x, y, h, hx, hy, c, hc⟩ := ruledEffects_eq (s.claimItem i) (setItem (s.claimItem i) { s with res := { s.res with claimed := s.res.claimed + (s.claimItem i).resClaim } }) (by rw [e2]; exact h98)
    exact ⟨_, _, x, y, s.pwr, h, fun _ => rfl, fun _ => hx (by rw [e2]; exact h1), fun a b => hy (by rw [e2]; exact h1) (by rw [e2]; exact b), ⟨c, _, hc⟩, fun _ => rfl, rfl, rfl⟩

/-- The state in which a command begins, and its item. -/
theorem begins_eq {c : Instr} {q : Nat} {s t : State} {f : Fetched} {i : Item} (h : s.Begins c q f t i) (h98 : Entry.opcode f.entry ≠ 0x98) :
   ∃ v e hd a w p x y z, t = { s with
       out := [], nib := { s.nib with next := s.nib.next + 1, versions := v, epoch := e, fetched := s.nib.fetched.erase f, items := s.nib.items ++ [i], unsettled := if marksState f.entry then s.nib.unsettled ++ [s.nib.next] else s.nib.unsettled, adm := a, lastWrite := w },
       res := { s.res with claimed := p }, rec_ := x, ftl := y,
       pwr := z, boot := { s.boot with held := hd } }
    ∧ i.entry = f.entry ∧ i.ruling = s.nib.next ∧ i.narrow = false ∧ i.q = q ∧ i.slot = f.slot ∧ i.wait = .lock ∧ i.verdict = 0
    ∧ i.past = (match cmdInfo (Entry.opcode f.entry) with | some x => x.cancel = 1 | none => false)
    ∧ i.well = s.wellOf q
    ∧ (Entry.opcode f.entry ≠ 0xA0 → hd = s.boot.held) ∧ v.length ≤ s.nib.versions.length + 1
    ∧ (Entry.opcode f.entry ≠ 1 → w = s.nib.lastWrite) ∧ (Entry.opcode f.entry ≠ 1 → x = s.rec_) ∧ (Entry.opcode f.entry ≠ 1 → Entry.opcode f.entry ≠ 4 → y = s.ftl)
    ∧ (∃ c d, y = { s.ftl with cache := c, pacing := d })
    ∧ a = applyChanges (changesOf s.logicalBlocks s.profile s.nib.next s.nib.adm f.entry) s.nib.adm
    ∧ (∀ j ∈ s.nib.items, j.ruling < s.nib.next) ∧ i.after = none ∧ i.result = 0 ∧ i.segs = (rowGiven c).segs
    ∧ (Entry.opcode f.entry ≠ 1 → z = { s.pwr with entering4 := false }) ∧ z.entering4 = false ∧ z.ps = s.pwr.ps := by
  obtain ⟨hs, _, ha⟩ := h
  obtain ⟨v, e, hd, hl, hh, hv⟩ := listed_eq s q f (rowGiven c)
  obtain ⟨w, p, x, y, z, hm, hw0, hx, hy, hc, hz, hz1, hz2⟩ := admitted_eq (s.listed q f (rowGiven c)) (s.listedItem q f (rowGiven c)) rfl h98
  have ht := ha.state
  have hi := ha.item
  have hlog : (s.listed q f (rowGiven c)).logicalBlocks = s.logicalBlocks := by rw [hl]; rfl
  have hprof : (s.listed q f (rowGiven c)).profile = s.profile := by rw [hl]; rfl
  rw [hm] at ht
  rw [hlog, hprof] at ht
  have hmap : mapIf (fun j => j.ruling = s.nib.next) (fun _ => (s.listed q f (rowGiven c)).claimItem (s.listedItem q f (rowGiven c))) (s.listed q f (rowGiven c)).nib.items
    = s.nib.items ++ [(s.listed q f (rowGiven c)).claimItem (s.listedItem q f (rowGiven c))] := by
    rw [hl]; exact mapIf_append_ruling hs.rulings rfl
  have hr : (s.listedItem q f (rowGiven c)).ruling = s.nib.next := rfl
  rw [hr, hmap] at ht
  have hi2 : i = (s.listed q f (rowGiven c)).claimItem (s.listedItem q f (rowGiven c)) := by
    rw [ht] at hi
    unfold State.item? at hi
    simp only at hi
    rw [find?_append_ruling hs.rulings rfl] at hi
    exact (Option.some.inj hi).symm
  have hv0 := ha.verdict
  rw [← hi2] at ht
  rw [hv0] at ht
  have hw : (s.listedItem q f (rowGiven c)).well = s.wellOf q := by
    unfold State.listedItem State.ruledItem State.newItem State.ruledBy
    obtain ⟨v, e, h, _⟩ := takeRuling_eq (Entry.opcode f.entry) { s with out := [], nib := { s.nib with fetched := s.nib.fetched.erase f } }
    rw [h]; rfl
  refine ⟨v, e, hd, applyChanges (changesOf s.logicalBlocks s.profile s.nib.next s.nib.adm f.entry) s.nib.adm, w, p, x, y, z, ?_, ?_, ?_, ?_, ?_, ?_, ?_, hv0, ?_, ?_, hh, hv, ?_, ?_, ?_, ?_, ?_, hs.rulings, ?_, ?_, ?_, ?_, ?_, ?_⟩
  · rw [ht]; simp only [↓reduceIte]; rw [hl]; rfl
  all_goals first
    | (rw [hi2]; rfl)
    | (rw [hi2]; exact hw)
    | (intro hh; rw [hw0 hh, hl])
    | (intro hh; rw [hx hh, hl])
    | (intro hh; rw [hz hh, hl])
    | (rw [hz1, hl])
    | (rw [hz2, hl])
    | (intro hh hh2; rw [hy hh hh2, hl])
    | (obtain ⟨c1, d1, h1⟩ := hc; exact ⟨c1, d1, by rw [h1, hl]⟩)
    | skip
  rfl

end Sys2Proof.Laws
end

