-- ==== Sys2Proof/Laws/Calm.lean ====
section
/-! SUPPORT. What a host command leaves alone (`Calm`), from its admission to the settling work: the unit, the reset and start state, the straps,
the debug port, the fault counts, the failures recorded, the free values drawn and the queue of commands. -/

namespace Sys2Proof.Laws

open Sys2Proof Sys2Proof.Machine

/-- What a host command leaves alone. -/
def inner (s : State) :=
  ((s.unit, s.rst, s.strap, s.dbg), (s.drawn, s.pending, s.flt.counts, s.rec_.failedDies, s.rec_.failedChannels))

/-- `t` has that part of `a`. -/
structure Calm (a t : State) : Prop where
  eq : inner t = inner a

theorem Calm.refl (a : State) : Calm a a := ⟨rfl⟩

theorem Calm.same {a s t : State} (h : Calm a s) (e : inner t = inner s) : Calm a t := ⟨e.trans h.eq⟩

/-- An update of other fields. -/
theorem Calm.upd {a s : State} {aon sup lands boot pcie nb nib res map log ftl dies rec_ health flt lops lig pwr elog wall out}
    (h : Calm a s)
    (e : inner ⟨s.unit, s.rst, s.strap, aon, sup, lands, boot, pcie, nb, nib, res, map, log, ftl, dies, rec_, health, flt, lops, lig, pwr,
      s.dbg, elog, wall, out, s.drawn, s.pending⟩ = inner s) :
    Calm a ⟨s.unit, s.rst, s.strap, aon, sup, lands, boot, pcie, nb, nib, res, map, log, ftl, dies, rec_, health, flt, lops, lig, pwr,
      s.dbg, elog, wall, out, s.drawn, s.pending⟩ := h.same e

theorem Calm.foldl {α : Type} {a s : State} {f : State → α → State} {l : List α} (h : Calm a s) (k : ∀ s x, Calm a s → Calm a (f s x)) :
    Calm a (l.foldl f s) := by
  induction l generalizing s with
  | nil => exact h
  | cons x xs ih => exact ih (k s x h)

theorem emit_cl {a s : State} (o : Out) (hs : Calm a s) : Calm a (emit o s) := by
  unfold emit
  repeat' first
    | with_reducible assumption
    | (fail_if_no_progress with_reducible refine Calm.upd ?_ (by with_unfolding_all rfl))
    | split

theorem actUpdate_cl {a s : State} (hs : Calm a s) : Calm a (actUpdate s) := by
  unfold actUpdate
  repeat' first
    | with_reducible assumption
    | (fail_if_no_progress with_reducible refine Calm.upd ?_ (by with_unfolding_all rfl))
    | split

theorem touch_cl {a s : State} (hs : Calm a s) : Calm a (touch s) := by
  unfold touch
  repeat' first
    | with_reducible assumption
    | (fail_if_no_progress with_reducible refine Calm.upd ?_ (by with_unfolding_all rfl))
    | split

theorem setItem_cl {a s : State} (i : Item) (hs : Calm a s) : Calm a (setItem i s) := by
  unfold setItem
  repeat' first
    | with_reducible assumption
    | (fail_if_no_progress with_reducible refine Calm.upd ?_ (by with_unfolding_all rfl))
    | split

theorem dropItem_cl {a s : State} (r : Nat) (hs : Calm a s) : Calm a (dropItem r s) := by
  unfold dropItem
  repeat' first
    | with_reducible assumption
    | (fail_if_no_progress with_reducible refine Calm.upd ?_ (by with_unfolding_all rfl))
    | split

theorem modPair_cl {a s : State} (q : Nat) (f : Pair → Pair) (hs : Calm a s) : Calm a (modPair q f s) := by
  unfold modPair
  repeat' first
    | with_reducible assumption
    | (fail_if_no_progress with_reducible refine Calm.upd ?_ (by with_unfolding_all rfl))
    | split

theorem dropPair_cl {a s : State} (q : Nat) (hs : Calm a s) : Calm a (dropPair q s) := by
  unfold dropPair
  repeat' first
    | with_reducible assumption
    | (fail_if_no_progress with_reducible refine Calm.upd ?_ (by with_unfolding_all rfl))
    | split

theorem settle_cl {a s : State} (r : Nat) (hs : Calm a s) : Calm a (settle r s) := by
  unfold settle
  repeat' first
    | with_reducible assumption
    | (fail_if_no_progress with_reducible refine Calm.upd ?_ (by with_unfolding_all rfl))
    | split

theorem dropStaged_cl {a s : State} (r : Nat) (hs : Calm a s) : Calm a (dropStaged r s) := by
  unfold dropStaged
  repeat' first
    | with_reducible assumption
    | (fail_if_no_progress with_reducible refine Calm.upd ?_ (by with_unfolding_all rfl))
    | split

theorem post_cl {a s : State} (o : Out) (hs : Calm a s) : Calm a (post o s) := by
  unfold post
  repeat' first
    | with_reducible assumption
    | with_reducible apply emit_cl
    | (fail_if_no_progress with_reducible refine Calm.upd ?_ (by with_unfolding_all rfl))
    | split

theorem sendMsix_cl {a s : State} (v : Nat) (hs : Calm a s) : Calm a (sendMsix v s) := by
  unfold sendMsix
  repeat' first
    | with_reducible assumption
    | with_reducible apply post_cl
    | (fail_if_no_progress with_reducible refine Calm.upd ?_ (by with_unfolding_all rfl))
    | split

theorem logError_cl {a s : State} (e : ErrEntry) (hs : Calm a s) : Calm a (logError e s) := by
  unfold logError
  repeat' first
    | with_reducible assumption
    | (intro y; refine (fun (k : Calm a y) => ?_) ?_; (on_goal 1 => clear_value y); on_goal 2 => subst y)
    | (intro y; refine (fun (k : Calm a y.1) => ?_) ?_; (on_goal 1 => clear_value y); on_goal 2 => subst y)
    | (intro y; subst y)
    | lift_lets
    | (fail_if_no_progress with_reducible refine Calm.upd ?_ (by with_unfolding_all rfl))
    | split

theorem postCompletion_cl {a s : State} (q cid result ruling status : Nat) (hs : Calm a s) : Calm a (postCompletion q cid result ruling status s) := by
  unfold postCompletion
  repeat' first
    | with_reducible assumption
    | (intro y; refine (fun (k : Calm a y) => ?_) ?_; (on_goal 1 => clear_value y); on_goal 2 => subst y)
    | (intro y; refine (fun (k : Calm a y.1) => ?_) ?_; (on_goal 1 => clear_value y); on_goal 2 => subst y)
    | (intro y; subst y)
    | lift_lets
    | with_reducible apply post_cl
    | with_reducible apply modPair_cl
    | with_reducible apply sendMsix_cl
    | (fail_if_no_progress with_reducible refine Calm.upd ?_ (by with_unfolding_all rfl))
    | split

theorem freezeRing_cl {a s : State} (q slot : Nat) (hs : Calm a s) : Calm a (freezeRing q slot s) := by
  unfold freezeRing
  repeat' first
    | with_reducible assumption
    | with_reducible apply modPair_cl
    | (fail_if_no_progress with_reducible refine Calm.upd ?_ (by with_unfolding_all rfl))
    | split

theorem completeTask_cl {a s : State} (e : Ending) (status result : Nat) (h : Calm a s) : Calm a (completeTask e status result s) := by
  refine h.same ?_
  have k : ∀ nb : Narrow, inner { s with nb := nb } = inner s := fun _ => rfl
  exact k { s.nb with
    completion := completionEntry result e.ruling 0 0 (Entry.cid e.entry) true status
    task := if status = 0 ∧ !s.nb.contained then .done else .frozen
    outData := none, slots := 0, slotNo := 0, inData := [], inLen := 0 }

theorem complete_cl {a s : State} (e : Ending) (f : Fail) (result : Nat) (h : Calm a s) : Calm a (complete e f result s) := by
  unfold complete
  apply actUpdate_cl
  have k : Calm a (if f.status = 0 then s else logError (e.err f) s) := by
    split
    · exact h
    · exact logError_cl _ h
  split
  · exact completeTask_cl _ _ _ (Calm.upd k rfl)
  · apply postCompletion_cl
    split
    · exact freezeRing_cl _ _ (Calm.upd k rfl)
    · exact Calm.upd k rfl

theorem removeItem_cl {a s : State} (i : Item) (failed : Bool) (hs : Calm a s) : Calm a (removeItem i failed s) := by
  unfold removeItem
  repeat' first
    | with_reducible assumption
    | (intro y; refine (fun (k : Calm a y) => ?_) ?_; (on_goal 1 => clear_value y); on_goal 2 => subst y)
    | (intro y; refine (fun (k : Calm a y.1) => ?_) ?_; (on_goal 1 => clear_value y); on_goal 2 => subst y)
    | (intro y; subst y)
    | lift_lets
    | with_reducible apply dropItem_cl
    | with_reducible apply settle_cl
    | with_reducible apply dropStaged_cl
    | (fail_if_no_progress with_reducible refine Calm.upd ?_ (by with_unfolding_all rfl))
    | split

theorem finish_cl {a s : State} (i : Item) (f : Fail) (result : Nat) (hs : Calm a s) : Calm a (finish i f result s) := by
  unfold finish
  repeat' first
    | with_reducible assumption
    | with_reducible apply complete_cl
    | with_reducible apply removeItem_cl
    | (fail_if_no_progress with_reducible refine Calm.upd ?_ (by with_unfolding_all rfl))
    | split

theorem succeed_cl {a s : State} (i : Item) (result : Nat) (hs : Calm a s) : Calm a (succeed i result s) := by
  unfold succeed
  repeat' first
    | with_reducible assumption
    | with_reducible apply finish_cl
    | (fail_if_no_progress with_reducible refine Calm.upd ?_ (by with_unfolding_all rfl))
    | split

theorem failWith_cl {a s : State} (i : Item) (status : Nat) (hs : Calm a s) : Calm a (failWith i status s) := by
  unfold failWith
  repeat' first
    | with_reducible assumption
    | with_reducible apply finish_cl
    | (fail_if_no_progress with_reducible refine Calm.upd ?_ (by with_unfolding_all rfl))
    | split

theorem setBand_cl {a s : State} (b : Band) (hs : Calm a s) : Calm a (setBand b s) := by
  unfold setBand
  repeat' first
    | with_reducible assumption
    | (fail_if_no_progress with_reducible refine Calm.upd ?_ (by with_unfolding_all rfl))
    | split

theorem modBand_cl {a s : State} (n : Nat) (f : Band → Band) (hs : Calm a s) : Calm a (modBand n f s) := by
  unfold modBand
  repeat' first
    | with_reducible assumption
    | (fail_if_no_progress with_reducible refine Calm.upd ?_ (by with_unfolding_all rfl))
    | split

theorem resizeCache_cl {a s : State} (hs : Calm a s) : Calm a (resizeCache s) := by
  unfold resizeCache
  repeat' first
    | with_reducible assumption
    | (fail_if_no_progress with_reducible refine Calm.upd ?_ (by simp only [inner] <;> rfl))
    | split

theorem enqueue_cl {a s : State} (ops : List DieOp) (hs : Calm a s) : Calm a (enqueue ops s) := by
  unfold enqueue
  repeat' first
    | with_reducible assumption
    | (intro y; refine (fun (k : Calm a y) => ?_) ?_; (on_goal 1 => clear_value y); on_goal 2 => subst y)
    | (intro y; refine (fun (k : Calm a y.1) => ?_) ?_; (on_goal 1 => clear_value y); on_goal 2 => subst y)
    | (intro y; subst y)
    | lift_lets
    | with_reducible refine Calm.foldl ?_ (fun _ _ _ => ?_)
    | (fail_if_no_progress with_reducible refine Calm.upd ?_ (by with_unfolding_all rfl))
    | split

theorem queueErase_cl {a s : State} (n cls : Nat) (dies : List Nat) (hs : Calm a s) : Calm a (queueErase n cls dies s) := by
  unfold queueErase
  repeat' first
    | with_reducible assumption
    | with_reducible apply enqueue_cl
    | with_reducible apply modBand_cl
    | (fail_if_no_progress with_reducible refine Calm.upd ?_ (by with_unfolding_all rfl))
    | split

theorem launch_cl {a s : State} (n wl cls : Nat) (slots : List Slot) (hs : Calm a s) : Calm a (launch n wl cls slots s) := by
  unfold launch
  repeat' first
    | with_reducible assumption
    | (intro y; refine (fun (k : Calm a y) => ?_) ?_; (on_goal 1 => clear_value y); on_goal 2 => subst y)
    | (intro y; refine (fun (k : Calm a y.1) => ?_) ?_; (on_goal 1 => clear_value y); on_goal 2 => subst y)
    | (intro y; subst y)
    | lift_lets
    | with_reducible apply enqueue_cl
    | (fail_if_no_progress with_reducible refine Calm.upd ?_ (by with_unfolding_all rfl))
    | split

theorem addRec_cl {a s : State} (r : MapRec) (hs : Calm a s) : Calm a (addRec r s) := by
  unfold addRec
  repeat' first
    | with_reducible assumption
    | (fail_if_no_progress with_reducible refine Calm.upd ?_ (by with_unfolding_all rfl))
    | split

theorem noteBand_cl {a s : State} (n : Nat) (hs : Calm a s) : Calm a (noteBand n s) := by
  unfold noteBand
  repeat' first
    | with_reducible assumption
    | with_reducible apply addRec_cl
    | (fail_if_no_progress with_reducible refine Calm.upd ?_ (by with_unfolding_all rfl))
    | split

theorem formBand_cl {a s : State} (n : Nat) (tlc cache : Bool) (hs : Calm a s) : Calm a (formBand n tlc cache s) := by
  unfold formBand
  repeat' first
    | with_reducible assumption
    | (intro y; refine (fun (k : Calm a y) => ?_) ?_; (on_goal 1 => clear_value y); on_goal 2 => subst y)
    | (intro y; refine (fun (k : Calm a y.1) => ?_) ?_; (on_goal 1 => clear_value y); on_goal 2 => subst y)
    | (intro y; subst y)
    | lift_lets
    | with_reducible apply resizeCache_cl
    | with_reducible apply setBand_cl
    | (fail_if_no_progress with_reducible refine Calm.upd ?_ (by with_unfolding_all rfl))
    | split

theorem openBand_cl {a s : State} (n : Nat) (tlc cache : Bool) (cls : Nat) (hs : Calm a s) : Calm a (openBand n tlc cache cls s) := by
  unfold openBand
  repeat' first
    | with_reducible assumption
    | (intro y; refine (fun (k : Calm a y) => ?_) ?_; (on_goal 1 => clear_value y); on_goal 2 => subst y)
    | (intro y; refine (fun (k : Calm a y.1) => ?_) ?_; (on_goal 1 => clear_value y); on_goal 2 => subst y)
    | (intro y; subst y)
    | lift_lets
    | with_reducible apply noteBand_cl
    | with_reducible apply formBand_cl
    | with_reducible apply queueErase_cl
    | with_reducible apply launch_cl
    | (fail_if_no_progress with_reducible refine Calm.upd ?_ (by with_unfolding_all rfl))
    | split

theorem setWp_cl {a s : State} (w : WritePoint) (hs : Calm a s) : Calm a (setWp w s) := by
  unfold setWp
  repeat' first
    | with_reducible assumption
    | (fail_if_no_progress with_reducible refine Calm.upd ?_ (by with_unfolding_all rfl))
    | split

theorem addFill_cl {a s : State} (slot : Nat) (c : Codeword) (hs : Calm a s) : Calm a (addFill slot c s) := by
  unfold addFill
  repeat' first
    | with_reducible assumption
    | (fail_if_no_progress with_reducible refine Calm.upd ?_ (by with_unfolding_all rfl))
    | split

theorem padTo_cl {a s : State} (n lo hi : Nat) (hs : Calm a s) : Calm a (padTo n lo hi s) := by
  unfold padTo
  repeat' first
    | with_reducible assumption
    | with_reducible apply addFill_cl
    | with_reducible refine Calm.foldl ?_ (fun _ _ _ => ?_)
    | (fail_if_no_progress with_reducible refine Calm.upd ?_ (by with_unfolding_all rfl))
    | split

theorem programWordline_cl {a s : State} (n wl cls : Nat) (hs : Calm a s) : Calm a (programWordline n wl cls s) := by
  unfold programWordline
  repeat' first
    | with_reducible assumption
    | (intro y; refine (fun (k : Calm a y) => ?_) ?_; (on_goal 1 => clear_value y); on_goal 2 => subst y)
    | (intro y; refine (fun (k : Calm a y.1) => ?_) ?_; (on_goal 1 => clear_value y); on_goal 2 => subst y)
    | (intro y; subst y)
    | lift_lets
    | with_reducible apply launch_cl
    | with_reducible apply modBand_cl
    | (fail_if_no_progress with_reducible refine Calm.upd ?_ (by with_unfolding_all rfl))
    | split

theorem programComplete_cl {a s : State} (n cls fuel : Nat) (hs : Calm a s) : Calm a (programComplete n cls fuel s) := by
  induction fuel generalizing s with
  | zero => exact hs
  | succ k ih =>
    unfold programComplete
    split
    · exact hs
    · split
      · exact ih (programWordline_cl _ _ _ hs)
      · exact hs

theorem closeBandStripes_cl {a s : State} (n cls : Nat) (hs : Calm a s) : Calm a (closeBandStripes n cls s) := by
  unfold closeBandStripes
  repeat' first
    | with_reducible assumption
    | (intro y; refine (fun (k : Calm a y) => ?_) ?_; (on_goal 1 => clear_value y); on_goal 2 => subst y)
    | (intro y; refine (fun (k : Calm a y.1) => ?_) ?_; (on_goal 1 => clear_value y); on_goal 2 => subst y)
    | (intro y; subst y)
    | lift_lets
    | with_reducible apply programWordline_cl
    | with_reducible apply padTo_cl
    | (fail_if_no_progress with_reducible refine Calm.upd ?_ (by with_unfolding_all rfl))
    | split

theorem closeStripesOf_cl {a s : State} (p : Slot → Bool) (hs : Calm a s) : Calm a (closeStripesOf p s) := by
  unfold closeStripesOf
  repeat' first
    | with_reducible assumption
    | with_reducible apply closeBandStripes_cl
    | with_reducible refine Calm.foldl ?_ (fun _ _ _ => ?_)
    | (fail_if_no_progress with_reducible refine Calm.upd ?_ (by with_unfolding_all rfl))
    | split

theorem closeStripes_cl {a s : State} (hs : Calm a s) : Calm a (closeStripes s) := by
  unfold closeStripes
  repeat' first
    | with_reducible assumption
    | with_reducible apply closeStripesOf_cl
    | (fail_if_no_progress with_reducible refine Calm.upd ?_ (by with_unfolding_all rfl))
    | split

theorem pushStripes_cl {a s : State} (hs : Calm a s) : Calm a (pushStripes s) := by
  unfold pushStripes
  repeat' first
    | with_reducible assumption
    | (intro y; refine (fun (k : Calm a y) => ?_) ?_; (on_goal 1 => clear_value y); on_goal 2 => subst y)
    | (intro y; refine (fun (k : Calm a y.1) => ?_) ?_; (on_goal 1 => clear_value y); on_goal 2 => subst y)
    | (intro y; subst y)
    | lift_lets
    | with_reducible apply closeStripesOf_cl
    | with_reducible refine Calm.foldl ?_ (fun _ _ _ => ?_)
    | (fail_if_no_progress with_reducible refine Calm.upd ?_ (by with_unfolding_all rfl))
    | split

theorem bindWp_cl {a s : State} (kind stream : Nat) (hs : Calm a s) : Calm a (bindWp kind stream s) := by
  unfold bindWp
  repeat' first
    | with_reducible assumption
    | (intro y; refine (fun (k : Calm a y) => ?_) ?_; (on_goal 1 => clear_value y); on_goal 2 => subst y)
    | (intro y; refine (fun (k : Calm a y.1) => ?_) ?_; (on_goal 1 => clear_value y); on_goal 2 => subst y)
    | (intro y; subst y)
    | lift_lets
    | with_reducible apply closeBandStripes_cl
    | with_reducible apply setWp_cl
    | with_reducible refine Calm.foldl ?_ (fun _ _ _ => ?_)
    | (fail_if_no_progress with_reducible refine Calm.upd ?_ (by with_unfolding_all rfl))
    | split

theorem newBand_cl {a s : State} (w : WritePoint) (tlc cache : Bool) (cls : Nat) (whole : Bool) (hs : Calm a s) : Calm a (newBand w tlc cache cls whole s).1 := by
  unfold newBand
  repeat' first
    | with_reducible assumption
    | (intro y; refine (fun (k : Calm a y) => ?_) ?_; (on_goal 1 => clear_value y); on_goal 2 => subst y)
    | (intro y; refine (fun (k : Calm a y.1) => ?_) ?_; (on_goal 1 => clear_value y); on_goal 2 => subst y)
    | (intro y; subst y)
    | lift_lets
    | with_reducible apply setWp_cl
    | with_reducible apply openBand_cl
    | (fail_if_no_progress with_reducible refine Calm.upd ?_ (by with_unfolding_all rfl))
    | split

theorem withRoom_cl {a s : State} (kind stream cls : Nat) (whole : Bool) (hs : Calm a s) : Calm a (withRoom kind stream cls whole s).1 := by
  unfold withRoom
  repeat' first
    | with_reducible assumption
    | (intro y; refine (fun (k : Calm a y) => ?_) ?_; (on_goal 1 => clear_value y); on_goal 2 => subst y)
    | (intro y; refine (fun (k : Calm a y.1) => ?_) ?_; (on_goal 1 => clear_value y); on_goal 2 => subst y)
    | (intro y; subst y)
    | lift_lets
    | with_reducible apply newBand_cl
    | (fail_if_no_progress with_reducible refine Calm.upd ?_ (by with_unfolding_all rfl))
    | split

theorem append_cl {a s : State} (kind stream cls : Nat) (cws : List Codeword) (h : Calm a s) : Calm a (append kind stream cls cws s).1 := by
  have k := withRoom_cl kind stream cls (decide (cws.length = 32)) h
  have w : ∀ (x : State) n pos fin, Calm a x → Calm a (modBand n (fun b => { b with nextPos := fin })
      ((List.range cws.length).foldl (fun s i => addFill (n * bandSlots + (pos + i)) (cws.getD i padCodeword) s) x)) :=
    fun x n pos fin z => modBand_cl _ _ (Calm.foldl z (fun _ _ z => addFill_cl _ _ z))
  unfold append
  dsimp only
  split
  · exact k
  · split
    · exact k
    · apply programComplete_cl
      split
      · exact setWp_cl _ (w _ _ _ _ (padTo_cl _ _ _ k))
      · exact w _ _ _ _ (padTo_cl _ _ _ k)

theorem markPlaced_cl {a s : State} (r b slot : Nat) (hs : Calm a s) : Calm a (markPlaced r b slot s) := by
  unfold markPlaced
  repeat' first
    | with_reducible assumption
    | (fail_if_no_progress with_reducible refine Calm.upd ?_ (by with_unfolding_all rfl))
    | split

theorem placeBlocks_cl {a s : State} (r kind stream fuel : Nat) (l : List Staged) (h : Calm a s) :
    Calm a (placeBlocks r kind stream fuel l s) := by
  induction fuel generalizing s l with
  | zero => simpa [placeBlocks] using h
  | succ k ih =>
    cases l with
    | nil => simpa [placeBlocks] using h
    | cons x xs =>
      simp only [placeBlocks]
      split
      · have z := append_cl kind stream 2 (((x :: xs).take 32).map (·.cw)) h
        split
        · exact ih _ (Calm.foldl z (fun _ _ w => markPlaced_cl _ _ _ w))
        · exact z
      · have z := append_cl kind stream 2 [x.cw] h
        split
        · exact ih _ (markPlaced_cl _ _ _ z)
        · exact z

theorem placeWrite_cl {a s : State} (r : Nat) (h : Calm a s) : Calm a (placeWrite r s) := by
  unfold placeWrite
  split
  · exact h
  · exact placeBlocks_cl _ _ _ _ _ (bindWp_cl _ _ h)

theorem touchStrokes_cl {a s : State} (r : MapRec) (hs : Calm a s) : Calm a (touchStrokes r s) := by
  unfold touchStrokes
  repeat' first
    | with_reducible assumption
    | with_reducible refine Calm.foldl ?_ (fun _ _ _ => ?_)
    | (fail_if_no_progress with_reducible refine Calm.upd ?_ (by with_unfolding_all rfl))
    | split

theorem addRecs_cl {a s : State} (l : List MapRec) (h : Calm a s) : Calm a (addRecs l s) := by
  induction l generalizing s with
  | nil => exact h
  | cons r rs ih => exact ih (touchStrokes_cl r (Calm.upd (addRec_cl _ h) rfl))

theorem aliveUpdate_cl {a s : State} (hs : Calm a s) : Calm a (aliveUpdate s) := by
  unfold aliveUpdate
  repeat' first
    | with_reducible assumption
    | (intro y; refine (fun (k : Calm a y) => ?_) ?_; (on_goal 1 => clear_value y); on_goal 2 => subst y)
    | (intro y; refine (fun (k : Calm a y.1) => ?_) ?_; (on_goal 1 => clear_value y); on_goal 2 => subst y)
    | (intro y; subst y)
    | lift_lets
    | (fail_if_no_progress with_reducible refine Calm.upd ?_ (by with_unfolding_all rfl))
    | split

theorem aonDrain_cl {a s : State} (hs : Calm a s) : Calm a (aonDrain s) := by
  unfold aonDrain
  repeat' first
    | with_reducible assumption
    | (fail_if_no_progress with_reducible refine Calm.upd ?_ (by with_unfolding_all rfl))
    | split

theorem addBlot_cl {a s : State} (kind cls level : Nat) (escalated : Bool) (source : Nat) (detail : BitVec 64) (first : Bool) (hs : Calm a s) : Calm a (addBlot kind cls level escalated source detail first s) := by
  unfold addBlot
  repeat' first
    | with_reducible assumption
    | (intro y; refine (fun (k : Calm a y) => ?_) ?_; (on_goal 1 => clear_value y); on_goal 2 => subst y)
    | (intro y; refine (fun (k : Calm a y.1) => ?_) ?_; (on_goal 1 => clear_value y); on_goal 2 => subst y)
    | (intro y; subst y)
    | lift_lets
    | with_reducible apply aonDrain_cl
    | (fail_if_no_progress with_reducible refine Calm.upd ?_ (by with_unfolding_all rfl))
    | split

theorem addNote_cl {a s : State} (kind : Nat) (detail : BitVec 64) (hs : Calm a s) : Calm a (addNote kind detail s) := by
  unfold addNote
  repeat' first
    | with_reducible assumption
    | with_reducible apply addBlot_cl
    | (fail_if_no_progress with_reducible refine Calm.upd ?_ (by with_unfolding_all rfl))
    | split

theorem deliverEvent_cl {a s : State} (hs : Calm a s) : Calm a (deliverEvent s) := by
  unfold deliverEvent
  repeat' first
    | with_reducible assumption
    | (intro y; refine (fun (k : Calm a y) => ?_) ?_; (on_goal 1 => clear_value y); on_goal 2 => subst y)
    | (intro y; refine (fun (k : Calm a y.1) => ?_) ?_; (on_goal 1 => clear_value y); on_goal 2 => subst y)
    | (intro y; subst y)
    | lift_lets
    | with_reducible apply succeed_cl
    | (fail_if_no_progress with_reducible refine Calm.upd ?_ (by with_unfolding_all rfl))
    | split

theorem acknowledge_cl {a s : State} (host : Bool) (seq : Nat) (hs : Calm a s) : Calm a (acknowledge host seq s) := by
  unfold acknowledge
  repeat' first
    | with_reducible assumption
    | (fail_if_no_progress with_reducible refine Calm.upd ?_ (by with_unfolding_all rfl))
    | split

theorem undefineBuffer_cl {a s : State} (i : Item) (hs : Calm a s) : Calm a (undefineBuffer i s) := by
  unfold undefineBuffer
  repeat' first
    | with_reducible assumption
    | with_reducible apply emit_cl
    | (fail_if_no_progress with_reducible refine Calm.upd ?_ (by with_unfolding_all rfl))
    | split

theorem failData_cl {a s : State} (i : Item) (f : Fail) (hs : Calm a s) : Calm a (failData i f s) := by
  unfold failData
  repeat' first
    | with_reducible assumption
    | with_reducible apply finish_cl
    | with_reducible apply undefineBuffer_cl
    | (fail_if_no_progress with_reducible refine Calm.upd ?_ (by with_unfolding_all rfl))
    | split

theorem writeHost_cl {a s : State} (i : Item) (segs : List Nat) (p : Payload) (hs : Calm a s) : Calm a (writeHost i segs p s) := by
  unfold writeHost
  repeat' first
    | with_reducible assumption
    | (intro y; refine (fun (k : Calm a y) => ?_) ?_; (on_goal 1 => clear_value y); on_goal 2 => subst y)
    | (intro y; refine (fun (k : Calm a y.1) => ?_) ?_; (on_goal 1 => clear_value y); on_goal 2 => subst y)
    | (intro y; subst y)
    | lift_lets
    | with_reducible apply post_cl
    | (fail_if_no_progress with_reducible refine Calm.upd ?_ (by with_unfolding_all rfl))
    | split

theorem deliver_cl {a s : State} (i : Item) (p : Payload) (result : Nat) (hs : Calm a s) : Calm a (deliver i p result s) := by
  unfold deliver
  repeat' first
    | with_reducible assumption
    | with_reducible apply succeed_cl
    | with_reducible apply setItem_cl
    | with_reducible apply writeHost_cl
    | (fail_if_no_progress with_reducible refine Calm.upd ?_ (by simp only [inner] <;> rfl))
    | split

theorem readsDone_cl {a s : State} (r : Nat) (hs : Calm a s) : Calm a (readsDone r s) := by
  unfold readsDone
  repeat' first
    | with_reducible assumption
    | with_reducible apply failData_cl
    | with_reducible apply succeed_cl
    | (fail_if_no_progress with_reducible refine Calm.upd ?_ (by with_unfolding_all rfl))
    | split

theorem startPeers_cl {a s : State} (r : Rd) (hs : Calm a s) : Calm a (startPeers r s) := by
  unfold startPeers
  repeat' first
    | with_reducible assumption
    | (intro y; refine (fun (k : Calm a y) => ?_) ?_; (on_goal 1 => clear_value y); on_goal 2 => subst y)
    | (intro y; refine (fun (k : Calm a y.1) => ?_) ?_; (on_goal 1 => clear_value y); on_goal 2 => subst y)
    | (intro y; subst y)
    | lift_lets
    | with_reducible apply enqueue_cl
    | (fail_if_no_progress with_reducible refine Calm.upd ?_ (by with_unfolding_all rfl))
    | split

theorem startRdOn_cl {a s : State} (d ruling block slot cls use : Nat) (hs : Calm a s) : Calm a (startRdOn d ruling block slot cls use s) := by
  unfold startRdOn
  repeat' first
    | with_reducible assumption
    | (intro y; refine (fun (k : Calm a y) => ?_) ?_; (on_goal 1 => clear_value y); on_goal 2 => subst y)
    | (intro y; refine (fun (k : Calm a y.1) => ?_) ?_; (on_goal 1 => clear_value y); on_goal 2 => subst y)
    | (intro y; subst y)
    | lift_lets
    | with_reducible apply enqueue_cl
    | with_reducible apply startPeers_cl
    | (fail_if_no_progress with_reducible refine Calm.upd ?_ (by with_unfolding_all rfl))
    | split

theorem startRd_cl {a s : State} (ruling block slot cls use : Nat) (hs : Calm a s) : Calm a (startRd ruling block slot cls use s) := by
  unfold startRd
  repeat' first
    | with_reducible assumption
    | with_reducible apply startRdOn_cl
    | (fail_if_no_progress with_reducible refine Calm.upd ?_ (by with_unfolding_all rfl))
    | split

theorem useCached_cl {a s : State} (b : Nat) (hs : Calm a s) : Calm a (useCached b s) := by
  unfold useCached
  repeat' first
    | with_reducible assumption
    | (fail_if_no_progress with_reducible refine Calm.upd ?_ (by with_unfolding_all rfl))
    | split

theorem startRead_cl {a s : State} (i : Item) (hs : Calm a s) : Calm a (startRead i s) := by
  unfold startRead
  repeat' first
    | with_reducible assumption
    | (intro y; refine (fun (k : Calm a y) => ?_) ?_; (on_goal 1 => clear_value y); on_goal 2 => subst y)
    | (intro y; refine (fun (k : Calm a y.1) => ?_) ?_; (on_goal 1 => clear_value y); on_goal 2 => subst y)
    | (intro y; subst y)
    | lift_lets
    | with_reducible apply setItem_cl
    | with_reducible apply useCached_cl
    | with_reducible apply startRd_cl
    | with_reducible apply readsDone_cl
    | with_reducible refine Calm.foldl ?_ (fun _ _ _ => ?_)
    | (fail_if_no_progress with_reducible refine Calm.upd ?_ (by with_unfolding_all rfl))
    | split

theorem startMerge_cl {a s : State} (i : Item) (l : List (Nat × Nat)) (hs : Calm a s) : Calm a (startMerge i l s) := by
  unfold startMerge
  repeat' first
    | with_reducible assumption
    | with_reducible apply startRd_cl
    | with_reducible apply setItem_cl
    | with_reducible refine Calm.foldl ?_ (fun _ _ _ => ?_)
    | (fail_if_no_progress with_reducible refine Calm.upd ?_ (by with_unfolding_all rfl))
    | split

theorem acceptData_cl {a s : State} (i : Item) (hs : Calm a s) : Calm a (acceptData i s) := by
  have k := placeWrite_cl i.ruling (setItem_cl { i with past := true, wait := .persist } hs)
  unfold acceptData
  dsimp only
  apply pushStripes_cl
  split
  · exact k
  · exact succeed_cl _ _ k

theorem takeData_cl {a s : State} (i : Item) (data : Mem) (hs : Calm a s) : Calm a (takeData i data s) := by
  unfold takeData
  repeat' first
    | with_reducible assumption
    | (intro y; refine (fun (k : Calm a y) => ?_) ?_; (on_goal 1 => clear_value y); on_goal 2 => subst y)
    | (intro y; refine (fun (k : Calm a y.1) => ?_) ?_; (on_goal 1 => clear_value y); on_goal 2 => subst y)
    | (intro y; subst y)
    | lift_lets
    | with_reducible apply acceptData_cl
    | with_reducible apply startMerge_cl
    | (fail_if_no_progress with_reducible refine Calm.upd ?_ (by simp only [inner] <;> rfl))
    | split

theorem enterRecs_cl {a s : State} (last : Bool) (l : List MapRec) (h : Calm a s) : Calm a (enterRecs last l s) := by
  induction l generalizing s with
  | nil => exact h
  | cons r rs ih => exact ih (touchStrokes_cl r (Calm.upd (addRec_cl _ h) rfl))

theorem endRelease_cl {a s : State} (i : Item) (hs : Calm a s) : Calm a (endRelease i s) := by
  unfold endRelease
  repeat' first
    | with_reducible assumption
    | with_reducible apply setItem_cl
    | with_reducible apply succeed_cl
    | (fail_if_no_progress with_reducible refine Calm.upd ?_ (by with_unfolding_all rfl))
    | split

theorem runRelease_cl {a s : State} (i : Item) (hs : Calm a s) : Calm a (runRelease i s) := by
  unfold runRelease
  repeat' first
    | with_reducible assumption
    | (intro y; refine (fun (k : Calm a y) => ?_) ?_; (on_goal 1 => clear_value y); on_goal 2 => subst y)
    | (intro y; refine (fun (k : Calm a y.1) => ?_) ?_; (on_goal 1 => clear_value y); on_goal 2 => subst y)
    | (intro y; subst y)
    | lift_lets
    | with_reducible apply setItem_cl
    | with_reducible apply endRelease_cl
    | with_reducible apply enterRecs_cl
    | with_reducible apply startMerge_cl
    | with_reducible apply pushStripes_cl
    | with_reducible apply placeWrite_cl
    | (fail_if_no_progress with_reducible refine Calm.upd ?_ (by simp only [inner] <;> rfl))
    | split

theorem setBank_cl {a s : State} (b : BankId) (f : Bank → Bank) (hs : Calm a s) : Calm a (setBank b f s) := by
  unfold setBank
  repeat' first
    | with_reducible assumption
    | (fail_if_no_progress with_reducible refine Calm.upd ?_ (by with_unfolding_all rfl))
    | split

theorem beginSwap_cl {a s : State} (w : SwapWork) (hs : Calm a s) : Calm a (beginSwap w s) := by
  unfold beginSwap
  repeat' first
    | with_reducible assumption
    | (fail_if_no_progress with_reducible refine Calm.upd ?_ (by with_unfolding_all rfl))
    | split

theorem markEmpty_cl {a s : State} (b : BankId) (hs : Calm a s) : Calm a (markEmpty b s) := by
  unfold markEmpty
  repeat' first
    | with_reducible assumption
    | with_reducible apply setBank_cl
    | (fail_if_no_progress with_reducible refine Calm.upd ?_ (by with_unfolding_all rfl))
    | split

theorem takePiece_cl {a s : State} (i : Item) (data : Mem) (d : Download) (hs : Calm a s) : Calm a (takePiece i data d s) := by
  unfold takePiece
  repeat' first
    | with_reducible assumption
    | (intro y; refine (fun (k : Calm a y) => ?_) ?_; (on_goal 1 => clear_value y); on_goal 2 => subst y)
    | (intro y; refine (fun (k : Calm a y.1) => ?_) ?_; (on_goal 1 => clear_value y); on_goal 2 => subst y)
    | (intro y; subst y)
    | lift_lets
    | with_reducible apply beginSwap_cl
    | with_reducible apply markEmpty_cl
    | with_reducible apply complete_cl
    | with_reducible apply setItem_cl
    | (fail_if_no_progress with_reducible refine Calm.upd ?_ (by with_unfolding_all rfl))
    | split

theorem startPiece_cl {a s : State} (i : Item) (data : Mem) (hs : Calm a s) : Calm a (startPiece i data s) := by
  unfold startPiece
  repeat' first
    | with_reducible assumption
    | (intro y; refine (fun (k : Calm a y) => ?_) ?_; (on_goal 1 => clear_value y); on_goal 2 => subst y)
    | (intro y; refine (fun (k : Calm a y.1) => ?_) ?_; (on_goal 1 => clear_value y); on_goal 2 => subst y)
    | (intro y; subst y)
    | lift_lets
    | with_reducible apply failWith_cl
    | with_reducible apply takePiece_cl
    | with_reducible apply complete_cl
    | (fail_if_no_progress with_reducible refine Calm.upd ?_ (by with_unfolding_all rfl))
    | split

theorem startActivate_cl {a s : State} (i : Item) (hs : Calm a s) : Calm a (startActivate i s) := by
  unfold startActivate
  repeat' first
    | with_reducible assumption
    | (intro y; refine (fun (k : Calm a y) => ?_) ?_; (on_goal 1 => clear_value y); on_goal 2 => subst y)
    | (intro y; refine (fun (k : Calm a y.1) => ?_) ?_; (on_goal 1 => clear_value y); on_goal 2 => subst y)
    | (intro y; subst y)
    | lift_lets
    | with_reducible apply failWith_cl
    | with_reducible apply setItem_cl
    | with_reducible apply beginSwap_cl
    | (fail_if_no_progress with_reducible refine Calm.upd ?_ (by with_unfolding_all rfl))
    | split

theorem startFirmware_cl {a s : State} (i : Item) (hs : Calm a s) : Calm a (startFirmware i s) := by
  unfold startFirmware
  repeat' first
    | with_reducible assumption
    | (intro y; refine (fun (k : Calm a y) => ?_) ?_; (on_goal 1 => clear_value y); on_goal 2 => subst y)
    | (intro y; refine (fun (k : Calm a y.1) => ?_) ?_; (on_goal 1 => clear_value y); on_goal 2 => subst y)
    | (intro y; subst y)
    | lift_lets
    | with_reducible apply setItem_cl
    | with_reducible apply startPiece_cl
    | with_reducible apply startActivate_cl
    | (fail_if_no_progress with_reducible refine Calm.upd ?_ (by with_unfolding_all rfl))
    | split

theorem createOp_cl {a s : State} (typ target ruling state : Nat) (hs : Calm a s) : Calm a (createOp typ target ruling state s).1 := by
  unfold createOp
  repeat' first
    | with_reducible assumption
    | (intro y; refine (fun (k : Calm a y) => ?_) ?_; (on_goal 1 => clear_value y); on_goal 2 => subst y)
    | (intro y; refine (fun (k : Calm a y.1) => ?_) ?_; (on_goal 1 => clear_value y); on_goal 2 => subst y)
    | (intro y; subst y)
    | lift_lets
    | with_reducible apply progress_cl
    | (fail_if_no_progress with_reducible refine Calm.upd ?_ (by with_unfolding_all rfl))
    | split

theorem modOp_cl {a s : State} (h : Nat) (f : LongOp → LongOp) (hs : Calm a s) : Calm a (modOp h f s) := by
  unfold modOp
  repeat' first
    | with_reducible assumption
    | (fail_if_no_progress with_reducible refine Calm.upd ?_ (by with_unfolding_all rfl))
    | split

theorem enterRebuild_cl {a s : State} (typ target : Nat) (hs : Calm a s) : Calm a (enterRebuild typ target s) := by
  unfold enterRebuild
  repeat' first
    | with_reducible assumption
    | (intro y; refine (fun (k : Calm a y) => ?_) ?_; (on_goal 1 => clear_value y); on_goal 2 => subst y)
    | (intro y; refine (fun (k : Calm a y.1) => ?_) ?_; (on_goal 1 => clear_value y); on_goal 2 => subst y)
    | (intro y; subst y)
    | lift_lets
    | with_reducible apply createOp_cl
    | (fail_if_no_progress with_reducible refine Calm.upd ?_ (by with_unfolding_all rfl))
    | split

theorem fillRebuilds_cl {a s : State} (fuel : Nat) (h : Calm a s) : Calm a (fillRebuilds fuel s) := by
  induction fuel generalizing s with
  | zero => exact h
  | succ k ih =>
    unfold fillRebuilds
    split
    · exact h
    · split
      · exact ih (enterRebuild_cl _ _ (Calm.upd h rfl))
      · exact h

theorem startQueued_cl {a s : State} (typ : Nat) (hs : Calm a s) : Calm a (startQueued typ s) := by
  unfold startQueued
  repeat' first
    | with_reducible assumption
    | with_reducible apply modOp_cl
    | (fail_if_no_progress with_reducible refine Calm.upd ?_ (by with_unfolding_all rfl))
    | split

theorem endOp_cl {a s : State} (h state outcome detail : Nat) (hs : Calm a s) : Calm a (endOp h state outcome detail s) := by
  unfold endOp
  repeat' first
    | with_reducible assumption
    | (intro y; refine (fun (k : Calm a y) => ?_) ?_; (on_goal 1 => clear_value y); on_goal 2 => subst y)
    | (intro y; refine (fun (k : Calm a y.1) => ?_) ?_; (on_goal 1 => clear_value y); on_goal 2 => subst y)
    | (intro y; subst y)
    | lift_lets
    | with_reducible apply modOp_cl
    | with_reducible apply progress_cl
    | with_reducible apply actUpdate_cl
    | with_reducible apply fillRebuilds_cl
    | with_reducible apply startQueued_cl
    | (fail_if_no_progress with_reducible refine Calm.upd ?_ (by with_unfolding_all rfl))
    | split

theorem cancelOps_cl {a s : State} (p : Nat → Bool) (hs : Calm a s) : Calm a (cancelOps p s) := by
  unfold cancelOps
  repeat' first
    | with_reducible assumption
    | with_reducible apply endOp_cl
    | with_reducible refine Calm.foldl ?_ (fun _ _ _ => ?_)
    | (fail_if_no_progress with_reducible refine Calm.upd ?_ (by with_unfolding_all rfl))
    | split

theorem collectUpdate_cl {a s : State} (hs : Calm a s) : Calm a (collectUpdate s) := by
  unfold collectUpdate
  repeat' first
    | with_reducible assumption
    | (intro y; refine (fun (k : Calm a y) => ?_) ?_; (on_goal 1 => clear_value y); on_goal 2 => subst y)
    | (intro y; refine (fun (k : Calm a y.1) => ?_) ?_; (on_goal 1 => clear_value y); on_goal 2 => subst y)
    | (intro y; subst y)
    | lift_lets
    | (fail_if_no_progress with_reducible refine Calm.upd ?_ (by with_unfolding_all rfl))
    | split

theorem poolUpdate_cl {a s : State} (hs : Calm a s) : Calm a (poolUpdate s) := by
  unfold poolUpdate
  repeat' first
    | with_reducible assumption
    | (intro y; refine (fun (k : Calm a y) => ?_) ?_; (on_goal 1 => clear_value y); on_goal 2 => subst y)
    | (intro y; refine (fun (k : Calm a y.1) => ?_) ?_; (on_goal 1 => clear_value y); on_goal 2 => subst y)
    | (intro y; subst y)
    | lift_lets
    | with_reducible apply collectUpdate_cl
    | (fail_if_no_progress with_reducible refine Calm.upd ?_ (by with_unfolding_all rfl))
    | split

theorem startMove_cl {a s : State} (slot cls : Nat) (stroke : Option Nat) (block : Nat) (hs : Calm a s) : Calm a (startMove slot cls stroke block s) := by
  unfold startMove
  repeat' first
    | with_reducible assumption
    | (intro y; refine (fun (k : Calm a y) => ?_) ?_; (on_goal 1 => clear_value y); on_goal 2 => subst y)
    | (intro y; refine (fun (k : Calm a y.1) => ?_) ?_; (on_goal 1 => clear_value y); on_goal 2 => subst y)
    | (intro y; subst y)
    | lift_lets
    | with_reducible apply startRd_cl
    | (fail_if_no_progress with_reducible refine Calm.upd ?_ (by with_unfolding_all rfl))
    | split

theorem startCopies_cl {a s : State} (n cls : Nat) (slots : List Nat) (hs : Calm a s) : Calm a (startCopies n cls slots s) := by
  unfold startCopies
  repeat' first
    | with_reducible assumption
    | (intro y; refine (fun (k : Calm a y) => ?_) ?_; (on_goal 1 => clear_value y); on_goal 2 => subst y)
    | (intro y; refine (fun (k : Calm a y.1) => ?_) ?_; (on_goal 1 => clear_value y); on_goal 2 => subst y)
    | (intro y; subst y)
    | lift_lets
    | with_reducible apply startMove_cl
    | with_reducible refine Calm.foldl ?_ (fun _ _ _ => ?_)
    | (fail_if_no_progress with_reducible refine Calm.upd ?_ (by with_unfolding_all rfl))
    | split

theorem startEmptying_cl {a s : State} (n kind cls : Nat) (hs : Calm a s) : Calm a (startEmptying n kind cls s) := by
  unfold startEmptying
  repeat' first
    | with_reducible assumption
    | (intro y; refine (fun (k : Calm a y) => ?_) ?_; (on_goal 1 => clear_value y); on_goal 2 => subst y)
    | (intro y; refine (fun (k : Calm a y.1) => ?_) ?_; (on_goal 1 => clear_value y); on_goal 2 => subst y)
    | (intro y; subst y)
    | lift_lets
    | with_reducible apply startCopies_cl
    | (fail_if_no_progress with_reducible refine Calm.upd ?_ (by with_unfolding_all rfl))
    | split

theorem noteLogged_cl {a s : State} (hs : Calm a s) : Calm a (noteLogged s) := by
  unfold noteLogged
  repeat' first
    | with_reducible assumption
    | (intro y; refine (fun (k : Calm a y) => ?_) ?_; (on_goal 1 => clear_value y); on_goal 2 => subst y)
    | (intro y; refine (fun (k : Calm a y.1) => ?_) ?_; (on_goal 1 => clear_value y); on_goal 2 => subst y)
    | (intro y; subst y)
    | lift_lets
    | (fail_if_no_progress with_reducible refine Calm.upd ?_ (by with_unfolding_all rfl))
    | split

theorem startErase_cl {a s : State} (n cls : Nat) (hs : Calm a s) : Calm a (startErase n cls s) := by
  unfold startErase
  repeat' first
    | with_reducible assumption
    | (intro y; refine (fun (k : Calm a y) => ?_) ?_; (on_goal 1 => clear_value y); on_goal 2 => subst y)
    | (intro y; refine (fun (k : Calm a y.1) => ?_) ?_; (on_goal 1 => clear_value y); on_goal 2 => subst y)
    | (intro y; subst y)
    | lift_lets
    | with_reducible apply queueErase_cl
    | with_reducible apply modBand_cl
    | (fail_if_no_progress with_reducible refine Calm.upd ?_ (by with_unfolding_all rfl))
    | split

theorem eraseReady_cl {a s : State} (hs : Calm a s) : Calm a (eraseReady s) := by
  unfold eraseReady
  repeat' first
    | with_reducible assumption
    | with_reducible apply startErase_cl
    | with_reducible refine Calm.foldl ?_ (fun _ _ _ => ?_)
    | (fail_if_no_progress with_reducible refine Calm.upd ?_ (by with_unfolding_all rfl))
    | split

theorem shutBand_cl {a s : State} (early : Bool) (n : Nat) (hs : Calm a s) : Calm a (shutBand early n s) := by
  unfold shutBand
  repeat' first
    | with_reducible assumption
    | with_reducible apply noteBand_cl
    | with_reducible apply modBand_cl
    | (fail_if_no_progress with_reducible refine Calm.upd ?_ (by with_unfolding_all rfl))
    | split

theorem startProbe_cl {a s : State} (die band plane cls : Nat) (rd : Option Nat) (test : Bool) (hs : Calm a s) : Calm a (startProbe die band plane cls rd test s) := by
  unfold startProbe
  repeat' first
    | with_reducible assumption
    | (intro y; refine (fun (k : Calm a y) => ?_) ?_; (on_goal 1 => clear_value y); on_goal 2 => subst y)
    | (intro y; refine (fun (k : Calm a y.1) => ?_) ?_; (on_goal 1 => clear_value y); on_goal 2 => subst y)
    | (intro y; subst y)
    | lift_lets
    | with_reducible apply enqueue_cl
    | (fail_if_no_progress with_reducible refine Calm.upd ?_ (by with_unfolding_all rfl))
    | split

theorem rebuildNext_cl {a s : State} (hs : Calm a s) : Calm a (rebuildNext s) := by
  unfold rebuildNext
  repeat' first
    | with_reducible assumption
    | with_reducible apply eraseReady_cl
    | with_reducible apply noteLogged_cl
    | with_reducible apply startEmptying_cl
    | (fail_if_no_progress with_reducible refine Calm.upd ?_ (by with_unfolding_all rfl))
    | split

theorem addPage_cl {a s : State} (p : LogPage) (hs : Calm a s) : Calm a (addPage p s) := by
  unfold addPage
  repeat' first
    | with_reducible assumption
    | (fail_if_no_progress with_reducible refine Calm.upd ?_ (by with_unfolding_all rfl))
    | split

theorem openMedia_cl {a s : State} (hs : Calm a s) : Calm a (openMedia s) := by
  unfold openMedia
  repeat' first
    | with_reducible assumption
    | (intro y; refine (fun (k : Calm a y) => ?_) ?_; (on_goal 1 => clear_value y); on_goal 2 => subst y)
    | (intro y; refine (fun (k : Calm a y.1) => ?_) ?_; (on_goal 1 => clear_value y); on_goal 2 => subst y)
    | (intro y; subst y)
    | lift_lets
    | with_reducible apply addPage_cl
    | (fail_if_no_progress with_reducible refine Calm.upd ?_ (by with_unfolding_all rfl))
    | split

theorem dropMark_cl {a s : State} (hs : Calm a s) : Calm a (dropMark s) := by
  unfold dropMark
  repeat' first
    | with_reducible assumption
    | with_reducible apply addPage_cl
    | (fail_if_no_progress with_reducible refine Calm.upd ?_ (by with_unfolding_all rfl))
    | split

theorem completePersistent_cl {a s : State} (hs : Calm a s) : Calm a (completePersistent s) := by
  unfold completePersistent
  repeat' first
    | with_reducible assumption
    | (intro y; refine (fun (k : Calm a y) => ?_) ?_; (on_goal 1 => clear_value y); on_goal 2 => subst y)
    | (intro y; refine (fun (k : Calm a y.1) => ?_) ?_; (on_goal 1 => clear_value y); on_goal 2 => subst y)
    | (intro y; subst y)
    | lift_lets
    | with_reducible apply succeed_cl
    | with_reducible refine Calm.foldl ?_ (fun _ _ _ => ?_)
    | (fail_if_no_progress with_reducible refine Calm.upd ?_ (by with_unfolding_all rfl))
    | split

theorem testProbes_cl {a s : State} (l : List (Nat × Nat × Nat)) (hs : Calm a s) : Calm a (testProbes l s) := by
  unfold testProbes
  repeat' first
    | with_reducible assumption
    | with_reducible apply startProbe_cl
    | with_reducible refine Calm.foldl ?_ (fun _ _ _ => ?_)
    | (fail_if_no_progress with_reducible refine Calm.upd ?_ (by with_unfolding_all rfl))
    | split

theorem openTestBand_cl {a s : State} (hs : Calm a s) : Calm a (openTestBand s) := by
  unfold openTestBand
  repeat' first
    | with_reducible assumption
    | (intro y; refine (fun (k : Calm a y) => ?_) ?_; (on_goal 1 => clear_value y); on_goal 2 => subst y)
    | (intro y; refine (fun (k : Calm a y.1) => ?_) ?_; (on_goal 1 => clear_value y); on_goal 2 => subst y)
    | (intro y; subst y)
    | lift_lets
    | with_reducible apply noteBand_cl
    | with_reducible apply formBand_cl
    | with_reducible apply openMedia_cl
    | with_reducible apply queueErase_cl
    | (fail_if_no_progress with_reducible refine Calm.upd ?_ (by with_unfolding_all rfl))
    | split

theorem issueSegment_cl {a s : State} (k : Nat) (hs : Calm a s) : Calm a (issueSegment k s) := by
  unfold issueSegment
  repeat' first
    | with_reducible assumption
    | with_reducible apply testProbes_cl
    | with_reducible apply startRd_cl
    | with_reducible apply openTestBand_cl
    | with_reducible refine Calm.foldl ?_ (fun _ _ _ => ?_)
    | (fail_if_no_progress with_reducible refine Calm.upd ?_ (by with_unfolding_all rfl))
    | split

theorem beginSegment_cl {a s : State} (o : LongOp) (hs : Calm a s) : Calm a (beginSegment o s) := by
  unfold beginSegment
  repeat' first
    | with_reducible assumption
    | (intro y; refine (fun (k : Calm a y) => ?_) ?_; (on_goal 1 => clear_value y); on_goal 2 => subst y)
    | (intro y; refine (fun (k : Calm a y.1) => ?_) ?_; (on_goal 1 => clear_value y); on_goal 2 => subst y)
    | (intro y; subst y)
    | lift_lets
    | with_reducible apply issueSegment_cl
    | with_reducible apply modOp_cl
    | (fail_if_no_progress with_reducible refine Calm.upd ?_ (by with_unfolding_all rfl))
    | split

theorem calibrate_cl {a s : State} (h fuel : Nat) (hs : Calm a s) : Calm a (calibrate h fuel s) := by
  induction fuel generalizing s with
  | zero => exact hs
  | succ k ih =>
    unfold calibrate
    split
    · exact hs
    · split
      · exact hs
      · split
        · exact hs
        · split
          · exact ih (modOp_cl _ _ hs)
          · exact ih (testProbes_cl _ (modOp_cl _ _ hs))

theorem testWork_cl {a s : State} (hs : Calm a s) : Calm a (testWork s) := by
  unfold testWork
  refine Calm.foldl hs (fun s o h => ?_)
  split
  · exact beginSegment_cl _ h
  · split
    · exact calibrate_cl _ _ h
    · exact h

theorem holdTests_cl {a s : State} (hs : Calm a s) : Calm a (holdTests s) := by
  unfold holdTests
  repeat' first
    | with_reducible assumption
    | (fail_if_no_progress with_reducible refine Calm.upd ?_ (by with_unfolding_all rfl))
    | split

theorem dropTests_cl {a s : State} (h : Nat) (hs : Calm a s) : Calm a (dropTests h s) := by
  unfold dropTests
  repeat' first
    | with_reducible assumption
    | (intro y; refine (fun (k : Calm a y) => ?_) ?_; (on_goal 1 => clear_value y); on_goal 2 => subst y)
    | (intro y; refine (fun (k : Calm a y.1) => ?_) ?_; (on_goal 1 => clear_value y); on_goal 2 => subst y)
    | (intro y; subst y)
    | lift_lets
    | with_reducible apply shutBand_cl
    | with_reducible apply modBand_cl
    | with_reducible apply modOp_cl
    | with_reducible refine Calm.foldl ?_ (fun _ _ _ => ?_)
    | (fail_if_no_progress with_reducible refine Calm.upd ?_ (by with_unfolding_all rfl))
    | split

theorem sendFrame_cl {a s : State} (typ value : Nat) (hs : Calm a s) : Calm a (sendFrame typ value s) := by
  unfold sendFrame
  repeat' first
    | with_reducible assumption
    | (fail_if_no_progress with_reducible refine Calm.upd ?_ (by with_unfolding_all rfl))
    | split

theorem modEpoch_cl {a s : State} (n : Nat) (f : Epoch → Epoch) (hs : Calm a s) : Calm a (modEpoch n f s) := by
  unfold modEpoch
  repeat' first
    | with_reducible assumption
    | (fail_if_no_progress with_reducible refine Calm.upd ?_ (by with_unfolding_all rfl))
    | split

theorem flagEpoch_cl {a s : State} (n : Nat) (f : Epoch → Epoch) (hs : Calm a s) : Calm a (flagEpoch n f s) := by
  unfold flagEpoch
  repeat' first
    | with_reducible assumption
    | (fail_if_no_progress with_reducible refine Calm.upd ?_ (by with_unfolding_all rfl))
    | split

theorem addEpoch_cl {a s : State} (n state : Nat) (hs : Calm a s) : Calm a (addEpoch n state s) := by
  unfold addEpoch
  repeat' first
    | with_reducible assumption
    | (intro y; refine (fun (k : Calm a y) => ?_) ?_; (on_goal 1 => clear_value y); on_goal 2 => subst y)
    | (intro y; refine (fun (k : Calm a y.1) => ?_) ?_; (on_goal 1 => clear_value y); on_goal 2 => subst y)
    | (intro y; subst y)
    | lift_lets
    | (fail_if_no_progress with_reducible refine Calm.upd ?_ (by with_unfolding_all rfl))
    | split

theorem touchEpoch_cl {a s : State} (n : Nat) (hs : Calm a s) : Calm a (touchEpoch n s) := by
  unfold touchEpoch
  repeat' first
    | with_reducible assumption
    | with_reducible apply addEpoch_cl
    | (fail_if_no_progress with_reducible refine Calm.upd ?_ (by with_unfolding_all rfl))
    | split

theorem commitEpoch_cl {a s : State} (n r : Nat) (hs : Calm a s) : Calm a (commitEpoch n r s) := by
  unfold commitEpoch
  repeat' first
    | with_reducible assumption
    | (intro y; refine (fun (k : Calm a y) => ?_) ?_; (on_goal 1 => clear_value y); on_goal 2 => subst y)
    | (intro y; refine (fun (k : Calm a y.1) => ?_) ?_; (on_goal 1 => clear_value y); on_goal 2 => subst y)
    | (intro y; subst y)
    | lift_lets
    | with_reducible apply settle_cl
    | with_reducible apply modEpoch_cl
    | with_reducible apply addRecs_cl
    | (fail_if_no_progress with_reducible refine Calm.upd ?_ (by with_unfolding_all rfl))
    | split

theorem rollBack_cl {a s : State} (n r : Nat) (hs : Calm a s) : Calm a (rollBack n r s) := by
  unfold rollBack
  repeat' first
    | with_reducible assumption
    | with_reducible apply settle_cl
    | with_reducible apply modEpoch_cl
    | (fail_if_no_progress with_reducible refine Calm.upd ?_ (by with_unfolding_all rfl))
    | split

theorem runCommit_cl {a s : State} (i : Item) (hs : Calm a s) : Calm a (runCommit i s) := by
  unfold runCommit
  repeat' first
    | with_reducible assumption
    | with_reducible apply dropItem_cl
    | with_reducible apply commitEpoch_cl
    | with_reducible apply setItem_cl
    | (fail_if_no_progress with_reducible refine Calm.upd ?_ (by with_unfolding_all rfl))
    | split

theorem checkPrepare_cl {a s : State} (i : Item) (hs : Calm a s) : Calm a (checkPrepare i s) := by
  unfold checkPrepare
  repeat' first
    | with_reducible assumption
    | (intro y; refine (fun (k : Calm a y) => ?_) ?_; (on_goal 1 => clear_value y); on_goal 2 => subst y)
    | (intro y; refine (fun (k : Calm a y.1) => ?_) ?_; (on_goal 1 => clear_value y); on_goal 2 => subst y)
    | (intro y; subst y)
    | lift_lets
    | with_reducible apply failWith_cl
    | with_reducible apply succeed_cl
    | with_reducible apply sendFrame_cl
    | (fail_if_no_progress with_reducible refine Calm.upd ?_ (by with_unfolding_all rfl))
    | split

theorem attemptPrepare_cl {a s : State} (i : Item) (hs : Calm a s) : Calm a (attemptPrepare i s) := by
  unfold attemptPrepare
  split
  · exact hs
  · exact checkPrepare_cl _ hs

theorem structure__cl {a s : State} (i : Item) (size : Nat) (m : Mem) (hs : Calm a s) : Calm a (structure_ i size m s) := by
  unfold structure_
  repeat' first
    | with_reducible assumption
    | with_reducible apply deliver_cl
    | with_reducible apply failData_cl
    | (fail_if_no_progress with_reducible refine Calm.upd ?_ (by with_unfolding_all rfl))
    | split

theorem runIdentify_cl {a s : State} (i : Item) (hs : Calm a s) : Calm a (runIdentify i s) := by
  unfold runIdentify
  repeat' first
    | with_reducible assumption
    | (intro y; refine (fun (k : Calm a y) => ?_) ?_; (on_goal 1 => clear_value y); on_goal 2 => subst y)
    | (intro y; refine (fun (k : Calm a y.1) => ?_) ?_; (on_goal 1 => clear_value y); on_goal 2 => subst y)
    | (intro y; subst y)
    | lift_lets
    | with_reducible apply structure__cl
    | (fail_if_no_progress with_reducible refine Calm.upd ?_ (by with_unfolding_all rfl))
    | split

theorem clearCause_cl {a s : State} (w : Nat) (hs : Calm a s) : Calm a (clearCause w s) := by
  unfold clearCause
  repeat' first
    | with_reducible assumption
    | (intro y; refine (fun (k : Calm a y) => ?_) ?_; (on_goal 1 => clear_value y); on_goal 2 => subst y)
    | (intro y; refine (fun (k : Calm a y.1) => ?_) ?_; (on_goal 1 => clear_value y); on_goal 2 => subst y)
    | (intro y; subst y)
    | lift_lets
    | (fail_if_no_progress with_reducible refine Calm.upd ?_ (by with_unfolding_all rfl))
    | split

theorem clearEvents_cl {a s : State} (hs : Calm a s) : Calm a (clearEvents s) := by
  unfold clearEvents
  repeat' first
    | with_reducible assumption
    | (fail_if_no_progress with_reducible refine Calm.upd ?_ (by with_unfolding_all rfl))
    | split

theorem endSafe_cl {a s : State} (acked : List Unack) (hs : Calm a s) : Calm a (endSafe acked s) := by
  unfold endSafe
  repeat' first
    | with_reducible assumption
    | (intro y; refine (fun (k : Calm a y) => ?_) ?_; (on_goal 1 => clear_value y); on_goal 2 => subst y)
    | (intro y; refine (fun (k : Calm a y.1) => ?_) ?_; (on_goal 1 => clear_value y); on_goal 2 => subst y)
    | (intro y; subst y)
    | lift_lets
    | with_reducible apply aliveUpdate_cl
    | with_reducible apply addNote_cl
    | (fail_if_no_progress with_reducible refine Calm.upd ?_ (by with_unfolding_all rfl))
    | split

theorem acknowledgeRead_cl {a s : State} (off len : Nat) (hs : Calm a s) : Calm a (acknowledgeRead off len s) := by
  unfold acknowledgeRead
  repeat' first
    | with_reducible assumption
    | (intro y; refine (fun (k : Calm a y) => ?_) ?_; (on_goal 1 => clear_value y); on_goal 2 => subst y)
    | (intro y; refine (fun (k : Calm a y.1) => ?_) ?_; (on_goal 1 => clear_value y); on_goal 2 => subst y)
    | (intro y; subst y)
    | lift_lets
    | with_reducible apply acknowledge_cl
    | with_reducible apply endSafe_cl
    | with_reducible refine Calm.foldl ?_ (fun _ _ _ => ?_)
    | (fail_if_no_progress with_reducible refine Calm.upd ?_ (by with_unfolding_all rfl))
    | split

theorem runGetLog_cl {a s : State} (i : Item) (hs : Calm a s) : Calm a (runGetLog i s) := by
  unfold runGetLog
  repeat' first
    | with_reducible assumption
    | (intro y; refine (fun (k : Calm a y) => ?_) ?_; (on_goal 1 => clear_value y); on_goal 2 => subst y)
    | (intro y; refine (fun (k : Calm a y.1) => ?_) ?_; (on_goal 1 => clear_value y); on_goal 2 => subst y)
    | (intro y; subst y)
    | lift_lets
    | with_reducible apply clearCause_cl
    | with_reducible apply clearEvents_cl
    | with_reducible apply acknowledgeRead_cl
    | with_reducible apply structure__cl
    | (fail_if_no_progress with_reducible refine Calm.upd ?_ (by with_unfolding_all rfl))
    | split

theorem runAttest_cl {a s : State} (i : Item) (hs : Calm a s) : Calm a (runAttest i s) := by
  unfold runAttest
  repeat' first
    | with_reducible assumption
    | with_reducible apply structure__cl
    | with_reducible apply failData_cl
    | (fail_if_no_progress with_reducible refine Calm.upd ?_ (by with_unfolding_all rfl))
    | split

theorem runFlush_cl {a s : State} (i : Item) (hs : Calm a s) : Calm a (runFlush i s) := by
  unfold runFlush
  repeat' first
    | with_reducible assumption
    | with_reducible apply succeed_cl
    | with_reducible apply pushStripes_cl
    | with_reducible apply setItem_cl
    | (fail_if_no_progress with_reducible refine Calm.upd ?_ (by with_unfolding_all rfl))
    | split

theorem runAwait_cl {a s : State} (i : Item) (hs : Calm a s) : Calm a (runAwait i s) := by
  unfold runAwait
  repeat' first
    | with_reducible assumption
    | with_reducible apply failWith_cl
    | with_reducible apply deliverEvent_cl
    | with_reducible apply setItem_cl
    | (fail_if_no_progress with_reducible refine Calm.upd ?_ (by with_unfolding_all rfl))
    | split

theorem wallCorrection_cl {a s : State} (t : Nat) (hs : Calm a s) : Calm a (wallCorrection t s) := by
  unfold wallCorrection
  repeat' first
    | with_reducible assumption
    | (intro y; refine (fun (k : Calm a y) => ?_) ?_; (on_goal 1 => clear_value y); on_goal 2 => subst y)
    | (intro y; refine (fun (k : Calm a y.1) => ?_) ?_; (on_goal 1 => clear_value y); on_goal 2 => subst y)
    | (intro y; subst y)
    | lift_lets
    | (fail_if_no_progress with_reducible refine Calm.upd ?_ (by with_unfolding_all rfl))
    | split

theorem runSetTime_cl {a s : State} (i : Item) (hs : Calm a s) : Calm a (runSetTime i s) := by
  unfold runSetTime
  repeat' first
    | with_reducible assumption
    | (intro y; refine (fun (k : Calm a y) => ?_) ?_; (on_goal 1 => clear_value y); on_goal 2 => subst y)
    | (intro y; refine (fun (k : Calm a y.1) => ?_) ?_; (on_goal 1 => clear_value y); on_goal 2 => subst y)
    | (intro y; subst y)
    | lift_lets
    | with_reducible apply succeed_cl
    | with_reducible apply wallCorrection_cl
    | (fail_if_no_progress with_reducible refine Calm.upd ?_ (by with_unfolding_all rfl))
    | split

theorem runPowerHint_cl {a s : State} (i : Item) (hs : Calm a s) : Calm a (runPowerHint i s) := by
  unfold runPowerHint
  repeat' first
    | with_reducible assumption
    | (intro y; refine (fun (k : Calm a y) => ?_) ?_; (on_goal 1 => clear_value y); on_goal 2 => subst y)
    | (intro y; refine (fun (k : Calm a y.1) => ?_) ?_; (on_goal 1 => clear_value y); on_goal 2 => subst y)
    | (intro y; subst y)
    | lift_lets
    | with_reducible apply closeStripes_cl
    | with_reducible apply setItem_cl
    | with_reducible apply succeed_cl
    | (fail_if_no_progress with_reducible refine Calm.upd ?_ (by simp only [inner] <;> rfl))
    | split

theorem runCreatePair_cl {a s : State} (i : Item) (hs : Calm a s) : Calm a (runCreatePair i s) := by
  unfold runCreatePair
  repeat' first
    | with_reducible assumption
    | with_reducible apply setItem_cl
    | with_reducible apply failWith_cl
    | with_reducible apply succeed_cl
    | (fail_if_no_progress with_reducible refine Calm.upd ?_ (by with_unfolding_all rfl))
    | split

theorem abortFetched_cl {a s : State} (f : Fetched) (freezes : Bool) (hs : Calm a s) : Calm a (abortFetched f freezes s) := by
  unfold abortFetched
  repeat' first
    | with_reducible assumption
    | (intro y; refine (fun (k : Calm a y) => ?_) ?_; (on_goal 1 => clear_value y); on_goal 2 => subst y)
    | (intro y; refine (fun (k : Calm a y.1) => ?_) ?_; (on_goal 1 => clear_value y); on_goal 2 => subst y)
    | (intro y; subst y)
    | lift_lets
    | with_reducible apply complete_cl
    | (fail_if_no_progress with_reducible refine Calm.upd ?_ (by with_unfolding_all rfl))
    | split

theorem abortItem_cl {a s : State} (i : Item) (freezes : Bool) (hs : Calm a s) : Calm a (abortItem i freezes s) := by
  unfold abortItem
  repeat' first
    | with_reducible assumption
    | (intro y; refine (fun (k : Calm a y) => ?_) ?_; (on_goal 1 => clear_value y); on_goal 2 => subst y)
    | (intro y; refine (fun (k : Calm a y.1) => ?_) ?_; (on_goal 1 => clear_value y); on_goal 2 => subst y)
    | (intro y; subst y)
    | lift_lets
    | with_reducible apply undefineBuffer_cl
    | with_reducible apply complete_cl
    | with_reducible apply removeItem_cl
    | (fail_if_no_progress with_reducible refine Calm.upd ?_ (by with_unfolding_all rfl))
    | split

theorem abortCommands_cl {a s : State} (p : Nat → Bool) (except : Nat) (freezes : Nat → Bool) (hs : Calm a s) : Calm a (abortCommands p except freezes s) := by
  unfold abortCommands
  repeat' first
    | with_reducible assumption
    | (intro y; refine (fun (k : Calm a y) => ?_) ?_; (on_goal 1 => clear_value y); on_goal 2 => subst y)
    | (intro y; refine (fun (k : Calm a y.1) => ?_) ?_; (on_goal 1 => clear_value y); on_goal 2 => subst y)
    | (intro y; subst y)
    | lift_lets
    | with_reducible apply abortItem_cl
    | with_reducible apply abortFetched_cl
    | with_reducible refine Calm.foldl ?_ (fun _ _ _ => ?_)
    | (fail_if_no_progress with_reducible refine Calm.upd ?_ (by with_unfolding_all rfl))
    | split

theorem deletePair_cl {a s : State} (q : Nat) (hs : Calm a s) : Calm a (deletePair q s) := by
  unfold deletePair
  repeat' first
    | with_reducible assumption
    | with_reducible apply dropPair_cl
    | (fail_if_no_progress with_reducible refine Calm.upd ?_ (by with_unfolding_all rfl))
    | split

theorem endDeletePair_cl {a s : State} (i : Item) (hs : Calm a s) : Calm a (endDeletePair i s) := by
  unfold endDeletePair
  repeat' first
    | with_reducible assumption
    | (intro y; refine (fun (k : Calm a y) => ?_) ?_; (on_goal 1 => clear_value y); on_goal 2 => subst y)
    | (intro y; refine (fun (k : Calm a y.1) => ?_) ?_; (on_goal 1 => clear_value y); on_goal 2 => subst y)
    | (intro y; subst y)
    | lift_lets
    | with_reducible apply succeed_cl
    | with_reducible apply deletePair_cl
    | (fail_if_no_progress with_reducible refine Calm.upd ?_ (by with_unfolding_all rfl))
    | split

theorem runDeletePair_cl {a s : State} (i : Item) (hs : Calm a s) : Calm a (runDeletePair i s) := by
  unfold runDeletePair
  repeat' first
    | with_reducible assumption
    | (intro y; refine (fun (k : Calm a y) => ?_) ?_; (on_goal 1 => clear_value y); on_goal 2 => subst y)
    | (intro y; refine (fun (k : Calm a y.1) => ?_) ?_; (on_goal 1 => clear_value y); on_goal 2 => subst y)
    | (intro y; subst y)
    | lift_lets
    | with_reducible apply setItem_cl
    | with_reducible apply endDeletePair_cl
    | with_reducible apply modPair_cl
    | with_reducible apply abortCommands_cl
    | (fail_if_no_progress with_reducible refine Calm.upd ?_ (by with_unfolding_all rfl))
    | split

theorem resumePair_cl {a s : State} (q : Nat) (skip : Bool) (hs : Calm a s) : Calm a (resumePair q skip s) := by
  unfold resumePair
  repeat' first
    | with_reducible assumption
    | with_reducible apply modPair_cl
    | (fail_if_no_progress with_reducible refine Calm.upd ?_ (by with_unfolding_all rfl))
    | split

theorem runResumeQueue_cl {a s : State} (i : Item) (hs : Calm a s) : Calm a (runResumeQueue i s) := by
  unfold runResumeQueue
  repeat' first
    | with_reducible assumption
    | (intro y; refine (fun (k : Calm a y) => ?_) ?_; (on_goal 1 => clear_value y); on_goal 2 => subst y)
    | (intro y; refine (fun (k : Calm a y.1) => ?_) ?_; (on_goal 1 => clear_value y); on_goal 2 => subst y)
    | (intro y; subst y)
    | lift_lets
    | with_reducible apply succeed_cl
    | with_reducible apply resumePair_cl
    | with_reducible apply failWith_cl
    | (fail_if_no_progress with_reducible refine Calm.upd ?_ (by with_unfolding_all rfl))
    | split

theorem runCancel_cl {a s : State} (i : Item) (hs : Calm a s) : Calm a (runCancel i s) := by
  unfold runCancel
  repeat' first
    | with_reducible assumption
    | (intro y; refine (fun (k : Calm a y) => ?_) ?_; (on_goal 1 => clear_value y); on_goal 2 => subst y)
    | (intro y; refine (fun (k : Calm a y.1) => ?_) ?_; (on_goal 1 => clear_value y); on_goal 2 => subst y)
    | (intro y; subst y)
    | lift_lets
    | with_reducible apply setItem_cl
    | with_reducible apply succeed_cl
    | with_reducible apply abortItem_cl
    | with_reducible apply abortFetched_cl
    | (fail_if_no_progress with_reducible refine Calm.upd ?_ (by with_unfolding_all rfl))
    | split

theorem endCancel_cl {a s : State} (i : Item) (hs : Calm a s) : Calm a (endCancel i s) := by
  unfold endCancel
  repeat' first
    | with_reducible assumption
    | with_reducible apply succeed_cl
    | (fail_if_no_progress with_reducible refine Calm.upd ?_ (by with_unfolding_all rfl))
    | split

theorem endRestart_cl {a s : State} (i : Item) (hs : Calm a s) : Calm a (endRestart i s) := by
  unfold endRestart
  repeat' first
    | with_reducible assumption
    | (intro y; refine (fun (k : Calm a y) => ?_) ?_; (on_goal 1 => clear_value y); on_goal 2 => subst y)
    | (intro y; refine (fun (k : Calm a y.1) => ?_) ?_; (on_goal 1 => clear_value y); on_goal 2 => subst y)
    | (intro y; subst y)
    | lift_lets
    | with_reducible apply succeed_cl
    | with_reducible apply modPair_cl
    | (fail_if_no_progress with_reducible refine Calm.upd ?_ (by with_unfolding_all rfl))
    | split

theorem runRestart_cl {a s : State} (i : Item) (hs : Calm a s) : Calm a (runRestart i s) := by
  unfold runRestart
  repeat' first
    | with_reducible assumption
    | (intro y; refine (fun (k : Calm a y) => ?_) ?_; (on_goal 1 => clear_value y); on_goal 2 => subst y)
    | (intro y; refine (fun (k : Calm a y.1) => ?_) ?_; (on_goal 1 => clear_value y); on_goal 2 => subst y)
    | (intro y; subst y)
    | lift_lets
    | with_reducible apply succeed_cl
    | with_reducible apply modPair_cl
    | with_reducible apply abortCommands_cl
    | with_reducible apply endRestart_cl
    | with_reducible apply setItem_cl
    | (fail_if_no_progress with_reducible refine Calm.upd ?_ (by with_unfolding_all rfl))
    | split

theorem beginPs4_cl {a s : State} (hs : Calm a s) : Calm a (beginPs4 s) := by
  unfold beginPs4
  repeat' first
    | with_reducible assumption
    | with_reducible apply closeStripes_cl
    | (fail_if_no_progress with_reducible refine Calm.upd ?_ (by with_unfolding_all rfl))
    | split

theorem enterD3_cl {a s : State} (hs : Calm a s) : Calm a (enterD3 s) := by
  unfold enterD3
  repeat' first
    | with_reducible assumption
    | with_reducible apply beginPs4_cl
    | (fail_if_no_progress with_reducible refine Calm.upd ?_ (by with_unfolding_all rfl))
    | split

theorem endClear_cl {a s : State} (hs : Calm a s) : Calm a (endClear s) := by
  unfold endClear
  repeat' first
    | with_reducible assumption
    | (fail_if_no_progress with_reducible refine Calm.upd ?_ (by with_unfolding_all rfl))
    | split

theorem settleD3_cl {a s : State} (hs : Calm a s) : Calm a (settleD3 s) := by
  unfold settleD3
  repeat' first
    | with_reducible assumption
    | with_reducible apply enterD3_cl
    | (fail_if_no_progress with_reducible refine Calm.upd ?_ (by with_unfolding_all rfl))
    | split

theorem movePendingRegion_cl {a s : State} (id by_ to_ : Nat) (hs : Calm a s) : Calm a (movePendingRegion id by_ to_ s) := by
  unfold movePendingRegion
  repeat' first
    | with_reducible assumption
    | (intro y; refine (fun (k : Calm a y) => ?_) ?_; (on_goal 1 => clear_value y); on_goal 2 => subst y)
    | (intro y; refine (fun (k : Calm a y.1) => ?_) ?_; (on_goal 1 => clear_value y); on_goal 2 => subst y)
    | (intro y; subst y)
    | lift_lets
    | (fail_if_no_progress with_reducible refine Calm.upd ?_ (by with_unfolding_all rfl))
    | split

theorem moveRegions_cl {a s : State} (l : List (Nat × Nat)) (hs : Calm a s) : Calm a (moveRegions l s) := by
  unfold moveRegions
  repeat' first
    | with_reducible assumption
    | (intro y; refine (fun (k : Calm a y) => ?_) ?_; (on_goal 1 => clear_value y); on_goal 2 => subst y)
    | (intro y; refine (fun (k : Calm a y.1) => ?_) ?_; (on_goal 1 => clear_value y); on_goal 2 => subst y)
    | (intro y; subst y)
    | lift_lets
    | with_reducible apply movePendingRegion_cl
    | with_reducible refine Calm.foldl ?_ (fun _ _ _ => ?_)
    | (fail_if_no_progress with_reducible refine Calm.upd ?_ (by with_unfolding_all rfl))
    | split

theorem runChange_cl {a s : State} (i : Item) (hs : Calm a s) : Calm a (runChange i s) := by
  unfold runChange
  repeat' first
    | with_reducible assumption
    | (intro y; refine (fun (k : Calm a y) => ?_) ?_; (on_goal 1 => clear_value y); on_goal 2 => subst y)
    | (intro y; refine (fun (k : Calm a y.1) => ?_) ?_; (on_goal 1 => clear_value y); on_goal 2 => subst y)
    | (intro y; subst y)
    | lift_lets
    | with_reducible apply setItem_cl
    | with_reducible apply addRecs_cl
    | with_reducible apply moveRegions_cl
    | with_reducible apply settle_cl
    | (fail_if_no_progress with_reducible refine Calm.upd ?_ (by with_unfolding_all rfl))
    | split

theorem runSanitize_cl {a s : State} (i : Item) (hs : Calm a s) : Calm a (runSanitize i s) := by
  unfold runSanitize
  repeat' first
    | with_reducible assumption
    | (intro y; refine (fun (k : Calm a y) => ?_) ?_; (on_goal 1 => clear_value y); on_goal 2 => subst y)
    | (intro y; refine (fun (k : Calm a y.1) => ?_) ?_; (on_goal 1 => clear_value y); on_goal 2 => subst y)
    | (intro y; subst y)
    | lift_lets
    | with_reducible apply cancelOps_cl
    | with_reducible apply createOp_cl
    | with_reducible apply dropMark_cl
    | with_reducible apply openMedia_cl
    | with_reducible apply setItem_cl
    | (fail_if_no_progress with_reducible refine Calm.upd ?_ (by with_unfolding_all rfl))
    | split

theorem runTest_cl {a s : State} (typ target : Nat) (i : Item) (hs : Calm a s) : Calm a (runTest typ target i s) := by
  unfold runTest
  repeat' first
    | with_reducible assumption
    | (intro y; refine (fun (k : Calm a y) => ?_) ?_; (on_goal 1 => clear_value y); on_goal 2 => subst y)
    | (intro y; refine (fun (k : Calm a y.1) => ?_) ?_; (on_goal 1 => clear_value y); on_goal 2 => subst y)
    | (intro y; subst y)
    | lift_lets
    | with_reducible apply failWith_cl
    | with_reducible apply createOp_cl
    | with_reducible apply testWork_cl
    | with_reducible apply succeed_cl
    | (fail_if_no_progress with_reducible refine Calm.upd ?_ (by with_unfolding_all rfl))
    | split

theorem runSelfTest_cl {a s : State} (i : Item) (hs : Calm a s) : Calm a (runSelfTest i s) := by
  unfold runSelfTest
  repeat' first
    | with_reducible assumption
    | with_reducible apply runTest_cl
    | (fail_if_no_progress with_reducible refine Calm.upd ?_ (by with_unfolding_all rfl))
    | split

theorem runCalibrate_cl {a s : State} (i : Item) (hs : Calm a s) : Calm a (runCalibrate i s) := by
  unfold runCalibrate
  repeat' first
    | with_reducible assumption
    | with_reducible apply runTest_cl
    | (fail_if_no_progress with_reducible refine Calm.upd ?_ (by with_unfolding_all rfl))
    | split

theorem endControl_cl {a s : State} (h state : Nat) (hs : Calm a s) : Calm a (endControl h state s) := by
  unfold endControl
  repeat' first
    | with_reducible assumption
    | with_reducible apply succeed_cl
    | (fail_if_no_progress with_reducible refine Calm.upd ?_ (by with_unfolding_all rfl))
    | split

theorem takeWanted_cl {a s : State} (h typ w : Nat) (hs : Calm a s) : Calm a (takeWanted h typ s w) := by
  unfold takeWanted
  extract_lets s1 s2
  have h1 : Calm a s1 := by
    show Calm a (if _ then _ else _)
    split
    · exact hs
    · exact dropTests_cl _ hs
  clear_value s1
  have h2 : Calm a s2 := by
    refine endControl_cl _ _ ?_
    split
    · exact endOp_cl _ _ _ _ h1
    · exact startQueued_cl _ (modOp_cl _ _ h1)
    · exact actUpdate_cl (modOp_cl _ _ h1)
  split
  · exact rebuildNext_cl h2
  · exact testWork_cl h2

theorem reachWanted_cl {a s : State} (h : Nat) (hs : Calm a s) : Calm a (reachWanted h s) := by
  unfold reachWanted
  repeat' first
    | with_reducible assumption
    | with_reducible apply takeWanted_cl
    | with_reducible apply modOp_cl
    | with_reducible refine Calm.foldl ?_ (fun _ _ _ => ?_)
    | (fail_if_no_progress with_reducible refine Calm.upd ?_ (by with_unfolding_all rfl))
    | split

theorem runControl_cl {a s : State} (i : Item) (hs : Calm a s) : Calm a (runControl i s) := by
  unfold runControl
  repeat' first
    | with_reducible assumption
    | (intro y; refine (fun (k : Calm a y) => ?_) ?_; (on_goal 1 => clear_value y); on_goal 2 => subst y)
    | (intro y; refine (fun (k : Calm a y.1) => ?_) ?_; (on_goal 1 => clear_value y); on_goal 2 => subst y)
    | (intro y; subst y)
    | lift_lets
    | with_reducible apply failWith_cl
    | with_reducible apply setItem_cl
    | with_reducible apply modOp_cl
    | with_reducible apply holdTests_cl
    | with_reducible apply reachWanted_cl
    | (fail_if_no_progress with_reducible refine Calm.upd ?_ (by with_unfolding_all rfl))
    | split

theorem runEpochCommit_cl {a s : State} (i : Item) (hs : Calm a s) : Calm a (runEpochCommit i s) := by
  unfold runEpochCommit
  repeat' first
    | with_reducible assumption
    | with_reducible apply failWith_cl
    | with_reducible apply attemptPrepare_cl
    | with_reducible apply setItem_cl
    | (fail_if_no_progress with_reducible refine Calm.upd ?_ (by with_unfolding_all rfl))
    | split

theorem runEpochResolve_cl {a s : State} (i : Item) (hs : Calm a s) : Calm a (runEpochResolve i s) := by
  unfold runEpochResolve
  repeat' first
    | with_reducible assumption
    | (intro y; refine (fun (k : Calm a y) => ?_) ?_; (on_goal 1 => clear_value y); on_goal 2 => subst y)
    | (intro y; refine (fun (k : Calm a y.1) => ?_) ?_; (on_goal 1 => clear_value y); on_goal 2 => subst y)
    | (intro y; subst y)
    | lift_lets
    | with_reducible apply failWith_cl
    | with_reducible apply setItem_cl
    | with_reducible apply flagEpoch_cl
    | with_reducible apply commitEpoch_cl
    | with_reducible apply rollBack_cl
    | (fail_if_no_progress with_reducible refine Calm.upd ?_ (by with_unfolding_all rfl))
    | split

theorem taskAdmitted_cl {a s : State} (i : Item) (hs : Calm a s) : Calm a (taskAdmitted i s) := by
  unfold taskAdmitted
  repeat' first
    | with_reducible assumption
    | (intro y; refine (fun (k : Calm a y) => ?_) ?_; (on_goal 1 => clear_value y); on_goal 2 => subst y)
    | (intro y; refine (fun (k : Calm a y.1) => ?_) ?_; (on_goal 1 => clear_value y); on_goal 2 => subst y)
    | (intro y; subst y)
    | lift_lets
    | (fail_if_no_progress with_reducible refine Calm.upd ?_ (by with_unfolding_all rfl))
    | split

theorem startWrite_cl {a s : State} (i : Item) (hs : Calm a s) : Calm a (startWrite i s) := by
  unfold startWrite
  repeat' first
    | with_reducible assumption
    | (intro y; refine (fun (k : Calm a y) => ?_) ?_; (on_goal 1 => clear_value y); on_goal 2 => subst y)
    | (intro y; refine (fun (k : Calm a y.1) => ?_) ?_; (on_goal 1 => clear_value y); on_goal 2 => subst y)
    | (intro y; subst y)
    | lift_lets
    | with_reducible apply setItem_cl
    | with_reducible apply takeData_cl
    | (fail_if_no_progress with_reducible refine Calm.upd ?_ (by with_unfolding_all rfl))
    | split

theorem startDownload_cl {a s : State} (i : Item) (hs : Calm a s) : Calm a (startDownload i s) := by
  unfold startDownload
  repeat' first
    | with_reducible assumption
    | with_reducible apply failWith_cl
    | with_reducible apply finish_cl
    | with_reducible apply setItem_cl
    | with_reducible apply startFirmware_cl
    | (fail_if_no_progress with_reducible refine Calm.upd ?_ (by with_unfolding_all rfl))
    | split

theorem begin_cl {a s : State} (i : Item) (hs : Calm a s) : Calm a (begin i s) := by
  unfold begin
  repeat' first
    | with_reducible assumption
    | (intro y; refine (fun (k : Calm a y) => ?_) ?_; (on_goal 1 => clear_value y); on_goal 2 => subst y)
    | (intro y; refine (fun (k : Calm a y.1) => ?_) ?_; (on_goal 1 => clear_value y); on_goal 2 => subst y)
    | (intro y; subst y)
    | lift_lets
    | with_reducible apply succeed_cl
    | with_reducible apply settle_cl
    | with_reducible apply failData_cl
    | with_reducible apply startWrite_cl
    | with_reducible apply startRead_cl
    | with_reducible apply runFlush_cl
    | with_reducible apply runRelease_cl
    | with_reducible apply runCreatePair_cl
    | with_reducible apply runDeletePair_cl
    | with_reducible apply runResumeQueue_cl
    | with_reducible apply runCancel_cl
    | with_reducible apply runRestart_cl
    | with_reducible apply runAwait_cl
    | with_reducible apply runIdentify_cl
    | with_reducible apply runGetLog_cl
    | with_reducible apply runSetTime_cl
    | with_reducible apply runPowerHint_cl
    | with_reducible apply runChange_cl
    | with_reducible apply runSanitize_cl
    | with_reducible apply runSelfTest_cl
    | with_reducible apply runCalibrate_cl
    | with_reducible apply runControl_cl
    | with_reducible apply startDownload_cl
    | with_reducible apply startFirmware_cl
    | with_reducible apply runAttest_cl
    | with_reducible apply runEpochCommit_cl
    | with_reducible apply runEpochResolve_cl
    | with_reducible apply runCommit_cl
    | (fail_if_no_progress with_reducible refine Calm.upd ?_ (by with_unfolding_all rfl))
    | split

theorem enterLock_cl {a s : State} (i : Item) (hs : Calm a s) : Calm a (enterLock i s) := by
  unfold enterLock
  repeat' first
    | with_reducible assumption
    | with_reducible apply begin_cl
    | (fail_if_no_progress with_reducible refine Calm.upd ?_ (by with_unfolding_all rfl))
    | split

theorem bumpEpoch_cl {a s : State} (op : Nat) (hs : Calm a s) : Calm a (bumpEpoch op s) := by
  unfold bumpEpoch
  repeat' first
    | with_reducible assumption
    | (fail_if_no_progress with_reducible refine Calm.upd ?_ (by with_unfolding_all rfl))
    | split

theorem dropCached_cl {a s : State} (e : Entry) (hs : Calm a s) : Calm a (dropCached e s) := by
  unfold dropCached
  repeat' first
    | with_reducible assumption
    | (intro y; refine (fun (k : Calm a y) => ?_) ?_; (on_goal 1 => clear_value y); on_goal 2 => subst y)
    | (intro y; refine (fun (k : Calm a y.1) => ?_) ?_; (on_goal 1 => clear_value y); on_goal 2 => subst y)
    | (intro y; subst y)
    | lift_lets
    | (fail_if_no_progress with_reducible refine Calm.upd ?_ (by with_unfolding_all rfl))
    | split

theorem ruledEffects_cl {a s : State} (i : Item) (hs : Calm a s) : Calm a (ruledEffects i s) := by
  unfold ruledEffects
  repeat' first
    | with_reducible assumption
    | (intro y; refine (fun (k : Calm a y) => ?_) ?_; (on_goal 1 => clear_value y); on_goal 2 => subst y)
    | (intro y; refine (fun (k : Calm a y.1) => ?_) ?_; (on_goal 1 => clear_value y); on_goal 2 => subst y)
    | (intro y; subst y)
    | lift_lets
    | with_reducible apply cancelOps_cl
    | with_reducible apply touchEpoch_cl
    | with_reducible apply dropCached_cl
    | (fail_if_no_progress with_reducible refine Calm.upd ?_ (by with_unfolding_all rfl))
    | split

theorem admitted_cl {a s : State} (i : Item) (hs : Calm a s) : Calm a (admitted i s) := by
  unfold admitted
  repeat' first
    | with_reducible assumption
    | (intro y; refine (fun (k : Calm a y) => ?_) ?_; (on_goal 1 => clear_value y); on_goal 2 => subst y)
    | (intro y; refine (fun (k : Calm a y.1) => ?_) ?_; (on_goal 1 => clear_value y); on_goal 2 => subst y)
    | (intro y; subst y)
    | lift_lets
    | with_reducible apply setItem_cl
    | with_reducible apply taskAdmitted_cl
    | with_reducible apply ruledEffects_cl
    | (fail_if_no_progress with_reducible refine Calm.upd ?_ (by with_unfolding_all rfl))
    | split

theorem admitItem_cl {a s : State} (i : Item) (hs : Calm a s) : Calm a (admitItem i s) := by
  unfold admitItem
  repeat' first
    | with_reducible assumption
    | (intro y; refine (fun (k : Calm a y) => ?_) ?_; (on_goal 1 => clear_value y); on_goal 2 => subst y)
    | (intro y; refine (fun (k : Calm a y.1) => ?_) ?_; (on_goal 1 => clear_value y); on_goal 2 => subst y)
    | (intro y; subst y)
    | lift_lets
    | with_reducible apply finish_cl
    | with_reducible apply admitted_cl
    | with_reducible apply enterLock_cl
    | (fail_if_no_progress with_reducible refine Calm.upd ?_ (by with_unfolding_all rfl))
    | split

theorem takeRuling_cl {a s : State} (narrow : Bool) (op : Nat) (hs : Calm a s) : Calm a (takeRuling narrow op s) := by
  unfold takeRuling
  repeat' first
    | with_reducible assumption
    | (intro y; refine (fun (k : Calm a y) => ?_) ?_; (on_goal 1 => clear_value y); on_goal 2 => subst y)
    | (intro y; refine (fun (k : Calm a y.1) => ?_) ?_; (on_goal 1 => clear_value y); on_goal 2 => subst y)
    | (intro y; subst y)
    | lift_lets
    | with_reducible apply bumpEpoch_cl
    | with_reducible apply touch_cl
    | (fail_if_no_progress with_reducible refine Calm.upd ?_ (by with_unfolding_all rfl))
    | split

theorem enlist_cl {a s : State} (i : Item) (g : Given) (hs : Calm a s) : Calm a (enlist i g s) := by
  unfold enlist
  repeat' first
    | with_reducible assumption
    | (intro y; refine (fun (k : Calm a y) => ?_) ?_; (on_goal 1 => clear_value y); on_goal 2 => subst y)
    | (intro y; refine (fun (k : Calm a y.1) => ?_) ?_; (on_goal 1 => clear_value y); on_goal 2 => subst y)
    | (intro y; subst y)
    | lift_lets
    | (fail_if_no_progress with_reducible refine Calm.upd ?_ (by with_unfolding_all rfl))
    | split

theorem rule_cl {a s : State} (narrow : Bool) (q slot : Nat) (entry : Entry) (g : Given) (hs : Calm a s) : Calm a (rule narrow q slot entry g s) := by
  unfold rule
  repeat' first
    | with_reducible assumption
    | (intro y; refine (fun (k : Calm a y) => ?_) ?_; (on_goal 1 => clear_value y); on_goal 2 => subst y)
    | (intro y; refine (fun (k : Calm a y.1) => ?_) ?_; (on_goal 1 => clear_value y); on_goal 2 => subst y)
    | (intro y; subst y)
    | lift_lets
    | with_reducible apply takeRuling_cl
    | with_reducible apply complete_cl
    | with_reducible apply enlist_cl
    | with_reducible apply taskAdmitted_cl
    | with_reducible apply admitItem_cl
    | (fail_if_no_progress with_reducible refine Calm.upd ?_ (by with_unfolding_all rfl))
    | split

theorem retryTurn_cl {a s : State} (r : Nat) (hs : Calm a s) : Calm a (retryTurn r s) := by
  unfold retryTurn
  repeat' first
    | with_reducible assumption
    | with_reducible apply runRelease_cl
    | with_reducible apply runCreatePair_cl
    | with_reducible apply runDeletePair_cl
    | with_reducible apply endCancel_cl
    | with_reducible apply endRestart_cl
    | with_reducible apply runChange_cl
    | with_reducible apply startFirmware_cl
    | with_reducible apply runEpochResolve_cl
    | with_reducible apply runCommit_cl
    | (fail_if_no_progress with_reducible refine Calm.upd ?_ (by with_unfolding_all rfl))
    | split

theorem progress_cl {a s : State} (hs : Calm a s) : Calm a (progress s) := by
  unfold progress
  repeat' first
    | with_reducible assumption
    | with_reducible apply retryTurn_cl
    | with_reducible refine Calm.foldl ?_ (fun _ _ _ => ?_)
    | (fail_if_no_progress with_reducible refine Calm.upd ?_ (by with_unfolding_all rfl))
    | split

theorem pruneVersions_cl {a s : State} (hs : Calm a s) : Calm a (pruneVersions s) := by
  unfold pruneVersions
  repeat' first
    | with_reducible assumption
    | (fail_if_no_progress with_reducible refine Calm.upd ?_ (by with_unfolding_all rfl))
    | split

theorem ltrUpdate_cl {a s : State} (hs : Calm a s) : Calm a (ltrUpdate s) := by
  unfold ltrUpdate
  repeat' first
    | with_reducible assumption
    | (intro y; refine (fun (k : Calm a y) => ?_) ?_; (on_goal 1 => clear_value y); on_goal 2 => subst y)
    | (intro y; refine (fun (k : Calm a y.1) => ?_) ?_; (on_goal 1 => clear_value y); on_goal 2 => subst y)
    | (intro y; subst y)
    | lift_lets
    | with_reducible apply emit_cl
    | (fail_if_no_progress with_reducible refine Calm.upd ?_ (by with_unfolding_all rfl))
    | split

theorem endDrain_cl {a s : State} (hs : Calm a s) : Calm a (endDrain s) := by
  unfold endDrain
  repeat' first
    | with_reducible assumption
    | (fail_if_no_progress with_reducible refine Calm.upd ?_ (by with_unfolding_all rfl))
    | split

theorem settleUp_cl {a s : State} (hs : Calm a s) : Calm a (settleUp s) := by
  unfold settleUp
  repeat' first
    | with_reducible assumption
    | with_reducible apply ltrUpdate_cl
    | with_reducible apply actUpdate_cl
    | with_reducible apply endDrain_cl
    | with_reducible apply settleD3_cl
    | with_reducible apply endClear_cl
    | with_reducible apply poolUpdate_cl
    | with_reducible apply pruneVersions_cl
    | with_reducible apply progress_cl
    | with_reducible apply completePersistent_cl
    | (fail_if_no_progress with_reducible refine Calm.upd ?_ (by with_unfolding_all rfl))
    | split

theorem stall_cl {a s : State} (f : Fetched) (hs : Calm a s) : Calm a (stall f s) := by
  unfold stall
  repeat' first
    | with_reducible assumption
    | (fail_if_no_progress with_reducible refine Calm.upd ?_ (by with_unfolding_all rfl))
    | split

end Sys2Proof.Laws
end

