-- ==== Sys2Proof/Laws/Mem.lean ====
section
/-! SUPPORT. Byte memories: every operation keeps the canonical form, a read after a write gives the byte written, and a write leaves every
other byte alone. -/

namespace Sys2Proof

/-- The canonical form in the library's terms: addresses strictly rising, no entry equal to what an unlisted address reads as. -/
theorem Mem.wfFrom_iff (d : Byte) (lo : Nat) (m : Mem) :
    Mem.wfFrom d lo m = true ↔ (∀ c ∈ m, lo ≤ c.1) ∧ m.Pairwise (fun x y => x.1 < y.1) ∧ ∀ c ∈ m, c.2 ≠ d := by
  induction m generalizing lo with
  | nil => simp [Mem.wfFrom]
  | cons c m ih =>
    obtain ⟨k, v⟩ := c
    simp only [Mem.wfFrom, Bool.and_eq_true, decide_eq_true_eq, ih, List.pairwise_cons, List.forall_mem_cons]
    constructor
    · rintro ⟨⟨h1, h2⟩, h3, h4, h5⟩
      exact ⟨⟨h1, fun c hc => by have := h3 c hc; omega⟩, ⟨fun c hc => h3 c hc, h4⟩, h2, h5⟩
    · rintro ⟨⟨h1, _⟩, ⟨h3, h4⟩, h2, h5⟩
      exact ⟨⟨h1, h2⟩, fun c hc => h3 c hc, h4, h5⟩

theorem Mem.wf_iff (d : Byte) (m : Mem) : Mem.wf d m = true ↔ m.Pairwise (fun x y => x.1 < y.1) ∧ ∀ c ∈ m, c.2 ≠ d := by
  simp [Mem.wf, Mem.wfFrom_iff]

@[simp] theorem Mem.wf_nil (d : Byte) : Mem.wf d [] = true := rfl

theorem Mem.mem_set {d : Byte} {m : Mem} {a : Nat} {v : Byte} {c : Host.Cell} (h : c ∈ Mem.set d m a v) : c ∈ m ∨ (c = (a, v) ∧ v ≠ d) := by
  induction m with
  | nil => simp only [Mem.set] at h; split at h <;> simp_all
  | cons x m ih =>
    obtain ⟨k, w⟩ := x
    simp only [Mem.set] at h
    repeat' split at h
    all_goals simp only [List.mem_cons] at h ⊢
    all_goals tauto

/-- Writing a byte keeps the canonical form. -/
theorem Mem.wf_set (d : Byte) (m : Mem) (a : Nat) (v : Byte) (h : Mem.wf d m = true) : Mem.wf d (Mem.set d m a v) = true := by
  rw [Mem.wf_iff] at h ⊢
  refine ⟨?_, fun c hc => ?_⟩
  · obtain ⟨p, -⟩ := h
    induction m with
    | nil => simp only [Mem.set]; split <;> simp
    | cons x m ih =>
      obtain ⟨k, w⟩ := x
      rw [List.pairwise_cons] at p
      have q := ih p.2
      simp only [Mem.set]
      split
      · split
        · exact List.pairwise_cons.mpr p
        · refine List.pairwise_cons.mpr ⟨fun c hc => ?_, List.pairwise_cons.mpr p⟩
          rcases List.mem_cons.mp hc with rfl | hc
          · assumption
          · exact Nat.lt_trans ‹_› (p.1 c hc)
      · split
        · split
          · exact p.2
          · exact List.pairwise_cons.mpr ⟨fun c hc => by subst_vars; exact p.1 c hc, p.2⟩
        · refine List.pairwise_cons.mpr ⟨fun c hc => ?_, q⟩
          rcases Mem.mem_set hc with hc | ⟨rfl, -⟩
          · exact p.1 c hc
          · simp only; omega
  · rcases Mem.mem_set hc with hc | ⟨rfl, hv⟩
    · exact h.2 c hc
    · exact hv

/-- An address below every listed one reads as `d`. -/
theorem Mem.get_of_lt (d : Byte) (m : Mem) (a : Nat) (h : ∀ c ∈ m, a < c.1) : Mem.get d m a = d := by
  induction m with
  | nil => rfl
  | cons x m ih =>
    obtain ⟨k, w⟩ := x
    have : a < k := h (k, w) (by simp)
    simp only [Mem.get]
    rw [if_neg (by omega)]
    exact ih (fun c hc => h c (List.mem_cons_of_mem _ hc))

/-- A read after a write: the byte written at its address, any other byte as before. -/
theorem Mem.get_set (d : Byte) (m : Mem) (a b : Nat) (v : Byte) (h : Mem.wf d m = true) :
    Mem.get d (Mem.set d m a v) b = if a = b then v else Mem.get d m b := by
  rw [Mem.wf_iff] at h
  obtain ⟨p, -⟩ := h
  induction m with
  | nil =>
    simp only [Mem.set, Mem.get]
    split <;> simp_all [Mem.get]
  | cons x m ih =>
    obtain ⟨k, w⟩ := x
    rw [List.pairwise_cons] at p
    have q := ih p.2
    simp only [Mem.set]
    split
    · split
      · by_cases e : a = b
        · subst e
          rw [if_pos rfl, Mem.get_of_lt]
          · simp_all
          · intro c hc
            rcases List.mem_cons.mp hc with rfl | hc
            · assumption
            · exact Nat.lt_trans ‹_› (p.1 c hc)
        · rw [if_neg e]
      · simp only [Mem.get]
    · split
      · subst_vars
        split
        · by_cases e : k = b
          · subst e
            rw [if_pos rfl, Mem.get_of_lt d m k (fun c hc => p.1 c hc)]
            simp_all
          · simp only [Mem.get, if_neg e]
        · simp only [Mem.get]
          split <;> rfl
      · simp only [Mem.get, q]
        by_cases e : k = b
        · subst e
          simp only [if_true]
          rw [if_neg (by omega)]
        · simp only [if_neg e]

theorem Mem.wf_foldl {α : Type} (d : Byte) (f : Mem → α → Mem) (l : List α) (m : Mem) (h : Mem.wf d m = true)
    (k : ∀ m x, Mem.wf d m = true → Mem.wf d (f m x) = true) : Mem.wf d (l.foldl f m) = true := by
  induction l generalizing m with
  | nil => exact h
  | cons x xs ih => exact ih _ (k m x h)

/-- Bytes from outside are brought into the canonical form. -/
theorem Mem.wf_norm (d : Byte) (n : Nat) (m : Mem) : Mem.wf d (Mem.norm d n m) = true :=
  Mem.wf_foldl d _ _ _ rfl (fun m x h => by split; exact Mem.wf_set _ _ _ _ h; exact h)

theorem Mem.wf_filter (d : Byte) (p : Host.Cell → Bool) (m : Mem) (h : Mem.wf d m = true) : Mem.wf d (m.filter p) = true := by
  rw [Mem.wf_iff] at h ⊢
  exact ⟨h.1.filter _, fun c hc => h.2 c (List.mem_filter.mp hc).1⟩

theorem Mem.wf_raise (d : Byte) (a : Nat) (m : Mem) (h : Mem.wf d m = true) : Mem.wf d (Mem.raise a m) = true := by
  rw [Mem.wf_iff] at h ⊢
  refine ⟨List.pairwise_map.mpr (h.1.imp (fun x => by simp only; omega)), fun c hc => ?_⟩
  obtain ⟨x, hx, rfl⟩ := List.mem_map.mp hc
  exact h.2 x hx

theorem Mem.mem_slice {a n : Nat} {m : Mem} {c : Host.Cell} (h : c ∈ Mem.slice a n m) : (c.1 + a, c.2) ∈ m := by
  induction m with
  | nil => simp [Mem.slice] at h
  | cons x m ih =>
    obtain ⟨k, v⟩ := x
    simp only [Mem.slice] at h
    split at h
    · rcases List.mem_cons.mp h with rfl | h
      · have : k - a + a = k := by omega
        simp [this]
      · exact List.mem_cons_of_mem _ (ih h)
    · exact List.mem_cons_of_mem _ (ih h)

theorem Mem.wf_slice (d : Byte) (a n : Nat) (m : Mem) (h : Mem.wf d m = true) : Mem.wf d (Mem.slice a n m) = true := by
  rw [Mem.wf_iff] at h ⊢
  refine ⟨?_, fun c hc => h.2 (c.1 + a, c.2) (Mem.mem_slice hc)⟩
  obtain ⟨p, -⟩ := h
  induction m with
  | nil => simp [Mem.slice]
  | cons x m ih =>
    obtain ⟨k, v⟩ := x
    rw [List.pairwise_cons] at p
    simp only [Mem.slice]
    split
    · refine List.pairwise_cons.mpr ⟨fun c hc => ?_, ih p.2⟩
      have := p.1 _ (Mem.mem_slice hc)
      simp only at this ⊢
      omega
    · exact ih p.2

/-- Replacing a span of bytes keeps the canonical form. -/
theorem Mem.wf_patch (d : Byte) (base m : Mem) (a n : Nat) (h : Mem.wf d base = true) (k : Mem.wf d m = true) :
    Mem.wf d (Mem.patch base m a n) = true := by
  have h1 := Mem.wf_filter d (fun c => decide (c.1 < a)) base h
  have h2 := Mem.wf_raise d a _ (Mem.wf_filter d (fun c => decide (c.1 < n)) m k)
  have h3 := Mem.wf_filter d (fun c => decide (a + n ≤ c.1)) base h
  rw [Mem.wf_iff] at h1 h2 h3 ⊢
  have lo : ∀ c ∈ Mem.raise a (m.filter (fun c => decide (c.1 < n))), a ≤ c.1 ∧ c.1 < a + n := by
    intro c hc
    obtain ⟨x, hx, rfl⟩ := List.mem_map.mp hc
    have := of_decide_eq_true (List.mem_filter.mp hx).2
    simp only
    omega
  have below : ∀ c ∈ base.filter (fun c => decide (c.1 < a)), c.1 < a := fun c hc => of_decide_eq_true (List.mem_filter.mp hc).2
  have above : ∀ c ∈ base.filter (fun c => decide (a + n ≤ c.1)), a + n ≤ c.1 := fun c hc => of_decide_eq_true (List.mem_filter.mp hc).2
  unfold Mem.patch
  refine ⟨?_, fun c hc => ?_⟩
  · rw [List.pairwise_append, List.pairwise_append]
    refine ⟨⟨h1.1, h2.1, fun x hx y hy => ?_⟩, h3.1, fun x hx y hy => ?_⟩
    · exact Nat.lt_of_lt_of_le (below x hx) (lo y hy).1
    · rcases List.mem_append.mp hx with hx | hx
      · exact Nat.lt_of_lt_of_le (below x hx) (Nat.le_trans (Nat.le_add_right _ _) (above y hy))
      · exact Nat.lt_of_lt_of_le (lo x hx).2 (above y hy)
  · rcases List.mem_append.mp hc with hc | hc
    · rcases List.mem_append.mp hc with hc | hc
      · exact h1.2 c hc
      · exact h2.2 c hc
    · exact h3.2 c hc

end Sys2Proof
end

