-- ==== Sys2Proof/Laws/Kept.lean ====
section
/-! SUPPORT. What every step keeps, as a relation between the state a step began with and a later one: soundness, the unit's data, the
permanent records of the media, and rulings that never go back while the module runs. -/

namespace Sys2Proof.Laws

open Sys2Proof Sys2Proof.Machine

/-- A state `t` that work begun in `a` may reach. -/
structure Ok (a t : State) : Prop where
  unit : t.unit = a.unit
  worn : a.rec_.worn = true → t.rec_.worn = true
  dies : ∀ d ∈ a.rec_.failedDies, d ∈ t.rec_.failedDies
  channels : ∀ c ∈ a.rec_.failedChannels, c ∈ t.rec_.failedChannels
  rulings : t.rst.phase = .run → a.rst.phase = .run ∧ a.nib.next ≤ t.nib.next
  sound : a.Sound → t.Sound

/-- Everything that `Ok` reads. -/
def core (s : State) :=
  ((s.unit, s.rec_.worn, s.rec_.failedDies, s.rec_.failedChannels, s.rst.phase, s.nib.next, s.nib.items),
   (s.flt.blotter, s.aon.tail, s.aon.queue, s.elog.list, s.aon.failed, s.pwr.ps, s.pwr.step),
   (s.nb.version, s.nb.grantedNext, s.pcie.granted, s.dbg.fails, s.lig.state),
   (s.pcie.msixTable, s.boot.bankA, s.boot.bankB, s.boot.dl))

theorem Ok.refl (a : State) : Ok a a := ⟨rfl, id, fun _ h => h, fun _ h => h, fun h => ⟨h, Nat.le_refl _⟩, id⟩

theorem Ok.trans {a b c : State} (h : Ok a b) (k : Ok b c) : Ok a c :=
  ⟨k.unit.trans h.unit, fun x => k.worn (h.worn x), fun d x => k.dies d (h.dies d x), fun d x => k.channels d (h.channels d x),
   fun x => let y := k.rulings x
            let z := h.rulings y.1
            ⟨z.1, Nat.le_trans z.2 y.2⟩,
   fun x => k.sound (h.sound x)⟩

/-- An update of fields that `Ok` does not read. -/
theorem Ok.same {a s t : State} (h : Ok a s) (e : core t = core s) : Ok a t := by
  simp only [core, Prod.mk.injEq] at e
  obtain ⟨⟨e1, e2, e3, e4, e5, e6, e7⟩, ⟨e8, e9, e10, e11, e12, e13, e14⟩, ⟨e15, e16, e17, e18, e19⟩, e20, e21, e22, e23⟩ := e
  refine ⟨e1 ▸ h.unit, e2 ▸ h.worn, e3 ▸ h.dies, e4 ▸ h.channels, by rw [e5, e6]; exact h.rulings, fun x => ?_⟩
  have k := h.sound x
  refine ⟨e8 ▸ k.blotter, e9 ▸ k.tail, e10 ▸ k.queue, e11 ▸ k.errors, e12 ▸ k.failed, ?_, e6 ▸ k.first, e13 ▸ k.power, e14 ▸ k.step,
    e15 ▸ k.version, e16 ▸ k.granted, e17 ▸ k.kinetic, e18 ▸ k.debug, e19 ▸ k.ligature, e20 ▸ k.msix, e21 ▸ k.bankA,
    e22 ▸ k.bankB, e23 ▸ k.piece⟩
  rw [e6, e7]; exact k.rulings

/-- The same for an update written out field by field. -/
theorem Ok.upd {a s : State} {rst strap aon sup lands boot pcie nb nib res map log ftl dies rec_ health flt lops lig pwr dbg elog wall out drawn
    pending} (h : Ok a s)
    (e : core ⟨s.unit, rst, strap, aon, sup, lands, boot, pcie, nb, nib, res, map, log, ftl, dies, rec_, health, flt, lops, lig, pwr, dbg, elog,
      wall, out, drawn, pending⟩ = core s) :
    Ok a ⟨s.unit, rst, strap, aon, sup, lands, boot, pcie, nb, nib, res, map, log, ftl, dies, rec_, health, flt, lops, lig, pwr, dbg, elog,
      wall, out, drawn, pending⟩ := h.same e

theorem Ok.letS {a v : State} {f : State → State} (h : Ok a v) (k : ∀ x, Ok a x → Ok a (f x)) : Ok a (let x := v; f x) := k v h

theorem Ok.letP {α : Type} {a : State} {v : State × α} {f : State × α → State} (h : Ok a v.1) (k : ∀ x, Ok a x.1 → Ok a (f x)) :
    Ok a (let x := v; f x) := k v h

theorem Ok.letV {α : Type} {a : State} {v : α} {f : α → State} (k : ∀ x, Ok a (f x)) : Ok a (let x := v; f x) := k v

theorem Ok.foldl {α : Type} {a s : State} {f : State → α → State} {l : List α} (h : Ok a s) (k : ∀ s x, Ok a s → Ok a (f s x)) :
    Ok a (l.foldl f s) := by
  induction l generalizing s with
  | nil => exact h
  | cons x xs ih => exact ih (k s x h)

/-- An update that changes no more of what `Ok` reads than soundness covers. -/
theorem Ok.sameBut {a s t : State} (h : Ok a s)
    (e : (t.unit, t.rec_.worn, t.rec_.failedDies, t.rec_.failedChannels, t.rst.phase, t.nib.next)
      = (s.unit, s.rec_.worn, s.rec_.failedDies, s.rec_.failedChannels, s.rst.phase, s.nib.next))
    (k : s.Sound → t.Sound) : Ok a t := by
  simp only [Prod.mk.injEq] at e
  obtain ⟨e1, e2, e3, e4, e5, e6⟩ := e
  exact ⟨e1 ▸ h.unit, e2 ▸ h.worn, e3 ▸ h.dies, e4 ▸ h.channels, by rw [e5, e6]; exact h.rulings, fun x => k (h.sound x)⟩

/-- The download may change as long as its piece is in canonical form. -/
theorem Ok.dl {a s t : State} (h : Ok a s) (dl : Option Download) (k : a.Sound → ∀ d, dl = some d → Mem.wf 0xFF d.piece = true)
    (e : core t = core { s with boot := { s.boot with dl := dl } }) : Ok a t := by
  refine Ok.same ?_ e
  exact ⟨h.unit, h.worn, h.dies, h.channels, h.rulings, fun x => { h.sound x with piece := k x }⟩

/-- The items may change as long as their rulings stay. -/
theorem Ok.items {a s t : State} (h : Ok a s) (items : List Item)
    (e : core t = core { s with nib := { s.nib with items := items } }) (k : ∀ i ∈ items, ∃ j ∈ s.nib.items, i.ruling = j.ruling) : Ok a t := by
  refine Ok.same ?_ e
  refine ⟨h.unit, h.worn, h.dies, h.channels, h.rulings, fun x => ?_⟩
  have z := h.sound x
  refine { z with rulings := fun i hi => ?_ }
  obtain ⟨j, hj, e⟩ := k i hi
  exact e ▸ z.rulings j hj

end Sys2Proof.Laws
end

