-- ==== Sys2Proof/Laws/KeptOps.lean ====
section
/-! SUPPORT. What every step keeps (`Ok`), for the named operations over rings, messages, the map, bands, fault levels and the block. -/

namespace Sys2Proof.Laws

open Sys2Proof Sys2Proof.Machine

theorem onlyIf_ok {a s : State} {c : Bool} {f : State → State} (h : Ok a s) (k : Ok a (f s)) : Ok a (onlyIf c f s) := by
  unfold onlyIf
  split
  · exact k
  · exact h

theorem emit_ok {a s : State} (o : Out) (hs : Ok a s) : Ok a (emit o s) := by
  unfold emit
  repeat' first
    | with_reducible assumption
    | (fail_if_no_progress with_reducible refine Ok.upd ?_ (by with_unfolding_all rfl))
    | split

theorem emits_ok {a s : State} (os : List Out) (hs : Ok a s) : Ok a (emits os s) := by
  unfold emits
  repeat' first
    | with_reducible assumption
    | (fail_if_no_progress with_reducible refine Ok.upd ?_ (by with_unfolding_all rfl))
    | split

theorem draw_ok {a s : State} (hs : Ok a s) : Ok a (draw s) := by
  unfold draw
  repeat' first
    | with_reducible assumption
    | (fail_if_no_progress with_reducible refine Ok.upd ?_ (by with_unfolding_all rfl))
    | split

theorem actUpdate_ok {a s : State} (hs : Ok a s) : Ok a (actUpdate s) := by
  unfold actUpdate
  repeat' first
    | with_reducible assumption
    | (fail_if_no_progress with_reducible refine Ok.upd ?_ (by with_unfolding_all rfl))
    | split

theorem touch_ok {a s : State} (hs : Ok a s) : Ok a (touch s) := by
  unfold touch
  repeat' first
    | with_reducible assumption
    | (fail_if_no_progress with_reducible refine Ok.upd ?_ (by with_unfolding_all rfl))
    | split

theorem setItem_ok {a s : State} (i : Item) (h : Ok a s) : Ok a (setItem i s) := by
  refine Ok.items h _ rfl (fun x hx => ?_)
  simp only [mapIf, List.mem_map] at hx
  obtain ⟨j, hj, rfl⟩ := hx
  refine ⟨j, hj, ?_⟩
  split
  · simp_all
  · rfl

theorem dropItem_ok {a s : State} (r : Nat) (h : Ok a s) : Ok a (dropItem r s) :=
  Ok.items h _ rfl (fun x hx => ⟨x, (List.mem_filter.mp hx).1, rfl⟩)

theorem modPair_ok {a s : State} (q : Nat) (f : Pair → Pair) (hs : Ok a s) : Ok a (modPair q f s) := by
  unfold modPair
  repeat' first
    | with_reducible assumption
    | (fail_if_no_progress with_reducible refine Ok.upd ?_ (by with_unfolding_all rfl))
    | split

theorem dropPair_ok {a s : State} (q : Nat) (hs : Ok a s) : Ok a (dropPair q s) := by
  unfold dropPair
  repeat' first
    | with_reducible assumption
    | (fail_if_no_progress with_reducible refine Ok.upd ?_ (by with_unfolding_all rfl))
    | split

theorem settle_ok {a s : State} (r : Nat) (hs : Ok a s) : Ok a (settle r s) := by
  unfold settle
  repeat' first
    | with_reducible assumption
    | (fail_if_no_progress with_reducible refine Ok.upd ?_ (by with_unfolding_all rfl))
    | split

theorem dropStaged_ok {a s : State} (r : Nat) (hs : Ok a s) : Ok a (dropStaged r s) := by
  unfold dropStaged
  repeat' first
    | with_reducible assumption
    | (fail_if_no_progress with_reducible refine Ok.upd ?_ (by with_unfolding_all rfl))
    | split

theorem post_ok {a s : State} (o : Out) (hs : Ok a s) : Ok a (post o s) := by
  unfold post
  repeat' first
    | with_reducible assumption
    | with_reducible apply emit_ok
    | (fail_if_no_progress with_reducible refine Ok.upd ?_ (by with_unfolding_all rfl))
    | split

theorem drainTx_ok {a s : State} (hs : Ok a s) : Ok a (drainTx s) := by
  unfold drainTx
  repeat' first
    | with_reducible assumption
    | with_reducible apply emits_ok
    | (fail_if_no_progress with_reducible refine Ok.upd ?_ (by with_unfolding_all rfl))
    | split

theorem sendMsix_ok {a s : State} (v : Nat) (hs : Ok a s) : Ok a (sendMsix v s) := by
  unfold sendMsix
  repeat' first
    | with_reducible assumption
    | with_reducible apply post_ok
    | (fail_if_no_progress with_reducible refine Ok.upd ?_ (by with_unfolding_all rfl))
    | split

theorem logError_ok {a s : State} (e : ErrEntry) (h : Ok a s) : Ok a (logError e s) :=
  ⟨h.unit, h.worn, h.dies, h.channels, h.rulings, fun x => { h.sound x with errors := by simp [logError] }⟩

theorem postCompletion_ok {a s : State} (q cid result ruling status : Nat) (hs : Ok a s) : Ok a (postCompletion q cid result ruling status s) := by
  unfold postCompletion
  repeat' first
    | with_reducible assumption
    | (intro y; refine (fun (k : Ok a y) => ?_) ?_; (on_goal 1 => clear_value y); on_goal 2 => subst y)
    | (intro y; refine (fun (k : Ok a y.1) => ?_) ?_; (on_goal 1 => clear_value y); on_goal 2 => subst y)
    | (intro y; subst y)
    | lift_lets
    | with_reducible apply post_ok
    | with_reducible apply modPair_ok
    | with_reducible apply sendMsix_ok
    | (fail_if_no_progress with_reducible refine Ok.upd ?_ (by with_unfolding_all rfl))
    | split

theorem freezeRing_ok {a s : State} (q slot : Nat) (hs : Ok a s) : Ok a (freezeRing q slot s) := by
  unfold freezeRing
  repeat' first
    | with_reducible assumption
    | with_reducible apply modPair_ok
    | (fail_if_no_progress with_reducible refine Ok.upd ?_ (by with_unfolding_all rfl))
    | split

theorem completeTask_ok {a s : State} (e : Ending) (status result : Nat) (h : Ok a s) : Ok a (completeTask e status result s) := by
  refine h.same ?_
  have k : ∀ nb : Narrow, core { s with nb := { nb with version := s.nb.version, grantedNext := s.nb.grantedNext } } = core s := fun _ => rfl
  exact k { s.nb with
    completion := completionEntry result e.ruling 0 0 (Entry.cid e.entry) true status
    task := if status = 0 ∧ !s.nb.contained then .done else .frozen
    outData := none, slots := 0, slotNo := 0, inData := [], inLen := 0 }

theorem complete_ok {a s : State} (e : Ending) (f : Fail) (result : Nat) (h : Ok a s) : Ok a (complete e f result s) := by
  unfold complete
  apply actUpdate_ok
  have k : Ok a (if f.status = 0 then s else logError (e.err f) s) := by
    split
    · exact h
    · exact logError_ok _ h
  split
  · exact completeTask_ok _ _ _ (Ok.upd k rfl)
  · apply postCompletion_ok
    split
    · exact freezeRing_ok _ _ (Ok.upd k rfl)
    · exact Ok.upd k rfl

theorem removeItem_ok {a s : State} (i : Item) (failed : Bool) (hs : Ok a s) : Ok a (removeItem i failed s) := by
  unfold removeItem
  repeat' first
    | with_reducible assumption
    | (intro y; refine (fun (k : Ok a y) => ?_) ?_; (on_goal 1 => clear_value y); on_goal 2 => subst y)
    | (intro y; refine (fun (k : Ok a y.1) => ?_) ?_; (on_goal 1 => clear_value y); on_goal 2 => subst y)
    | (intro y; subst y)
    | lift_lets
    | with_reducible apply dropItem_ok
    | with_reducible apply settle_ok
    | with_reducible apply dropStaged_ok
    | (fail_if_no_progress with_reducible refine Ok.upd ?_ (by with_unfolding_all rfl))
    | split

theorem finish_ok {a s : State} (i : Item) (f : Fail) (result : Nat) (hs : Ok a s) : Ok a (finish i f result s) := by
  unfold finish
  repeat' first
    | with_reducible assumption
    | with_reducible apply complete_ok
    | with_reducible apply removeItem_ok
    | (fail_if_no_progress with_reducible refine Ok.upd ?_ (by with_unfolding_all rfl))
    | split

theorem succeed_ok {a s : State} (i : Item) (result : Nat) (hs : Ok a s) : Ok a (succeed i result s) := by
  unfold succeed
  repeat' first
    | with_reducible assumption
    | with_reducible apply finish_ok
    | (fail_if_no_progress with_reducible refine Ok.upd ?_ (by with_unfolding_all rfl))
    | split

theorem failWith_ok {a s : State} (i : Item) (status : Nat) (hs : Ok a s) : Ok a (failWith i status s) := by
  unfold failWith
  repeat' first
    | with_reducible assumption
    | with_reducible apply finish_ok
    | (fail_if_no_progress with_reducible refine Ok.upd ?_ (by with_unfolding_all rfl))
    | split

theorem setBand_ok {a s : State} (b : Band) (hs : Ok a s) : Ok a (setBand b s) := by
  unfold setBand
  repeat' first
    | with_reducible assumption
    | (fail_if_no_progress with_reducible refine Ok.upd ?_ (by with_unfolding_all rfl))
    | split

theorem modBand_ok {a s : State} (n : Nat) (f : Band → Band) (hs : Ok a s) : Ok a (modBand n f s) := by
  unfold modBand
  repeat' first
    | with_reducible assumption
    | (fail_if_no_progress with_reducible refine Ok.upd ?_ (by with_unfolding_all rfl))
    | split

theorem resizeCache_ok {a s : State} (hs : Ok a s) : Ok a (resizeCache s) := by
  unfold resizeCache
  repeat' first
    | with_reducible assumption
    | (fail_if_no_progress with_reducible refine Ok.upd ?_ (by simp only [core] <;> rfl))
    | split

theorem modBlks_ok {a s : State} (n : Nat) (p : Blk → Bool) (f : Blk → Blk) (hs : Ok a s) : Ok a (modBlks n p f s) := by
  unfold modBlks
  repeat' first
    | with_reducible assumption
    | with_reducible apply modBand_ok
    | (fail_if_no_progress with_reducible refine Ok.upd ?_ (by with_unfolding_all rfl))
    | split

theorem enqueue_ok {a s : State} (ops : List DieOp) (hs : Ok a s) : Ok a (enqueue ops s) := by
  unfold enqueue
  repeat' first
    | with_reducible assumption
    | (intro y; refine (fun (k : Ok a y) => ?_) ?_; (on_goal 1 => clear_value y); on_goal 2 => subst y)
    | (intro y; refine (fun (k : Ok a y.1) => ?_) ?_; (on_goal 1 => clear_value y); on_goal 2 => subst y)
    | (intro y; subst y)
    | lift_lets
    | with_reducible refine Ok.foldl ?_ (fun _ _ _ => ?_)
    | (fail_if_no_progress with_reducible refine Ok.upd ?_ (by with_unfolding_all rfl))
    | split

theorem queueErase_ok {a s : State} (n cls : Nat) (dies : List Nat) (hs : Ok a s) : Ok a (queueErase n cls dies s) := by
  unfold queueErase
  repeat' first
    | with_reducible assumption
    | with_reducible apply enqueue_ok
    | with_reducible apply modBand_ok
    | (fail_if_no_progress with_reducible refine Ok.upd ?_ (by with_unfolding_all rfl))
    | split

theorem launch_ok {a s : State} (n wl cls : Nat) (slots : List Slot) (hs : Ok a s) : Ok a (launch n wl cls slots s) := by
  unfold launch
  repeat' first
    | with_reducible assumption
    | (intro y; refine (fun (k : Ok a y) => ?_) ?_; (on_goal 1 => clear_value y); on_goal 2 => subst y)
    | (intro y; refine (fun (k : Ok a y.1) => ?_) ?_; (on_goal 1 => clear_value y); on_goal 2 => subst y)
    | (intro y; subst y)
    | lift_lets
    | with_reducible apply enqueue_ok
    | (fail_if_no_progress with_reducible refine Ok.upd ?_ (by with_unfolding_all rfl))
    | split

theorem addRec_ok {a s : State} (r : MapRec) (hs : Ok a s) : Ok a (addRec r s) := by
  unfold addRec
  repeat' first
    | with_reducible assumption
    | (fail_if_no_progress with_reducible refine Ok.upd ?_ (by with_unfolding_all rfl))
    | split

theorem noteBand_ok {a s : State} (n : Nat) (hs : Ok a s) : Ok a (noteBand n s) := by
  unfold noteBand
  repeat' first
    | with_reducible assumption
    | with_reducible apply addRec_ok
    | (fail_if_no_progress with_reducible refine Ok.upd ?_ (by with_unfolding_all rfl))
    | split

theorem formBand_ok {a s : State} (n : Nat) (tlc cache : Bool) (hs : Ok a s) : Ok a (formBand n tlc cache s) := by
  unfold formBand
  repeat' first
    | with_reducible assumption
    | (intro y; refine (fun (k : Ok a y) => ?_) ?_; (on_goal 1 => clear_value y); on_goal 2 => subst y)
    | (intro y; refine (fun (k : Ok a y.1) => ?_) ?_; (on_goal 1 => clear_value y); on_goal 2 => subst y)
    | (intro y; subst y)
    | lift_lets
    | with_reducible apply resizeCache_ok
    | with_reducible apply setBand_ok
    | (fail_if_no_progress with_reducible refine Ok.upd ?_ (by with_unfolding_all rfl))
    | split

theorem openBand_ok {a s : State} (n : Nat) (tlc cache : Bool) (cls : Nat) (hs : Ok a s) : Ok a (openBand n tlc cache cls s) := by
  unfold openBand
  repeat' first
    | with_reducible assumption
    | (intro y; refine (fun (k : Ok a y) => ?_) ?_; (on_goal 1 => clear_value y); on_goal 2 => subst y)
    | (intro y; refine (fun (k : Ok a y.1) => ?_) ?_; (on_goal 1 => clear_value y); on_goal 2 => subst y)
    | (intro y; subst y)
    | lift_lets
    | with_reducible apply noteBand_ok
    | with_reducible apply formBand_ok
    | with_reducible apply queueErase_ok
    | with_reducible apply launch_ok
    | (fail_if_no_progress with_reducible refine Ok.upd ?_ (by with_unfolding_all rfl))
    | split

theorem setWp_ok {a s : State} (w : WritePoint) (hs : Ok a s) : Ok a (setWp w s) := by
  unfold setWp
  repeat' first
    | with_reducible assumption
    | (fail_if_no_progress with_reducible refine Ok.upd ?_ (by with_unfolding_all rfl))
    | split

theorem stampZone_ok {a s : State} (n wl : Nat) (hs : Ok a s) : Ok a (stampZone n wl s) := by
  unfold stampZone
  repeat' first
    | with_reducible assumption
    | (intro y; refine (fun (k : Ok a y) => ?_) ?_; (on_goal 1 => clear_value y); on_goal 2 => subst y)
    | (intro y; refine (fun (k : Ok a y.1) => ?_) ?_; (on_goal 1 => clear_value y); on_goal 2 => subst y)
    | (intro y; subst y)
    | lift_lets
    | with_reducible apply modBand_ok
    | with_reducible refine Ok.foldl ?_ (fun _ _ _ => ?_)
    | (fail_if_no_progress with_reducible refine Ok.upd ?_ (by with_unfolding_all rfl))
    | split

theorem stampTemp_ok {a s : State} (n wl d : Nat) (hs : Ok a s) : Ok a (stampTemp n wl d s) := by
  unfold stampTemp
  repeat' first
    | with_reducible assumption
    | (intro y; refine (fun (k : Ok a y) => ?_) ?_; (on_goal 1 => clear_value y); on_goal 2 => subst y)
    | (intro y; refine (fun (k : Ok a y.1) => ?_) ?_; (on_goal 1 => clear_value y); on_goal 2 => subst y)
    | (intro y; subst y)
    | lift_lets
    | with_reducible apply modBlks_ok
    | (fail_if_no_progress with_reducible refine Ok.upd ?_ (by with_unfolding_all rfl))
    | split

theorem addFill_ok {a s : State} (slot : Nat) (c : Codeword) (hs : Ok a s) : Ok a (addFill slot c s) := by
  unfold addFill
  repeat' first
    | with_reducible assumption
    | (fail_if_no_progress with_reducible refine Ok.upd ?_ (by with_unfolding_all rfl))
    | split

theorem padTo_ok {a s : State} (n lo hi : Nat) (hs : Ok a s) : Ok a (padTo n lo hi s) := by
  unfold padTo
  repeat' first
    | with_reducible assumption
    | with_reducible apply addFill_ok
    | with_reducible refine Ok.foldl ?_ (fun _ _ _ => ?_)
    | (fail_if_no_progress with_reducible refine Ok.upd ?_ (by with_unfolding_all rfl))
    | split

theorem programWordline_ok {a s : State} (n wl cls : Nat) (hs : Ok a s) : Ok a (programWordline n wl cls s) := by
  unfold programWordline
  repeat' first
    | with_reducible assumption
    | (intro y; refine (fun (k : Ok a y) => ?_) ?_; (on_goal 1 => clear_value y); on_goal 2 => subst y)
    | (intro y; refine (fun (k : Ok a y.1) => ?_) ?_; (on_goal 1 => clear_value y); on_goal 2 => subst y)
    | (intro y; subst y)
    | lift_lets
    | with_reducible apply launch_ok
    | with_reducible apply modBand_ok
    | (fail_if_no_progress with_reducible refine Ok.upd ?_ (by with_unfolding_all rfl))
    | split

theorem programComplete_ok {a s : State} (n cls fuel : Nat) (hs : Ok a s) : Ok a (programComplete n cls fuel s) := by
  induction fuel generalizing s with
  | zero => exact hs
  | succ k ih =>
    unfold programComplete
    split
    · exact hs
    · split
      · exact ih (programWordline_ok _ _ _ hs)
      · exact hs

theorem closeBandStripes_ok {a s : State} (n cls : Nat) (hs : Ok a s) : Ok a (closeBandStripes n cls s) := by
  unfold closeBandStripes
  repeat' first
    | with_reducible assumption
    | (intro y; refine (fun (k : Ok a y) => ?_) ?_; (on_goal 1 => clear_value y); on_goal 2 => subst y)
    | (intro y; refine (fun (k : Ok a y.1) => ?_) ?_; (on_goal 1 => clear_value y); on_goal 2 => subst y)
    | (intro y; subst y)
    | lift_lets
    | with_reducible apply programWordline_ok
    | with_reducible apply padTo_ok
    | (fail_if_no_progress with_reducible refine Ok.upd ?_ (by with_unfolding_all rfl))
    | split

theorem closeStripesOf_ok {a s : State} (p : Slot → Bool) (hs : Ok a s) : Ok a (closeStripesOf p s) := by
  unfold closeStripesOf
  repeat' first
    | with_reducible assumption
    | with_reducible apply closeBandStripes_ok
    | with_reducible refine Ok.foldl ?_ (fun _ _ _ => ?_)
    | (fail_if_no_progress with_reducible refine Ok.upd ?_ (by with_unfolding_all rfl))
    | split

theorem closeStripes_ok {a s : State} (hs : Ok a s) : Ok a (closeStripes s) := by
  unfold closeStripes
  repeat' first
    | with_reducible assumption
    | with_reducible apply closeStripesOf_ok
    | (fail_if_no_progress with_reducible refine Ok.upd ?_ (by with_unfolding_all rfl))
    | split

theorem pushStripes_ok {a s : State} (hs : Ok a s) : Ok a (pushStripes s) := by
  unfold pushStripes
  repeat' first
    | with_reducible assumption
    | (intro y; refine (fun (k : Ok a y) => ?_) ?_; (on_goal 1 => clear_value y); on_goal 2 => subst y)
    | (intro y; refine (fun (k : Ok a y.1) => ?_) ?_; (on_goal 1 => clear_value y); on_goal 2 => subst y)
    | (intro y; subst y)
    | lift_lets
    | with_reducible apply closeStripesOf_ok
    | with_reducible refine Ok.foldl ?_ (fun _ _ _ => ?_)
    | (fail_if_no_progress with_reducible refine Ok.upd ?_ (by with_unfolding_all rfl))
    | split

theorem bindWp_ok {a s : State} (kind stream : Nat) (hs : Ok a s) : Ok a (bindWp kind stream s) := by
  unfold bindWp
  repeat' first
    | with_reducible assumption
    | (intro y; refine (fun (k : Ok a y) => ?_) ?_; (on_goal 1 => clear_value y); on_goal 2 => subst y)
    | (intro y; refine (fun (k : Ok a y.1) => ?_) ?_; (on_goal 1 => clear_value y); on_goal 2 => subst y)
    | (intro y; subst y)
    | lift_lets
    | with_reducible apply closeBandStripes_ok
    | with_reducible apply setWp_ok
    | with_reducible refine Ok.foldl ?_ (fun _ _ _ => ?_)
    | (fail_if_no_progress with_reducible refine Ok.upd ?_ (by with_unfolding_all rfl))
    | split

theorem newBand_ok {a s : State} (w : WritePoint) (tlc cache : Bool) (cls : Nat) (whole : Bool) (hs : Ok a s) : Ok a (newBand w tlc cache cls whole s).1 := by
  unfold newBand
  repeat' first
    | with_reducible assumption
    | (intro y; refine (fun (k : Ok a y) => ?_) ?_; (on_goal 1 => clear_value y); on_goal 2 => subst y)
    | (intro y; refine (fun (k : Ok a y.1) => ?_) ?_; (on_goal 1 => clear_value y); on_goal 2 => subst y)
    | (intro y; subst y)
    | lift_lets
    | with_reducible apply setWp_ok
    | with_reducible apply openBand_ok
    | (fail_if_no_progress with_reducible refine Ok.upd ?_ (by with_unfolding_all rfl))
    | split

theorem withRoom_ok {a s : State} (kind stream cls : Nat) (whole : Bool) (hs : Ok a s) : Ok a (withRoom kind stream cls whole s).1 := by
  unfold withRoom
  repeat' first
    | with_reducible assumption
    | (intro y; refine (fun (k : Ok a y) => ?_) ?_; (on_goal 1 => clear_value y); on_goal 2 => subst y)
    | (intro y; refine (fun (k : Ok a y.1) => ?_) ?_; (on_goal 1 => clear_value y); on_goal 2 => subst y)
    | (intro y; subst y)
    | lift_lets
    | with_reducible apply newBand_ok
    | (fail_if_no_progress with_reducible refine Ok.upd ?_ (by with_unfolding_all rfl))
    | split

theorem append_ok {a s : State} (kind stream cls : Nat) (cws : List Codeword) (h : Ok a s) : Ok a (append kind stream cls cws s).1 := by
  have k := withRoom_ok kind stream cls (decide (cws.length = 32)) h
  have w : ∀ (x : State) n pos fin, Ok a x → Ok a (modBand n (fun b => { b with nextPos := fin })
      ((List.range cws.length).foldl (fun s i => addFill (n * bandSlots + (pos + i)) (cws.getD i padCodeword) s) x)) :=
    fun x n pos fin z => modBand_ok _ _ (Ok.foldl z (fun _ _ z => addFill_ok _ _ z))
  unfold append
  dsimp only
  split
  · exact k
  · split
    · exact k
    · apply programComplete_ok
      split
      · exact setWp_ok _ (w _ _ _ _ (padTo_ok _ _ _ k))
      · exact w _ _ _ _ (padTo_ok _ _ _ k)

theorem markPlaced_ok {a s : State} (r b slot : Nat) (hs : Ok a s) : Ok a (markPlaced r b slot s) := by
  unfold markPlaced
  repeat' first
    | with_reducible assumption
    | (fail_if_no_progress with_reducible refine Ok.upd ?_ (by with_unfolding_all rfl))
    | split

theorem placeBlocks_ok {a s : State} (r kind stream fuel : Nat) (l : List Staged) (h : Ok a s) :
    Ok a (placeBlocks r kind stream fuel l s) := by
  induction fuel generalizing s l with
  | zero => simpa [placeBlocks] using h
  | succ k ih =>
    cases l with
    | nil => simpa [placeBlocks] using h
    | cons x xs =>
      simp only [placeBlocks]
      split
      · have z := append_ok kind stream 2 (((x :: xs).take 32).map (·.cw)) h
        split
        · exact ih _ (Ok.foldl z (fun _ _ w => markPlaced_ok _ _ _ w))
        · exact z
      · have z := append_ok kind stream 2 [x.cw] h
        split
        · exact ih _ (markPlaced_ok _ _ _ z)
        · exact z

theorem placeWrite_ok {a s : State} (r : Nat) (h : Ok a s) : Ok a (placeWrite r s) := by
  unfold placeWrite
  split
  · exact h
  · exact placeBlocks_ok _ _ _ _ _ (bindWp_ok _ _ h)

theorem drainFill_ok {a s : State} (hs : Ok a s) : Ok a (drainFill s) := by
  unfold drainFill
  repeat' first
    | with_reducible assumption
    | (intro y; refine (fun (k : Ok a y) => ?_) ?_; (on_goal 1 => clear_value y); on_goal 2 => subst y)
    | (intro y; refine (fun (k : Ok a y.1) => ?_) ?_; (on_goal 1 => clear_value y); on_goal 2 => subst y)
    | (intro y; subst y)
    | lift_lets
    | with_reducible apply placeBlocks_ok
    | with_reducible apply bindWp_ok
    | with_reducible apply closeStripesOf_ok
    | with_reducible refine Ok.foldl ?_ (fun _ _ _ => ?_)
    | (fail_if_no_progress with_reducible refine Ok.upd ?_ (by with_unfolding_all rfl))
    | split

theorem touchStrokes_ok {a s : State} (r : MapRec) (hs : Ok a s) : Ok a (touchStrokes r s) := by
  unfold touchStrokes
  repeat' first
    | with_reducible assumption
    | with_reducible refine Ok.foldl ?_ (fun _ _ _ => ?_)
    | (fail_if_no_progress with_reducible refine Ok.upd ?_ (by with_unfolding_all rfl))
    | split

theorem addRecs_ok {a s : State} (l : List MapRec) (h : Ok a s) : Ok a (addRecs l s) := by
  induction l generalizing s with
  | nil => exact h
  | cons r rs ih => exact ih (touchStrokes_ok r (Ok.upd (addRec_ok _ h) rfl))

theorem enterWrite_ok {a s : State} (r : Nat) (h : Ok a s) : Ok a (enterWrite r s) := by
  unfold enterWrite
  exact dropStaged_ok _ (addRecs_ok _ h)

theorem enterReady_ok {a s : State} (hs : Ok a s) : Ok a (enterReady s) := by
  unfold enterReady
  repeat' first
    | with_reducible assumption
    | with_reducible apply enterWrite_ok
    | with_reducible refine Ok.foldl ?_ (fun _ _ _ => ?_)
    | (fail_if_no_progress with_reducible refine Ok.upd ?_ (by with_unfolding_all rfl))
    | split

theorem aliveUpdate_ok {a s : State} (hs : Ok a s) : Ok a (aliveUpdate s) := by
  unfold aliveUpdate
  repeat' first
    | with_reducible assumption
    | (intro y; refine (fun (k : Ok a y) => ?_) ?_; (on_goal 1 => clear_value y); on_goal 2 => subst y)
    | (intro y; refine (fun (k : Ok a y.1) => ?_) ?_; (on_goal 1 => clear_value y); on_goal 2 => subst y)
    | (intro y; subst y)
    | lift_lets
    | (fail_if_no_progress with_reducible refine Ok.upd ?_ (by with_unfolding_all rfl))
    | split

theorem aonAfter_failed (k : ResetKind) (fails : Bool) (a : Aon) (h : a.failed ≤ 15) : (aonAfter k fails a).failed ≤ 15 := by
  cases k <;> simp only [aonAfter]
  · split <;> omega
  · exact h
  · decide

theorem aonAfter_tail (k : ResetKind) (fails : Bool) (a : Aon) (h : a.tail.length ≤ 8) : (aonAfter k fails a).tail.length ≤ 8 := by
  cases k <;> simp only [aonAfter]
  · exact h
  · exact h
  · decide

theorem aonAfter_queue (k : ResetKind) (fails : Bool) (a : Aon) : (aonAfter k fails a).queue = [] := by
  cases k <;> rfl

theorem no_blots {l : List Blot} (h : l = []) : l.length ≤ 8 := by
  simp [h]

theorem no_items {l : List Item} {n : Nat} (h : l = []) : ∀ i ∈ l, i.ruling < n := by
  simp [h]

theorem enterReset_nib (k : ResetKind) (s : State) : (enterReset k s).nib = Nib.init := by
  rfl

theorem enterReset_ok {a s : State} (k : ResetKind) (h : Ok a s) : Ok a (enterReset k s) := by
  refine ⟨h.unit, h.worn, h.dies, h.channels, nofun, fun x => ?_⟩
  have z := h.sound x
  have e : (enterReset k s).nib.items = [] := by rw [enterReset_nib]; rfl
  refine ⟨Nat.zero_le _, aonAfter_tail k s.startFails s.aon z.tail, no_blots (aonAfter_queue k s.startFails s.aon), Nat.zero_le _,
    aonAfter_failed k s.startFails s.aon z.failed, no_items e, Nat.le_refl _, Nat.zero_le _, Nat.zero_le _, Nat.zero_le _, rfl, Nat.zero_le _,
    Nat.zero_le _, Nat.zero_le _, rfl, z.bankA, z.bankB, nofun⟩

theorem aonTailAdd_length (bs tail : List Blot) : (aonTailAdd bs tail).length ≤ 8 := by
  simp only [aonTailAdd, List.length_drop]; omega

theorem aonDrain_ok {a s : State} (h : Ok a s) : Ok a (aonDrain s) := by
  unfold aonDrain
  split
  · exact h.sameBut rfl (fun z => { z with tail := aonTailAdd_length _ _, queue := by simp })
  · exact h

theorem filter_ne_length {b : Blot} {l : List Blot} (h : b ∈ l) : (l.filter (fun y => decide (y.seq ≠ b.seq))).length < l.length := by
  induction l with
  | nil => simp at h
  | cons x xs ih =>
    have g := List.length_filter_le (fun y : Blot => decide (y.seq ≠ b.seq)) xs
    by_cases e : x.seq = b.seq
    · simp [List.filter, e]; simp at g; omega
    · have m : b ∈ xs := by
        rcases List.mem_cons.mp h with rfl | m
        · exact absurd rfl e
        · exact m
      have := ih m
      simp only [List.filter, e, not_false_eq_true, decide_true, List.length_cons, ne_eq] at this ⊢
      omega

theorem aonEnqueue_length (b : Blot) (q : List Blot) (h : q.length ≤ 8) : (aonEnqueue b q).length ≤ 8 := by
  unfold aonEnqueue
  split
  · simp; omega
  · split
    · rename_i x hx
      have := filter_ne_length (List.mem_of_find?_eq_some hx)
      simp only [List.length_append, List.length_cons, List.length_nil]; omega
    · simp; omega

theorem addBlot_ok {a s : State} (kind cls level : Nat) (escalated : Bool) (source : Nat) (detail : BitVec 64) (first : Bool) (h : Ok a s) :
    Ok a (addBlot kind cls level escalated source detail first s) := by
  unfold addBlot
  simp only
  split
  · split
    · exact h.sameBut rfl (fun z => { z with blotter := by simp, tail := aonTailAdd_length _ _ })
    · exact h.sameBut rfl (fun z => { z with blotter := by simp })
  · exact aonDrain_ok (h.sameBut rfl (fun z => { z with blotter := by simp, queue := aonEnqueue_length _ _ z.queue }))

theorem addNote_ok {a s : State} (kind : Nat) (detail : BitVec 64) (hs : Ok a s) : Ok a (addNote kind detail s) := by
  unfold addNote
  repeat' first
    | with_reducible assumption
    | with_reducible apply addBlot_ok
    | (fail_if_no_progress with_reducible refine Ok.upd ?_ (by with_unfolding_all rfl))
    | split

theorem deliverEvent_ok {a s : State} (hs : Ok a s) : Ok a (deliverEvent s) := by
  unfold deliverEvent
  repeat' first
    | with_reducible assumption
    | (intro y; refine (fun (k : Ok a y) => ?_) ?_; (on_goal 1 => clear_value y); on_goal 2 => subst y)
    | (intro y; refine (fun (k : Ok a y.1) => ?_) ?_; (on_goal 1 => clear_value y); on_goal 2 => subst y)
    | (intro y; subst y)
    | lift_lets
    | with_reducible apply succeed_ok
    | (fail_if_no_progress with_reducible refine Ok.upd ?_ (by with_unfolding_all rfl))
    | split

theorem raiseEvent_ok {a s : State} (cls level seq : Nat) (hs : Ok a s) : Ok a (raiseEvent cls level seq s) := by
  unfold raiseEvent
  repeat' first
    | with_reducible assumption
    | (intro y; refine (fun (k : Ok a y) => ?_) ?_; (on_goal 1 => clear_value y); on_goal 2 => subst y)
    | (intro y; refine (fun (k : Ok a y.1) => ?_) ?_; (on_goal 1 => clear_value y); on_goal 2 => subst y)
    | (intro y; subst y)
    | lift_lets
    | with_reducible apply deliverEvent_ok
    | (fail_if_no_progress with_reducible refine Ok.upd ?_ (by with_unfolding_all rfl))
    | split

theorem programAll_ok {a s : State} (hs : Ok a s) : Ok a (programAll s) := by
  unfold programAll
  repeat' first
    | with_reducible assumption
    | with_reducible apply closeStripes_ok
    | (fail_if_no_progress with_reducible refine Ok.upd ?_ (by with_unfolding_all rfl))
    | split

theorem enterSafe_ok {a s : State} (c : SafeCause) (hs : Ok a s) : Ok a (enterSafe c s) := by
  unfold enterSafe
  repeat' first
    | with_reducible assumption
    | with_reducible apply aliveUpdate_ok
    | with_reducible apply programAll_ok
    | (fail_if_no_progress with_reducible refine Ok.upd ?_ (by with_unfolding_all rfl))
    | split

theorem stopSequence_ok {a s : State} (cause cls : Nat) (h : Ok a s) : Ok a (stopSequence cause cls s) := by
  unfold stopSequence
  simp only
  have k : Ok a (addBlot 2 cls 5 false 255 (BitVec.ofNat 64 cause) true (aliveUpdate
      { s with flt := { s.flt with stopping := true }, nib := { s.nib with stopped := true }, pcie := { s.pcie with stopped := true } })) :=
    addBlot_ok _ _ _ _ _ _ _ (aliveUpdate_ok (h.upd rfl))
  split
  · exact ⟨k.unit, k.worn, k.dies, k.channels, nofun, fun x => { k.sound x with }⟩
  · exact enterReset_ok _ k

theorem selfReset_ok {a s : State} (cause : Nat) (hs : Ok a s) : Ok a (selfReset cause s) := by
  unfold selfReset
  repeat' first
    | with_reducible assumption
    | with_reducible apply enterReset_ok
    | with_reducible apply addBlot_ok
    | (fail_if_no_progress with_reducible refine Ok.upd ?_ (by with_unfolding_all rfl))
    | split

theorem recordLevel_ok {a s : State} (cls base level source : Nat) (detail : BitVec 64) (stopCause : Nat) (hs : Ok a s) : Ok a (recordLevel cls base level source detail stopCause s) := by
  unfold recordLevel
  repeat' first
    | with_reducible assumption
    | (intro y; refine (fun (k : Ok a y) => ?_) ?_; (on_goal 1 => clear_value y); on_goal 2 => subst y)
    | (intro y; refine (fun (k : Ok a y.1) => ?_) ?_; (on_goal 1 => clear_value y); on_goal 2 => subst y)
    | (intro y; subst y)
    | lift_lets
    | with_reducible apply addBlot_ok
    | with_reducible apply stopSequence_ok
    | with_reducible apply raiseEvent_ok
    | with_reducible apply enterSafe_ok
    | (fail_if_no_progress with_reducible refine Ok.upd ?_ (by with_unfolding_all rfl))
    | split

theorem recordFault_ok {a s : State} (cls base source : Nat) (detail : BitVec 64) (stopCause : Nat) (hs : Ok a s) : Ok a (recordFault cls base source detail stopCause s) := by
  unfold recordFault
  repeat' first
    | with_reducible assumption
    | with_reducible apply recordLevel_ok
    | (fail_if_no_progress with_reducible refine Ok.upd ?_ (by with_unfolding_all rfl))
    | split

theorem recordStall_ok {a s : State} (cls base source requester : Nat) (hs : Ok a s) : Ok a (recordStall cls base source requester s) := by
  unfold recordStall
  repeat' first
    | with_reducible assumption
    | (intro y; refine (fun (k : Ok a y) => ?_) ?_; (on_goal 1 => clear_value y); on_goal 2 => subst y)
    | (intro y; refine (fun (k : Ok a y.1) => ?_) ?_; (on_goal 1 => clear_value y); on_goal 2 => subst y)
    | (intro y; subst y)
    | lift_lets
    | with_reducible apply recordLevel_ok
    | (fail_if_no_progress with_reducible refine Ok.upd ?_ (by with_unfolding_all rfl))
    | split

theorem acknowledge_ok {a s : State} (host : Bool) (seq : Nat) (h : Ok a s) : Ok a (acknowledge host seq s) :=
  h.sameBut rfl (fun z => { z with blotter := by simpa [acknowledge, mapIf] using z.blotter })

theorem ackReaction_ok {a s : State} (cls source : Nat) (hs : Ok a s) : Ok a (ackReaction cls source s) := by
  unfold ackReaction
  repeat' first
    | with_reducible assumption
    | (intro y; refine (fun (k : Ok a y) => ?_) ?_; (on_goal 1 => clear_value y); on_goal 2 => subst y)
    | (intro y; refine (fun (k : Ok a y.1) => ?_) ?_; (on_goal 1 => clear_value y); on_goal 2 => subst y)
    | (intro y; subst y)
    | lift_lets
    | with_reducible apply acknowledge_ok
    | with_reducible refine Ok.foldl ?_ (fun _ _ _ => ?_)
    | (fail_if_no_progress with_reducible refine Ok.upd ?_ (by with_unfolding_all rfl))
    | split

theorem recordHandled_ok {a s : State} (cls base source : Nat) (detail : BitVec 64) (hs : Ok a s) : Ok a (recordHandled cls base source detail s) := by
  unfold recordHandled
  repeat' first
    | with_reducible assumption
    | (intro y; refine (fun (k : Ok a y) => ?_) ?_; (on_goal 1 => clear_value y); on_goal 2 => subst y)
    | (intro y; refine (fun (k : Ok a y.1) => ?_) ?_; (on_goal 1 => clear_value y); on_goal 2 => subst y)
    | (intro y; subst y)
    | lift_lets
    | with_reducible apply recordFault_ok
    | with_reducible apply ackReaction_ok
    | (fail_if_no_progress with_reducible refine Ok.upd ?_ (by with_unfolding_all rfl))
    | split

theorem undefineBuffer_ok {a s : State} (i : Item) (hs : Ok a s) : Ok a (undefineBuffer i s) := by
  unfold undefineBuffer
  repeat' first
    | with_reducible assumption
    | with_reducible apply emit_ok
    | (fail_if_no_progress with_reducible refine Ok.upd ?_ (by with_unfolding_all rfl))
    | split

theorem failData_ok {a s : State} (i : Item) (f : Fail) (hs : Ok a s) : Ok a (failData i f s) := by
  unfold failData
  repeat' first
    | with_reducible assumption
    | with_reducible apply finish_ok
    | with_reducible apply undefineBuffer_ok
    | (fail_if_no_progress with_reducible refine Ok.upd ?_ (by with_unfolding_all rfl))
    | split

theorem gateFault_ok {a s : State} (source partition well ruling : Nat) (hs : Ok a s) : Ok a (gateFault source partition well ruling s) := by
  unfold gateFault
  repeat' first
    | with_reducible assumption
    | (intro y; refine (fun (k : Ok a y) => ?_) ?_; (on_goal 1 => clear_value y); on_goal 2 => subst y)
    | (intro y; refine (fun (k : Ok a y.1) => ?_) ?_; (on_goal 1 => clear_value y); on_goal 2 => subst y)
    | (intro y; subst y)
    | lift_lets
    | with_reducible apply recordFault_ok
    | with_reducible apply ackReaction_ok
    | with_reducible apply failData_ok
    | (fail_if_no_progress with_reducible refine Ok.upd ?_ (by with_unfolding_all rfl))
    | split

theorem gateStops_ok {a s : State} (i : Item) (hs : Ok a s) : Ok a (gateStops i s) := by
  unfold gateStops
  repeat' first
    | with_reducible assumption
    | with_reducible apply gateFault_ok
    | (fail_if_no_progress with_reducible refine Ok.upd ?_ (by with_unfolding_all rfl))
    | split

theorem writeHost_ok {a s : State} (i : Item) (segs : List Nat) (p : Payload) (hs : Ok a s) : Ok a (writeHost i segs p s) := by
  unfold writeHost
  repeat' first
    | with_reducible assumption
    | (intro y; refine (fun (k : Ok a y) => ?_) ?_; (on_goal 1 => clear_value y); on_goal 2 => subst y)
    | (intro y; refine (fun (k : Ok a y.1) => ?_) ?_; (on_goal 1 => clear_value y); on_goal 2 => subst y)
    | (intro y; subst y)
    | lift_lets
    | with_reducible apply post_ok
    | (fail_if_no_progress with_reducible refine Ok.upd ?_ (by with_unfolding_all rfl))
    | split

theorem deliver_ok {a s : State} (i : Item) (p : Payload) (result : Nat) (hs : Ok a s) : Ok a (deliver i p result s) := by
  unfold deliver
  repeat' first
    | with_reducible assumption
    | with_reducible apply succeed_ok
    | with_reducible apply setItem_ok
    | with_reducible apply writeHost_ok
    | (fail_if_no_progress with_reducible refine Ok.upd ?_ (by simp only [core] <;> rfl))
    | split

theorem readsDone_ok {a s : State} (r : Nat) (hs : Ok a s) : Ok a (readsDone r s) := by
  unfold readsDone
  repeat' first
    | with_reducible assumption
    | with_reducible apply failData_ok
    | with_reducible apply succeed_ok
    | (fail_if_no_progress with_reducible refine Ok.upd ?_ (by with_unfolding_all rfl))
    | split

theorem startPeers_ok {a s : State} (r : Rd) (hs : Ok a s) : Ok a (startPeers r s) := by
  unfold startPeers
  repeat' first
    | with_reducible assumption
    | (intro y; refine (fun (k : Ok a y) => ?_) ?_; (on_goal 1 => clear_value y); on_goal 2 => subst y)
    | (intro y; refine (fun (k : Ok a y.1) => ?_) ?_; (on_goal 1 => clear_value y); on_goal 2 => subst y)
    | (intro y; subst y)
    | lift_lets
    | with_reducible apply enqueue_ok
    | (fail_if_no_progress with_reducible refine Ok.upd ?_ (by with_unfolding_all rfl))
    | split

theorem startRdOn_ok {a s : State} (d ruling block slot cls use : Nat) (hs : Ok a s) : Ok a (startRdOn d ruling block slot cls use s) := by
  unfold startRdOn
  repeat' first
    | with_reducible assumption
    | (intro y; refine (fun (k : Ok a y) => ?_) ?_; (on_goal 1 => clear_value y); on_goal 2 => subst y)
    | (intro y; refine (fun (k : Ok a y.1) => ?_) ?_; (on_goal 1 => clear_value y); on_goal 2 => subst y)
    | (intro y; subst y)
    | lift_lets
    | with_reducible apply enqueue_ok
    | with_reducible apply startPeers_ok
    | (fail_if_no_progress with_reducible refine Ok.upd ?_ (by with_unfolding_all rfl))
    | split

theorem startRd_ok {a s : State} (ruling block slot cls use : Nat) (hs : Ok a s) : Ok a (startRd ruling block slot cls use s) := by
  unfold startRd
  repeat' first
    | with_reducible assumption
    | with_reducible apply startRdOn_ok
    | (fail_if_no_progress with_reducible refine Ok.upd ?_ (by with_unfolding_all rfl))
    | split

theorem useCached_ok {a s : State} (b : Nat) (hs : Ok a s) : Ok a (useCached b s) := by
  unfold useCached
  repeat' first
    | with_reducible assumption
    | (fail_if_no_progress with_reducible refine Ok.upd ?_ (by with_unfolding_all rfl))
    | split

theorem startRead_ok {a s : State} (i : Item) (hs : Ok a s) : Ok a (startRead i s) := by
  unfold startRead
  repeat' first
    | with_reducible assumption
    | (intro y; refine (fun (k : Ok a y) => ?_) ?_; (on_goal 1 => clear_value y); on_goal 2 => subst y)
    | (intro y; refine (fun (k : Ok a y.1) => ?_) ?_; (on_goal 1 => clear_value y); on_goal 2 => subst y)
    | (intro y; subst y)
    | lift_lets
    | with_reducible apply setItem_ok
    | with_reducible apply useCached_ok
    | with_reducible apply startRd_ok
    | with_reducible apply readsDone_ok
    | with_reducible refine Ok.foldl ?_ (fun _ _ _ => ?_)
    | (fail_if_no_progress with_reducible refine Ok.upd ?_ (by with_unfolding_all rfl))
    | split

theorem deliverRead_ok {a s : State} (r : Nat) (segs : List Nat) (hs : Ok a s) : Ok a (deliverRead r segs s) := by
  unfold deliverRead
  repeat' first
    | with_reducible assumption
    | (intro y; refine (fun (k : Ok a y) => ?_) ?_; (on_goal 1 => clear_value y); on_goal 2 => subst y)
    | (intro y; refine (fun (k : Ok a y.1) => ?_) ?_; (on_goal 1 => clear_value y); on_goal 2 => subst y)
    | (intro y; subst y)
    | lift_lets
    | with_reducible apply failData_ok
    | with_reducible apply succeed_ok
    | with_reducible apply writeHost_ok
    | (fail_if_no_progress with_reducible refine Ok.upd ?_ (by simp only [core] <;> rfl))
    | split

theorem startMerge_ok {a s : State} (i : Item) (l : List (Nat × Nat)) (hs : Ok a s) : Ok a (startMerge i l s) := by
  unfold startMerge
  repeat' first
    | with_reducible assumption
    | with_reducible apply startRd_ok
    | with_reducible apply setItem_ok
    | with_reducible refine Ok.foldl ?_ (fun _ _ _ => ?_)
    | (fail_if_no_progress with_reducible refine Ok.upd ?_ (by with_unfolding_all rfl))
    | split

theorem acceptData_ok {a s : State} (i : Item) (hs : Ok a s) : Ok a (acceptData i s) := by
  have k := placeWrite_ok i.ruling (setItem_ok { i with past := true, wait := .persist } hs)
  unfold acceptData
  dsimp only
  apply pushStripes_ok
  split
  · exact k
  · exact succeed_ok _ _ k

theorem takeData_ok {a s : State} (i : Item) (data : Mem) (hs : Ok a s) : Ok a (takeData i data s) := by
  unfold takeData
  repeat' first
    | with_reducible assumption
    | (intro y; refine (fun (k : Ok a y) => ?_) ?_; (on_goal 1 => clear_value y); on_goal 2 => subst y)
    | (intro y; refine (fun (k : Ok a y.1) => ?_) ?_; (on_goal 1 => clear_value y); on_goal 2 => subst y)
    | (intro y; subst y)
    | lift_lets
    | with_reducible apply acceptData_ok
    | with_reducible apply startMerge_ok
    | (fail_if_no_progress with_reducible refine Ok.upd ?_ (by simp only [core] <;> rfl))
    | split

theorem receiveWrite_ok {a s : State} (i : Item) (data : Mem) (segs : List Nat) (hs : Ok a s) : Ok a (receiveWrite i data segs s) := by
  unfold receiveWrite
  repeat' first
    | with_reducible assumption
    | with_reducible apply finish_ok
    | with_reducible apply gateStops_ok
    | with_reducible apply takeData_ok
    | with_reducible apply emit_ok
    | (fail_if_no_progress with_reducible refine Ok.upd ?_ (by simp only [core] <;> rfl))
    | split

theorem enterRecs_ok {a s : State} (last : Bool) (l : List MapRec) (h : Ok a s) : Ok a (enterRecs last l s) := by
  induction l generalizing s with
  | nil => exact h
  | cons r rs ih => exact ih (touchStrokes_ok r (Ok.upd (addRec_ok _ h) rfl))

theorem endRelease_ok {a s : State} (i : Item) (hs : Ok a s) : Ok a (endRelease i s) := by
  unfold endRelease
  repeat' first
    | with_reducible assumption
    | with_reducible apply setItem_ok
    | with_reducible apply succeed_ok
    | (fail_if_no_progress with_reducible refine Ok.upd ?_ (by with_unfolding_all rfl))
    | split

theorem runRelease_ok {a s : State} (i : Item) (hs : Ok a s) : Ok a (runRelease i s) := by
  unfold runRelease
  repeat' first
    | with_reducible assumption
    | (intro y; refine (fun (k : Ok a y) => ?_) ?_; (on_goal 1 => clear_value y); on_goal 2 => subst y)
    | (intro y; refine (fun (k : Ok a y.1) => ?_) ?_; (on_goal 1 => clear_value y); on_goal 2 => subst y)
    | (intro y; subst y)
    | lift_lets
    | with_reducible apply setItem_ok
    | with_reducible apply endRelease_ok
    | with_reducible apply enterRecs_ok
    | with_reducible apply startMerge_ok
    | with_reducible apply pushStripes_ok
    | with_reducible apply placeWrite_ok
    | (fail_if_no_progress with_reducible refine Ok.upd ?_ (by simp only [core] <;> rfl))
    | split

theorem mergeDone_ok {a s : State} (r : Nat) (hs : Ok a s) : Ok a (mergeDone r s) := by
  unfold mergeDone
  repeat' first
    | with_reducible assumption
    | with_reducible apply runRelease_ok
    | with_reducible apply acceptData_ok
    | (fail_if_no_progress with_reducible refine Ok.upd ?_ (by with_unfolding_all rfl))
    | split

theorem endReleases_ok {a s : State} (hs : Ok a s) : Ok a (endReleases s) := by
  unfold endReleases
  repeat' first
    | with_reducible assumption
    | with_reducible apply endRelease_ok
    | with_reducible refine Ok.foldl ?_ (fun _ _ _ => ?_)
    | (fail_if_no_progress with_reducible refine Ok.upd ?_ (by with_unfolding_all rfl))
    | split

theorem enterPending_ok {a s : State} (h : Ok a s) : Ok a (enterPending s) := by
  unfold enterPending
  refine Ok.foldl h (fun s r z => ?_)
  simp only
  split
  · exact z
  · exact settle_ok _ (dropStaged_ok _ (z.upd rfl))

theorem sendError_ok {a s : State} (severity : Nat) (hs : Ok a s) : Ok a (sendError severity s) := by
  unfold sendError
  repeat' first
    | with_reducible assumption
    | (intro y; refine (fun (k : Ok a y) => ?_) ?_; (on_goal 1 => clear_value y); on_goal 2 => subst y)
    | (intro y; refine (fun (k : Ok a y.1) => ?_) ?_; (on_goal 1 => clear_value y); on_goal 2 => subst y)
    | (intro y; subst y)
    | lift_lets
    | with_reducible apply emit_ok
    | (fail_if_no_progress with_reducible refine Ok.upd ?_ (by with_unfolding_all rfl))
    | split

theorem reportCorrectable_ok {a s : State} (bits : BitVec 32) (hs : Ok a s) : Ok a (reportCorrectable bits s) := by
  unfold reportCorrectable
  repeat' first
    | with_reducible assumption
    | (intro y; refine (fun (k : Ok a y) => ?_) ?_; (on_goal 1 => clear_value y); on_goal 2 => subst y)
    | (intro y; refine (fun (k : Ok a y.1) => ?_) ?_; (on_goal 1 => clear_value y); on_goal 2 => subst y)
    | (intro y; subst y)
    | lift_lets
    | with_reducible apply sendError_ok
    | (fail_if_no_progress with_reducible refine Ok.upd ?_ (by with_unfolding_all rfl))
    | split

theorem reportUncorrectable_ok {a s : State} (bits : BitVec 32) (header : BitVec 128) (advisory : Bool) (hs : Ok a s) : Ok a (reportUncorrectable bits header advisory s) := by
  unfold reportUncorrectable
  repeat' first
    | with_reducible assumption
    | (intro y; refine (fun (k : Ok a y) => ?_) ?_; (on_goal 1 => clear_value y); on_goal 2 => subst y)
    | (intro y; refine (fun (k : Ok a y.1) => ?_) ?_; (on_goal 1 => clear_value y); on_goal 2 => subst y)
    | (intro y; subst y)
    | lift_lets
    | with_reducible apply sendError_ok
    | with_reducible apply reportCorrectable_ok
    | (fail_if_no_progress with_reducible refine Ok.upd ?_ (by with_unfolding_all rfl))
    | split

theorem setStatus_ok {a s : State} (bits : BitVec 16) (hs : Ok a s) : Ok a (setStatus bits s) := by
  unfold setStatus
  repeat' first
    | with_reducible assumption
    | (fail_if_no_progress with_reducible refine Ok.upd ?_ (by with_unfolding_all rfl))
    | split

theorem refuseRequest_ok {a s : State} (posted : Bool) (header : BitVec 128) (hs : Ok a s) : Ok a (refuseRequest posted header s) := by
  unfold refuseRequest
  repeat' first
    | with_reducible assumption
    | (intro y; refine (fun (k : Ok a y) => ?_) ?_; (on_goal 1 => clear_value y); on_goal 2 => subst y)
    | (intro y; refine (fun (k : Ok a y.1) => ?_) ?_; (on_goal 1 => clear_value y); on_goal 2 => subst y)
    | (intro y; subst y)
    | lift_lets
    | with_reducible apply reportUncorrectable_ok
    | with_reducible apply emit_ok
    | (fail_if_no_progress with_reducible refine Ok.upd ?_ (by with_unfolding_all rfl))
    | split

theorem abortRequest_ok {a s : State} (hs : Ok a s) : Ok a (abortRequest s) := by
  unfold abortRequest
  repeat' first
    | with_reducible assumption
    | with_reducible apply emit_ok
    | with_reducible apply reportUncorrectable_ok
    | with_reducible apply setStatus_ok
    | (fail_if_no_progress with_reducible refine Ok.upd ?_ (by with_unfolding_all rfl))
    | split

end Sys2Proof.Laws
end

