-- ==== Sys2Proof/Laws/KeptMedia.lean ====
section
/-! SUPPORT. What every step keeps (`Ok`), for the boot chain, long operations, dies and the record. -/

namespace Sys2Proof.Laws

open Sys2Proof Sys2Proof.Machine

theorem setBank_ok {a s : State} (b : BankId) (f : Bank → Bank) (hf : a.Sound → ∀ k, Mem.wf 0xFF k.bytes = true → Mem.wf 0xFF (f k).bytes = true)
    (hs : Ok a s) : Ok a (setBank b f s) := by
  cases b
  · exact ⟨hs.unit, hs.worn, hs.dies, hs.channels, hs.rulings, fun x => { hs.sound x with bankA := hf x _ (hs.sound x).bankA }⟩
  · exact ⟨hs.unit, hs.worn, hs.dies, hs.channels, hs.rulings, fun x => { hs.sound x with bankB := hf x _ (hs.sound x).bankB }⟩

theorem put_ok {a s : State} (r : SwapRec) (hs : Ok a s) : Ok a { s with boot := s.boot.put r } := by
  refine hs.same ?_
  unfold Boot.put
  split <;> rfl

theorem beginSwap_ok {a s : State} (w : SwapWork) (hs : Ok a s) : Ok a (beginSwap w s) := by
  refine hs.same ?_
  unfold beginSwap Boot.clearSlot
  split <;> rfl

theorem readySwap_ok {a s : State} (hs : Ok a s) : Ok a (readySwap s) := by
  unfold readySwap
  repeat' first
    | with_reducible assumption
    | with_reducible apply beginSwap_ok
    | (fail_if_no_progress with_reducible refine Ok.upd ?_ (by with_unfolding_all rfl))
    | split

theorem readyWritten_ok {a s : State} (w : SwapWork) (hs : Ok a s) : Ok a (readyWritten w s) := by
  unfold readyWritten
  repeat' first
    | with_reducible assumption
    | (intro y; refine (fun (k : Ok a y) => ?_) ?_; (on_goal 1 => clear_value y); on_goal 2 => subst y)
    | (intro y; refine (fun (k : Ok a y.1) => ?_) ?_; (on_goal 1 => clear_value y); on_goal 2 => subst y)
    | (intro y; subst y)
    | lift_lets
    | with_reducible apply addNote_ok
    | (fail_if_no_progress with_reducible refine Ok.upd ?_ (by with_unfolding_all rfl))
    | split

theorem bankOf_wf {s : State} (b : BankId) (z : s.Sound) : Mem.wf 0xFF (s.bankOf b).bytes = true := by
  cases b
  · exact z.bankA
  · exact z.bankB

theorem runImage_ok {a s : State} (b : BankId) (hs : Ok a s) : Ok a (runImage b s) := by
  unfold runImage
  repeat' first
    | with_reducible assumption
    | (intro y; refine (fun (k : Ok a y) => ?_) ?_; (on_goal 1 => clear_value y); on_goal 2 => subst y)
    | (intro y; refine (fun (k : Ok a y.1) => ?_) ?_; (on_goal 1 => clear_value y); on_goal 2 => subst y)
    | (intro y; subst y)
    | lift_lets
    | (fail_if_no_progress with_reducible refine Ok.upd ?_ (by with_unfolding_all rfl))
    | split

theorem bootFault_ok {a s : State} (address : Nat) (hs : Ok a s) : Ok a (bootFault address s) := by
  unfold bootFault
  repeat' first
    | with_reducible assumption
    | with_reducible apply recordFault_ok
    | (fail_if_no_progress with_reducible refine Ok.upd ?_ (by with_unfolding_all rfl))
    | split

theorem markEmpty_ok {a s : State} (b : BankId) (hs : Ok a s) : Ok a (markEmpty b s) := setBank_ok _ _ (fun _ _ x => x) hs

theorem endDownload_ok {a s : State} (hs : Ok a s) : Ok a (endDownload s) := hs.dl none (fun _ _ e => by cases e) rfl

theorem dropDownload_ok {a s : State} (hs : Ok a s) : Ok a (dropDownload s) := markEmpty_ok _ (endDownload_ok hs)

theorem begun_ok {a s : State} (d : Download) (b : Option BankId) (hd : Mem.wf 0xFF d.piece = true) (hs : Ok a s) :
    Ok a { s with boot := { s.boot with dl := some d, busy := b } } :=
  hs.dl (some d) (fun _ e z => by cases z; exact hd) rfl

theorem takePiece_ok {a s : State} (i : Item) (data : Mem) (d : Download) (hs : Ok a s) : Ok a (takePiece i data d s) := by
  refine setItem_ok _ (begun_ok _ _ (Mem.wf_norm _ _ _) ?_)
  split
  · exact hs
  · split
    · exact beginSwap_ok _ hs
    · exact markEmpty_ok _ hs

theorem startPiece_ok {a s : State} (i : Item) (data : Mem) (hs : Ok a s) : Ok a (startPiece i data s) := by
  unfold startPiece
  repeat' first
    | with_reducible assumption
    | (intro y; refine (fun (k : Ok a y) => ?_) ?_; (on_goal 1 => clear_value y); on_goal 2 => subst y)
    | (intro y; refine (fun (k : Ok a y.1) => ?_) ?_; (on_goal 1 => clear_value y); on_goal 2 => subst y)
    | (intro y; subst y)
    | lift_lets
    | with_reducible apply failWith_ok
    | with_reducible apply takePiece_ok
    | with_reducible apply complete_ok
    | (fail_if_no_progress with_reducible refine Ok.upd ?_ (by with_unfolding_all rfl))
    | split

theorem programPart_ok {a s : State} (b : BankId) (d : Download) (hi : Nat) (hd : a.Sound → Mem.wf 0xFF d.piece = true) (hs : Ok a s) :
    Ok a (programPart b d hi s) := by
  unfold programPart
  refine setBank_ok _ _ (fun x k _ => ?_) hs
  refine Mem.wf_patch _ _ _ _ _ ?_ (Mem.wf_slice _ _ _ _ (hd x))
  have w := bankOf_wf b (hs.sound x)
  split
  · exact Mem.wf_filter _ _ _ w
  · exact w

theorem partBegun_ok {a s : State} (d : Download) (hd : a.Sound → Mem.wf 0xFF d.piece = true) (hs : Ok a s) :
    Ok a { s with boot := { s.boot with dl := some d } } :=
  hs.dl (some d) (fun u e z => by cases z; exact hd u) rfl

theorem partPassed_ok {a s : State} (d : Download) (hd : a.Sound → Mem.wf 0xFF d.piece = true) (hs : Ok a s) : Ok a (partPassed d s) := by
  unfold partPassed
  extract_lets b hi x src whole y src2 z
  have hx : Ok a x := ackReaction_ok _ _ (programPart_ok _ _ _ hd hs)
  split
  · exact partBegun_ok { d with at_ := hi } hd hx
  · have hy : Ok a y := by
      simp only [y]
      split
      · exact setBank_ok _ _ (fun _ _ w => w) hx
      · exact hx
    have hz : Ok a z := begun_ok { d with next := hi, complete := whole, piece := [], pieceLen := 0, at_ := hi } none rfl hy
    split
    · exact succeed_ok _ _ hz
    · exact hz

theorem failBoot_ok {a s : State} (hs : Ok a s) : Ok a (failBoot s) := by
  unfold failBoot
  repeat' first
    | with_reducible assumption
    | with_reducible apply failWith_ok
    | (fail_if_no_progress with_reducible refine Ok.upd ?_ (by with_unfolding_all rfl))
    | split

theorem partFailed_ok {a s : State} (d : Download) (hd : a.Sound → Mem.wf 0xFF d.piece = true) (hs : Ok a s) : Ok a (partFailed d s) := by
  unfold partFailed
  extract_lets b k n level
  have hx := partBegun_ok { d with fails := (k, n) :: d.fails.filter (fun x => x.1 ≠ k) } hd hs
  have hy := bootFault_ok (bankBase b + sectorStart k) hx
  split
  · exact hy
  · split
    · exact failBoot_ok (dropDownload_ok hy)
    · exact hy

theorem startActivate_ok {a s : State} (i : Item) (hs : Ok a s) : Ok a (startActivate i s) := by
  unfold startActivate
  repeat' first
    | with_reducible assumption
    | (intro y; refine (fun (k : Ok a y) => ?_) ?_; (on_goal 1 => clear_value y); on_goal 2 => subst y)
    | (intro y; refine (fun (k : Ok a y.1) => ?_) ?_; (on_goal 1 => clear_value y); on_goal 2 => subst y)
    | (intro y; subst y)
    | lift_lets
    | with_reducible apply failWith_ok
    | with_reducible apply setItem_ok
    | with_reducible apply beginSwap_ok
    | (fail_if_no_progress with_reducible refine Ok.upd ?_ (by with_unfolding_all rfl))
    | split

theorem activated_ok {a s : State} (i : Item) (h : Ok a s) : Ok a (activated i s) := by
  unfold activated
  simp only
  split
  · exact selfReset_ok _ (draw_ok (succeed_ok _ _ (h.sameBut rfl (fun z => { z with failed := Nat.zero_le _, piece := nofun }))))
  · have k : Ok a { s with boot := { s.boot with dl := none } } := h.dl none nofun rfl
    split
    · exact setItem_ok _ (k.upd rfl)
    · exact succeed_ok _ _ k

theorem swapServes_ok {a s : State} (w : SwapWork) (hs : Ok a s) : Ok a (swapServes w s) := by
  unfold swapServes
  repeat' first
    | with_reducible assumption
    | with_reducible apply readyWritten_ok
    | with_reducible apply activated_ok
    | with_reducible apply markEmpty_ok
    | (fail_if_no_progress with_reducible refine Ok.upd ?_ (by with_unfolding_all rfl))
    | split

theorem swapEnds_ok {a s : State} (w : Option SwapWork) (hs : Ok a s) : Ok a { s with boot := { s.boot with swapWork := w } } :=
  hs.upd rfl

theorem swapPassed_ok {a s : State} (w : SwapWork) (hs : Ok a s) : Ok a (swapPassed w s) := by
  unfold swapPassed
  have k := swapServes_ok w (ackReaction_ok 7 0x0A (swapEnds_ok none (put_ok w.rec_ hs)))
  dsimp only
  split
  · exact readySwap_ok k
  · exact k

theorem swapFailed_ok {a s : State} (w : SwapWork) (hs : Ok a s) : Ok a (swapFailed w s) := by
  unfold swapFailed
  repeat' first
    | with_reducible assumption
    | (intro y; refine (fun (k : Ok a y) => ?_) ?_; (on_goal 1 => clear_value y); on_goal 2 => subst y)
    | (intro y; subst y)
    | lift_lets
    | with_reducible apply bootFault_ok
    | with_reducible apply readySwap_ok
    | with_reducible apply failBoot_ok
    | with_reducible apply failWith_ok
    | with_reducible apply endDownload_ok
    | (fail_if_no_progress with_reducible refine Ok.upd ?_ (by with_unfolding_all rfl))
    | split

theorem startFirmware_ok {a s : State} (i : Item) (hs : Ok a s) : Ok a (startFirmware i s) := by
  unfold startFirmware
  repeat' first
    | with_reducible assumption
    | (intro y; refine (fun (k : Ok a y) => ?_) ?_; (on_goal 1 => clear_value y); on_goal 2 => subst y)
    | (intro y; refine (fun (k : Ok a y.1) => ?_) ?_; (on_goal 1 => clear_value y); on_goal 2 => subst y)
    | (intro y; subst y)
    | lift_lets
    | with_reducible apply setItem_ok
    | with_reducible apply startPiece_ok
    | with_reducible apply startActivate_ok
    | (fail_if_no_progress with_reducible refine Ok.upd ?_ (by with_unfolding_all rfl))
    | split

theorem createOp_ok {a s : State} (typ target ruling state : Nat) (hs : Ok a s) : Ok a (createOp typ target ruling state s).1 := by
  unfold createOp
  repeat' first
    | with_reducible assumption
    | (intro y; refine (fun (k : Ok a y) => ?_) ?_; (on_goal 1 => clear_value y); on_goal 2 => subst y)
    | (intro y; refine (fun (k : Ok a y.1) => ?_) ?_; (on_goal 1 => clear_value y); on_goal 2 => subst y)
    | (intro y; subst y)
    | lift_lets
    | with_reducible apply progress_ok
    | (fail_if_no_progress with_reducible refine Ok.upd ?_ (by with_unfolding_all rfl))
    | split

theorem modOp_ok {a s : State} (h : Nat) (f : LongOp → LongOp) (hs : Ok a s) : Ok a (modOp h f s) := by
  unfold modOp
  repeat' first
    | with_reducible assumption
    | (fail_if_no_progress with_reducible refine Ok.upd ?_ (by with_unfolding_all rfl))
    | split

theorem enterRebuild_ok {a s : State} (typ target : Nat) (hs : Ok a s) : Ok a (enterRebuild typ target s) := by
  unfold enterRebuild
  repeat' first
    | with_reducible assumption
    | (intro y; refine (fun (k : Ok a y) => ?_) ?_; (on_goal 1 => clear_value y); on_goal 2 => subst y)
    | (intro y; refine (fun (k : Ok a y.1) => ?_) ?_; (on_goal 1 => clear_value y); on_goal 2 => subst y)
    | (intro y; subst y)
    | lift_lets
    | with_reducible apply createOp_ok
    | (fail_if_no_progress with_reducible refine Ok.upd ?_ (by with_unfolding_all rfl))
    | split

theorem fillRebuilds_ok {a s : State} (fuel : Nat) (h : Ok a s) : Ok a (fillRebuilds fuel s) := by
  induction fuel generalizing s with
  | zero => exact h
  | succ k ih =>
    unfold fillRebuilds
    split
    · exact h
    · split
      · exact ih (enterRebuild_ok _ _ (Ok.upd h rfl))
      · exact h

theorem createRebuild_ok {a s : State} (typ target : Nat) (hs : Ok a s) : Ok a (createRebuild typ target s) := by
  unfold createRebuild
  repeat' first
    | with_reducible assumption
    | with_reducible apply fillRebuilds_ok
    | (fail_if_no_progress with_reducible refine Ok.upd ?_ (by with_unfolding_all rfl))
    | split

theorem startQueued_ok {a s : State} (typ : Nat) (hs : Ok a s) : Ok a (startQueued typ s) := by
  unfold startQueued
  repeat' first
    | with_reducible assumption
    | with_reducible apply modOp_ok
    | (fail_if_no_progress with_reducible refine Ok.upd ?_ (by with_unfolding_all rfl))
    | split

theorem endOp_ok {a s : State} (h state outcome detail : Nat) (hs : Ok a s) : Ok a (endOp h state outcome detail s) := by
  unfold endOp
  repeat' first
    | with_reducible assumption
    | (intro y; refine (fun (k : Ok a y) => ?_) ?_; (on_goal 1 => clear_value y); on_goal 2 => subst y)
    | (intro y; refine (fun (k : Ok a y.1) => ?_) ?_; (on_goal 1 => clear_value y); on_goal 2 => subst y)
    | (intro y; subst y)
    | lift_lets
    | with_reducible apply modOp_ok
    | with_reducible apply progress_ok
    | with_reducible apply actUpdate_ok
    | with_reducible apply fillRebuilds_ok
    | with_reducible apply startQueued_ok
    | (fail_if_no_progress with_reducible refine Ok.upd ?_ (by with_unfolding_all rfl))
    | split

theorem cancelOps_ok {a s : State} (p : Nat → Bool) (hs : Ok a s) : Ok a (cancelOps p s) := by
  unfold cancelOps
  repeat' first
    | with_reducible assumption
    | with_reducible apply endOp_ok
    | with_reducible refine Ok.foldl ?_ (fun _ _ _ => ?_)
    | (fail_if_no_progress with_reducible refine Ok.upd ?_ (by with_unfolding_all rfl))
    | split

theorem setDie_ok {a s : State} (x : Die) (hs : Ok a s) : Ok a (setDie x s) := by
  unfold setDie
  repeat' first
    | with_reducible assumption
    | (intro y; refine (fun (k : Ok a y) => ?_) ?_; (on_goal 1 => clear_value y); on_goal 2 => subst y)
    | (intro y; refine (fun (k : Ok a y.1) => ?_) ?_; (on_goal 1 => clear_value y); on_goal 2 => subst y)
    | (intro y; subst y)
    | lift_lets
    | (fail_if_no_progress with_reducible refine Ok.upd ?_ (by with_unfolding_all rfl))
    | split

theorem modDie_ok {a s : State} (d : Nat) (f : Die → Die) (hs : Ok a s) : Ok a (modDie d f s) := by
  unfold modDie
  repeat' first
    | with_reducible assumption
    | with_reducible apply setDie_ok
    | (fail_if_no_progress with_reducible refine Ok.upd ?_ (by with_unfolding_all rfl))
    | split

theorem modMoves_ok {a s : State} (p : Move → Bool) (f : Move → Move) (hs : Ok a s) : Ok a (modMoves p f s) := by
  unfold modMoves
  repeat' first
    | with_reducible assumption
    | (fail_if_no_progress with_reducible refine Ok.upd ?_ (by with_unfolding_all rfl))
    | split

theorem modProgs_ok {a s : State} (p : Prog → Bool) (f : Prog → Prog) (hs : Ok a s) : Ok a (modProgs p f s) := by
  unfold modProgs
  repeat' first
    | with_reducible assumption
    | (fail_if_no_progress with_reducible refine Ok.upd ?_ (by with_unfolding_all rfl))
    | split

theorem modEmptying_ok {a s : State} (n : Nat) (f : Emptying → Emptying) (hs : Ok a s) : Ok a (modEmptying n f s) := by
  unfold modEmptying
  repeat' first
    | with_reducible assumption
    | (fail_if_no_progress with_reducible refine Ok.upd ?_ (by with_unfolding_all rfl))
    | split

theorem modRd_ok {a s : State} (id : Nat) (f : Rd → Rd) (hs : Ok a s) : Ok a (modRd id f s) := by
  unfold modRd
  repeat' first
    | with_reducible assumption
    | (fail_if_no_progress with_reducible refine Ok.upd ?_ (by with_unfolding_all rfl))
    | split

theorem dropRd_ok {a s : State} (id : Nat) (hs : Ok a s) : Ok a (dropRd id s) := by
  unfold dropRd
  repeat' first
    | with_reducible assumption
    | (fail_if_no_progress with_reducible refine Ok.upd ?_ (by with_unfolding_all rfl))
    | split

theorem countReadData_ok {a s : State} (hs : Ok a s) : Ok a (countReadData s) := by
  unfold countReadData
  repeat' first
    | with_reducible assumption
    | (fail_if_no_progress with_reducible refine Ok.upd ?_ (by with_unfolding_all rfl))
    | split

theorem reloadBlks_ok {a s : State} (o : DieOp) (hs : Ok a s) : Ok a (reloadBlks o s) := by
  unfold reloadBlks
  repeat' first
    | with_reducible assumption
    | (intro y; refine (fun (k : Ok a y) => ?_) ?_; (on_goal 1 => clear_value y); on_goal 2 => subst y)
    | (intro y; refine (fun (k : Ok a y.1) => ?_) ?_; (on_goal 1 => clear_value y); on_goal 2 => subst y)
    | (intro y; subst y)
    | lift_lets
    | with_reducible apply modBlks_ok
    | (fail_if_no_progress with_reducible refine Ok.upd ?_ (by with_unfolding_all rfl))
    | split

theorem beginProgram_ok {a s : State} (p : Prog) (d : Nat) (hs : Ok a s) : Ok a (beginProgram p d s) := by
  unfold beginProgram
  repeat' first
    | with_reducible assumption
    | (intro y; refine (fun (k : Ok a y) => ?_) ?_; (on_goal 1 => clear_value y); on_goal 2 => subst y)
    | (intro y; refine (fun (k : Ok a y.1) => ?_) ?_; (on_goal 1 => clear_value y); on_goal 2 => subst y)
    | (intro y; subst y)
    | lift_lets
    | with_reducible apply stampZone_ok
    | with_reducible apply modProgs_ok
    | with_reducible apply stampTemp_ok
    | with_reducible apply modBlks_ok
    | (fail_if_no_progress with_reducible refine Ok.upd ?_ (by with_unfolding_all rfl))
    | split

theorem markIssued_ok {a s : State} (o : DieOp) (hs : Ok a s) : Ok a (markIssued o s) := by
  unfold markIssued
  repeat' first
    | with_reducible assumption
    | (intro y; refine (fun (k : Ok a y) => ?_) ?_; (on_goal 1 => clear_value y); on_goal 2 => subst y)
    | (intro y; refine (fun (k : Ok a y.1) => ?_) ?_; (on_goal 1 => clear_value y); on_goal 2 => subst y)
    | (intro y; subst y)
    | lift_lets
    | with_reducible apply beginProgram_ok
    | with_reducible apply modBlks_ok
    | with_reducible apply noteBand_ok
    | (fail_if_no_progress with_reducible refine Ok.upd ?_ (by with_unfolding_all rfl))
    | split

theorem loadThresholds_ok {a s : State} (id : Nat) (hs : Ok a s) : Ok a (loadThresholds id s) := by
  unfold loadThresholds
  repeat' first
    | with_reducible assumption
    | (intro y; refine (fun (k : Ok a y) => ?_) ?_; (on_goal 1 => clear_value y); on_goal 2 => subst y)
    | (intro y; refine (fun (k : Ok a y.1) => ?_) ?_; (on_goal 1 => clear_value y); on_goal 2 => subst y)
    | (intro y; subst y)
    | lift_lets
    | with_reducible apply modRd_ok
    | (fail_if_no_progress with_reducible refine Ok.upd ?_ (by with_unfolding_all rfl))
    | split

theorem issue_ok {a s : State} (o : DieOp) (suspends : Bool) (hs : Ok a s) : Ok a (issue o suspends s) := by
  unfold issue
  repeat' first
    | with_reducible assumption
    | (intro y; refine (fun (k : Ok a y) => ?_) ?_; (on_goal 1 => clear_value y); on_goal 2 => subst y)
    | (intro y; refine (fun (k : Ok a y.1) => ?_) ?_; (on_goal 1 => clear_value y); on_goal 2 => subst y)
    | (intro y; subst y)
    | lift_lets
    | with_reducible apply markIssued_ok
    | with_reducible apply loadThresholds_ok
    | with_reducible apply countReadData_ok
    | with_reducible apply setDie_ok
    | (fail_if_no_progress with_reducible refine Ok.upd ?_ (by with_unfolding_all rfl))
    | split

theorem resumeDie_ok {a s : State} (d : Nat) (hs : Ok a s) : Ok a (resumeDie d s) := by
  unfold resumeDie
  repeat' first
    | with_reducible assumption
    | (intro y; refine (fun (k : Ok a y) => ?_) ?_; (on_goal 1 => clear_value y); on_goal 2 => subst y)
    | (intro y; refine (fun (k : Ok a y.1) => ?_) ?_; (on_goal 1 => clear_value y); on_goal 2 => subst y)
    | (intro y; subst y)
    | lift_lets
    | with_reducible apply setDie_ok
    | (fail_if_no_progress with_reducible refine Ok.upd ?_ (by with_unfolding_all rfl))
    | split

theorem endDieOp_ok {a s : State} (d : Nat) (hs : Ok a s) : Ok a (endDieOp d s) := by
  unfold endDieOp
  repeat' first
    | with_reducible assumption
    | (intro y; refine (fun (k : Ok a y) => ?_) ?_; (on_goal 1 => clear_value y); on_goal 2 => subst y)
    | (intro y; refine (fun (k : Ok a y.1) => ?_) ?_; (on_goal 1 => clear_value y); on_goal 2 => subst y)
    | (intro y; subst y)
    | lift_lets
    | with_reducible apply resumeDie_ok
    | with_reducible apply setDie_ok
    | (fail_if_no_progress with_reducible refine Ok.upd ?_ (by with_unfolding_all rfl))
    | split

theorem collectUpdate_ok {a s : State} (hs : Ok a s) : Ok a (collectUpdate s) := by
  unfold collectUpdate
  repeat' first
    | with_reducible assumption
    | (intro y; refine (fun (k : Ok a y) => ?_) ?_; (on_goal 1 => clear_value y); on_goal 2 => subst y)
    | (intro y; refine (fun (k : Ok a y.1) => ?_) ?_; (on_goal 1 => clear_value y); on_goal 2 => subst y)
    | (intro y; subst y)
    | lift_lets
    | (fail_if_no_progress with_reducible refine Ok.upd ?_ (by with_unfolding_all rfl))
    | split

theorem poolUpdate_ok {a s : State} (hs : Ok a s) : Ok a (poolUpdate s) := by
  unfold poolUpdate
  repeat' first
    | with_reducible assumption
    | (intro y; refine (fun (k : Ok a y) => ?_) ?_; (on_goal 1 => clear_value y); on_goal 2 => subst y)
    | (intro y; refine (fun (k : Ok a y.1) => ?_) ?_; (on_goal 1 => clear_value y); on_goal 2 => subst y)
    | (intro y; subst y)
    | lift_lets
    | with_reducible apply collectUpdate_ok
    | (fail_if_no_progress with_reducible refine Ok.upd ?_ (by with_unfolding_all rfl))
    | split

theorem checkWorn_ok {a s : State} (h : Ok a s) : Ok a (checkWorn s) := by
  unfold checkWorn
  split
  · refine aliveUpdate_ok (programAll_ok (addNote_ok _ _ ?_))
    exact ⟨h.unit, fun _ => rfl, h.dies, h.channels, h.rulings, fun x => { h.sound x with }⟩
  · exact h

theorem retireBlock_ok {a s : State} (n key : Nat) (hs : Ok a s) : Ok a (retireBlock n key s) := by
  unfold retireBlock
  repeat' first
    | with_reducible assumption
    | (intro y; refine (fun (k : Ok a y) => ?_) ?_; (on_goal 1 => clear_value y); on_goal 2 => subst y)
    | (intro y; refine (fun (k : Ok a y.1) => ?_) ?_; (on_goal 1 => clear_value y); on_goal 2 => subst y)
    | (intro y; subst y)
    | lift_lets
    | with_reducible apply noteBand_ok
    | with_reducible apply modBlks_ok
    | (fail_if_no_progress with_reducible refine Ok.upd ?_ (by with_unfolding_all rfl))
    | split

theorem moveSystem_ok {a s : State} (n : Nat) (hs : Ok a s) : Ok a (moveSystem n s) := by
  unfold moveSystem
  repeat' first
    | with_reducible assumption
    | (fail_if_no_progress with_reducible refine Ok.upd ?_ (by with_unfolding_all rfl))
    | split

theorem dissolve_ok {a s : State} (n : Nat) (hs : Ok a s) : Ok a (dissolve n s) := by
  unfold dissolve
  repeat' first
    | with_reducible assumption
    | (intro y; refine (fun (k : Ok a y) => ?_) ?_; (on_goal 1 => clear_value y); on_goal 2 => subst y)
    | (intro y; refine (fun (k : Ok a y.1) => ?_) ?_; (on_goal 1 => clear_value y); on_goal 2 => subst y)
    | (intro y; subst y)
    | lift_lets
    | with_reducible apply modBand_ok
    | with_reducible apply checkWorn_ok
    | with_reducible apply moveSystem_ok
    | with_reducible apply resizeCache_ok
    | with_reducible apply noteBand_ok
    | (fail_if_no_progress with_reducible refine Ok.upd ?_ (by with_unfolding_all rfl))
    | split

theorem mendBand_ok {a s : State} (n : Nat) (hs : Ok a s) : Ok a (mendBand n s) := by
  unfold mendBand
  repeat' first
    | with_reducible assumption
    | with_reducible apply modBand_ok
    | with_reducible apply dissolve_ok
    | (fail_if_no_progress with_reducible refine Ok.upd ?_ (by with_unfolding_all rfl))
    | split

theorem startMove_ok {a s : State} (slot cls : Nat) (stroke : Option Nat) (block : Nat) (hs : Ok a s) : Ok a (startMove slot cls stroke block s) := by
  unfold startMove
  repeat' first
    | with_reducible assumption
    | (intro y; refine (fun (k : Ok a y) => ?_) ?_; (on_goal 1 => clear_value y); on_goal 2 => subst y)
    | (intro y; refine (fun (k : Ok a y.1) => ?_) ?_; (on_goal 1 => clear_value y); on_goal 2 => subst y)
    | (intro y; subst y)
    | lift_lets
    | with_reducible apply startRd_ok
    | (fail_if_no_progress with_reducible refine Ok.upd ?_ (by with_unfolding_all rfl))
    | split

theorem startCopies_ok {a s : State} (n cls : Nat) (slots : List Nat) (hs : Ok a s) : Ok a (startCopies n cls slots s) := by
  unfold startCopies
  repeat' first
    | with_reducible assumption
    | (intro y; refine (fun (k : Ok a y) => ?_) ?_; (on_goal 1 => clear_value y); on_goal 2 => subst y)
    | (intro y; refine (fun (k : Ok a y.1) => ?_) ?_; (on_goal 1 => clear_value y); on_goal 2 => subst y)
    | (intro y; subst y)
    | lift_lets
    | with_reducible apply startMove_ok
    | with_reducible refine Ok.foldl ?_ (fun _ _ _ => ?_)
    | (fail_if_no_progress with_reducible refine Ok.upd ?_ (by with_unfolding_all rfl))
    | split

theorem startEmptying_ok {a s : State} (n kind cls : Nat) (hs : Ok a s) : Ok a (startEmptying n kind cls s) := by
  unfold startEmptying
  repeat' first
    | with_reducible assumption
    | (intro y; refine (fun (k : Ok a y) => ?_) ?_; (on_goal 1 => clear_value y); on_goal 2 => subst y)
    | (intro y; refine (fun (k : Ok a y.1) => ?_) ?_; (on_goal 1 => clear_value y); on_goal 2 => subst y)
    | (intro y; subst y)
    | lift_lets
    | with_reducible apply startCopies_ok
    | (fail_if_no_progress with_reducible refine Ok.upd ?_ (by with_unfolding_all rfl))
    | split

theorem copyNew_ok {a s : State} (hs : Ok a s) : Ok a (copyNew s) := by
  unfold copyNew
  repeat' first
    | with_reducible assumption
    | with_reducible apply startCopies_ok
    | with_reducible refine Ok.foldl ?_ (fun _ _ _ => ?_)
    | (fail_if_no_progress with_reducible refine Ok.upd ?_ (by with_unfolding_all rfl))
    | split

theorem raiseRefresh_ok {a s : State} (n cls : Nat) (hs : Ok a s) : Ok a (raiseRefresh n cls s) := by
  unfold raiseRefresh
  repeat' first
    | with_reducible assumption
    | (intro y; refine (fun (k : Ok a y) => ?_) ?_; (on_goal 1 => clear_value y); on_goal 2 => subst y)
    | (intro y; refine (fun (k : Ok a y.1) => ?_) ?_; (on_goal 1 => clear_value y); on_goal 2 => subst y)
    | (intro y; subst y)
    | lift_lets
    | with_reducible apply modEmptying_ok
    | with_reducible apply modMoves_ok
    | (fail_if_no_progress with_reducible refine Ok.upd ?_ (by with_unfolding_all rfl))
    | split

theorem refreshBand_ok {a s : State} (n cls : Nat) (hs : Ok a s) : Ok a (refreshBand n cls s) := by
  unfold refreshBand
  repeat' first
    | with_reducible assumption
    | (intro y; refine (fun (k : Ok a y) => ?_) ?_; (on_goal 1 => clear_value y); on_goal 2 => subst y)
    | (intro y; refine (fun (k : Ok a y.1) => ?_) ?_; (on_goal 1 => clear_value y); on_goal 2 => subst y)
    | (intro y; subst y)
    | lift_lets
    | with_reducible apply modBand_ok
    | with_reducible apply raiseRefresh_ok
    | with_reducible apply startEmptying_ok
    | (fail_if_no_progress with_reducible refine Ok.upd ?_ (by with_unfolding_all rfl))
    | split

theorem noteCopied_ok {a s : State} (n slots : Nat) (hs : Ok a s) : Ok a (noteCopied n slots s) := by
  unfold noteCopied
  repeat' first
    | with_reducible assumption
    | with_reducible apply modEmptying_ok
    | (fail_if_no_progress with_reducible refine Ok.upd ?_ (by with_unfolding_all rfl))
    | split

theorem copyOut_ok {a s : State} (m : Move) (x : Slot) (hs : Ok a s) : Ok a (copyOut m x s) := by
  unfold copyOut
  repeat' first
    | with_reducible assumption
    | (intro y; refine (fun (k : Ok a y) => ?_) ?_; (on_goal 1 => clear_value y); on_goal 2 => subst y)
    | (intro y; refine (fun (k : Ok a y.1) => ?_) ?_; (on_goal 1 => clear_value y); on_goal 2 => subst y)
    | (intro y; subst y)
    | lift_lets
    | with_reducible apply append_ok
    | with_reducible apply bindWp_ok
    | with_reducible apply modMoves_ok
    | with_reducible apply noteCopied_ok
    | (fail_if_no_progress with_reducible refine Ok.upd ?_ (by with_unfolding_all rfl))
    | split

theorem closeCopies_ok {a s : State} (n : Nat) (hs : Ok a s) : Ok a (closeCopies n s) := by
  unfold closeCopies
  repeat' first
    | with_reducible assumption
    | (intro y; refine (fun (k : Ok a y) => ?_) ?_; (on_goal 1 => clear_value y); on_goal 2 => subst y)
    | (intro y; refine (fun (k : Ok a y.1) => ?_) ?_; (on_goal 1 => clear_value y); on_goal 2 => subst y)
    | (intro y; subst y)
    | lift_lets
    | with_reducible apply closeBandStripes_ok
    | with_reducible refine Ok.foldl ?_ (fun _ _ _ => ?_)
    | (fail_if_no_progress with_reducible refine Ok.upd ?_ (by with_unfolding_all rfl))
    | split

theorem placeStroke_ok {a s : State} (k : Nat) (hs : Ok a s) : Ok a (placeStroke k s) := by
  unfold placeStroke
  split
  · exact hs
  · extract_lets src cws pt t n
    have h1 : Ok a t.1 := append_ok _ _ _ _ (bindWp_ok _ _ hs)
    split
    · exact h1
    · extract_lets u
      have h2 : Ok a u := modMoves_ok _ _ (noteCopied_ok _ _ h1)
      split
      · exact closeCopies_ok _ h2
      · exact closeBandStripes_ok _ _ h2

theorem movePending_ok {a s : State} (old new : Nat) (hs : Ok a s) : Ok a (movePending old new s) := by
  unfold movePending
  repeat' first
    | with_reducible assumption
    | (intro y; refine (fun (k : Ok a y) => ?_) ?_; (on_goal 1 => clear_value y); on_goal 2 => subst y)
    | (intro y; refine (fun (k : Ok a y.1) => ?_) ?_; (on_goal 1 => clear_value y); on_goal 2 => subst y)
    | (intro y; subst y)
    | lift_lets
    | (fail_if_no_progress with_reducible refine Ok.upd ?_ (by with_unfolding_all rfl))
    | split

theorem logCopies_ok {a s : State} (l : List Move) (hs : Ok a s) : Ok a (logCopies l s) := by
  unfold logCopies
  repeat' first
    | with_reducible assumption
    | (intro y; refine (fun (k : Ok a y) => ?_) ?_; (on_goal 1 => clear_value y); on_goal 2 => subst y)
    | (intro y; refine (fun (k : Ok a y.1) => ?_) ?_; (on_goal 1 => clear_value y); on_goal 2 => subst y)
    | (intro y; subst y)
    | lift_lets
    | with_reducible apply movePending_ok
    | with_reducible apply addRec_ok
    | with_reducible refine Ok.foldl ?_ (fun _ _ _ => ?_)
    | (fail_if_no_progress with_reducible refine Ok.upd ?_ (by with_unfolding_all rfl))
    | split

theorem remap_ok {a s : State} (m : Move) (hs : Ok a s) : Ok a (remap m s) := by
  unfold remap
  repeat' first
    | with_reducible assumption
    | (fail_if_no_progress with_reducible refine Ok.upd ?_ (by with_unfolding_all rfl))
    | split

theorem logStroke_ok {a s : State} (k : Nat) (hs : Ok a s) : Ok a (logStroke k s) := by
  unfold logStroke
  repeat' first
    | with_reducible assumption
    | (intro y; refine (fun (k : Ok a y) => ?_) ?_; (on_goal 1 => clear_value y); on_goal 2 => subst y)
    | (intro y; refine (fun (k : Ok a y.1) => ?_) ?_; (on_goal 1 => clear_value y); on_goal 2 => subst y)
    | (intro y; subst y)
    | lift_lets
    | with_reducible apply logCopies_ok
    | (fail_if_no_progress with_reducible refine Ok.upd ?_ (by with_unfolding_all rfl))
    | split

theorem movesDone_ok {a s : State} (hs : Ok a s) : Ok a (movesDone s) := by
  unfold movesDone
  repeat' first
    | with_reducible assumption
    | (intro y; refine (fun (k : Ok a y) => ?_) ?_; (on_goal 1 => clear_value y); on_goal 2 => subst y)
    | (intro y; refine (fun (k : Ok a y.1) => ?_) ?_; (on_goal 1 => clear_value y); on_goal 2 => subst y)
    | (intro y; subst y)
    | lift_lets
    | with_reducible apply remap_ok
    | with_reducible apply logCopies_ok
    | with_reducible apply logStroke_ok
    | with_reducible refine Ok.foldl ?_ (fun _ _ _ => ?_)
    | (fail_if_no_progress with_reducible refine Ok.upd ?_ (by with_unfolding_all rfl))
    | split

theorem noteLogged_ok {a s : State} (hs : Ok a s) : Ok a (noteLogged s) := by
  unfold noteLogged
  repeat' first
    | with_reducible assumption
    | (intro y; refine (fun (k : Ok a y) => ?_) ?_; (on_goal 1 => clear_value y); on_goal 2 => subst y)
    | (intro y; refine (fun (k : Ok a y.1) => ?_) ?_; (on_goal 1 => clear_value y); on_goal 2 => subst y)
    | (intro y; subst y)
    | lift_lets
    | (fail_if_no_progress with_reducible refine Ok.upd ?_ (by with_unfolding_all rfl))
    | split

theorem startErase_ok {a s : State} (n cls : Nat) (hs : Ok a s) : Ok a (startErase n cls s) := by
  unfold startErase
  repeat' first
    | with_reducible assumption
    | (intro y; refine (fun (k : Ok a y) => ?_) ?_; (on_goal 1 => clear_value y); on_goal 2 => subst y)
    | (intro y; refine (fun (k : Ok a y.1) => ?_) ?_; (on_goal 1 => clear_value y); on_goal 2 => subst y)
    | (intro y; subst y)
    | lift_lets
    | with_reducible apply queueErase_ok
    | with_reducible apply modBand_ok
    | (fail_if_no_progress with_reducible refine Ok.upd ?_ (by with_unfolding_all rfl))
    | split

theorem eraseReady_ok {a s : State} (hs : Ok a s) : Ok a (eraseReady s) := by
  unfold eraseReady
  repeat' first
    | with_reducible assumption
    | with_reducible apply startErase_ok
    | with_reducible refine Ok.foldl ?_ (fun _ _ _ => ?_)
    | (fail_if_no_progress with_reducible refine Ok.upd ?_ (by with_unfolding_all rfl))
    | split

theorem erasedOn_ok {a s : State} (n d : Nat) (hs : Ok a s) : Ok a (erasedOn n d s) := modBlks_ok _ _ _ hs

theorem erased_ok {a s : State} (n : Nat) (hs : Ok a s) : Ok a (erased n s) := by
  unfold erased
  repeat' first
    | with_reducible assumption
    | (intro y; refine (fun (k : Ok a y) => ?_) ?_; (on_goal 1 => clear_value y); on_goal 2 => subst y)
    | (intro y; refine (fun (k : Ok a y.1) => ?_) ?_; (on_goal 1 => clear_value y); on_goal 2 => subst y)
    | (intro y; subst y)
    | lift_lets
    | with_reducible apply retireBlock_ok
    | with_reducible apply mendBand_ok
    | with_reducible apply modBand_ok
    | with_reducible apply poolUpdate_ok
    | with_reducible apply resizeCache_ok
    | with_reducible apply noteBand_ok
    | with_reducible refine Ok.foldl ?_ (fun _ _ _ => ?_)
    | (fail_if_no_progress with_reducible refine Ok.upd ?_ (by with_unfolding_all rfl))
    | split

theorem replaceSlots_ok {a s : State} (slots : List Slot) (hs : Ok a s) : Ok a (replaceSlots slots s) := by
  unfold replaceSlots
  repeat' first
    | with_reducible assumption
    | (intro y; refine (fun (k : Ok a y) => ?_) ?_; (on_goal 1 => clear_value y); on_goal 2 => subst y)
    | (intro y; refine (fun (k : Ok a y.1) => ?_) ?_; (on_goal 1 => clear_value y); on_goal 2 => subst y)
    | (intro y; subst y)
    | lift_lets
    | with_reducible apply placeWrite_ok
    | with_reducible apply copyOut_ok
    | with_reducible apply pushStripes_ok
    | with_reducible apply placeStroke_ok
    | with_reducible refine Ok.foldl ?_ (fun _ _ _ => ?_)
    | (fail_if_no_progress with_reducible refine Ok.upd ?_ (by with_unfolding_all rfl))
    | split

theorem shutBand_ok {a s : State} (early : Bool) (n : Nat) (hs : Ok a s) : Ok a (shutBand early n s) := by
  unfold shutBand
  repeat' first
    | with_reducible assumption
    | with_reducible apply noteBand_ok
    | with_reducible apply modBand_ok
    | (fail_if_no_progress with_reducible refine Ok.upd ?_ (by with_unfolding_all rfl))
    | split

theorem refreshDue_ok {a s : State} (n : Nat) (hs : Ok a s) : Ok a (refreshDue n s) := by
  unfold refreshDue
  repeat' first
    | with_reducible assumption
    | with_reducible apply refreshBand_ok
    | (fail_if_no_progress with_reducible refine Ok.upd ?_ (by with_unfolding_all rfl))
    | split

theorem closeBand_ok {a s : State} (n cls : Nat) (hs : Ok a s) : Ok a (closeBand n cls s) := by
  unfold closeBand
  repeat' first
    | with_reducible assumption
    | with_reducible apply launch_ok
    | with_reducible apply modBand_ok
    | with_reducible apply refreshDue_ok
    | with_reducible apply shutBand_ok
    | (fail_if_no_progress with_reducible refine Ok.upd ?_ (by with_unfolding_all rfl))
    | split

theorem systemBand_ok {a s : State} (fuel : Nat) (hs : Ok a s) : Ok a (systemBand fuel s).1 := by
  induction fuel generalizing s with
  | zero => exact hs
  | succ k ih =>
    unfold systemBand
    split
    · exact hs
    · split
      · exact hs
      · dsimp only
        split
        · exact ih (mendBand_ok _ hs)
        · exact setWp_ok _ (openBand_ok _ _ _ _ (mendBand_ok _ hs))

theorem launchPage_ok {a s : State} (seq : Nat) (hs : Ok a s) : Ok a (launchPage seq s) := by
  have k := systemBand_ok 4 hs
  unfold launchPage
  dsimp only
  split
  · exact k
  · exact launch_ok _ _ _ _ (Ok.upd (modBand_ok _ _ k) (by with_unfolding_all rfl))

theorem relaunchPages_ok {a s : State} (ids : List Nat) (hs : Ok a s) : Ok a (relaunchPages ids s) := by
  unfold relaunchPages
  repeat' first
    | with_reducible assumption
    | (intro y; refine (fun (k : Ok a y) => ?_) ?_; (on_goal 1 => clear_value y); on_goal 2 => subst y)
    | (intro y; refine (fun (k : Ok a y.1) => ?_) ?_; (on_goal 1 => clear_value y); on_goal 2 => subst y)
    | (intro y; subst y)
    | lift_lets
    | with_reducible apply launchPage_ok
    | with_reducible refine Ok.foldl ?_ (fun _ _ _ => ?_)
    | (fail_if_no_progress with_reducible refine Ok.upd ?_ (by with_unfolding_all rfl))
    | split

theorem testProgrammed_ok {a s : State} (n : Nat) (hs : Ok a s) : Ok a (testProgrammed n s) := by
  unfold testProgrammed
  repeat' first
    | with_reducible assumption
    | (intro y; refine (fun (k : Ok a y) => ?_) ?_; (on_goal 1 => clear_value y); on_goal 2 => subst y)
    | (intro y; refine (fun (k : Ok a y.1) => ?_) ?_; (on_goal 1 => clear_value y); on_goal 2 => subst y)
    | (intro y; subst y)
    | lift_lets
    | with_reducible apply startErase_ok
    | with_reducible apply modBand_ok
    | (fail_if_no_progress with_reducible refine Ok.upd ?_ (by with_unfolding_all rfl))
    | split

theorem programVerified_ok {a s : State} (p : Prog) (hs : Ok a s) : Ok a (programVerified p s) := by
  unfold programVerified
  repeat' first
    | with_reducible assumption
    | (intro y; refine (fun (k : Ok a y) => ?_) ?_; (on_goal 1 => clear_value y); on_goal 2 => subst y)
    | (intro y; refine (fun (k : Ok a y.1) => ?_) ?_; (on_goal 1 => clear_value y); on_goal 2 => subst y)
    | (intro y; subst y)
    | lift_lets
    | with_reducible apply endReleases_ok
    | with_reducible apply enterPending_ok
    | with_reducible apply enterReady_ok
    | with_reducible apply testProgrammed_ok
    | with_reducible apply closeBand_ok
    | with_reducible apply movesDone_ok
    | with_reducible apply eraseReady_ok
    | with_reducible apply noteLogged_ok
    | with_reducible apply copyNew_ok
    | with_reducible refine Ok.foldl ?_ (fun _ _ _ => ?_)
    | (fail_if_no_progress with_reducible refine Ok.upd ?_ (by with_unfolding_all rfl))
    | split

theorem testFound_ok {a s : State} (hs : Ok a s) : Ok a (testFound s) := by
  unfold testFound
  repeat' first
    | with_reducible assumption
    | (fail_if_no_progress with_reducible refine Ok.upd ?_ (by with_unfolding_all rfl))
    | split

theorem abandonBand_ok {a s : State} (n : Nat) (hs : Ok a s) : Ok a (abandonBand n s) := by
  unfold abandonBand
  repeat' first
    | with_reducible assumption
    | (intro y; refine (fun (k : Ok a y) => ?_) ?_; (on_goal 1 => clear_value y); on_goal 2 => subst y)
    | (intro y; refine (fun (k : Ok a y.1) => ?_) ?_; (on_goal 1 => clear_value y); on_goal 2 => subst y)
    | (intro y; subst y)
    | lift_lets
    | with_reducible apply shutBand_ok
    | with_reducible apply modBand_ok
    | with_reducible apply testFound_ok
    | with_reducible apply relaunchPages_ok
    | with_reducible apply eraseReady_ok
    | with_reducible apply noteLogged_ok
    | with_reducible apply startEmptying_ok
    | with_reducible apply checkWorn_ok
    | with_reducible apply replaceSlots_ok
    | (fail_if_no_progress with_reducible refine Ok.upd ?_ (by with_unfolding_all rfl))
    | split

theorem programFailed_ok {a s : State} (p : Prog) (d plane : Nat) (hs : Ok a s) : Ok a (programFailed p d plane s) := by
  unfold programFailed
  repeat' first
    | with_reducible assumption
    | with_reducible apply abandonBand_ok
    | with_reducible apply retireBlock_ok
    | (fail_if_no_progress with_reducible refine Ok.upd ?_ (by with_unfolding_all rfl))
    | split

theorem startProbe_ok {a s : State} (die band plane cls : Nat) (rd : Option Nat) (test : Bool) (hs : Ok a s) : Ok a (startProbe die band plane cls rd test s) := by
  unfold startProbe
  repeat' first
    | with_reducible assumption
    | (intro y; refine (fun (k : Ok a y) => ?_) ?_; (on_goal 1 => clear_value y); on_goal 2 => subst y)
    | (intro y; refine (fun (k : Ok a y.1) => ?_) ?_; (on_goal 1 => clear_value y); on_goal 2 => subst y)
    | (intro y; subst y)
    | lift_lets
    | with_reducible apply enqueue_ok
    | (fail_if_no_progress with_reducible refine Ok.upd ?_ (by with_unfolding_all rfl))
    | split

theorem sweepDie_ok {a s : State} (d : Nat) (hs : Ok a s) : Ok a (sweepDie d s) := by
  unfold sweepDie
  repeat' first
    | with_reducible assumption
    | with_reducible apply startProbe_ok
    | (fail_if_no_progress with_reducible refine Ok.upd ?_ (by with_unfolding_all rfl))
    | split

theorem sweepDies_ok {a s : State} (hs : Ok a s) : Ok a (sweepDies s) := by
  unfold sweepDies
  repeat' first
    | with_reducible assumption
    | with_reducible apply sweepDie_ok
    | with_reducible refine Ok.foldl ?_ (fun _ _ _ => ?_)
    | (fail_if_no_progress with_reducible refine Ok.upd ?_ (by with_unfolding_all rfl))
    | split

theorem addSweep_ok {a s : State} (l : List (Nat × Nat × Nat)) (hs : Ok a s) : Ok a (addSweep l s) := by
  unfold addSweep
  repeat' first
    | with_reducible assumption
    | with_reducible apply sweepDies_ok
    | (fail_if_no_progress with_reducible refine Ok.upd ?_ (by with_unfolding_all rfl))
    | split

theorem rescueBand_ok {a s : State} (d n : Nat) (hs : Ok a s) : Ok a (rescueBand d n s) := by
  unfold rescueBand
  repeat' first
    | with_reducible assumption
    | (intro y; refine (fun (k : Ok a y) => ?_) ?_; (on_goal 1 => clear_value y); on_goal 2 => subst y)
    | (intro y; refine (fun (k : Ok a y.1) => ?_) ?_; (on_goal 1 => clear_value y); on_goal 2 => subst y)
    | (intro y; subst y)
    | lift_lets
    | with_reducible apply abandonBand_ok
    | with_reducible apply modProgs_ok
    | with_reducible apply modBand_ok
    | with_reducible apply replaceSlots_ok
    | with_reducible apply closeBand_ok
    | with_reducible apply programVerified_ok
    | with_reducible refine Ok.foldl ?_ (fun _ _ _ => ?_)
    | (fail_if_no_progress with_reducible refine Ok.upd ?_ (by with_unfolding_all rfl))
    | split

theorem reconstruct_ok {a s : State} (r : Rd) (gone : Bool) (hs : Ok a s) : Ok a (reconstruct r gone s) := by
  unfold reconstruct
  repeat' first
    | with_reducible assumption
    | with_reducible apply startPeers_ok
    | with_reducible apply modRd_ok
    | (fail_if_no_progress with_reducible refine Ok.upd ?_ (by with_unfolding_all rfl))
    | split

theorem leaveDie_ok {a s : State} (r : Rd) (hs : Ok a s) : Ok a (leaveDie r s) := by
  unfold leaveDie
  repeat' first
    | with_reducible assumption
    | with_reducible apply modRd_ok
    | with_reducible apply reconstruct_ok
    | (fail_if_no_progress with_reducible refine Ok.upd ?_ (by with_unfolding_all rfl))
    | split

theorem dieFound_ok {a s : State} (d : Nat) (hs : Ok a s) : Ok a (dieFound d s) := by
  unfold dieFound
  repeat' first
    | with_reducible assumption
    | (intro y; refine (fun (k : Ok a y) => ?_) ?_; (on_goal 1 => clear_value y); on_goal 2 => subst y)
    | (intro y; refine (fun (k : Ok a y.1) => ?_) ?_; (on_goal 1 => clear_value y); on_goal 2 => subst y)
    | (intro y; subst y)
    | lift_lets
    | with_reducible apply setDie_ok
    | with_reducible apply leaveDie_ok
    | with_reducible apply addRec_ok
    | with_reducible apply rescueBand_ok
    | with_reducible apply modBand_ok
    | with_reducible apply erased_ok
    | with_reducible refine Ok.foldl ?_ (fun _ _ _ => ?_)
    | (fail_if_no_progress with_reducible refine Ok.upd ?_ (by with_unfolding_all rfl))
    | split

theorem rebuildNext_ok {a s : State} (hs : Ok a s) : Ok a (rebuildNext s) := by
  unfold rebuildNext
  repeat' first
    | with_reducible assumption
    | with_reducible apply eraseReady_ok
    | with_reducible apply noteLogged_ok
    | with_reducible apply startEmptying_ok
    | (fail_if_no_progress with_reducible refine Ok.upd ?_ (by with_unfolding_all rfl))
    | split

theorem narrowFree_ok {a s : State} (hs : Ok a s) : Ok a (narrowFree s) := by
  unfold narrowFree
  repeat' first
    | with_reducible assumption
    | (intro y; refine (fun (k : Ok a y) => ?_) ?_; (on_goal 1 => clear_value y); on_goal 2 => subst y)
    | (intro y; refine (fun (k : Ok a y.1) => ?_) ?_; (on_goal 1 => clear_value y); on_goal 2 => subst y)
    | (intro y; subst y)
    | lift_lets
    | (fail_if_no_progress with_reducible refine Ok.upd ?_ (by with_unfolding_all rfl))
    | split

theorem addPage_ok {a s : State} (p : LogPage) (hs : Ok a s) : Ok a (addPage p s) := by
  unfold addPage
  repeat' first
    | with_reducible assumption
    | (fail_if_no_progress with_reducible refine Ok.upd ?_ (by with_unfolding_all rfl))
    | split

theorem openMedia_ok {a s : State} (hs : Ok a s) : Ok a (openMedia s) := by
  unfold openMedia
  repeat' first
    | with_reducible assumption
    | (intro y; refine (fun (k : Ok a y) => ?_) ?_; (on_goal 1 => clear_value y); on_goal 2 => subst y)
    | (intro y; refine (fun (k : Ok a y.1) => ?_) ?_; (on_goal 1 => clear_value y); on_goal 2 => subst y)
    | (intro y; subst y)
    | lift_lets
    | with_reducible apply addPage_ok
    | (fail_if_no_progress with_reducible refine Ok.upd ?_ (by with_unfolding_all rfl))
    | split

theorem dropMark_ok {a s : State} (hs : Ok a s) : Ok a (dropMark s) := by
  unfold dropMark
  repeat' first
    | with_reducible assumption
    | with_reducible apply addPage_ok
    | (fail_if_no_progress with_reducible refine Ok.upd ?_ (by with_unfolding_all rfl))
    | split

theorem fillPage_ok {a s : State} (hs : Ok a s) : Ok a (fillPage s) := by
  unfold fillPage
  repeat' first
    | with_reducible assumption
    | (intro y; refine (fun (k : Ok a y) => ?_) ?_; (on_goal 1 => clear_value y); on_goal 2 => subst y)
    | (intro y; refine (fun (k : Ok a y.1) => ?_) ?_; (on_goal 1 => clear_value y); on_goal 2 => subst y)
    | (intro y; subst y)
    | lift_lets
    | with_reducible apply launchPage_ok
    | (fail_if_no_progress with_reducible refine Ok.upd ?_ (by with_unfolding_all rfl))
    | split

theorem completePersistent_ok {a s : State} (hs : Ok a s) : Ok a (completePersistent s) := by
  unfold completePersistent
  repeat' first
    | with_reducible assumption
    | (intro y; refine (fun (k : Ok a y) => ?_) ?_; (on_goal 1 => clear_value y); on_goal 2 => subst y)
    | (intro y; refine (fun (k : Ok a y.1) => ?_) ?_; (on_goal 1 => clear_value y); on_goal 2 => subst y)
    | (intro y; subst y)
    | lift_lets
    | with_reducible apply succeed_ok
    | with_reducible refine Ok.foldl ?_ (fun _ _ _ => ?_)
    | (fail_if_no_progress with_reducible refine Ok.upd ?_ (by with_unfolding_all rfl))
    | split

theorem settleCovered_ok {a s : State} (hs : Ok a s) : Ok a (settleCovered s) := by
  unfold settleCovered
  repeat' first
    | with_reducible assumption
    | (fail_if_no_progress with_reducible refine Ok.upd ?_ (by with_unfolding_all rfl))
    | split

theorem beginCheckpoint_ok {a s : State} (hs : Ok a s) : Ok a (beginCheckpoint s) := by
  unfold beginCheckpoint
  repeat' first
    | with_reducible assumption
    | (intro y; refine (fun (k : Ok a y) => ?_) ?_; (on_goal 1 => clear_value y); on_goal 2 => subst y)
    | (intro y; refine (fun (k : Ok a y.1) => ?_) ?_; (on_goal 1 => clear_value y); on_goal 2 => subst y)
    | (intro y; subst y)
    | lift_lets
    | with_reducible apply addRec_ok
    | with_reducible refine Ok.foldl ?_ (fun _ _ _ => ?_)
    | (fail_if_no_progress with_reducible refine Ok.upd ?_ (by with_unfolding_all rfl))
    | split

theorem checkpointValid_ok {a s : State} (hs : Ok a s) : Ok a (checkpointValid s) := by
  unfold checkpointValid
  repeat' first
    | with_reducible assumption
    | (fail_if_no_progress with_reducible refine Ok.upd ?_ (by with_unfolding_all rfl))
    | split

theorem afterPage_ok {a s : State} (hs : Ok a s) : Ok a (afterPage s) := by
  unfold afterPage
  repeat' first
    | with_reducible assumption
    | with_reducible apply eraseReady_ok
    | with_reducible apply noteLogged_ok
    | with_reducible apply checkpointValid_ok
    | with_reducible apply completePersistent_ok
    | with_reducible apply settleCovered_ok
    | (fail_if_no_progress with_reducible refine Ok.upd ?_ (by with_unfolding_all rfl))
    | split

theorem pageVerified_ok {a s : State} (hs : Ok a s) : Ok a (pageVerified s) := by
  unfold pageVerified
  repeat' first
    | with_reducible assumption
    | with_reducible apply afterPage_ok
    | (fail_if_no_progress with_reducible refine Ok.upd ?_ (by with_unfolding_all rfl))
    | split

theorem flushLog_ok {a s : State} (dump : Bool) (fuel : Nat) (h : Ok a s) : Ok a (flushLog dump fuel s) := by
  induction fuel generalizing s with
  | zero => exact h
  | succ k ih =>
    unfold flushLog
    split
    · exact ih (pageVerified_ok h)
    · split
      · exact h
      · exact ih (afterPage_ok (addPage_ok _ (Ok.upd h rfl)))

theorem finishShutdown_ok {a s : State} (hs : Ok a s) : Ok a (finishShutdown s) := by
  unfold finishShutdown
  repeat' first
    | with_reducible assumption
    | (intro y; refine (fun (k : Ok a y) => ?_) ?_; (on_goal 1 => clear_value y); on_goal 2 => subst y)
    | (intro y; refine (fun (k : Ok a y.1) => ?_) ?_; (on_goal 1 => clear_value y); on_goal 2 => subst y)
    | (intro y; subst y)
    | lift_lets
    | with_reducible apply openMedia_ok
    | with_reducible apply flushLog_ok
    | with_reducible apply beginCheckpoint_ok
    | with_reducible apply afterPage_ok
    | with_reducible apply addPage_ok
    | (fail_if_no_progress with_reducible refine Ok.upd ?_ (by with_unfolding_all rfl))
    | split

theorem dumpAbort_ok {a s : State} (hs : Ok a s) : Ok a (dumpAbort s) := by
  unfold dumpAbort
  repeat' first
    | with_reducible assumption
    | with_reducible apply removeItem_ok
    | with_reducible refine Ok.foldl ?_ (fun _ _ _ => ?_)
    | (fail_if_no_progress with_reducible refine Ok.upd ?_ (by with_unfolding_all rfl))
    | split

theorem dumpBlock_ok {a s : State} (x : Staged) (hs : Ok a s) : Ok a (dumpBlock x s) := by
  unfold dumpBlock
  repeat' first
    | with_reducible assumption
    | (intro y; refine (fun (k : Ok a y) => ?_) ?_; (on_goal 1 => clear_value y); on_goal 2 => subst y)
    | (intro y; refine (fun (k : Ok a y.1) => ?_) ?_; (on_goal 1 => clear_value y); on_goal 2 => subst y)
    | (intro y; subst y)
    | lift_lets
    | with_reducible apply setWp_ok
    | with_reducible apply formBand_ok
    | with_reducible apply stampTemp_ok
    | with_reducible apply stampZone_ok
    | with_reducible apply modBand_ok
    | (fail_if_no_progress with_reducible refine Ok.upd ?_ (by with_unfolding_all rfl))
    | split

theorem dumpData_ok {a s : State} (hs : Ok a s) : Ok a (dumpData s) := by
  unfold dumpData
  repeat' first
    | with_reducible assumption
    | (intro y; refine (fun (k : Ok a y) => ?_) ?_; (on_goal 1 => clear_value y); on_goal 2 => subst y)
    | (intro y; refine (fun (k : Ok a y.1) => ?_) ?_; (on_goal 1 => clear_value y); on_goal 2 => subst y)
    | (intro y; subst y)
    | lift_lets
    | with_reducible apply dumpBlock_ok
    | with_reducible apply endReleases_ok
    | with_reducible apply enterPending_ok
    | with_reducible apply enterReady_ok
    | with_reducible refine Ok.foldl ?_ (fun _ _ _ => ?_)
    | (fail_if_no_progress with_reducible refine Ok.upd ?_ (by with_unfolding_all rfl))
    | split

theorem dumpWhole_ok {a s : State} (hs : Ok a s) : Ok a (dumpWhole s) := by
  unfold dumpWhole
  repeat' first
    | with_reducible assumption
    | (intro y; refine (fun (k : Ok a y) => ?_) ?_; (on_goal 1 => clear_value y); on_goal 2 => subst y)
    | (intro y; refine (fun (k : Ok a y.1) => ?_) ?_; (on_goal 1 => clear_value y); on_goal 2 => subst y)
    | (intro y; subst y)
    | lift_lets
    | with_reducible apply dumpData_ok
    | with_reducible apply openMedia_ok
    | with_reducible apply flushLog_ok
    | with_reducible apply addPage_ok
    | (fail_if_no_progress with_reducible refine Ok.upd ?_ (by with_unfolding_all rfl))
    | split

theorem reissueErases_ok {a s : State} (hs : Ok a s) : Ok a (reissueErases s) := by
  unfold reissueErases
  repeat' first
    | with_reducible assumption
    | (intro y; refine (fun (k : Ok a y) => ?_) ?_; (on_goal 1 => clear_value y); on_goal 2 => subst y)
    | (intro y; refine (fun (k : Ok a y.1) => ?_) ?_; (on_goal 1 => clear_value y); on_goal 2 => subst y)
    | (intro y; subst y)
    | lift_lets
    | with_reducible apply modBand_ok
    | with_reducible apply erased_ok
    | with_reducible apply enqueue_ok
    | with_reducible refine Ok.foldl ?_ (fun _ _ _ => ?_)
    | (fail_if_no_progress with_reducible refine Ok.upd ?_ (by with_unfolding_all rfl))
    | split

theorem countProbes_ok {a s : State} (errors : List (List (List Nat))) (hs : Ok a s) : Ok a (countProbes errors s) := by
  unfold countProbes
  repeat' first
    | with_reducible assumption
    | with_reducible apply modBlks_ok
    | with_reducible refine Ok.foldl ?_ (fun _ _ _ => ?_)
    | (fail_if_no_progress with_reducible refine Ok.upd ?_ (by with_unfolding_all rfl))
    | split

theorem withNat_mem {x y : Nat} {l : List Nat} (h : x ∈ l) : x ∈ withNat y l := by
  unfold withNat; split <;> simp [h]

theorem foldl_withNat_mem {x : Nat} (ys l : List Nat) (h : x ∈ l) : x ∈ ys.foldl (fun l x => withNat x l) l := by
  induction ys generalizing l with
  | nil => exact h
  | cons y ys ih => exact ih _ (withNat_mem h)

/-- Failed dies and channels are added to the media records, never removed. -/
theorem markFailed_ok {a s : State} (cls c : Nat) (dies : List Nat) (h : Ok a s) : Ok a (markFailed cls c dies s) := by
  refine Ok.foldl ?_ (fun _ _ z => modDie_ok _ _ z)
  exact ⟨h.unit, h.worn, fun d x => foldl_withNat_mem _ _ (h.dies d x),
    fun e x => by show e ∈ (if cls = 6 then withNat c s.rec_.failedChannels else s.rec_.failedChannels)
                  split
                  · exact withNat_mem (h.channels e x)
                  · exact h.channels e x,
    h.rulings, fun x => { h.sound x with }⟩

theorem failureFault_ok {a s : State} (cls d : Nat) (few : Bool) (hs : Ok a s) : Ok a (failureFault cls d few s) := by
  unfold failureFault
  repeat' first
    | with_reducible assumption
    | (intro y; refine (fun (k : Ok a y) => ?_) ?_; (on_goal 1 => clear_value y); on_goal 2 => subst y)
    | (intro y; refine (fun (k : Ok a y.1) => ?_) ?_; (on_goal 1 => clear_value y); on_goal 2 => subst y)
    | (intro y; subst y)
    | lift_lets
    | with_reducible apply recordFault_ok
    | (fail_if_no_progress with_reducible refine Ok.upd ?_ (by with_unfolding_all rfl))
    | split

theorem enterFailure_ok {a s : State} (cls d : Nat) (hs : Ok a s) : Ok a (enterFailure cls d s) := by
  unfold enterFailure
  repeat' first
    | with_reducible assumption
    | (intro y; refine (fun (k : Ok a y) => ?_) ?_; (on_goal 1 => clear_value y); on_goal 2 => subst y)
    | (intro y; refine (fun (k : Ok a y.1) => ?_) ?_; (on_goal 1 => clear_value y); on_goal 2 => subst y)
    | (intro y; subst y)
    | lift_lets
    | with_reducible apply markFailed_ok
    | with_reducible apply openMedia_ok
    | (fail_if_no_progress with_reducible refine Ok.upd ?_ (by with_unfolding_all rfl))
    | split

theorem beginRebuild_ok {a s : State} (cls d : Nat) (hs : Ok a s) : Ok a (beginRebuild cls d s) := by
  unfold beginRebuild
  repeat' first
    | with_reducible assumption
    | with_reducible apply checkWorn_ok
    | with_reducible apply rebuildNext_ok
    | with_reducible apply createRebuild_ok
    | with_reducible apply narrowFree_ok
    | (fail_if_no_progress with_reducible refine Ok.upd ?_ (by with_unfolding_all rfl))
    | split

theorem recordFailure_ok {a s : State} (cls d : Nat) (hs : Ok a s) : Ok a (recordFailure cls d s) := by
  unfold recordFailure
  repeat' first
    | with_reducible assumption
    | (intro y; refine (fun (k : Ok a y) => ?_) ?_; (on_goal 1 => clear_value y); on_goal 2 => subst y)
    | (intro y; refine (fun (k : Ok a y.1) => ?_) ?_; (on_goal 1 => clear_value y); on_goal 2 => subst y)
    | (intro y; subst y)
    | lift_lets
    | with_reducible apply enterFailure_ok
    | with_reducible apply failureFault_ok
    | with_reducible apply beginRebuild_ok
    | (fail_if_no_progress with_reducible refine Ok.upd ?_ (by with_unfolding_all rfl))
    | split

theorem dieFails_ok {a s : State} (d : Nat) (hs : Ok a s) : Ok a (dieFails d s) := by
  unfold dieFails
  repeat' first
    | with_reducible assumption
    | (intro y; refine (fun (k : Ok a y) => ?_) ?_; (on_goal 1 => clear_value y); on_goal 2 => subst y)
    | (intro y; refine (fun (k : Ok a y.1) => ?_) ?_; (on_goal 1 => clear_value y); on_goal 2 => subst y)
    | (intro y; subst y)
    | lift_lets
    | with_reducible apply dieFound_ok
    | with_reducible apply recordFailure_ok
    | (fail_if_no_progress with_reducible refine Ok.upd ?_ (by with_unfolding_all rfl))
    | split

theorem dropChannel_ok {a s : State} (c : Nat) (hs : Ok a s) : Ok a (dropChannel c s) := by
  unfold dropChannel
  repeat' first
    | with_reducible assumption
    | with_reducible apply dieFound_ok
    | with_reducible refine Ok.foldl ?_ (fun _ _ _ => ?_)
    | (fail_if_no_progress with_reducible refine Ok.upd ?_ (by with_unfolding_all rfl))
    | split

theorem failChannel_ok {a s : State} (c : Nat) (hs : Ok a s) : Ok a (failChannel c s) := by
  unfold failChannel
  repeat' first
    | with_reducible assumption
    | (intro y; refine (fun (k : Ok a y) => ?_) ?_; (on_goal 1 => clear_value y); on_goal 2 => subst y)
    | (intro y; refine (fun (k : Ok a y.1) => ?_) ?_; (on_goal 1 => clear_value y); on_goal 2 => subst y)
    | (intro y; subst y)
    | lift_lets
    | with_reducible apply failureFault_ok
    | with_reducible apply dropChannel_ok
    | with_reducible apply recordFailure_ok
    | (fail_if_no_progress with_reducible refine Ok.upd ?_ (by with_unfolding_all rfl))
    | split

theorem adoptHeld_ok {a s : State} (hs : Ok a s) : Ok a (adoptHeld s) := by
  unfold adoptHeld
  repeat' first
    | with_reducible assumption
    | (intro y; refine (fun (k : Ok a y) => ?_) ?_; (on_goal 1 => clear_value y); on_goal 2 => subst y)
    | (intro y; refine (fun (k : Ok a y.1) => ?_) ?_; (on_goal 1 => clear_value y); on_goal 2 => subst y)
    | (intro y; subst y)
    | lift_lets
    | with_reducible apply enterFailure_ok
    | with_reducible apply dropChannel_ok
    | with_reducible apply aliveUpdate_ok
    | with_reducible apply failureFault_ok
    | with_reducible apply beginRebuild_ok
    | with_reducible apply recordFailure_ok
    | with_reducible refine Ok.foldl ?_ (fun _ _ _ => ?_)
    | (fail_if_no_progress with_reducible refine Ok.upd ?_ (by with_unfolding_all rfl))
    | split

theorem testProbes_ok {a s : State} (l : List (Nat × Nat × Nat)) (hs : Ok a s) : Ok a (testProbes l s) := by
  unfold testProbes
  repeat' first
    | with_reducible assumption
    | with_reducible apply startProbe_ok
    | with_reducible refine Ok.foldl ?_ (fun _ _ _ => ?_)
    | (fail_if_no_progress with_reducible refine Ok.upd ?_ (by with_unfolding_all rfl))
    | split

theorem openTestBand_ok {a s : State} (hs : Ok a s) : Ok a (openTestBand s) := by
  unfold openTestBand
  repeat' first
    | with_reducible assumption
    | (intro y; refine (fun (k : Ok a y) => ?_) ?_; (on_goal 1 => clear_value y); on_goal 2 => subst y)
    | (intro y; refine (fun (k : Ok a y.1) => ?_) ?_; (on_goal 1 => clear_value y); on_goal 2 => subst y)
    | (intro y; subst y)
    | lift_lets
    | with_reducible apply noteBand_ok
    | with_reducible apply formBand_ok
    | with_reducible apply openMedia_ok
    | with_reducible apply queueErase_ok
    | (fail_if_no_progress with_reducible refine Ok.upd ?_ (by with_unfolding_all rfl))
    | split

theorem issueSegment_ok {a s : State} (k : Nat) (hs : Ok a s) : Ok a (issueSegment k s) := by
  unfold issueSegment
  repeat' first
    | with_reducible assumption
    | with_reducible apply testProbes_ok
    | with_reducible apply startRd_ok
    | with_reducible apply openTestBand_ok
    | with_reducible refine Ok.foldl ?_ (fun _ _ _ => ?_)
    | (fail_if_no_progress with_reducible refine Ok.upd ?_ (by with_unfolding_all rfl))
    | split

theorem beginSegment_ok {a s : State} (o : LongOp) (hs : Ok a s) : Ok a (beginSegment o s) := by
  unfold beginSegment
  repeat' first
    | with_reducible assumption
    | (intro y; refine (fun (k : Ok a y) => ?_) ?_; (on_goal 1 => clear_value y); on_goal 2 => subst y)
    | (intro y; refine (fun (k : Ok a y.1) => ?_) ?_; (on_goal 1 => clear_value y); on_goal 2 => subst y)
    | (intro y; subst y)
    | lift_lets
    | with_reducible apply issueSegment_ok
    | with_reducible apply modOp_ok
    | (fail_if_no_progress with_reducible refine Ok.upd ?_ (by with_unfolding_all rfl))
    | split

theorem calibrate_ok {a s : State} (h fuel : Nat) (hs : Ok a s) : Ok a (calibrate h fuel s) := by
  induction fuel generalizing s with
  | zero => exact hs
  | succ k ih =>
    unfold calibrate
    split
    · exact hs
    · split
      · exact hs
      · split
        · exact hs
        · split
          · exact ih (modOp_ok _ _ hs)
          · exact ih (testProbes_ok _ (modOp_ok _ _ hs))

theorem testWork_ok {a s : State} (hs : Ok a s) : Ok a (testWork s) := by
  unfold testWork
  refine Ok.foldl hs (fun s o h => ?_)
  split
  · exact beginSegment_ok _ h
  · split
    · exact calibrate_ok _ _ h
    · exact h

theorem holdTests_ok {a s : State} (hs : Ok a s) : Ok a (holdTests s) := by
  unfold holdTests
  repeat' first
    | with_reducible assumption
    | (fail_if_no_progress with_reducible refine Ok.upd ?_ (by with_unfolding_all rfl))
    | split

theorem dropTests_ok {a s : State} (h : Nat) (hs : Ok a s) : Ok a (dropTests h s) := by
  unfold dropTests
  repeat' first
    | with_reducible assumption
    | (intro y; refine (fun (k : Ok a y) => ?_) ?_; (on_goal 1 => clear_value y); on_goal 2 => subst y)
    | (intro y; refine (fun (k : Ok a y.1) => ?_) ?_; (on_goal 1 => clear_value y); on_goal 2 => subst y)
    | (intro y; subst y)
    | lift_lets
    | with_reducible apply shutBand_ok
    | with_reducible apply modBand_ok
    | with_reducible apply modOp_ok
    | with_reducible refine Ok.foldl ?_ (fun _ _ _ => ?_)
    | (fail_if_no_progress with_reducible refine Ok.upd ?_ (by with_unfolding_all rfl))
    | split

end Sys2Proof.Laws
end

