-- ==== Sys2Proof/Laws/KeptRuling.lean ====
section
/-! SUPPORT. What every step keeps (`Ok`), for the ligature, the commands and their admission, and the resets. -/

namespace Sys2Proof.Laws

open Sys2Proof Sys2Proof.Machine

theorem ruleEvent_ok {a s : State} (h : Ok a s) : Ok a (ruleEvent s).1 := by
  unfold ruleEvent
  split
  · exact ⟨h.unit, h.worn, h.dies, h.channels, fun x => ⟨(h.rulings x).1, Nat.le_succ_of_le (h.rulings x).2⟩,
     fun x => let z := h.sound x
              { z with rulings := fun j hj => Nat.lt_succ_of_lt (z.rulings j hj), first := Nat.le_add_left _ _ }⟩
  · exact h

theorem ruleEvent_lt_of {s : State} (z : 1 ≤ (ruleEvent s).1.nib.next) : (ruleEvent s).2 < (ruleEvent s).1.nib.next := by
  unfold ruleEvent at z ⊢
  split
  · exact Nat.lt_succ_self _
  · split at z
    · contradiction
    · exact z

theorem sendFrame_ok {a s : State} (typ value : Nat) (hs : Ok a s) : Ok a (sendFrame typ value s) := by
  unfold sendFrame
  repeat' first
    | with_reducible assumption
    | (fail_if_no_progress with_reducible refine Ok.upd ?_ (by with_unfolding_all rfl))
    | split

theorem modEpoch_ok {a s : State} (n : Nat) (f : Epoch → Epoch) (hs : Ok a s) : Ok a (modEpoch n f s) := by
  unfold modEpoch
  repeat' first
    | with_reducible assumption
    | (fail_if_no_progress with_reducible refine Ok.upd ?_ (by with_unfolding_all rfl))
    | split

theorem flagEpoch_ok {a s : State} (n : Nat) (f : Epoch → Epoch) (hs : Ok a s) : Ok a (flagEpoch n f s) := by
  unfold flagEpoch
  repeat' first
    | with_reducible assumption
    | (fail_if_no_progress with_reducible refine Ok.upd ?_ (by with_unfolding_all rfl))
    | split

theorem flagLatest_ok {a s : State} (n : Nat) (f : Epoch → Epoch) (hs : Ok a s) : Ok a (flagLatest n f s) := by
  unfold flagLatest
  split
  · exact hs.upd rfl
  · exact hs

theorem addEpoch_ok {a s : State} (n state : Nat) (hs : Ok a s) : Ok a (addEpoch n state s) := by
  unfold addEpoch
  repeat' first
    | with_reducible assumption
    | (intro y; refine (fun (k : Ok a y) => ?_) ?_; (on_goal 1 => clear_value y); on_goal 2 => subst y)
    | (intro y; refine (fun (k : Ok a y.1) => ?_) ?_; (on_goal 1 => clear_value y); on_goal 2 => subst y)
    | (intro y; subst y)
    | lift_lets
    | (fail_if_no_progress with_reducible refine Ok.upd ?_ (by with_unfolding_all rfl))
    | split

theorem touchEpoch_ok {a s : State} (n : Nat) (hs : Ok a s) : Ok a (touchEpoch n s) := by
  unfold touchEpoch
  repeat' first
    | with_reducible assumption
    | with_reducible apply addEpoch_ok
    | (fail_if_no_progress with_reducible refine Ok.upd ?_ (by with_unfolding_all rfl))
    | split

theorem commitEpoch_ok {a s : State} (n r : Nat) (hs : Ok a s) : Ok a (commitEpoch n r s) := by
  unfold commitEpoch
  repeat' first
    | with_reducible assumption
    | (intro y; refine (fun (k : Ok a y) => ?_) ?_; (on_goal 1 => clear_value y); on_goal 2 => subst y)
    | (intro y; refine (fun (k : Ok a y.1) => ?_) ?_; (on_goal 1 => clear_value y); on_goal 2 => subst y)
    | (intro y; subst y)
    | lift_lets
    | with_reducible apply settle_ok
    | with_reducible apply modEpoch_ok
    | with_reducible apply addRecs_ok
    | (fail_if_no_progress with_reducible refine Ok.upd ?_ (by with_unfolding_all rfl))
    | split

theorem rollBack_ok {a s : State} (n r : Nat) (hs : Ok a s) : Ok a (rollBack n r s) := by
  unfold rollBack
  repeat' first
    | with_reducible assumption
    | with_reducible apply settle_ok
    | with_reducible apply modEpoch_ok
    | (fail_if_no_progress with_reducible refine Ok.upd ?_ (by with_unfolding_all rfl))
    | split

theorem ruleCommit_ok {a s : State} (n r : Nat) (hr : s.Sound → r < s.nib.next) (h : Ok a s) : Ok a (ruleCommit n r s) := by
  unfold ruleCommit
  simp only
  split
  · exact commitEpoch_ok _ _ (h.upd rfl)
  · refine h.sameBut rfl (fun z => { z with rulings := fun j hj => ?_ })
    rcases List.mem_append.mp hj with hj | hj
    · exact z.rulings j hj
    · rw [List.mem_singleton.mp hj]; exact hr z

theorem runCommit_ok {a s : State} (i : Item) (hs : Ok a s) : Ok a (runCommit i s) := by
  unfold runCommit
  repeat' first
    | with_reducible assumption
    | with_reducible apply dropItem_ok
    | with_reducible apply commitEpoch_ok
    | with_reducible apply setItem_ok
    | (fail_if_no_progress with_reducible refine Ok.upd ?_ (by with_unfolding_all rfl))
    | split

theorem endCommit_ok {a s : State} (n status : Nat) (hs : Ok a s) : Ok a (endCommit n status s) := by
  unfold endCommit
  repeat' first
    | with_reducible assumption
    | (intro y; refine (fun (k : Ok a y) => ?_) ?_; (on_goal 1 => clear_value y); on_goal 2 => subst y)
    | (intro y; refine (fun (k : Ok a y.1) => ?_) ?_; (on_goal 1 => clear_value y); on_goal 2 => subst y)
    | (intro y; subst y)
    | lift_lets
    | with_reducible apply failWith_ok
    | (fail_if_no_progress with_reducible refine Ok.upd ?_ (by with_unfolding_all rfl))
    | split

theorem checkPrepare_ok {a s : State} (i : Item) (hs : Ok a s) : Ok a (checkPrepare i s) := by
  unfold checkPrepare
  repeat' first
    | with_reducible assumption
    | (intro y; refine (fun (k : Ok a y) => ?_) ?_; (on_goal 1 => clear_value y); on_goal 2 => subst y)
    | (intro y; refine (fun (k : Ok a y.1) => ?_) ?_; (on_goal 1 => clear_value y); on_goal 2 => subst y)
    | (intro y; subst y)
    | lift_lets
    | with_reducible apply failWith_ok
    | with_reducible apply succeed_ok
    | with_reducible apply sendFrame_ok
    | (fail_if_no_progress with_reducible refine Ok.upd ?_ (by with_unfolding_all rfl))
    | split

theorem attemptPrepare_ok {a s : State} (i : Item) (hs : Ok a s) : Ok a (attemptPrepare i s) := by
  unfold attemptPrepare
  split
  · exact hs
  · exact checkPrepare_ok _ hs

theorem attemptAll_ok {a s : State} (hs : Ok a s) : Ok a (attemptAll s) := by
  unfold attemptAll
  repeat' first
    | with_reducible assumption
    | with_reducible apply attemptPrepare_ok
    | with_reducible refine Ok.foldl ?_ (fun _ _ _ => ?_)
    | (fail_if_no_progress with_reducible refine Ok.upd ?_ (by with_unfolding_all rfl))
    | split

theorem abandonCommits_ok {a s : State} (hs : Ok a s) : Ok a (abandonCommits s) := by
  unfold abandonCommits
  repeat' first
    | with_reducible assumption
    | with_reducible apply checkPrepare_ok
    | with_reducible refine Ok.foldl ?_ (fun _ _ _ => ?_)
    | (fail_if_no_progress with_reducible refine Ok.upd ?_ (by with_unfolding_all rfl))
    | split

theorem withdrawPrepare_ok {a s : State} (hs : Ok a s) : Ok a (withdrawPrepare s) := by
  unfold withdrawPrepare
  simp only
  apply attemptAll_ok
  split
  · exact checkPrepare_ok _ (hs.upd rfl)
  · exact hs.upd rfl

theorem decideOpen_ok {a s : State} (hs : Ok a s) : Ok a (decideOpen s) := by
  unfold decideOpen
  repeat' first
    | with_reducible assumption
    | with_reducible apply sendFrame_ok
    | (fail_if_no_progress with_reducible refine Ok.upd ?_ (by with_unfolding_all rfl))
    | split

theorem rulePrepare_ok {a s : State} (src n : Nat) (members : BitVec 24) (hs : Ok a s) : Ok a (rulePrepare src n members s) := by
  unfold rulePrepare
  repeat' first
    | with_reducible assumption
    | (intro y; refine (fun (k : Ok a y) => ?_) ?_; (on_goal 1 => clear_value y); on_goal 2 => subst y)
    | (intro y; refine (fun (k : Ok a y.1) => ?_) ?_; (on_goal 1 => clear_value y); on_goal 2 => subst y)
    | (intro y; subst y)
    | lift_lets
    | with_reducible apply ruleEvent_ok
    | with_reducible apply touch_ok
    | with_reducible apply touchEpoch_ok
    | with_reducible apply modEpoch_ok
    | with_reducible apply sendFrame_ok
    | with_reducible apply closeStripes_ok
    | (fail_if_no_progress with_reducible refine Ok.upd ?_ (by with_unfolding_all rfl))
    | split

theorem yieldPrepare_ok {a s : State} (src : Nat) (hs : Ok a s) : Ok a (yieldPrepare src s) := by
  unfold yieldPrepare
  split
  · exact withdrawPrepare_ok hs
  · exact hs

theorem closePrepare_ok {a s : State} (hs : Ok a s) : Ok a (closePrepare s) := by
  unfold closePrepare
  repeat' first
    | with_reducible assumption
    | (fail_if_no_progress with_reducible refine Ok.upd ?_ (by with_unfolding_all rfl))
    | split

theorem commitSeen_ok {a s : State} (l : Option (Nat × Nat)) (b : Bool) (h : Ok a s) :
    Ok a { s with lig := { s.lig with initiating := l, lrdyHigh := b } } :=
  h.upd rfl

theorem pulls_ok {a s : State} (h : Ok a s) : Ok a { s with lig := { s.lig with pulls := true, lrdyHigh := false } } :=
  h.upd rfl

theorem closePrepare_next (s : State) : (closePrepare s).nib = s.nib :=
  rfl

theorem receiveCommit_ok {a s : State} (n : Nat) (h : Ok a s) : Ok a (receiveCommit n s) := by
  have k := ruleEvent_ok (touch_ok h)
  unfold receiveCommit
  split
  · exact h
  · extract_lets t named members x l y
    have kx : Ok a x := by
      show Ok a (if s.opens n then closePrepare t.1 else t.1)
      split
      · exact closePrepare_ok k
      · exact k
    have ky : Ok a y := commitSeen_ok _ _ kx
    split
    · refine ruleCommit_ok _ _ (fun z => ?_) (pulls_ok ky)
      have e : ∀ c : Bool, (if c then closePrepare t.1 else t.1).nib = t.1.nib := by intro c; cases c <;> rfl
      have f : 1 ≤ (if s.opens n then closePrepare t.1 else t.1).nib.next := z.first
      rw [e] at f
      show t.2 < (if s.opens n then closePrepare t.1 else t.1).nib.next
      rw [e]
      exact ruleEvent_lt_of f
    · exact ky

theorem receiveAbort_ok {a s : State} (n : Nat) (hs : Ok a s) : Ok a (receiveAbort n s) := by
  unfold receiveAbort
  repeat' first
    | with_reducible assumption
    | (intro y; refine (fun (k : Ok a y) => ?_) ?_; (on_goal 1 => clear_value y); on_goal 2 => subst y)
    | (intro y; refine (fun (k : Ok a y.1) => ?_) ?_; (on_goal 1 => clear_value y); on_goal 2 => subst y)
    | (intro y; subst y)
    | lift_lets
    | with_reducible apply ruleEvent_ok
    | with_reducible apply touch_ok
    | with_reducible apply closePrepare_ok
    | with_reducible apply rollBack_ok
    | with_reducible apply endCommit_ok
    | with_reducible apply attemptAll_ok
    | (fail_if_no_progress with_reducible refine Ok.upd ?_ (by with_unfolding_all rfl))
    | split

theorem decideDoubt_ok {a s : State} (n : Nat) (forward : Bool) (h : Ok a s) : Ok a (decideDoubt n forward s) := by
  have k := ruleEvent_ok (touch_ok h)
  unfold decideDoubt
  split
  · exact h
  · simp only
    split
    · exact ruleCommit_ok _ _ (fun z => ruleEvent_lt_of z.first) ((flagEpoch_ok _ _ k).upd rfl)
    · exact rollBack_ok _ _ ((flagEpoch_ok _ _ k).upd rfl)

theorem queryEpoch_ok {a s : State} (n : Nat) (hs : Ok a s) : Ok a (queryEpoch n s) := by
  unfold queryEpoch
  repeat' first
    | with_reducible assumption
    | with_reducible apply sendFrame_ok
    | (fail_if_no_progress with_reducible refine Ok.upd ?_ (by with_unfolding_all rfl))
    | split

theorem queryDoubt_ok {a s : State} (hs : Ok a s) : Ok a (queryDoubt s) := by
  unfold queryDoubt
  repeat' first
    | with_reducible assumption
    | with_reducible apply queryEpoch_ok
    | (fail_if_no_progress with_reducible refine Ok.upd ?_ (by with_unfolding_all rfl))
    | split

theorem lateAnswer_ok {a s : State} (src n code : Nat) (hs : Ok a s) : Ok a (lateAnswer src n code s) := by
  unfold lateAnswer
  split
  · split
    · exact flagLatest_ok _ _ hs
    · exact hs
  · exact hs

theorem receiveState_ok {a s : State} (src : Nat) (value : Nat) (hs : Ok a s) : Ok a (receiveState src value s) := by
  unfold receiveState
  repeat' first
    | with_reducible assumption
    | (intro y; refine (fun (k : Ok a y) => ?_) ?_; (on_goal 1 => clear_value y); on_goal 2 => subst y)
    | (intro y; refine (fun (k : Ok a y.1) => ?_) ?_; (on_goal 1 => clear_value y); on_goal 2 => subst y)
    | (intro y; subst y)
    | lift_lets
    | with_reducible apply lateAnswer_ok
    | with_reducible apply receiveCommit_ok
    | with_reducible apply receiveAbort_ok
    | with_reducible apply queryDoubt_ok
    | with_reducible apply decideDoubt_ok
    | (fail_if_no_progress with_reducible refine Ok.upd ?_ (by with_unfolding_all rfl))
    | split

theorem leaveLigature_ok {a s : State} (state : Nat) (hl : state ≤ 3) (h : Ok a s) : Ok a (leaveLigature state s) := by
  unfold leaveLigature
  simp only
  split
  · exact endCommit_ok _ _ (h.sameBut rfl (fun z => { z with ligature := hl }))
  · exact h.sameBut rfl (fun z => { z with ligature := hl })

theorem joinedMap_ok {a s : State} (map : BitVec 24) (h : Ok a s) : Ok a { s with lig := { s.lig with joined := map } } :=
  h.upd rfl

theorem receiveMuster_ok {a s : State} (map : BitVec 24) (h : Ok a s) : Ok a (receiveMuster map s) := by
  unfold receiveMuster
  simp only
  split
  · have k : ∀ n, Ok a { s with lig := { s.lig with dropped := n, state := 2, joined := map } } :=
      fun n => h.sameBut rfl (fun z => { z with ligature := by show 2 ≤ 3; omega })
    apply attemptAll_ok
    split
    · exact queryDoubt_ok (k _)
    · exact k _
  · split
    · exact joinedMap_ok map (leaveLigature_ok 1 (by omega) (h.upd rfl))
    · exact h.upd rfl

theorem structure__ok {a s : State} (i : Item) (size : Nat) (m : Mem) (hs : Ok a s) : Ok a (structure_ i size m s) := by
  unfold structure_
  repeat' first
    | with_reducible assumption
    | with_reducible apply deliver_ok
    | with_reducible apply failData_ok
    | (fail_if_no_progress with_reducible refine Ok.upd ?_ (by with_unfolding_all rfl))
    | split

theorem runIdentify_ok {a s : State} (i : Item) (hs : Ok a s) : Ok a (runIdentify i s) := by
  unfold runIdentify
  repeat' first
    | with_reducible assumption
    | (intro y; refine (fun (k : Ok a y) => ?_) ?_; (on_goal 1 => clear_value y); on_goal 2 => subst y)
    | (intro y; refine (fun (k : Ok a y.1) => ?_) ?_; (on_goal 1 => clear_value y); on_goal 2 => subst y)
    | (intro y; subst y)
    | lift_lets
    | with_reducible apply structure__ok
    | (fail_if_no_progress with_reducible refine Ok.upd ?_ (by with_unfolding_all rfl))
    | split

theorem clearCause_ok {a s : State} (w : Nat) (hs : Ok a s) : Ok a (clearCause w s) := by
  unfold clearCause
  repeat' first
    | with_reducible assumption
    | (intro y; refine (fun (k : Ok a y) => ?_) ?_; (on_goal 1 => clear_value y); on_goal 2 => subst y)
    | (intro y; refine (fun (k : Ok a y.1) => ?_) ?_; (on_goal 1 => clear_value y); on_goal 2 => subst y)
    | (intro y; subst y)
    | lift_lets
    | (fail_if_no_progress with_reducible refine Ok.upd ?_ (by with_unfolding_all rfl))
    | split

theorem clearEvents_ok {a s : State} (hs : Ok a s) : Ok a (clearEvents s) := by
  unfold clearEvents
  repeat' first
    | with_reducible assumption
    | (fail_if_no_progress with_reducible refine Ok.upd ?_ (by with_unfolding_all rfl))
    | split

theorem endSafe_ok {a s : State} (acked : List Unack) (hs : Ok a s) : Ok a (endSafe acked s) := by
  unfold endSafe
  repeat' first
    | with_reducible assumption
    | (intro y; refine (fun (k : Ok a y) => ?_) ?_; (on_goal 1 => clear_value y); on_goal 2 => subst y)
    | (intro y; refine (fun (k : Ok a y.1) => ?_) ?_; (on_goal 1 => clear_value y); on_goal 2 => subst y)
    | (intro y; subst y)
    | lift_lets
    | with_reducible apply aliveUpdate_ok
    | with_reducible apply addNote_ok
    | (fail_if_no_progress with_reducible refine Ok.upd ?_ (by with_unfolding_all rfl))
    | split

theorem acknowledgeRead_ok {a s : State} (off len : Nat) (hs : Ok a s) : Ok a (acknowledgeRead off len s) := by
  unfold acknowledgeRead
  repeat' first
    | with_reducible assumption
    | (intro y; refine (fun (k : Ok a y) => ?_) ?_; (on_goal 1 => clear_value y); on_goal 2 => subst y)
    | (intro y; refine (fun (k : Ok a y.1) => ?_) ?_; (on_goal 1 => clear_value y); on_goal 2 => subst y)
    | (intro y; subst y)
    | lift_lets
    | with_reducible apply acknowledge_ok
    | with_reducible apply endSafe_ok
    | with_reducible refine Ok.foldl ?_ (fun _ _ _ => ?_)
    | (fail_if_no_progress with_reducible refine Ok.upd ?_ (by with_unfolding_all rfl))
    | split

theorem runGetLog_ok {a s : State} (i : Item) (hs : Ok a s) : Ok a (runGetLog i s) := by
  unfold runGetLog
  repeat' first
    | with_reducible assumption
    | (intro y; refine (fun (k : Ok a y) => ?_) ?_; (on_goal 1 => clear_value y); on_goal 2 => subst y)
    | (intro y; refine (fun (k : Ok a y.1) => ?_) ?_; (on_goal 1 => clear_value y); on_goal 2 => subst y)
    | (intro y; subst y)
    | lift_lets
    | with_reducible apply clearCause_ok
    | with_reducible apply clearEvents_ok
    | with_reducible apply acknowledgeRead_ok
    | with_reducible apply structure__ok
    | (fail_if_no_progress with_reducible refine Ok.upd ?_ (by with_unfolding_all rfl))
    | split

theorem runAttest_ok {a s : State} (i : Item) (hs : Ok a s) : Ok a (runAttest i s) := by
  unfold runAttest
  repeat' first
    | with_reducible assumption
    | with_reducible apply structure__ok
    | with_reducible apply failData_ok
    | (fail_if_no_progress with_reducible refine Ok.upd ?_ (by with_unfolding_all rfl))
    | split

theorem runFlush_ok {a s : State} (i : Item) (hs : Ok a s) : Ok a (runFlush i s) := by
  unfold runFlush
  repeat' first
    | with_reducible assumption
    | with_reducible apply succeed_ok
    | with_reducible apply pushStripes_ok
    | with_reducible apply setItem_ok
    | (fail_if_no_progress with_reducible refine Ok.upd ?_ (by with_unfolding_all rfl))
    | split

theorem runAwait_ok {a s : State} (i : Item) (hs : Ok a s) : Ok a (runAwait i s) := by
  unfold runAwait
  repeat' first
    | with_reducible assumption
    | with_reducible apply failWith_ok
    | with_reducible apply deliverEvent_ok
    | with_reducible apply setItem_ok
    | (fail_if_no_progress with_reducible refine Ok.upd ?_ (by with_unfolding_all rfl))
    | split

theorem wallCorrection_ok {a s : State} (t : Nat) (hs : Ok a s) : Ok a (wallCorrection t s) := by
  unfold wallCorrection
  repeat' first
    | with_reducible assumption
    | (intro y; refine (fun (k : Ok a y) => ?_) ?_; (on_goal 1 => clear_value y); on_goal 2 => subst y)
    | (intro y; refine (fun (k : Ok a y.1) => ?_) ?_; (on_goal 1 => clear_value y); on_goal 2 => subst y)
    | (intro y; subst y)
    | lift_lets
    | (fail_if_no_progress with_reducible refine Ok.upd ?_ (by with_unfolding_all rfl))
    | split

theorem runSetTime_ok {a s : State} (i : Item) (hs : Ok a s) : Ok a (runSetTime i s) := by
  unfold runSetTime
  repeat' first
    | with_reducible assumption
    | (intro y; refine (fun (k : Ok a y) => ?_) ?_; (on_goal 1 => clear_value y); on_goal 2 => subst y)
    | (intro y; refine (fun (k : Ok a y.1) => ?_) ?_; (on_goal 1 => clear_value y); on_goal 2 => subst y)
    | (intro y; subst y)
    | lift_lets
    | with_reducible apply succeed_ok
    | with_reducible apply wallCorrection_ok
    | (fail_if_no_progress with_reducible refine Ok.upd ?_ (by with_unfolding_all rfl))
    | split

theorem runPowerHint_ok {a s : State} (i : Item) (hs : Ok a s) : Ok a (runPowerHint i s) := by
  unfold runPowerHint
  repeat' first
    | with_reducible assumption
    | (intro y; refine (fun (k : Ok a y) => ?_) ?_; (on_goal 1 => clear_value y); on_goal 2 => subst y)
    | (intro y; refine (fun (k : Ok a y.1) => ?_) ?_; (on_goal 1 => clear_value y); on_goal 2 => subst y)
    | (intro y; subst y)
    | lift_lets
    | with_reducible apply closeStripes_ok
    | with_reducible apply setItem_ok
    | with_reducible apply succeed_ok
    | (fail_if_no_progress with_reducible refine Ok.upd ?_ (by simp only [core] <;> rfl))
    | split

theorem runCreatePair_ok {a s : State} (i : Item) (hs : Ok a s) : Ok a (runCreatePair i s) := by
  unfold runCreatePair
  repeat' first
    | with_reducible assumption
    | with_reducible apply setItem_ok
    | with_reducible apply failWith_ok
    | with_reducible apply succeed_ok
    | (fail_if_no_progress with_reducible refine Ok.upd ?_ (by with_unfolding_all rfl))
    | split

theorem abortFetched_ok {a s : State} (f : Fetched) (freezes : Bool) (hs : Ok a s) : Ok a (abortFetched f freezes s) := by
  unfold abortFetched
  repeat' first
    | with_reducible assumption
    | (intro y; refine (fun (k : Ok a y) => ?_) ?_; (on_goal 1 => clear_value y); on_goal 2 => subst y)
    | (intro y; refine (fun (k : Ok a y.1) => ?_) ?_; (on_goal 1 => clear_value y); on_goal 2 => subst y)
    | (intro y; subst y)
    | lift_lets
    | with_reducible apply complete_ok
    | (fail_if_no_progress with_reducible refine Ok.upd ?_ (by with_unfolding_all rfl))
    | split

theorem abortItem_ok {a s : State} (i : Item) (freezes : Bool) (hs : Ok a s) : Ok a (abortItem i freezes s) := by
  unfold abortItem
  repeat' first
    | with_reducible assumption
    | (intro y; refine (fun (k : Ok a y) => ?_) ?_; (on_goal 1 => clear_value y); on_goal 2 => subst y)
    | (intro y; refine (fun (k : Ok a y.1) => ?_) ?_; (on_goal 1 => clear_value y); on_goal 2 => subst y)
    | (intro y; subst y)
    | lift_lets
    | with_reducible apply undefineBuffer_ok
    | with_reducible apply complete_ok
    | with_reducible apply removeItem_ok
    | (fail_if_no_progress with_reducible refine Ok.upd ?_ (by with_unfolding_all rfl))
    | split

theorem abortCommands_ok {a s : State} (p : Nat → Bool) (except : Nat) (freezes : Nat → Bool) (hs : Ok a s) : Ok a (abortCommands p except freezes s) := by
  unfold abortCommands
  repeat' first
    | with_reducible assumption
    | (intro y; refine (fun (k : Ok a y) => ?_) ?_; (on_goal 1 => clear_value y); on_goal 2 => subst y)
    | (intro y; refine (fun (k : Ok a y.1) => ?_) ?_; (on_goal 1 => clear_value y); on_goal 2 => subst y)
    | (intro y; subst y)
    | lift_lets
    | with_reducible apply abortItem_ok
    | with_reducible apply abortFetched_ok
    | with_reducible refine Ok.foldl ?_ (fun _ _ _ => ?_)
    | (fail_if_no_progress with_reducible refine Ok.upd ?_ (by with_unfolding_all rfl))
    | split

theorem deletePair_ok {a s : State} (q : Nat) (hs : Ok a s) : Ok a (deletePair q s) := by
  unfold deletePair
  repeat' first
    | with_reducible assumption
    | with_reducible apply dropPair_ok
    | (fail_if_no_progress with_reducible refine Ok.upd ?_ (by with_unfolding_all rfl))
    | split

theorem endDeletePair_ok {a s : State} (i : Item) (hs : Ok a s) : Ok a (endDeletePair i s) := by
  unfold endDeletePair
  repeat' first
    | with_reducible assumption
    | (intro y; refine (fun (k : Ok a y) => ?_) ?_; (on_goal 1 => clear_value y); on_goal 2 => subst y)
    | (intro y; refine (fun (k : Ok a y.1) => ?_) ?_; (on_goal 1 => clear_value y); on_goal 2 => subst y)
    | (intro y; subst y)
    | lift_lets
    | with_reducible apply succeed_ok
    | with_reducible apply deletePair_ok
    | (fail_if_no_progress with_reducible refine Ok.upd ?_ (by with_unfolding_all rfl))
    | split

theorem runDeletePair_ok {a s : State} (i : Item) (hs : Ok a s) : Ok a (runDeletePair i s) := by
  unfold runDeletePair
  repeat' first
    | with_reducible assumption
    | (intro y; refine (fun (k : Ok a y) => ?_) ?_; (on_goal 1 => clear_value y); on_goal 2 => subst y)
    | (intro y; refine (fun (k : Ok a y.1) => ?_) ?_; (on_goal 1 => clear_value y); on_goal 2 => subst y)
    | (intro y; subst y)
    | lift_lets
    | with_reducible apply setItem_ok
    | with_reducible apply endDeletePair_ok
    | with_reducible apply modPair_ok
    | with_reducible apply abortCommands_ok
    | (fail_if_no_progress with_reducible refine Ok.upd ?_ (by with_unfolding_all rfl))
    | split

theorem resumePair_ok {a s : State} (q : Nat) (skip : Bool) (hs : Ok a s) : Ok a (resumePair q skip s) := by
  unfold resumePair
  repeat' first
    | with_reducible assumption
    | with_reducible apply modPair_ok
    | (fail_if_no_progress with_reducible refine Ok.upd ?_ (by with_unfolding_all rfl))
    | split

theorem runResumeQueue_ok {a s : State} (i : Item) (hs : Ok a s) : Ok a (runResumeQueue i s) := by
  unfold runResumeQueue
  repeat' first
    | with_reducible assumption
    | (intro y; refine (fun (k : Ok a y) => ?_) ?_; (on_goal 1 => clear_value y); on_goal 2 => subst y)
    | (intro y; refine (fun (k : Ok a y.1) => ?_) ?_; (on_goal 1 => clear_value y); on_goal 2 => subst y)
    | (intro y; subst y)
    | lift_lets
    | with_reducible apply succeed_ok
    | with_reducible apply resumePair_ok
    | with_reducible apply failWith_ok
    | (fail_if_no_progress with_reducible refine Ok.upd ?_ (by with_unfolding_all rfl))
    | split

theorem runCancel_ok {a s : State} (i : Item) (hs : Ok a s) : Ok a (runCancel i s) := by
  unfold runCancel
  repeat' first
    | with_reducible assumption
    | (intro y; refine (fun (k : Ok a y) => ?_) ?_; (on_goal 1 => clear_value y); on_goal 2 => subst y)
    | (intro y; refine (fun (k : Ok a y.1) => ?_) ?_; (on_goal 1 => clear_value y); on_goal 2 => subst y)
    | (intro y; subst y)
    | lift_lets
    | with_reducible apply setItem_ok
    | with_reducible apply succeed_ok
    | with_reducible apply abortItem_ok
    | with_reducible apply abortFetched_ok
    | (fail_if_no_progress with_reducible refine Ok.upd ?_ (by with_unfolding_all rfl))
    | split

theorem endCancel_ok {a s : State} (i : Item) (hs : Ok a s) : Ok a (endCancel i s) := by
  unfold endCancel
  repeat' first
    | with_reducible assumption
    | with_reducible apply succeed_ok
    | (fail_if_no_progress with_reducible refine Ok.upd ?_ (by with_unfolding_all rfl))
    | split

theorem endRestart_ok {a s : State} (i : Item) (hs : Ok a s) : Ok a (endRestart i s) := by
  unfold endRestart
  repeat' first
    | with_reducible assumption
    | (intro y; refine (fun (k : Ok a y) => ?_) ?_; (on_goal 1 => clear_value y); on_goal 2 => subst y)
    | (intro y; refine (fun (k : Ok a y.1) => ?_) ?_; (on_goal 1 => clear_value y); on_goal 2 => subst y)
    | (intro y; subst y)
    | lift_lets
    | with_reducible apply succeed_ok
    | with_reducible apply modPair_ok
    | (fail_if_no_progress with_reducible refine Ok.upd ?_ (by with_unfolding_all rfl))
    | split

theorem runRestart_ok {a s : State} (i : Item) (hs : Ok a s) : Ok a (runRestart i s) := by
  unfold runRestart
  repeat' first
    | with_reducible assumption
    | (intro y; refine (fun (k : Ok a y) => ?_) ?_; (on_goal 1 => clear_value y); on_goal 2 => subst y)
    | (intro y; refine (fun (k : Ok a y.1) => ?_) ?_; (on_goal 1 => clear_value y); on_goal 2 => subst y)
    | (intro y; subst y)
    | lift_lets
    | with_reducible apply succeed_ok
    | with_reducible apply modPair_ok
    | with_reducible apply abortCommands_ok
    | with_reducible apply endRestart_ok
    | with_reducible apply setItem_ok
    | (fail_if_no_progress with_reducible refine Ok.upd ?_ (by with_unfolding_all rfl))
    | split

theorem beginPs4_ok {a s : State} (h : Ok a s) : Ok a (beginPs4 s) := by
  unfold beginPs4
  split
  · exact h.sameBut rfl (fun z => { z with power := by have := z.power; show max s.pwr.ps 2 ≤ 4; omega })
  · split
    · exact h.sameBut rfl (fun z => { z with power := by have := z.power; show max s.pwr.ps 3 ≤ 4; omega })
    · exact closeStripes_ok (h.upd rfl)

theorem enterD3_ok {a s : State} (hs : Ok a s) : Ok a (enterD3 s) := by
  unfold enterD3
  repeat' first
    | with_reducible assumption
    | with_reducible apply beginPs4_ok
    | (fail_if_no_progress with_reducible refine Ok.upd ?_ (by with_unfolding_all rfl))
    | split

theorem endClear_ok {a s : State} (h : Ok a s) : Ok a (endClear s) := by
  unfold endClear
  split
  · exact h.sameBut rfl (fun z => { z with kinetic := Nat.zero_le _ })
  · exact h

theorem settleD3_ok {a s : State} (hs : Ok a s) : Ok a (settleD3 s) := by
  unfold settleD3
  repeat' first
    | with_reducible assumption
    | with_reducible apply enterD3_ok
    | (fail_if_no_progress with_reducible refine Ok.upd ?_ (by with_unfolding_all rfl))
    | split

theorem clearEnable_ok {a s : State} (hs : Ok a s) : Ok a (clearEnable s) := by
  unfold clearEnable
  repeat' first
    | with_reducible assumption
    | (intro y; refine (fun (k : Ok a y) => ?_) ?_; (on_goal 1 => clear_value y); on_goal 2 => subst y)
    | (intro y; refine (fun (k : Ok a y.1) => ?_) ?_; (on_goal 1 => clear_value y); on_goal 2 => subst y)
    | (intro y; subst y)
    | lift_lets
    | with_reducible apply endClear_ok
    | with_reducible apply abortCommands_ok
    | (fail_if_no_progress with_reducible refine Ok.upd ?_ (by with_unfolding_all rfl))
    | split

theorem dropHost_ok {a s : State} (h : Ok a s) : Ok a (dropHost s) := by
  unfold dropHost
  extract_lets mine u
  have z : Ok a u := Ok.foldl h (fun s i z => removeItem_ok _ _ (undefineBuffer_ok _ z))
  clear_value u
  refine Ok.items z _ rfl (fun x hx => ?_)
  simp only [mapIf, List.mem_map] at hx
  obtain ⟨j, hj, rfl⟩ := hx
  refine ⟨j, hj, ?_⟩
  split <;> rfl

theorem movePendingRegion_ok {a s : State} (id by_ to_ : Nat) (hs : Ok a s) : Ok a (movePendingRegion id by_ to_ s) := by
  unfold movePendingRegion
  repeat' first
    | with_reducible assumption
    | (intro y; refine (fun (k : Ok a y) => ?_) ?_; (on_goal 1 => clear_value y); on_goal 2 => subst y)
    | (intro y; refine (fun (k : Ok a y.1) => ?_) ?_; (on_goal 1 => clear_value y); on_goal 2 => subst y)
    | (intro y; subst y)
    | lift_lets
    | (fail_if_no_progress with_reducible refine Ok.upd ?_ (by with_unfolding_all rfl))
    | split

theorem moveRegions_ok {a s : State} (l : List (Nat × Nat)) (hs : Ok a s) : Ok a (moveRegions l s) := by
  unfold moveRegions
  repeat' first
    | with_reducible assumption
    | (intro y; refine (fun (k : Ok a y) => ?_) ?_; (on_goal 1 => clear_value y); on_goal 2 => subst y)
    | (intro y; refine (fun (k : Ok a y.1) => ?_) ?_; (on_goal 1 => clear_value y); on_goal 2 => subst y)
    | (intro y; subst y)
    | lift_lets
    | with_reducible apply movePendingRegion_ok
    | with_reducible refine Ok.foldl ?_ (fun _ _ _ => ?_)
    | (fail_if_no_progress with_reducible refine Ok.upd ?_ (by with_unfolding_all rfl))
    | split

theorem runChange_ok {a s : State} (i : Item) (hs : Ok a s) : Ok a (runChange i s) := by
  unfold runChange
  repeat' first
    | with_reducible assumption
    | (intro y; refine (fun (k : Ok a y) => ?_) ?_; (on_goal 1 => clear_value y); on_goal 2 => subst y)
    | (intro y; refine (fun (k : Ok a y.1) => ?_) ?_; (on_goal 1 => clear_value y); on_goal 2 => subst y)
    | (intro y; subst y)
    | lift_lets
    | with_reducible apply setItem_ok
    | with_reducible apply addRecs_ok
    | with_reducible apply moveRegions_ok
    | with_reducible apply settle_ok
    | (fail_if_no_progress with_reducible refine Ok.upd ?_ (by with_unfolding_all rfl))
    | split

theorem runSanitize_ok {a s : State} (i : Item) (hs : Ok a s) : Ok a (runSanitize i s) := by
  unfold runSanitize
  repeat' first
    | with_reducible assumption
    | (intro y; refine (fun (k : Ok a y) => ?_) ?_; (on_goal 1 => clear_value y); on_goal 2 => subst y)
    | (intro y; refine (fun (k : Ok a y.1) => ?_) ?_; (on_goal 1 => clear_value y); on_goal 2 => subst y)
    | (intro y; subst y)
    | lift_lets
    | with_reducible apply cancelOps_ok
    | with_reducible apply createOp_ok
    | with_reducible apply dropMark_ok
    | with_reducible apply openMedia_ok
    | with_reducible apply setItem_ok
    | (fail_if_no_progress with_reducible refine Ok.upd ?_ (by with_unfolding_all rfl))
    | split

theorem runTest_ok {a s : State} (typ target : Nat) (i : Item) (hs : Ok a s) : Ok a (runTest typ target i s) := by
  unfold runTest
  repeat' first
    | with_reducible assumption
    | (intro y; refine (fun (k : Ok a y) => ?_) ?_; (on_goal 1 => clear_value y); on_goal 2 => subst y)
    | (intro y; refine (fun (k : Ok a y.1) => ?_) ?_; (on_goal 1 => clear_value y); on_goal 2 => subst y)
    | (intro y; subst y)
    | lift_lets
    | with_reducible apply failWith_ok
    | with_reducible apply createOp_ok
    | with_reducible apply testWork_ok
    | with_reducible apply succeed_ok
    | (fail_if_no_progress with_reducible refine Ok.upd ?_ (by with_unfolding_all rfl))
    | split

theorem runSelfTest_ok {a s : State} (i : Item) (hs : Ok a s) : Ok a (runSelfTest i s) := by
  unfold runSelfTest
  repeat' first
    | with_reducible assumption
    | with_reducible apply runTest_ok
    | (fail_if_no_progress with_reducible refine Ok.upd ?_ (by with_unfolding_all rfl))
    | split

theorem runCalibrate_ok {a s : State} (i : Item) (hs : Ok a s) : Ok a (runCalibrate i s) := by
  unfold runCalibrate
  repeat' first
    | with_reducible assumption
    | with_reducible apply runTest_ok
    | (fail_if_no_progress with_reducible refine Ok.upd ?_ (by with_unfolding_all rfl))
    | split

theorem endControl_ok {a s : State} (h state : Nat) (hs : Ok a s) : Ok a (endControl h state s) := by
  unfold endControl
  repeat' first
    | with_reducible assumption
    | with_reducible apply succeed_ok
    | (fail_if_no_progress with_reducible refine Ok.upd ?_ (by with_unfolding_all rfl))
    | split

theorem takeWanted_ok {a s : State} (h typ w : Nat) (hs : Ok a s) : Ok a (takeWanted h typ s w) := by
  unfold takeWanted
  extract_lets s1 s2
  have h1 : Ok a s1 := by
    show Ok a (if _ then _ else _)
    split
    · exact hs
    · exact dropTests_ok _ hs
  clear_value s1
  have h2 : Ok a s2 := by
    refine endControl_ok _ _ ?_
    split
    · exact endOp_ok _ _ _ _ h1
    · exact startQueued_ok _ (modOp_ok _ _ h1)
    · exact actUpdate_ok (modOp_ok _ _ h1)
  split
  · exact rebuildNext_ok h2
  · exact testWork_ok h2

theorem reachWanted_ok {a s : State} (h : Nat) (hs : Ok a s) : Ok a (reachWanted h s) := by
  unfold reachWanted
  repeat' first
    | with_reducible assumption
    | with_reducible apply takeWanted_ok
    | with_reducible apply modOp_ok
    | with_reducible refine Ok.foldl ?_ (fun _ _ _ => ?_)
    | (fail_if_no_progress with_reducible refine Ok.upd ?_ (by with_unfolding_all rfl))
    | split

theorem runControl_ok {a s : State} (i : Item) (hs : Ok a s) : Ok a (runControl i s) := by
  unfold runControl
  repeat' first
    | with_reducible assumption
    | (intro y; refine (fun (k : Ok a y) => ?_) ?_; (on_goal 1 => clear_value y); on_goal 2 => subst y)
    | (intro y; refine (fun (k : Ok a y.1) => ?_) ?_; (on_goal 1 => clear_value y); on_goal 2 => subst y)
    | (intro y; subst y)
    | lift_lets
    | with_reducible apply failWith_ok
    | with_reducible apply setItem_ok
    | with_reducible apply modOp_ok
    | with_reducible apply holdTests_ok
    | with_reducible apply reachWanted_ok
    | (fail_if_no_progress with_reducible refine Ok.upd ?_ (by with_unfolding_all rfl))
    | split

theorem runEpochCommit_ok {a s : State} (i : Item) (hs : Ok a s) : Ok a (runEpochCommit i s) := by
  unfold runEpochCommit
  repeat' first
    | with_reducible assumption
    | with_reducible apply failWith_ok
    | with_reducible apply attemptPrepare_ok
    | with_reducible apply setItem_ok
    | (fail_if_no_progress with_reducible refine Ok.upd ?_ (by with_unfolding_all rfl))
    | split

theorem runEpochResolve_ok {a s : State} (i : Item) (hs : Ok a s) : Ok a (runEpochResolve i s) := by
  unfold runEpochResolve
  repeat' first
    | with_reducible assumption
    | (intro y; refine (fun (k : Ok a y) => ?_) ?_; (on_goal 1 => clear_value y); on_goal 2 => subst y)
    | (intro y; refine (fun (k : Ok a y.1) => ?_) ?_; (on_goal 1 => clear_value y); on_goal 2 => subst y)
    | (intro y; subst y)
    | lift_lets
    | with_reducible apply failWith_ok
    | with_reducible apply setItem_ok
    | with_reducible apply flagEpoch_ok
    | with_reducible apply commitEpoch_ok
    | with_reducible apply rollBack_ok
    | (fail_if_no_progress with_reducible refine Ok.upd ?_ (by with_unfolding_all rfl))
    | split

theorem taskAdmitted_ok {a s : State} (i : Item) (hs : Ok a s) : Ok a (taskAdmitted i s) := by
  unfold taskAdmitted
  repeat' first
    | with_reducible assumption
    | (intro y; refine (fun (k : Ok a y) => ?_) ?_; (on_goal 1 => clear_value y); on_goal 2 => subst y)
    | (intro y; refine (fun (k : Ok a y.1) => ?_) ?_; (on_goal 1 => clear_value y); on_goal 2 => subst y)
    | (intro y; subst y)
    | lift_lets
    | (fail_if_no_progress with_reducible refine Ok.upd ?_ (by with_unfolding_all rfl))
    | split

theorem startWrite_ok {a s : State} (i : Item) (hs : Ok a s) : Ok a (startWrite i s) := by
  unfold startWrite
  repeat' first
    | with_reducible assumption
    | (intro y; refine (fun (k : Ok a y) => ?_) ?_; (on_goal 1 => clear_value y); on_goal 2 => subst y)
    | (intro y; refine (fun (k : Ok a y.1) => ?_) ?_; (on_goal 1 => clear_value y); on_goal 2 => subst y)
    | (intro y; subst y)
    | lift_lets
    | with_reducible apply setItem_ok
    | with_reducible apply takeData_ok
    | (fail_if_no_progress with_reducible refine Ok.upd ?_ (by with_unfolding_all rfl))
    | split

theorem startDownload_ok {a s : State} (i : Item) (hs : Ok a s) : Ok a (startDownload i s) := by
  unfold startDownload
  repeat' first
    | with_reducible assumption
    | with_reducible apply failWith_ok
    | with_reducible apply finish_ok
    | with_reducible apply setItem_ok
    | with_reducible apply startFirmware_ok
    | (fail_if_no_progress with_reducible refine Ok.upd ?_ (by with_unfolding_all rfl))
    | split

theorem begin_ok {a s : State} (i : Item) (hs : Ok a s) : Ok a (begin i s) := by
  unfold begin
  repeat' first
    | with_reducible assumption
    | (intro y; refine (fun (k : Ok a y) => ?_) ?_; (on_goal 1 => clear_value y); on_goal 2 => subst y)
    | (intro y; refine (fun (k : Ok a y.1) => ?_) ?_; (on_goal 1 => clear_value y); on_goal 2 => subst y)
    | (intro y; subst y)
    | lift_lets
    | with_reducible apply succeed_ok
    | with_reducible apply settle_ok
    | with_reducible apply failData_ok
    | with_reducible apply startWrite_ok
    | with_reducible apply startRead_ok
    | with_reducible apply runFlush_ok
    | with_reducible apply runRelease_ok
    | with_reducible apply runCreatePair_ok
    | with_reducible apply runDeletePair_ok
    | with_reducible apply runResumeQueue_ok
    | with_reducible apply runCancel_ok
    | with_reducible apply runRestart_ok
    | with_reducible apply runAwait_ok
    | with_reducible apply runIdentify_ok
    | with_reducible apply runGetLog_ok
    | with_reducible apply runSetTime_ok
    | with_reducible apply runPowerHint_ok
    | with_reducible apply runChange_ok
    | with_reducible apply runSanitize_ok
    | with_reducible apply runSelfTest_ok
    | with_reducible apply runCalibrate_ok
    | with_reducible apply runControl_ok
    | with_reducible apply startDownload_ok
    | with_reducible apply startFirmware_ok
    | with_reducible apply runAttest_ok
    | with_reducible apply runEpochCommit_ok
    | with_reducible apply runEpochResolve_ok
    | with_reducible apply runCommit_ok
    | (fail_if_no_progress with_reducible refine Ok.upd ?_ (by with_unfolding_all rfl))
    | split

theorem enterLock_ok {a s : State} (i : Item) (hs : Ok a s) : Ok a (enterLock i s) := by
  unfold enterLock
  repeat' first
    | with_reducible assumption
    | with_reducible apply begin_ok
    | (fail_if_no_progress with_reducible refine Ok.upd ?_ (by with_unfolding_all rfl))
    | split

theorem bumpEpoch_ok {a s : State} (op : Nat) (hs : Ok a s) : Ok a (bumpEpoch op s) := by
  unfold bumpEpoch
  repeat' first
    | with_reducible assumption
    | (fail_if_no_progress with_reducible refine Ok.upd ?_ (by with_unfolding_all rfl))
    | split

theorem dropCached_ok {a s : State} (e : Entry) (hs : Ok a s) : Ok a (dropCached e s) := by
  unfold dropCached
  repeat' first
    | with_reducible assumption
    | (intro y; refine (fun (k : Ok a y) => ?_) ?_; (on_goal 1 => clear_value y); on_goal 2 => subst y)
    | (intro y; refine (fun (k : Ok a y.1) => ?_) ?_; (on_goal 1 => clear_value y); on_goal 2 => subst y)
    | (intro y; subst y)
    | lift_lets
    | (fail_if_no_progress with_reducible refine Ok.upd ?_ (by with_unfolding_all rfl))
    | split

theorem ruledEffects_ok {a s : State} (i : Item) (hs : Ok a s) : Ok a (ruledEffects i s) := by
  unfold ruledEffects
  repeat' first
    | with_reducible assumption
    | (intro y; refine (fun (k : Ok a y) => ?_) ?_; (on_goal 1 => clear_value y); on_goal 2 => subst y)
    | (intro y; refine (fun (k : Ok a y.1) => ?_) ?_; (on_goal 1 => clear_value y); on_goal 2 => subst y)
    | (intro y; subst y)
    | lift_lets
    | with_reducible apply cancelOps_ok
    | with_reducible apply touchEpoch_ok
    | with_reducible apply dropCached_ok
    | (fail_if_no_progress with_reducible refine Ok.upd ?_ (by with_unfolding_all rfl))
    | split

theorem admitted_ok {a s : State} (i : Item) (hs : Ok a s) : Ok a (admitted i s) := by
  unfold admitted
  repeat' first
    | with_reducible assumption
    | (intro y; refine (fun (k : Ok a y) => ?_) ?_; (on_goal 1 => clear_value y); on_goal 2 => subst y)
    | (intro y; refine (fun (k : Ok a y.1) => ?_) ?_; (on_goal 1 => clear_value y); on_goal 2 => subst y)
    | (intro y; subst y)
    | lift_lets
    | with_reducible apply setItem_ok
    | with_reducible apply taskAdmitted_ok
    | with_reducible apply ruledEffects_ok
    | (fail_if_no_progress with_reducible refine Ok.upd ?_ (by with_unfolding_all rfl))
    | split

theorem admitItem_ok {a s : State} (i : Item) (hs : Ok a s) : Ok a (admitItem i s) := by
  unfold admitItem
  repeat' first
    | with_reducible assumption
    | (intro y; refine (fun (k : Ok a y) => ?_) ?_; (on_goal 1 => clear_value y); on_goal 2 => subst y)
    | (intro y; refine (fun (k : Ok a y.1) => ?_) ?_; (on_goal 1 => clear_value y); on_goal 2 => subst y)
    | (intro y; subst y)
    | lift_lets
    | with_reducible apply finish_ok
    | with_reducible apply admitted_ok
    | with_reducible apply enterLock_ok
    | (fail_if_no_progress with_reducible refine Ok.upd ?_ (by with_unfolding_all rfl))
    | split

theorem takeRuling_next (narrow : Bool) (op : Nat) (s : State) : (takeRuling narrow op s).nib.next = s.nib.next + 1 := by
  simp only [takeRuling, bumpEpoch, touch]
  repeat' split
  all_goals rfl

theorem takeRuling_ok {a s : State} (narrow : Bool) (op : Nat) (h : Ok a s) : Ok a (takeRuling narrow op s) := by
  have k : Ok a { s with nib := { s.nib with next := s.nib.next + 1 } } :=
    ⟨h.unit, h.worn, h.dies, h.channels, fun x => ⟨(h.rulings x).1, Nat.le_succ_of_le (h.rulings x).2⟩,
     fun x => let z := h.sound x
              { z with rulings := fun j hj => Nat.lt_succ_of_lt (z.rulings j hj), first := Nat.le_add_left _ _ }⟩
  unfold takeRuling
  simp only
  split
  · exact (bumpEpoch_ok _ (touch_ok k)).upd rfl
  · exact bumpEpoch_ok _ (touch_ok k)

theorem enlist_ok {a s : State} (i : Item) (g : Given) (hi : i.ruling < s.nib.next) (h : Ok a s) : Ok a (enlist i g s) := by
  have k : Ok a { s with nib := { s.nib with items := s.nib.items ++ [{ i with segs := g.segs, retries := g.retries }]
                                             unsettled := if marksState i.entry then s.nib.unsettled ++ [i.ruling] else s.nib.unsettled } } := by
    refine h.sameBut rfl (fun z => { z with rulings := fun j hj => ?_ })
    rcases List.mem_append.mp hj with hj | hj
    · exact z.rulings j hj
    · rw [List.mem_singleton.mp hj]; exact hi
  unfold enlist
  simp only
  split
  · exact k.upd rfl
  · exact k

theorem rule_ok {a s : State} (narrow : Bool) (q slot : Nat) (entry : Entry) (g : Given) (h : Ok a s) :
    Ok a (rule narrow q slot entry g s) := by
  have k := takeRuling_ok narrow (Entry.opcode entry) h
  unfold rule
  simp only
  split
  · exact complete_ok _ _ _ k
  · have e := enlist_ok ((takeRuling narrow (Entry.opcode entry) s).newItem narrow q slot entry s.nib.next) g
      (by rw [takeRuling_next]; exact Nat.lt_succ_self _) k
    split
    · exact taskAdmitted_ok _ e
    · exact admitItem_ok _ e

theorem retryTurn_ok {a s : State} (r : Nat) (hs : Ok a s) : Ok a (retryTurn r s) := by
  unfold retryTurn
  repeat' first
    | with_reducible assumption
    | with_reducible apply runRelease_ok
    | with_reducible apply runCreatePair_ok
    | with_reducible apply runDeletePair_ok
    | with_reducible apply endCancel_ok
    | with_reducible apply endRestart_ok
    | with_reducible apply runChange_ok
    | with_reducible apply startFirmware_ok
    | with_reducible apply runEpochResolve_ok
    | with_reducible apply runCommit_ok
    | (fail_if_no_progress with_reducible refine Ok.upd ?_ (by with_unfolding_all rfl))
    | split

theorem progress_ok {a s : State} (hs : Ok a s) : Ok a (progress s) := by
  unfold progress
  repeat' first
    | with_reducible assumption
    | with_reducible apply retryTurn_ok
    | with_reducible refine Ok.foldl ?_ (fun _ _ _ => ?_)
    | (fail_if_no_progress with_reducible refine Ok.upd ?_ (by with_unfolding_all rfl))
    | split

theorem pruneVersions_ok {a s : State} (hs : Ok a s) : Ok a (pruneVersions s) := by
  unfold pruneVersions
  repeat' first
    | with_reducible assumption
    | (fail_if_no_progress with_reducible refine Ok.upd ?_ (by with_unfolding_all rfl))
    | split

theorem ltrUpdate_ok {a s : State} (hs : Ok a s) : Ok a (ltrUpdate s) := by
  unfold ltrUpdate
  repeat' first
    | with_reducible assumption
    | (intro y; refine (fun (k : Ok a y) => ?_) ?_; (on_goal 1 => clear_value y); on_goal 2 => subst y)
    | (intro y; refine (fun (k : Ok a y.1) => ?_) ?_; (on_goal 1 => clear_value y); on_goal 2 => subst y)
    | (intro y; subst y)
    | lift_lets
    | with_reducible apply emit_ok
    | (fail_if_no_progress with_reducible refine Ok.upd ?_ (by with_unfolding_all rfl))
    | split

theorem endDrain_ok {a s : State} (hs : Ok a s) : Ok a (endDrain s) := by
  unfold endDrain
  repeat' first
    | with_reducible assumption
    | (fail_if_no_progress with_reducible refine Ok.upd ?_ (by with_unfolding_all rfl))
    | split

theorem settleUp_ok {a s : State} (hs : Ok a s) : Ok a (settleUp s) := by
  unfold settleUp
  repeat' first
    | with_reducible assumption
    | with_reducible apply ltrUpdate_ok
    | with_reducible apply actUpdate_ok
    | with_reducible apply endDrain_ok
    | with_reducible apply settleD3_ok
    | with_reducible apply endClear_ok
    | with_reducible apply poolUpdate_ok
    | with_reducible apply pruneVersions_ok
    | with_reducible apply progress_ok
    | with_reducible apply completePersistent_ok
    | (fail_if_no_progress with_reducible refine Ok.upd ?_ (by with_unfolding_all rfl))
    | split

theorem stall_ok {a s : State} (f : Fetched) (hs : Ok a s) : Ok a (stall f s) := by
  unfold stall
  repeat' first
    | with_reducible assumption
    | (fail_if_no_progress with_reducible refine Ok.upd ?_ (by with_unfolding_all rfl))
    | split

theorem ruleFront_ok {a s : State} (q : Nat) (kind : Entry → Bool) (g : Given) (hs : Ok a s) : Ok a (ruleFront q kind g s) := by
  unfold ruleFront
  repeat' first
    | with_reducible assumption
    | with_reducible apply stall_ok
    | with_reducible apply settleUp_ok
    | with_reducible apply rule_ok
    | (fail_if_no_progress with_reducible refine Ok.upd ?_ (by with_unfolding_all rfl))
    | split

theorem ruleTask_ok {a s : State} (hs : Ok a s) : Ok a (ruleTask s) := by
  unfold ruleTask
  repeat' first
    | with_reducible assumption
    | with_reducible apply stall_ok
    | with_reducible apply rule_ok
    | (fail_if_no_progress with_reducible refine Ok.upd ?_ (by with_unfolding_all rfl))
    | split

theorem endStalls_ok {a s : State} (hs : Ok a s) : Ok a (endStalls s) := by
  unfold endStalls
  repeat' first
    | with_reducible assumption
    | with_reducible apply rule_ok
    | with_reducible refine Ok.foldl ?_ (fun _ _ _ => ?_)
    | (fail_if_no_progress with_reducible refine Ok.upd ?_ (by with_unfolding_all rfl))
    | split

theorem admitMedia_ok {a s : State} (hs : Ok a s) : Ok a (admitMedia s) := by
  unfold admitMedia
  repeat' first
    | with_reducible assumption
    | with_reducible apply admitItem_ok
    | with_reducible refine Ok.foldl ?_ (fun _ _ _ => ?_)
    | (fail_if_no_progress with_reducible refine Ok.upd ?_ (by with_unfolding_all rfl))
    | split

theorem powerOff_ok {a s : State} (h : Ok a s) : Ok a (powerOff s) := by
  have k := enterReset_ok .powerValid h
  refine ⟨k.unit, k.worn, k.dies, k.channels, nofun, fun x => ?_⟩
  exact { k.sound x with tail := (h.sound x).tail, queue := Nat.zero_le _, failed := (h.sound x).failed }

theorem beginDump_ok {a s : State} (h : Ok a s) : Ok a (beginDump s) := by
  have k : Ok a (dumpAbort { s with nib := { s.nib with stopped := true, fetched := [] } }) := dumpAbort_ok (h.upd rfl)
  exact ⟨k.unit, k.worn, k.dies, k.channels, nofun, fun x => { k.sound x with }⟩

theorem classify_ok {a s : State} (mv : Nat) (hs : Ok a s) : Ok a (classify mv s) := by
  unfold classify
  repeat' first
    | with_reducible assumption
    | (intro y; refine (fun (k : Ok a y) => ?_) ?_; (on_goal 1 => clear_value y); on_goal 2 => subst y)
    | (intro y; refine (fun (k : Ok a y.1) => ?_) ?_; (on_goal 1 => clear_value y); on_goal 2 => subst y)
    | (intro y; subst y)
    | lift_lets
    | with_reducible apply draw_ok
    | (fail_if_no_progress with_reducible refine Ok.upd ?_ (by with_unfolding_all rfl))
    | split

theorem endStretch_ok {a s : State} (mv : Nat) (h : Ok a s) : Ok a (endStretch mv s) := by
  have k := classify_ok mv h
  unfold endStretch
  exact ⟨k.unit, k.worn, k.dies, k.channels, nofun, fun x => { k.sound x with }⟩

theorem bootChoice_ok {a s : State} (hs : Ok a s) : Ok a (bootChoice s) := by
  unfold bootChoice
  repeat' first
    | with_reducible assumption
    | (intro y; refine (fun (k : Ok a y) => ?_) ?_; (on_goal 1 => clear_value y); on_goal 2 => subst y)
    | (intro y; refine (fun (k : Ok a y.1) => ?_) ?_; (on_goal 1 => clear_value y); on_goal 2 => subst y)
    | (intro y; subst y)
    | lift_lets
    | (fail_if_no_progress with_reducible refine Ok.upd ?_ (by with_unfolding_all rfl))
    | split

theorem startBank_ok {a s : State} (hs : Ok a s) : Ok a (startBank s) := by
  unfold startBank
  repeat' first
    | with_reducible assumption
    | (fail_if_no_progress with_reducible refine Ok.upd ?_ (by with_unfolding_all rfl))
    | split

theorem startTests_ok {a s : State} (badCores badDecoders : List Nat) (hs : Ok a s) : Ok a (startTests badCores badDecoders s) := by
  unfold startTests
  repeat' first
    | with_reducible assumption
    | (intro y; refine (fun (k : Ok a y) => ?_) ?_; (on_goal 1 => clear_value y); on_goal 2 => subst y)
    | (intro y; refine (fun (k : Ok a y.1) => ?_) ?_; (on_goal 1 => clear_value y); on_goal 2 => subst y)
    | (intro y; subst y)
    | lift_lets
    | with_reducible apply recordFault_ok
    | (fail_if_no_progress with_reducible refine Ok.upd ?_ (by with_unfolding_all rfl))
    | split

theorem releaseFaults_ok {a s : State} (hs : Ok a s) : Ok a (releaseFaults s) := by
  unfold releaseFaults
  repeat' first
    | with_reducible assumption
    | (intro y; refine (fun (k : Ok a y) => ?_) ?_; (on_goal 1 => clear_value y); on_goal 2 => subst y)
    | (intro y; refine (fun (k : Ok a y.1) => ?_) ?_; (on_goal 1 => clear_value y); on_goal 2 => subst y)
    | (intro y; subst y)
    | lift_lets
    | with_reducible apply recordFault_ok
    | (fail_if_no_progress with_reducible refine Ok.upd ?_ (by with_unfolding_all rfl))
    | split

theorem setIsland_ok {a s : State} (i : Island) (st : IslState) (hs : Ok a s) : Ok a (setIsland i st s) := by
  unfold setIsland
  repeat' first
    | with_reducible assumption
    | (fail_if_no_progress with_reducible refine Ok.upd ?_ (by with_unfolding_all rfl))
    | split

theorem armFace_ok {a s : State} (i : Island) (hs : Ok a s) : Ok a (armFace i s) := by
  unfold armFace
  repeat' first
    | with_reducible assumption
    | (fail_if_no_progress with_reducible refine Ok.upd ?_ (by with_unfolding_all rfl))
    | split

theorem compareProfile_ok {a s : State} (hs : Ok a s) : Ok a (compareProfile s) := by
  unfold compareProfile
  repeat' first
    | with_reducible assumption
    | (intro y; refine (fun (k : Ok a y) => ?_) ?_; (on_goal 1 => clear_value y); on_goal 2 => subst y)
    | (intro y; refine (fun (k : Ok a y.1) => ?_) ?_; (on_goal 1 => clear_value y); on_goal 2 => subst y)
    | (intro y; subst y)
    | lift_lets
    | (fail_if_no_progress with_reducible refine Ok.upd ?_ (by with_unfolding_all rfl))
    | split

theorem ceilingPage_ok {a s : State} (h : Ok a s) : Ok a (ceilingPage s) := by
  have k : ∀ n, Ok a { s with nib := { s.nib with next := max s.nib.next n } } := fun n =>
    ⟨h.unit, h.worn, h.dies, h.channels, fun x => ⟨(h.rulings x).1, Nat.le_trans (h.rulings x).2 (Nat.le_max_left _ _)⟩,
     fun x => let z := h.sound x
              { z with rulings := fun j hj => Nat.lt_of_lt_of_le (z.rulings j hj) (Nat.le_max_left _ _)
                       first := Nat.le_trans z.first (Nat.le_max_left _ _) }⟩
  unfold ceilingPage
  exact addPage_ok _ (k _)

theorem reachReady_ok {a s : State} (h : Ok a s) : Ok a (reachReady s) :=
  readySwap_ok (h.sameBut rfl (fun z => { z with failed := Nat.zero_le _ }))

theorem journalEpochs_ok {a s : State} (hs : Ok a s) : Ok a (journalEpochs s) := by
  unfold journalEpochs
  repeat' first
    | with_reducible assumption
    | (fail_if_no_progress with_reducible refine Ok.upd ?_ (by with_unfolding_all rfl))
    | split

theorem resumeSanitize_ok {a s : State} (hs : Ok a s) : Ok a (resumeSanitize s) := by
  unfold resumeSanitize
  repeat' first
    | with_reducible assumption
    | with_reducible apply createOp_ok
    | (fail_if_no_progress with_reducible refine Ok.upd ?_ (by with_unfolding_all rfl))
    | split

theorem restoreTables_ok {a s : State} (hs : Ok a s) : Ok a (restoreTables s) := by
  unfold restoreTables
  repeat' first
    | with_reducible assumption
    | with_reducible apply draw_ok
    | (fail_if_no_progress with_reducible refine Ok.upd ?_ (by with_unfolding_all rfl))
    | split

theorem restoreAging_ok {a s : State} (errors : List (List (List Nat))) (hs : Ok a s) : Ok a (restoreAging errors s) := by
  unfold restoreAging
  repeat' first
    | with_reducible assumption
    | (intro y; refine (fun (k : Ok a y) => ?_) ?_; (on_goal 1 => clear_value y); on_goal 2 => subst y)
    | (intro y; refine (fun (k : Ok a y.1) => ?_) ?_; (on_goal 1 => clear_value y); on_goal 2 => subst y)
    | (intro y; subst y)
    | lift_lets
    | with_reducible apply draw_ok
    | with_reducible apply countProbes_ok
    | with_reducible apply wallCorrection_ok
    | with_reducible apply setDie_ok
    | with_reducible refine Ok.foldl ?_ (fun _ _ _ => ?_)
    | (fail_if_no_progress with_reducible refine Ok.upd ?_ (by with_unfolding_all rfl))
    | split

theorem recover_ok {a s : State} (errors : List (List (List Nat))) (badPage : Option Nat) (hs : Ok a s) : Ok a (recover errors badPage s) := by
  unfold recover
  repeat' first
    | with_reducible assumption
    | (intro y; refine (fun (k : Ok a y) => ?_) ?_; (on_goal 1 => clear_value y); on_goal 2 => subst y)
    | (intro y; refine (fun (k : Ok a y.1) => ?_) ?_; (on_goal 1 => clear_value y); on_goal 2 => subst y)
    | (intro y; subst y)
    | lift_lets
    | with_reducible apply restoreAging_ok
    | with_reducible apply restoreTables_ok
    | with_reducible apply resizeCache_ok
    | with_reducible apply reissueErases_ok
    | with_reducible apply addPage_ok
    | with_reducible apply recordFault_ok
    | with_reducible apply draw_ok
    | (fail_if_no_progress with_reducible refine Ok.upd ?_ (by with_unfolding_all rfl))
    | split

theorem resumeWork_ok {a s : State} (hs : Ok a s) : Ok a (resumeWork s) := by
  unfold resumeWork
  repeat' first
    | with_reducible assumption
    | (intro y; refine (fun (k : Ok a y) => ?_) ?_; (on_goal 1 => clear_value y); on_goal 2 => subst y)
    | (intro y; refine (fun (k : Ok a y.1) => ?_) ?_; (on_goal 1 => clear_value y); on_goal 2 => subst y)
    | (intro y; subst y)
    | lift_lets
    | with_reducible apply resumeSanitize_ok
    | with_reducible apply rebuildNext_ok
    | with_reducible apply createRebuild_ok
    | with_reducible refine Ok.foldl ?_ (fun _ _ _ => ?_)
    | (fail_if_no_progress with_reducible refine Ok.upd ?_ (by with_unfolding_all rfl))
    | split

theorem startSweep_ok {a s : State} (hs : Ok a s) : Ok a (startSweep s) := by
  unfold startSweep
  repeat' first
    | with_reducible assumption
    | with_reducible apply addSweep_ok
    | (fail_if_no_progress with_reducible refine Ok.upd ?_ (by with_unfolding_all rfl))
    | split

theorem relocateDump_ok {a s : State} (hs : Ok a s) : Ok a (relocateDump s) := by
  unfold relocateDump
  repeat' first
    | with_reducible assumption
    | with_reducible apply startEmptying_ok
    | with_reducible refine Ok.foldl ?_ (fun _ _ _ => ?_)
    | (fail_if_no_progress with_reducible refine Ok.upd ?_ (by with_unfolding_all rfl))
    | split

end Sys2Proof.Laws
end

