-- ==== Sys2Proof/Laws/KeptRows.lean ====
section
/-! SUPPORT. What every step keeps (`Ok`), for the rows. -/

namespace Sys2Proof.Laws

open Sys2Proof Sys2Proof.Machine

theorem barAccess_ok {a s : State} (posted : Bool) (f : State → State) (hs : Ok a s) (k : Ok a (f s)) : Ok a (barAccess posted f s) := by
  unfold barAccess
  split
  · exact k
  · split
    · exact refuseRequest_ok _ _ hs
    · exact hs

theorem setEnable_ok {a s : State} (h : Ok a s) : Ok a (setEnable s) := by
  unfold setEnable
  split
  · exact h
  · split
    · refine h.sameBut rfl (fun z => { z with kinetic := ?_ })
      show (if _ then 2 else 1 : Nat) ≤ 2
      split <;> omega
    · exact h.upd rfl

theorem setShutdown_ok {a s : State} (hs : Ok a s) : Ok a (setShutdown s) := by
  unfold setShutdown
  repeat' first
    | with_reducible assumption
    | with_reducible apply closeStripes_ok
    | (fail_if_no_progress with_reducible refine Ok.upd ?_ (by with_unfolding_all rfl))
    | split

theorem endShutdown_ok {a s : State} (hs : Ok a s) : Ok a (endShutdown s) := by
  unfold endShutdown
  repeat' first
    | with_reducible assumption
    | (intro y; refine (fun (k : Ok a y) => ?_) ?_; (on_goal 1 => clear_value y); on_goal 2 => subst y)
    | (intro y; refine (fun (k : Ok a y.1) => ?_) ?_; (on_goal 1 => clear_value y); on_goal 2 => subst y)
    | (intro y; subst y)
    | lift_lets
    | with_reducible apply finishShutdown_ok
    | with_reducible apply succeed_ok
    | (fail_if_no_progress with_reducible refine Ok.upd ?_ (by with_unfolding_all rfl))
    | split

theorem badDoorbell_ok {a s : State} (q index detail : Nat) (hs : Ok a s) : Ok a (badDoorbell q index detail s) := by
  unfold badDoorbell
  repeat' first
    | with_reducible assumption
    | with_reducible apply logError_ok
    | (fail_if_no_progress with_reducible refine Ok.upd ?_ (by with_unfolding_all rfl))
    | split

theorem tailDoorbell_ok {a s : State} (q : Nat) (value : BitVec 32) (hs : Ok a s) : Ok a (tailDoorbell q value s) := by
  unfold tailDoorbell
  repeat' first
    | with_reducible assumption
    | (intro y; refine (fun (k : Ok a y) => ?_) ?_; (on_goal 1 => clear_value y); on_goal 2 => subst y)
    | (intro y; refine (fun (k : Ok a y.1) => ?_) ?_; (on_goal 1 => clear_value y); on_goal 2 => subst y)
    | (intro y; subst y)
    | lift_lets
    | with_reducible apply badDoorbell_ok
    | with_reducible apply modPair_ok
    | with_reducible apply touch_ok
    | with_reducible apply resumePair_ok
    | (fail_if_no_progress with_reducible refine Ok.upd ?_ (by with_unfolding_all rfl))
    | split

theorem headDoorbell_ok {a s : State} (q : Nat) (value : BitVec 32) (hs : Ok a s) : Ok a (headDoorbell q value s) := by
  unfold headDoorbell
  repeat' first
    | with_reducible assumption
    | (intro y; refine (fun (k : Ok a y) => ?_) ?_; (on_goal 1 => clear_value y); on_goal 2 => subst y)
    | (intro y; refine (fun (k : Ok a y.1) => ?_) ?_; (on_goal 1 => clear_value y); on_goal 2 => subst y)
    | (intro y; subst y)
    | lift_lets
    | with_reducible apply badDoorbell_ok
    | with_reducible apply modPair_ok
    | with_reducible apply touch_ok
    | (fail_if_no_progress with_reducible refine Ok.upd ?_ (by with_unfolding_all rfl))
    | split

theorem sendPending_ok {a s : State} (v : Nat) (hs : Ok a s) : Ok a (sendPending v s) := by
  unfold sendPending
  repeat' first
    | with_reducible assumption
    | with_reducible apply post_ok
    | (fail_if_no_progress with_reducible refine Ok.upd ?_ (by with_unfolding_all rfl))
    | split

theorem setMsixByte_wf (a : Nat) (b : Byte) (t : Mem) (h : Mem.wf 0 t = true) : Mem.wf 0 (setMsixByte a b t) = true := by
  unfold setMsixByte
  exact Mem.wf_set _ _ _ _ h

theorem writeMsix_ok {a s : State} (off : Nat) (v : BitVec 32) (hs : Ok a s) : Ok a (writeMsix off v s) := by
  unfold writeMsix
  refine sendPending_ok _ ?_
  exact ⟨hs.unit, hs.worn, hs.dies, hs.channels, hs.rulings, fun x => { hs.sound x with
    msix := Mem.wf_foldl _ _ _ _ (hs.sound x).msix (fun t i h => setMsixByte_wf _ _ _ h) }⟩

theorem writeControl_ok {a s : State} (v : Nat) (hs : Ok a s) : Ok a (writeControl v s) := by
  unfold writeControl
  repeat' first
    | with_reducible assumption
    | (intro y; refine (fun (k : Ok a y) => ?_) ?_; (on_goal 1 => clear_value y); on_goal 2 => subst y)
    | (intro y; refine (fun (k : Ok a y.1) => ?_) ?_; (on_goal 1 => clear_value y); on_goal 2 => subst y)
    | (intro y; subst y)
    | lift_lets
    | with_reducible apply setEnable_ok
    | with_reducible apply clearEnable_ok
    | with_reducible apply setShutdown_ok
    | (fail_if_no_progress with_reducible refine Ok.upd ?_ (by with_unfolding_all rfl))
    | split

theorem writeBoot_ok {a s : State} (off v : Nat) (h : Ok a s) : Ok a (writeBoot off v s) := by
  have k : ∀ r q c qs cs, Ok a { s with pcie := { s.pcie with request := r, asq := q, acq := c, asqSize := qs, acqSize := cs } } :=
    fun r q c qs cs => h.upd rfl
  unfold writeBoot
  split
  · exact h
  · split
    · exact k _ _ _ _ _
    · exact k _ _ _ _ _
    · exact k _ _ _ _ _
    · exact k _ _ _ _ _
    · exact k _ _ _ _ _
    · exact k _ _ _ _ _
    · exact h

theorem barWord_ok {a s : State} (off : Nat) (v : BitVec 32) (hs : Ok a s) : Ok a (barWord off v s) := by
  unfold barWord
  repeat' first
    | with_reducible assumption
    | with_reducible apply writeControl_ok
    | with_reducible apply writeBoot_ok
    | with_reducible apply tailDoorbell_ok
    | with_reducible apply headDoorbell_ok
    | with_reducible apply writeMsix_ok
    | (fail_if_no_progress with_reducible refine Ok.upd ?_ (by with_unfolding_all rfl))
    | split

theorem inband_ok {a s : State} (left : Pcie) (hg : left.granted ≤ 2) (hm : Mem.wf 0 left.msixTable = true) (h : Ok a s) : Ok a (inband left s) := by
  unfold inband
  exact (dropHost_ok h).sameBut rfl (fun z => { z with kinetic := hg, msix := hm })

theorem wake_ok {a s : State} (h : Ok a s) : Ok a (wake s) := by
  unfold wake
  exact h.sameBut rfl (fun z => { z with power := by show (if _ then 1 else 0 : Nat) ≤ 4; split <;> omega })

theorem linkFault_ok {a s : State} (aer : BitVec 32) (action : State → State) (k : ∀ x, Ok a x → Ok a (action x)) (h : Ok a s) :
    Ok a (linkFault aer action s) := by
  unfold linkFault
  simp only
  split
  · exact recordFault_ok _ _ _ _ _ h
  · split
    · exact k _ (recordFault_ok _ _ _ _ _ h)
    · exact emit_ok _ (clearEnable_ok (recordFault_ok _ _ _ _ _ h))

theorem linkLost_ok {a s : State} (down : Bool) (hs : Ok a s) : Ok a (linkLost down s) := by
  unfold linkLost
  split
  · exact inband_ok _ (Nat.zero_le _) rfl hs
  · exact hs

theorem countRetry_ok {a s : State} (f : Fetched) (hs : Ok a s) : Ok a (countRetry f s) := by
  unfold countRetry
  repeat' first
    | with_reducible assumption
    | (fail_if_no_progress with_reducible refine Ok.upd ?_ (by with_unfolding_all rfl))
    | split

theorem ringReadFailed_ok {a s : State} (q : Nat) (hs : Ok a s) : Ok a (ringReadFailed q s) := by
  unfold ringReadFailed
  split
  · split
    · exact linkFault_ok _ _ (fun x h => emit_ok _ (countRetry_ok _ h)) hs
    · exact linkFault_ok _ _ (fun x h => countRetry_ok _ h) hs
  · split
    · exact linkFault_ok _ _ (fun x h => h) (modPair_ok _ _ hs)
    · exact linkFault_ok _ _ (fun x h => emit_ok _ h) (modPair_ok _ _ hs)
  · exact hs

theorem fetchOne_ok {a s : State} (q : Nat) (e : Entry) (hs : Ok a s) : Ok a (fetchOne q e s) := by
  unfold fetchOne
  repeat' first
    | with_reducible assumption
    | (intro y; refine (fun (k : Ok a y) => ?_) ?_; (on_goal 1 => clear_value y); on_goal 2 => subst y)
    | (intro y; refine (fun (k : Ok a y.1) => ?_) ?_; (on_goal 1 => clear_value y); on_goal 2 => subst y)
    | (intro y; subst y)
    | lift_lets
    | with_reducible apply modPair_ok
    | (fail_if_no_progress with_reducible refine Ok.upd ?_ (by with_unfolding_all rfl))
    | split

theorem noteTurn_ok {a s : State} (p : Pair) (hs : Ok a s) : Ok a (noteTurn p s) := by
  unfold noteTurn
  repeat' first
    | with_reducible assumption
    | (fail_if_no_progress with_reducible refine Ok.upd ?_ (by with_unfolding_all rfl))
    | split

theorem wipeMedia_ok {a s : State} (r : Nat) (hs : Ok a s) : Ok a (wipeMedia r s) := by
  unfold wipeMedia
  repeat' first
    | with_reducible assumption
    | (fail_if_no_progress with_reducible refine Ok.upd ?_ (by with_unfolding_all rfl))
    | split

theorem formatMedia_ok {a s : State} (r : Nat) (hs : Ok a s) : Ok a (formatMedia r s) := by
  have h1 := wipeMedia_ok r hs
  unfold formatMedia
  generalize wipeMedia r s = s1 at h1 ⊢
  have h2 : Ok a (s1.ftl.bands.foldl (fun s b => b.retireAfter.foldl (fun s k => retireBlock b.n k s) s) s1) :=
    Ok.foldl h1 (fun s b h => Ok.foldl h (fun s k h => retireBlock_ok _ _ h))
  dsimp only
  generalize s1.ftl.bands.foldl (fun s b => b.retireAfter.foldl (fun s k => retireBlock b.n k s) s) s1 = s2 at h2 ⊢
  refine addPage_ok _ (Ok.upd (resizeCache_ok (Ok.foldl (Ok.upd h2 rfl) (fun s b h => mendBand_ok _ h))) ?_)
  simp only [core]

theorem endMismatch_ok {a s : State} (hs : Ok a s) : Ok a (endMismatch s) := by
  unfold endMismatch
  repeat' first
    | with_reducible assumption
    | (fail_if_no_progress with_reducible refine Ok.upd ?_ (by with_unfolding_all rfl))
    | split

theorem segmentFault_ok {a s : State} (k : Nat) (hs : Ok a s) : Ok a (segmentFault k s) := by
  unfold segmentFault
  repeat' first
    | with_reducible assumption
    | with_reducible apply recordFault_ok
    | with_reducible apply draw_ok
    | (fail_if_no_progress with_reducible refine Ok.upd ?_ (by with_unfolding_all rfl))
    | split

theorem swapImage_ok {a s : State} (i : Item) (hs : Ok a s) : Ok a (swapImage i s) := by
  unfold swapImage
  repeat' first
    | with_reducible assumption
    | (intro y; refine (fun (k : Ok a y) => ?_) ?_; (on_goal 1 => clear_value y); on_goal 2 => subst y)
    | (intro y; refine (fun (k : Ok a y.1) => ?_) ?_; (on_goal 1 => clear_value y); on_goal 2 => subst y)
    | (intro y; subst y)
    | lift_lets
    | with_reducible apply runImage_ok
    | with_reducible apply readySwap_ok
    | with_reducible apply succeed_ok
    | with_reducible apply resumeWork_ok
    | (fail_if_no_progress with_reducible refine Ok.upd ?_ (by with_unfolding_all rfl))
    | split

theorem respond_ok {a s : State} (tag : BitVec 3) (index result : Nat) (hs : Ok a s) : Ok a (respond tag index result s) := by
  unfold respond
  repeat' first
    | with_reducible assumption
    | with_reducible apply emit_ok
    | with_reducible apply illegal_ok
    | (fail_if_no_progress with_reducible refine Ok.upd ?_ (by with_unfolding_all rfl))
    | split

theorem illegal_ok {a s : State} (tag : BitVec 3) (index : Nat) (hs : Ok a s) : Ok a (illegal tag index s) := by
  unfold illegal
  repeat' first
    | with_reducible assumption
    | with_reducible apply respond_ok
    | (fail_if_no_progress with_reducible refine Ok.upd ?_ (by with_unfolding_all rfl))
    | split

theorem taskFrame_ok {a s : State} (tag : BitVec 3) (index : Nat) (states : Machine.Task → Bool) (f : State → State) (k : Ok a (f s))
    (h : Ok a s) : Ok a (taskFrame tag index states f s) := by
  unfold taskFrame
  split
  · exact h
  · split
    · exact illegal_ok _ _ h
    · exact k

theorem checkError_ok {a s : State} (hs : Ok a s) : Ok a (checkError s) := by
  unfold checkError
  repeat' first
    | with_reducible assumption
    | with_reducible apply recordHandled_ok
    | (fail_if_no_progress with_reducible refine Ok.upd ?_ (by with_unfolding_all rfl))
    | split

theorem handOver_ok {a s : State} (hs : Ok a s) : Ok a (handOver s) := by
  unfold handOver
  repeat' first
    | with_reducible assumption
    | (intro y; refine (fun (k : Ok a y) => ?_) ?_; (on_goal 1 => clear_value y); on_goal 2 => subst y)
    | (intro y; refine (fun (k : Ok a y.1) => ?_) ?_; (on_goal 1 => clear_value y); on_goal 2 => subst y)
    | (intro y; subst y)
    | lift_lets
    | with_reducible apply touch_ok
    | (fail_if_no_progress with_reducible refine Ok.upd ?_ (by with_unfolding_all rfl))
    | split

theorem abortTask_ok {a s : State} (hs : Ok a s) : Ok a (abortTask s) := by
  unfold abortTask
  repeat' first
    | with_reducible assumption
    | with_reducible apply abortFetched_ok
    | with_reducible apply finish_ok
    | (fail_if_no_progress with_reducible refine Ok.upd ?_ (by with_unfolding_all rfl))
    | split

theorem taskDataIn_ok {a s : State} (hs : Ok a s) : Ok a (taskDataIn s) := by
  unfold taskDataIn
  repeat' first
    | with_reducible assumption
    | (intro y; refine (fun (k : Ok a y) => ?_) ?_; (on_goal 1 => clear_value y); on_goal 2 => subst y)
    | (intro y; refine (fun (k : Ok a y.1) => ?_) ?_; (on_goal 1 => clear_value y); on_goal 2 => subst y)
    | (intro y; subst y)
    | lift_lets
    | with_reducible apply setItem_ok
    | with_reducible apply startFirmware_ok
    | with_reducible apply gateStops_ok
    | with_reducible apply takeData_ok
    | (fail_if_no_progress with_reducible refine Ok.upd ?_ (by with_unfolding_all rfl))
    | split

theorem taskDataOut_ok {a s : State} (hs : Ok a s) : Ok a (taskDataOut s) := by
  unfold taskDataOut
  repeat' first
    | with_reducible assumption
    | (intro y; refine (fun (k : Ok a y) => ?_) ?_; (on_goal 1 => clear_value y); on_goal 2 => subst y)
    | (intro y; refine (fun (k : Ok a y.1) => ?_) ?_; (on_goal 1 => clear_value y); on_goal 2 => subst y)
    | (intro y; subst y)
    | lift_lets
    | with_reducible apply succeed_ok
    | (fail_if_no_progress with_reducible refine Ok.upd ?_ (by simp only [core] <;> rfl))
    | split

theorem receiveTaskBlock_ok {a s : State} (data : Mem) (ok : Bool) (hs : Ok a s) : Ok a (receiveTaskBlock data ok s) := by
  unfold receiveTaskBlock
  repeat' first
    | with_reducible assumption
    | (intro y; refine (fun (k : Ok a y) => ?_) ?_; (on_goal 1 => clear_value y); on_goal 2 => subst y)
    | (intro y; refine (fun (k : Ok a y.1) => ?_) ?_; (on_goal 1 => clear_value y); on_goal 2 => subst y)
    | (intro y; subst y)
    | lift_lets
    | with_reducible apply emit_ok
    | with_reducible apply checkError_ok
    | (fail_if_no_progress with_reducible refine Ok.upd ?_ (by simp only [core] <;> rfl))
    | split

theorem receiveSlot_ok {a s : State} (n : Nat) (data : Mem) (ok : Bool) (hs : Ok a s) : Ok a (receiveSlot n data ok s) := by
  unfold receiveSlot
  repeat' first
    | with_reducible assumption
    | (intro y; refine (fun (k : Ok a y) => ?_) ?_; (on_goal 1 => clear_value y); on_goal 2 => subst y)
    | (intro y; refine (fun (k : Ok a y.1) => ?_) ?_; (on_goal 1 => clear_value y); on_goal 2 => subst y)
    | (intro y; subst y)
    | lift_lets
    | with_reducible apply emit_ok
    | with_reducible apply taskDataIn_ok
    | with_reducible apply checkError_ok
    | (fail_if_no_progress with_reducible refine Ok.upd ?_ (by with_unfolding_all rfl))
    | split

theorem sendBlocks_ok {a s : State} (p : Payload) (k n : Nat) (hs : Ok a s) : Ok a (sendBlocks p k n s) := by
  unfold sendBlocks
  repeat' first
    | with_reducible assumption
    | (intro y; refine (fun (k : Ok a y) => ?_) ?_; (on_goal 1 => clear_value y); on_goal 2 => subst y)
    | (intro y; refine (fun (k : Ok a y.1) => ?_) ?_; (on_goal 1 => clear_value y); on_goal 2 => subst y)
    | (intro y; subst y)
    | lift_lets
    | with_reducible apply emit_ok
    | with_reducible refine Ok.foldl ?_ (fun _ _ _ => ?_)
    | (fail_if_no_progress with_reducible refine Ok.upd ?_ (by with_unfolding_all rfl))
    | split

theorem readDataFrame_ok {a s : State} (tag : BitVec 3) (arg : BitVec 32) (hs : Ok a s) : Ok a (readDataFrame tag arg s) := by
  unfold readDataFrame
  repeat' first
    | with_reducible assumption
    | (intro y; refine (fun (k : Ok a y) => ?_) ?_; (on_goal 1 => clear_value y); on_goal 2 => subst y)
    | (intro y; refine (fun (k : Ok a y.1) => ?_) ?_; (on_goal 1 => clear_value y); on_goal 2 => subst y)
    | (intro y; subst y)
    | lift_lets
    | with_reducible apply illegal_ok
    | with_reducible apply taskDataOut_ok
    | with_reducible apply respond_ok
    | with_reducible apply sendBlocks_ok
    | (fail_if_no_progress with_reducible refine Ok.upd ?_ (by simp only [core] <;> rfl))
    | split

theorem busResetEffect_ok {a s : State} (h : Ok a s) : Ok a (busResetEffect s) := by
  have k : Ok a (if s.nb.task = .admitting || s.nb.task = .dataIn || s.nb.task = .dataOut then abortTask s else s) := by
    split
    · exact abortTask_ok h
    · exact h
  unfold busResetEffect
  generalize (if s.nb.task = .admitting || s.nb.task = .dataIn || s.nb.task = .dataOut then abortTask s else s) = x at k
  simp only
  split
  · exact k.sameBut rfl (fun z => { z with granted := rfl })
  · exact k.sameBut rfl (fun z => { z with granted := rfl })

theorem refuseProgram_ok {a s : State} (c : Nat) (o : DieOp) (hs : Ok a s) : Ok a (refuseProgram c o s) := by
  unfold refuseProgram
  repeat' first
    | with_reducible assumption
    | (intro y; refine (fun (k : Ok a y) => ?_) ?_; (on_goal 1 => clear_value y); on_goal 2 => subst y)
    | (intro y; refine (fun (k : Ok a y.1) => ?_) ?_; (on_goal 1 => clear_value y); on_goal 2 => subst y)
    | (intro y; subst y)
    | lift_lets
    | with_reducible apply recordStall_ok
    | with_reducible apply reloadBlks_ok
    | with_reducible apply failChannel_ok
    | with_reducible apply ackReaction_ok
    | (fail_if_no_progress with_reducible refine Ok.upd ?_ (by with_unfolding_all rfl))
    | split

theorem refuseRead_ok {a s : State} (i : Item) (hs : Ok a s) : Ok a (refuseRead i s) := by
  unfold refuseRead
  repeat' first
    | with_reducible assumption
    | (intro y; refine (fun (k : Ok a y) => ?_) ?_; (on_goal 1 => clear_value y); on_goal 2 => subst y)
    | (intro y; refine (fun (k : Ok a y.1) => ?_) ?_; (on_goal 1 => clear_value y); on_goal 2 => subst y)
    | (intro y; subst y)
    | lift_lets
    | with_reducible apply gateStops_ok
    | (fail_if_no_progress with_reducible refine Ok.upd ?_ (by with_unfolding_all rfl))
    | split

theorem dispatch_ok {a s : State} (c : Nat) (hs : Ok a s) : Ok a (dispatch c s) := by
  unfold dispatch
  repeat' first
    | with_reducible assumption
    | with_reducible apply modDie_ok
    | with_reducible apply refuseRead_ok
    | with_reducible apply issue_ok
    | with_reducible apply openMedia_ok
    | with_reducible apply refuseProgram_ok
    | (fail_if_no_progress with_reducible refine Ok.upd ?_ (by with_unfolding_all rfl))
    | split

theorem checkDies_ok {a s : State} (hs : Ok a s) : Ok a (checkDies s) := by
  unfold checkDies
  repeat' first
    | with_reducible assumption
    | (intro y; refine (fun (k : Ok a y) => ?_) ?_; (on_goal 1 => clear_value y); on_goal 2 => subst y)
    | (intro y; refine (fun (k : Ok a y.1) => ?_) ?_; (on_goal 1 => clear_value y); on_goal 2 => subst y)
    | (intro y; subst y)
    | lift_lets
    | with_reducible apply dieFails_ok
    | with_reducible refine Ok.foldl ?_ (fun _ _ _ => ?_)
    | (fail_if_no_progress with_reducible refine Ok.upd ?_ (by with_unfolding_all rfl))
    | split

theorem programDone_ok {a s : State} (p : Prog) (die : Nat) (ok : Bool) (plane : Nat) (hs : Ok a s) : Ok a (programDone p die ok plane s) := by
  unfold programDone
  repeat' first
    | with_reducible assumption
    | (intro y; refine (fun (k : Ok a y) => ?_) ?_; (on_goal 1 => clear_value y); on_goal 2 => subst y)
    | (intro y; refine (fun (k : Ok a y.1) => ?_) ?_; (on_goal 1 => clear_value y); on_goal 2 => subst y)
    | (intro y; subst y)
    | lift_lets
    | with_reducible apply programVerified_ok
    | with_reducible apply modProgs_ok
    | with_reducible apply checkDies_ok
    | with_reducible apply programFailed_ok
    | (fail_if_no_progress with_reducible refine Ok.upd ?_ (by with_unfolding_all rfl))
    | split

theorem reviveRebuild_ok {a s : State} (hs : Ok a s) : Ok a (reviveRebuild s) := by
  unfold reviveRebuild
  repeat' first
    | with_reducible assumption
    | with_reducible apply rebuildNext_ok
    | (fail_if_no_progress with_reducible refine Ok.upd ?_ (by with_unfolding_all rfl))
    | split

theorem erasedUnworn_ok {a s : State} (n die : Nat) (hs : Ok a s) : Ok a (erasedUnworn n die s) := by
  unfold erasedUnworn
  repeat' first
    | with_reducible assumption
    | with_reducible apply modBlks_ok
    | (fail_if_no_progress with_reducible refine Ok.upd ?_ (by with_unfolding_all rfl))
    | split

theorem reopened_ok {a s : State} (n : Nat) (hs : Ok a s) : Ok a (reopened n s) := by
  unfold reopened
  repeat' first
    | with_reducible assumption
    | (intro y; refine (fun (k : Ok a y) => ?_) ?_; (on_goal 1 => clear_value y); on_goal 2 => subst y)
    | (intro y; refine (fun (k : Ok a y.1) => ?_) ?_; (on_goal 1 => clear_value y); on_goal 2 => subst y)
    | (intro y; subst y)
    | lift_lets
    | with_reducible apply modBand_ok
    | with_reducible apply launch_ok
    | (fail_if_no_progress with_reducible refine Ok.upd ?_ (by with_unfolding_all rfl))
    | split

theorem eraseDone_ok {a s : State} (n die : Nat) (pass : Bool) (plane : Nat) (hs : Ok a s) : Ok a (eraseDone n die pass plane s) := by
  unfold eraseDone
  repeat' first
    | with_reducible assumption
    | (intro y; refine (fun (k : Ok a y) => ?_) ?_; (on_goal 1 => clear_value y); on_goal 2 => subst y)
    | (intro y; refine (fun (k : Ok a y.1) => ?_) ?_; (on_goal 1 => clear_value y); on_goal 2 => subst y)
    | (intro y; subst y)
    | lift_lets
    | with_reducible apply erasedUnworn_ok
    | with_reducible apply erasedOn_ok
    | with_reducible apply modBand_ok
    | with_reducible apply retireBlock_ok
    | with_reducible apply checkDies_ok
    | with_reducible apply abandonBand_ok
    | with_reducible apply reopened_ok
    | with_reducible apply rebuildNext_ok
    | with_reducible apply checkWorn_ok
    | with_reducible apply erased_ok
    | (fail_if_no_progress with_reducible refine Ok.upd ?_ (by with_unfolding_all rfl))
    | split

theorem countRead_ok {a s : State} (n key k : Nat) (hs : Ok a s) : Ok a (countRead n key k s) := by
  unfold countRead
  repeat' first
    | with_reducible assumption
    | (intro y; refine (fun (k : Ok a y) => ?_) ?_; (on_goal 1 => clear_value y); on_goal 2 => subst y)
    | (intro y; refine (fun (k : Ok a y.1) => ?_) ?_; (on_goal 1 => clear_value y); on_goal 2 => subst y)
    | (intro y; subst y)
    | lift_lets
    | with_reducible apply modBlks_ok
    | with_reducible apply refreshBand_ok
    | (fail_if_no_progress with_reducible refine Ok.upd ?_ (by with_unfolding_all rfl))
    | split

theorem swept_ok {a s : State} (p : Probe) (m : Nat) (hs : Ok a s) : Ok a (swept p m s) := by
  unfold swept
  repeat' first
    | with_reducible assumption
    | (intro y; refine (fun (k : Ok a y) => ?_) ?_; (on_goal 1 => clear_value y); on_goal 2 => subst y)
    | (intro y; refine (fun (k : Ok a y.1) => ?_) ?_; (on_goal 1 => clear_value y); on_goal 2 => subst y)
    | (intro y; subst y)
    | lift_lets
    | with_reducible apply modBlks_ok
    | with_reducible apply refreshBand_ok
    | (fail_if_no_progress with_reducible refine Ok.upd ?_ (by with_unfolding_all rfl))
    | split

theorem readAt_ok {a s : State} (r : Rd) (step c : Nat) (hs : Ok a s) : Ok a (readAt r step c s) := by
  unfold readAt
  repeat' first
    | with_reducible assumption
    | with_reducible apply enqueue_ok
    | with_reducible apply modRd_ok
    | (fail_if_no_progress with_reducible refine Ok.upd ?_ (by with_unfolding_all rfl))
    | split

theorem climb_ok {a s : State} (r : Rd) (hs : Ok a s) : Ok a (climb r s).1 := by
  unfold climb
  repeat' first
    | with_reducible assumption
    | (intro y; refine (fun (k : Ok a y) => ?_) ?_; (on_goal 1 => clear_value y); on_goal 2 => subst y)
    | (intro y; refine (fun (k : Ok a y.1) => ?_) ?_; (on_goal 1 => clear_value y); on_goal 2 => subst y)
    | (intro y; subst y)
    | lift_lets
    | with_reducible apply reconstruct_ok
    | with_reducible apply startProbe_ok
    | with_reducible apply modRd_ok
    | with_reducible apply readAt_ok
    | with_reducible apply draw_ok
    | (fail_if_no_progress with_reducible refine Ok.upd ?_ (by with_unfolding_all rfl))
    | split

theorem probed_ok {a s : State} (id m : Nat) (hs : Ok a s) : Ok a (probed id m s) := by
  unfold probed
  repeat' first
    | with_reducible assumption
    | (intro y; refine (fun (k : Ok a y) => ?_) ?_; (on_goal 1 => clear_value y); on_goal 2 => subst y)
    | (intro y; refine (fun (k : Ok a y.1) => ?_) ?_; (on_goal 1 => clear_value y); on_goal 2 => subst y)
    | (intro y; subst y)
    | lift_lets
    | with_reducible apply modRd_ok
    | with_reducible apply climb_ok
    | with_reducible apply readAt_ok
    | (fail_if_no_progress with_reducible refine Ok.upd ?_ (by with_unfolding_all rfl))
    | split

theorem probeRead_ok {a s : State} (p : Probe) (errors : Nat) (hs : Ok a s) : Ok a (probeRead p errors s) := by
  unfold probeRead
  repeat' first
    | with_reducible assumption
    | (intro y; refine (fun (k : Ok a y) => ?_) ?_; (on_goal 1 => clear_value y); on_goal 2 => subst y)
    | (intro y; refine (fun (k : Ok a y.1) => ?_) ?_; (on_goal 1 => clear_value y); on_goal 2 => subst y)
    | (intro y; subst y)
    | lift_lets
    | with_reducible apply enqueue_ok
    | with_reducible apply probed_ok
    | with_reducible apply testWork_ok
    | with_reducible apply swept_ok
    | with_reducible apply sweepDie_ok
    | (fail_if_no_progress with_reducible refine Ok.upd ?_ (by with_unfolding_all rfl))
    | split

theorem reachedLast_ok {a s : State} (r : Rd) (hs : Ok a s) : Ok a (reachedLast r s) := by
  unfold reachedLast
  repeat' first
    | with_reducible assumption
    | with_reducible apply refreshBand_ok
    | with_reducible apply modBand_ok
    | (fail_if_no_progress with_reducible refine Ok.upd ?_ (by with_unfolding_all rfl))
    | split

theorem learn_ok {a s : State} (r : Rd) (corrected : Nat) (hs : Ok a s) : Ok a (learn r corrected s) := by
  unfold learn
  repeat' first
    | with_reducible assumption
    | (intro y; refine (fun (k : Ok a y) => ?_) ?_; (on_goal 1 => clear_value y); on_goal 2 => subst y)
    | (intro y; refine (fun (k : Ok a y.1) => ?_) ?_; (on_goal 1 => clear_value y); on_goal 2 => subst y)
    | (intro y; subst y)
    | lift_lets
    | with_reducible apply modBlks_ok
    | with_reducible apply reachedLast_ok
    | with_reducible apply refreshBand_ok
    | with_reducible apply modBand_ok
    | (fail_if_no_progress with_reducible refine Ok.upd ?_ (by with_unfolding_all rfl))
    | split

theorem fillCache_ok {a s : State} (i : Item) (r : Rd) (hs : Ok a s) : Ok a (fillCache i r s) := by
  unfold fillCache
  repeat' first
    | with_reducible assumption
    | (intro y; refine (fun (k : Ok a y) => ?_) ?_; (on_goal 1 => clear_value y); on_goal 2 => subst y)
    | (intro y; refine (fun (k : Ok a y.1) => ?_) ?_; (on_goal 1 => clear_value y); on_goal 2 => subst y)
    | (intro y; subst y)
    | lift_lets
    | (fail_if_no_progress with_reducible refine Ok.upd ?_ (by with_unfolding_all rfl))
    | split

theorem peerDone_ok {a s : State} (r : Rd) (hs : Ok a s) : Ok a (peerDone r s) := by
  unfold peerDone
  repeat' first
    | with_reducible assumption
    | (intro y; refine (fun (k : Ok a y) => ?_) ?_; (on_goal 1 => clear_value y); on_goal 2 => subst y)
    | (intro y; refine (fun (k : Ok a y.1) => ?_) ?_; (on_goal 1 => clear_value y); on_goal 2 => subst y)
    | (intro y; subst y)
    | lift_lets
    | with_reducible apply dropRd_ok
    | with_reducible apply modRd_ok
    | (fail_if_no_progress with_reducible refine Ok.upd ?_ (by with_unfolding_all rfl))
    | split

theorem codewordDone_ok {a s : State} (r : Rd) (hs : Ok a s) : Ok a (codewordDone r s) := by
  unfold codewordDone
  repeat' first
    | with_reducible assumption
    | (intro y; refine (fun (k : Ok a y) => ?_) ?_; (on_goal 1 => clear_value y); on_goal 2 => subst y)
    | (intro y; refine (fun (k : Ok a y.1) => ?_) ?_; (on_goal 1 => clear_value y); on_goal 2 => subst y)
    | (intro y; subst y)
    | lift_lets
    | with_reducible apply modRd_ok
    | with_reducible apply readsDone_ok
    | with_reducible apply fillCache_ok
    | with_reducible apply dropRd_ok
    | with_reducible apply closeCopies_ok
    | with_reducible apply copyOut_ok
    | with_reducible apply placeStroke_ok
    | with_reducible apply peerDone_ok
    | with_reducible apply mergeDone_ok
    | (fail_if_no_progress with_reducible refine Ok.upd ?_ (by with_unfolding_all rfl))
    | split

theorem mediaFault_ok {a s : State} (r : Rd) (hs : Ok a s) : Ok a (mediaFault r s) := by
  unfold mediaFault
  repeat' first
    | with_reducible assumption
    | with_reducible apply recordFault_ok
    | (fail_if_no_progress with_reducible refine Ok.upd ?_ (by with_unfolding_all rfl))
    | split

theorem copyLost_ok {a s : State} (r : Rd) (hs : Ok a s) : Ok a (copyLost r s) := by
  unfold copyLost
  repeat' first
    | with_reducible assumption
    | (intro y; refine (fun (k : Ok a y) => ?_) ?_; (on_goal 1 => clear_value y); on_goal 2 => subst y)
    | (intro y; refine (fun (k : Ok a y.1) => ?_) ?_; (on_goal 1 => clear_value y); on_goal 2 => subst y)
    | (intro y; subst y)
    | lift_lets
    | with_reducible apply modEmptying_ok
    | with_reducible apply closeCopies_ok
    | with_reducible apply mediaFault_ok
    | with_reducible apply rebuildNext_ok
    | (fail_if_no_progress with_reducible refine Ok.upd ?_ (by with_unfolding_all rfl))
    | split

theorem strokeLost_ok {a s : State} (r : Rd) (hs : Ok a s) : Ok a (strokeLost r s) := by
  unfold strokeLost
  repeat' first
    | with_reducible assumption
    | (intro y; refine (fun (k : Ok a y) => ?_) ?_; (on_goal 1 => clear_value y); on_goal 2 => subst y)
    | (intro y; refine (fun (k : Ok a y.1) => ?_) ?_; (on_goal 1 => clear_value y); on_goal 2 => subst y)
    | (intro y; subst y)
    | lift_lets
    | with_reducible apply copyLost_ok
    | with_reducible apply startMove_ok
    | with_reducible apply mediaFault_ok
    | with_reducible refine Ok.foldl ?_ (fun _ _ _ => ?_)
    | (fail_if_no_progress with_reducible refine Ok.upd ?_ (by with_unfolding_all rfl))
    | split

theorem readLost_ok {a s : State} (r : Rd) (hs : Ok a s) : Ok a (readLost r s) := by
  unfold readLost
  repeat' first
    | with_reducible assumption
    | (intro y; refine (fun (k : Ok a y) => ?_) ?_; (on_goal 1 => clear_value y); on_goal 2 => subst y)
    | (intro y; refine (fun (k : Ok a y.1) => ?_) ?_; (on_goal 1 => clear_value y); on_goal 2 => subst y)
    | (intro y; subst y)
    | lift_lets
    | with_reducible apply mediaFault_ok
    | with_reducible apply failData_ok
    | with_reducible apply copyLost_ok
    | with_reducible apply dropRd_ok
    | with_reducible apply strokeLost_ok
    | with_reducible apply testFound_ok
    | (fail_if_no_progress with_reducible refine Ok.upd ?_ (by with_unfolding_all rfl))
    | split

theorem removeDecoder_ok {a s : State} (d source : Nat) (hs : Ok a s) : Ok a (removeDecoder d source s) := by
  unfold removeDecoder
  repeat' first
    | with_reducible assumption
    | (intro y; refine (fun (k : Ok a y) => ?_) ?_; (on_goal 1 => clear_value y); on_goal 2 => subst y)
    | (intro y; refine (fun (k : Ok a y.1) => ?_) ?_; (on_goal 1 => clear_value y); on_goal 2 => subst y)
    | (intro y; subst y)
    | lift_lets
    | with_reducible apply recordLevel_ok
    | with_reducible apply recordFault_ok
    | (fail_if_no_progress with_reducible refine Ok.upd ?_ (by with_unfolding_all rfl))
    | split

theorem noteFalse_ok {a s : State} (r : Rd) (decoder : Nat) (hs : Ok a s) : Ok a (noteFalse r decoder s) := by
  unfold noteFalse
  repeat' first
    | with_reducible assumption
    | (intro y; refine (fun (k : Ok a y) => ?_) ?_; (on_goal 1 => clear_value y); on_goal 2 => subst y)
    | (intro y; refine (fun (k : Ok a y.1) => ?_) ?_; (on_goal 1 => clear_value y); on_goal 2 => subst y)
    | (intro y; subst y)
    | lift_lets
    | with_reducible apply removeDecoder_ok
    | (fail_if_no_progress with_reducible refine Ok.upd ?_ (by with_unfolding_all rfl))
    | split

theorem peerLost_ok {a s : State} (r : Rd) (hs : Ok a s) : Ok a (peerLost r s) := by
  unfold peerLost
  repeat' first
    | with_reducible assumption
    | with_reducible apply readLost_ok
    | with_reducible apply dropRd_ok
    | (fail_if_no_progress with_reducible refine Ok.upd ?_ (by with_unfolding_all rfl))
    | split

theorem decoded_ok {a s : State} (r : Rd) (decoder : Nat) (corrected : Option Nat) (crcOk : Bool) (hs : Ok a s) : Ok a (decoded r decoder corrected crcOk s) := by
  unfold decoded
  repeat' first
    | with_reducible assumption
    | (intro y; refine (fun (k : Ok a y) => ?_) ?_; (on_goal 1 => clear_value y); on_goal 2 => subst y)
    | (intro y; refine (fun (k : Ok a y.1) => ?_) ?_; (on_goal 1 => clear_value y); on_goal 2 => subst y)
    | (intro y; subst y)
    | lift_lets
    | with_reducible apply ackReaction_ok
    | with_reducible apply noteFalse_ok
    | with_reducible apply codewordDone_ok
    | with_reducible apply learn_ok
    | with_reducible apply modRd_ok
    | with_reducible apply readLost_ok
    | with_reducible apply reachedLast_ok
    | with_reducible apply climb_ok
    | with_reducible apply peerLost_ok
    | (fail_if_no_progress with_reducible refine Ok.upd ?_ (by with_unfolding_all rfl))
    | split

theorem divert_ok {a s : State} (d : Nat) (hs : Ok a s) : Ok a (divert d s) := by
  unfold divert
  repeat' first
    | with_reducible assumption
    | (intro y; refine (fun (k : Ok a y) => ?_) ?_; (on_goal 1 => clear_value y); on_goal 2 => subst y)
    | (intro y; refine (fun (k : Ok a y.1) => ?_) ?_; (on_goal 1 => clear_value y); on_goal 2 => subst y)
    | (intro y; subst y)
    | lift_lets
    | with_reducible apply reconstruct_ok
    | with_reducible refine Ok.foldl ?_ (fun _ _ _ => ?_)
    | (fail_if_no_progress with_reducible refine Ok.upd ?_ (by with_unfolding_all rfl))
    | split

theorem checkIds_ok {a s : State} (c : Nat) (ids : List Nat) (hs : Ok a s) : Ok a (checkIds c ids s) := by
  unfold checkIds
  repeat' first
    | with_reducible assumption
    | (intro y; refine (fun (k : Ok a y) => ?_) ?_; (on_goal 1 => clear_value y); on_goal 2 => subst y)
    | (intro y; refine (fun (k : Ok a y.1) => ?_) ?_; (on_goal 1 => clear_value y); on_goal 2 => subst y)
    | (intro y; subst y)
    | lift_lets
    | with_reducible apply dieFails_ok
    | with_reducible refine Ok.foldl ?_ (fun _ _ _ => ?_)
    | (fail_if_no_progress with_reducible refine Ok.upd ?_ (by with_unfolding_all rfl))
    | split

theorem emptied_ok {a s : State} (hs : Ok a s) : Ok a (emptied s) := by
  unfold emptied
  repeat' first
    | with_reducible assumption
    | with_reducible apply eraseReady_ok
    | with_reducible apply noteLogged_ok
    | (fail_if_no_progress with_reducible refine Ok.upd ?_ (by with_unfolding_all rfl))
    | split

theorem foldOpen_ok {a s : State} (hs : Ok a s) : Ok a (foldOpen s) := by
  unfold foldOpen
  repeat' first
    | with_reducible assumption
    | (intro y; refine (fun (k : Ok a y) => ?_) ?_; (on_goal 1 => clear_value y); on_goal 2 => subst y)
    | (intro y; refine (fun (k : Ok a y.1) => ?_) ?_; (on_goal 1 => clear_value y); on_goal 2 => subst y)
    | (intro y; subst y)
    | lift_lets
    | with_reducible apply closeBandStripes_ok
    | with_reducible apply emptied_ok
    | with_reducible apply startEmptying_ok
    | with_reducible apply shutBand_ok
    | (fail_if_no_progress with_reducible refine Ok.upd ?_ (by with_unfolding_all rfl))
    | split

theorem takeOut_ok {a s : State} (source : Nat) (hs : Ok a s) : Ok a (takeOut source s) := by
  unfold takeOut
  repeat' first
    | with_reducible assumption
    | (intro y; refine (fun (k : Ok a y) => ?_) ?_; (on_goal 1 => clear_value y); on_goal 2 => subst y)
    | (intro y; refine (fun (k : Ok a y.1) => ?_) ?_; (on_goal 1 => clear_value y); on_goal 2 => subst y)
    | (intro y; subst y)
    | lift_lets
    | with_reducible apply failChannel_ok
    | with_reducible apply recordLevel_ok
    | with_reducible apply dieFails_ok
    | (fail_if_no_progress with_reducible refine Ok.upd ?_ (by with_unfolding_all rfl))
    | split

theorem unissue_ok {a s : State} (o : DieOp) (hs : Ok a s) : Ok a (unissue o s) := by
  unfold unissue
  repeat' first
    | with_reducible assumption
    | with_reducible apply modBlks_ok
    | (fail_if_no_progress with_reducible refine Ok.upd ?_ (by with_unfolding_all rfl))
    | split

theorem abortChannel_ok {a s : State} (c : Nat) (hs : Ok a s) : Ok a (abortChannel c s) := by
  unfold abortChannel
  repeat' first
    | with_reducible assumption
    | (intro y; refine (fun (k : Ok a y) => ?_) ?_; (on_goal 1 => clear_value y); on_goal 2 => subst y)
    | (intro y; refine (fun (k : Ok a y.1) => ?_) ?_; (on_goal 1 => clear_value y); on_goal 2 => subst y)
    | (intro y; subst y)
    | lift_lets
    | with_reducible apply unissue_ok
    | with_reducible apply divert_ok
    | with_reducible apply setDie_ok
    | with_reducible refine Ok.foldl ?_ (fun _ _ _ => ?_)
    | (fail_if_no_progress with_reducible refine Ok.upd ?_ (by with_unfolding_all rfl))
    | split

theorem localReset_ok {a s : State} (source : Nat) (hs : Ok a s) : Ok a (localReset source s) := by
  unfold localReset
  repeat' first
    | with_reducible assumption
    | (intro y; refine (fun (k : Ok a y) => ?_) ?_; (on_goal 1 => clear_value y); on_goal 2 => subst y)
    | (intro y; refine (fun (k : Ok a y.1) => ?_) ?_; (on_goal 1 => clear_value y); on_goal 2 => subst y)
    | (intro y; subst y)
    | lift_lets
    | with_reducible apply setIsland_ok
    | with_reducible apply abortChannel_ok
    | (fail_if_no_progress with_reducible refine Ok.upd ?_ (by with_unfolding_all rfl))
    | split

theorem stallFault_ok {a s : State} (source requester : Nat) (hs : Ok a s) : Ok a (stallFault source requester s) := by
  unfold stallFault
  repeat' first
    | with_reducible assumption
    | (intro y; refine (fun (k : Ok a y) => ?_) ?_; (on_goal 1 => clear_value y); on_goal 2 => subst y)
    | (intro y; refine (fun (k : Ok a y.1) => ?_) ?_; (on_goal 1 => clear_value y); on_goal 2 => subst y)
    | (intro y; subst y)
    | lift_lets
    | with_reducible apply recordStall_ok
    | with_reducible apply takeOut_ok
    | with_reducible apply localReset_ok
    | (fail_if_no_progress with_reducible refine Ok.upd ?_ (by with_unfolding_all rfl))
    | split

theorem wire_ok {a s : State} (source : Nat) (hs : Ok a s) : Ok a (wire source s) := by
  unfold wire
  repeat' first
    | with_reducible assumption
    | (intro y; refine (fun (k : Ok a y) => ?_) ?_; (on_goal 1 => clear_value y); on_goal 2 => subst y)
    | (intro y; refine (fun (k : Ok a y.1) => ?_) ?_; (on_goal 1 => clear_value y); on_goal 2 => subst y)
    | (intro y; subst y)
    | lift_lets
    | with_reducible apply recordStall_ok
    | with_reducible apply takeOut_ok
    | (fail_if_no_progress with_reducible refine Ok.upd ?_ (by with_unfolding_all rfl))
    | split

theorem poisonStaged_ok {a s : State} (ruling block : Nat) (hs : Ok a s) : Ok a (poisonStaged ruling block s) := by
  unfold poisonStaged
  repeat' first
    | with_reducible assumption
    | (intro y; refine (fun (k : Ok a y) => ?_) ?_; (on_goal 1 => clear_value y); on_goal 2 => subst y)
    | (intro y; refine (fun (k : Ok a y.1) => ?_) ?_; (on_goal 1 => clear_value y); on_goal 2 => subst y)
    | (intro y; subst y)
    | lift_lets
    | (fail_if_no_progress with_reducible refine Ok.upd ?_ (by with_unfolding_all rfl))
    | split

theorem poisonStroke_ok {a s : State} (k : Nat) (hs : Ok a s) : Ok a (poisonStroke k s) := by
  unfold poisonStroke
  repeat' first
    | with_reducible assumption
    | (intro y; refine (fun (k : Ok a y) => ?_) ?_; (on_goal 1 => clear_value y); on_goal 2 => subst y)
    | (intro y; refine (fun (k : Ok a y.1) => ?_) ?_; (on_goal 1 => clear_value y); on_goal 2 => subst y)
    | (intro y; subst y)
    | lift_lets
    | with_reducible apply placeWrite_ok
    | (fail_if_no_progress with_reducible refine Ok.upd ?_ (by with_unfolding_all rfl))
    | split

theorem containPair_ok {a s : State} (q : Nat) (hs : Ok a s) : Ok a (containPair q s) := by
  unfold containPair
  repeat' first
    | with_reducible assumption
    | (intro y; refine (fun (k : Ok a y) => ?_) ?_; (on_goal 1 => clear_value y); on_goal 2 => subst y)
    | (intro y; refine (fun (k : Ok a y.1) => ?_) ?_; (on_goal 1 => clear_value y); on_goal 2 => subst y)
    | (intro y; subst y)
    | lift_lets
    | with_reducible apply modPair_ok
    | with_reducible apply failData_ok
    | with_reducible apply complete_ok
    | with_reducible refine Ok.foldl ?_ (fun _ _ _ => ?_)
    | (fail_if_no_progress with_reducible refine Ok.upd ?_ (by with_unfolding_all rfl))
    | split

theorem containTask_ok {a s : State} (hs : Ok a s) : Ok a (containTask s) := by
  unfold containTask
  repeat' first
    | with_reducible assumption
    | (intro y; refine (fun (k : Ok a y) => ?_) ?_; (on_goal 1 => clear_value y); on_goal 2 => subst y)
    | (intro y; refine (fun (k : Ok a y.1) => ?_) ?_; (on_goal 1 => clear_value y); on_goal 2 => subst y)
    | (intro y; subst y)
    | lift_lets
    | with_reducible apply complete_ok
    | with_reducible apply failData_ok
    | (fail_if_no_progress with_reducible refine Ok.upd ?_ (by with_unfolding_all rfl))
    | split

theorem wordLost_ok {a s : State} (cls : Nat) (hit : Hit) (hs : Ok a s) : Ok a (wordLost cls hit s) := by
  unfold wordLost
  repeat' first
    | with_reducible assumption
    | with_reducible apply poisonStaged_ok
    | with_reducible apply finish_ok
    | with_reducible apply failData_ok
    | with_reducible apply containPair_ok
    | with_reducible apply containTask_ok
    | with_reducible apply poisonStroke_ok
    | (fail_if_no_progress with_reducible refine Ok.upd ?_ (by with_unfolding_all rfl))
    | split

theorem remapRow_ok {a s : State} (cls source : Nat) (detail : BitVec 64) (hs : Ok a s) : Ok a (remapRow cls source detail s) := by
  unfold remapRow
  repeat' first
    | with_reducible assumption
    | (intro y; refine (fun (k : Ok a y) => ?_) ?_; (on_goal 1 => clear_value y); on_goal 2 => subst y)
    | (intro y; refine (fun (k : Ok a y.1) => ?_) ?_; (on_goal 1 => clear_value y); on_goal 2 => subst y)
    | (intro y; subst y)
    | lift_lets
    | with_reducible apply recordFault_ok
    | (fail_if_no_progress with_reducible refine Ok.upd ?_ (by with_unfolding_all rfl))
    | split

theorem memoryFault_ok {a s : State} (cls source : Nat) (detail : BitVec 64) (hit : Hit) (hs : Ok a s) : Ok a (memoryFault cls source detail hit s) := by
  unfold memoryFault
  repeat' first
    | with_reducible assumption
    | (intro y; refine (fun (k : Ok a y) => ?_) ?_; (on_goal 1 => clear_value y); on_goal 2 => subst y)
    | (intro y; refine (fun (k : Ok a y.1) => ?_) ?_; (on_goal 1 => clear_value y); on_goal 2 => subst y)
    | (intro y; subst y)
    | lift_lets
    | with_reducible apply recordFault_ok
    | with_reducible apply ackReaction_ok
    | with_reducible apply remapRow_ok
    | with_reducible apply wordLost_ok
    | (fail_if_no_progress with_reducible refine Ok.upd ?_ (by with_unfolding_all rfl))
    | split

theorem debugFault_ok {a s : State} (detail : BitVec 64) (hs : Ok a s) : Ok a (debugFault detail s) := by
  unfold debugFault
  repeat' first
    | with_reducible assumption
    | (intro y; refine (fun (k : Ok a y) => ?_) ?_; (on_goal 1 => clear_value y); on_goal 2 => subst y)
    | (intro y; refine (fun (k : Ok a y.1) => ?_) ?_; (on_goal 1 => clear_value y); on_goal 2 => subst y)
    | (intro y; subst y)
    | lift_lets
    | with_reducible apply recordFault_ok
    | with_reducible apply ackReaction_ok
    | (fail_if_no_progress with_reducible refine Ok.upd ?_ (by with_unfolding_all rfl))
    | split

theorem supplyFault_ok {a s : State} (rail mv : Nat) (hs : Ok a s) : Ok a (supplyFault rail mv s) := by
  unfold supplyFault
  repeat' first
    | with_reducible assumption
    | with_reducible apply recordFault_ok
    | (fail_if_no_progress with_reducible refine Ok.upd ?_ (by with_unfolding_all rfl))
    | split

theorem retireCore_ok {a s : State} (core : Nat) (hs : Ok a s) : Ok a (retireCore core s) := by
  unfold retireCore
  repeat' first
    | with_reducible assumption
    | (intro y; refine (fun (k : Ok a y) => ?_) ?_; (on_goal 1 => clear_value y); on_goal 2 => subst y)
    | (intro y; refine (fun (k : Ok a y.1) => ?_) ?_; (on_goal 1 => clear_value y); on_goal 2 => subst y)
    | (intro y; subst y)
    | lift_lets
    | with_reducible apply recordLevel_ok
    | (fail_if_no_progress with_reducible refine Ok.upd ?_ (by with_unfolding_all rfl))
    | split

theorem coreFault_ok {a s : State} (core : Nat) (hs : Ok a s) : Ok a (coreFault core s) := by
  unfold coreFault
  repeat' first
    | with_reducible assumption
    | (intro y; refine (fun (k : Ok a y) => ?_) ?_; (on_goal 1 => clear_value y); on_goal 2 => subst y)
    | (intro y; refine (fun (k : Ok a y.1) => ?_) ?_; (on_goal 1 => clear_value y); on_goal 2 => subst y)
    | (intro y; subst y)
    | lift_lets
    | with_reducible apply recordFault_ok
    | with_reducible apply retireCore_ok
    | with_reducible apply ackReaction_ok
    | (fail_if_no_progress with_reducible refine Ok.upd ?_ (by with_unfolding_all rfl))
    | split

theorem flashFault_ok {a s : State} (source : Nat) (detail : BitVec 64) (hs : Ok a s) : Ok a (flashFault source detail s) := by
  unfold flashFault
  repeat' first
    | with_reducible assumption
    | (intro y; refine (fun (k : Ok a y) => ?_) ?_; (on_goal 1 => clear_value y); on_goal 2 => subst y)
    | (intro y; refine (fun (k : Ok a y.1) => ?_) ?_; (on_goal 1 => clear_value y); on_goal 2 => subst y)
    | (intro y; subst y)
    | lift_lets
    | with_reducible apply recordFault_ok
    | with_reducible apply failBoot_ok
    | with_reducible apply dropDownload_ok
    | (fail_if_no_progress with_reducible refine Ok.upd ?_ (by with_unfolding_all rfl))
    | split

theorem powerOfStep_ok {a s : State} (h : Ok a s) : Ok a (powerOfStep s) := by
  unfold powerOfStep
  split
  · exact h.sameBut rfl (fun z => { z with power := by show (if _ then 1 else 0 : Nat) ≤ 4; split <;> omega })
  · exact h

theorem thermalFault_ok {a s : State} (source : Nat) (detail : BitVec 64) (hs : Ok a s) : Ok a (thermalFault source detail s) := by
  unfold thermalFault
  split
  · exact recordFault_ok _ _ _ _ _ (powerOfStep_ok (Ok.upd hs (by with_unfolding_all rfl)))
  · exact recordFault_ok _ _ _ _ _ hs

theorem mediaReport_ok {a s : State} (source : Nat) (detail : BitVec 64) (hit : Hit) (hs : Ok a s) : Ok a (mediaReport source detail hit s) := by
  unfold mediaReport
  repeat' first
    | with_reducible assumption
    | (intro y; refine (fun (k : Ok a y) => ?_) ?_; (on_goal 1 => clear_value y); on_goal 2 => subst y)
    | (intro y; refine (fun (k : Ok a y.1) => ?_) ?_; (on_goal 1 => clear_value y); on_goal 2 => subst y)
    | (intro y; subst y)
    | lift_lets
    | with_reducible apply recordFault_ok
    | with_reducible apply wordLost_ok
    | (fail_if_no_progress with_reducible refine Ok.upd ?_ (by with_unfolding_all rfl))
    | split

theorem react_ok {a s : State} (source cls : Nat) (detail : BitVec 64) (hit : Hit) (hs : Ok a s) : Ok a (react source cls detail hit s) := by
  unfold react
  repeat' first
    | with_reducible assumption
    | with_reducible exact linkFault_ok _ _ (fun _ h => emit_ok _ h) hs
    | with_reducible apply memoryFault_ok
    | with_reducible apply mediaReport_ok
    | with_reducible apply dieFails_ok
    | with_reducible apply failChannel_ok
    | with_reducible apply flashFault_ok
    | with_reducible apply linkFault_ok
    | with_reducible apply emit_ok
    | with_reducible apply recordHandled_ok
    | with_reducible apply recordLevel_ok
    | with_reducible apply stallFault_ok
    | with_reducible apply thermalFault_ok
    | with_reducible apply supplyFault_ok
    | with_reducible apply wire_ok
    | with_reducible apply gateFault_ok
    | with_reducible apply debugFault_ok
    | with_reducible apply coreFault_ok
    | (fail_if_no_progress with_reducible refine Ok.upd ?_ (by with_unfolding_all rfl))
    | split

theorem warn_ok {a s : State} (hs : Ok a s) : Ok a (warn s) := by
  unfold warn
  repeat' first
    | with_reducible assumption
    | (intro y; refine (fun (k : Ok a y) => ?_) ?_; (on_goal 1 => clear_value y); on_goal 2 => subst y)
    | (intro y; refine (fun (k : Ok a y.1) => ?_) ?_; (on_goal 1 => clear_value y); on_goal 2 => subst y)
    | (intro y; subst y)
    | lift_lets
    | with_reducible apply touch_ok
    | with_reducible apply wake_ok
    | with_reducible apply ruleEvent_ok
    | with_reducible apply drainFill_ok
    | with_reducible apply abortItem_ok
    | with_reducible refine Ok.foldl ?_ (fun _ _ _ => ?_)
    | (fail_if_no_progress with_reducible refine Ok.upd ?_ (by with_unfolding_all rfl))
    | split

theorem metLock_ok {a s : State} (hs : Ok a s) : Ok a (metLock s) := by
  unfold metLock
  repeat' first
    | with_reducible assumption
    | with_reducible apply debugFault_ok
    | (fail_if_no_progress with_reducible refine Ok.upd ?_ (by with_unfolding_all rfl))
    | split

theorem debugRead_ok {a s : State} (hs : Ok a s) : Ok a (debugRead s) := by
  unfold debugRead
  repeat' first
    | with_reducible assumption
    | (intro y; refine (fun (k : Ok a y) => ?_) ?_; (on_goal 1 => clear_value y); on_goal 2 => subst y)
    | (intro y; refine (fun (k : Ok a y.1) => ?_) ?_; (on_goal 1 => clear_value y); on_goal 2 => subst y)
    | (intro y; subst y)
    | lift_lets
    | with_reducible apply emit_ok
    | with_reducible apply metLock_ok
    | with_reducible apply debugFault_ok
    | with_reducible apply draw_ok
    | (fail_if_no_progress with_reducible refine Ok.upd ?_ (by with_unfolding_all rfl))
    | split

theorem debugWrite_ok {a s : State} (data : BitVec 32) (hs : Ok a s) : Ok a (debugWrite data s) := by
  unfold debugWrite
  repeat' first
    | with_reducible assumption
    | (intro y; refine (fun (k : Ok a y) => ?_) ?_; (on_goal 1 => clear_value y); on_goal 2 => subst y)
    | (intro y; refine (fun (k : Ok a y.1) => ?_) ?_; (on_goal 1 => clear_value y); on_goal 2 => subst y)
    | (intro y; subst y)
    | lift_lets
    | with_reducible apply metLock_ok
    | (fail_if_no_progress with_reducible refine Ok.upd ?_ (by with_unfolding_all rfl))
    | split

theorem frameEffect_ok {a s : State} (typ src : Nat) (value : BitVec 29) (hs : Ok a s) : Ok a (frameEffect typ src value s) := by
  unfold frameEffect
  repeat' first
    | with_reducible assumption
    | (intro y; refine (fun (k : Ok a y) => ?_) ?_; (on_goal 1 => clear_value y); on_goal 2 => subst y)
    | (intro y; refine (fun (k : Ok a y.1) => ?_) ?_; (on_goal 1 => clear_value y); on_goal 2 => subst y)
    | (intro y; subst y)
    | lift_lets
    | with_reducible apply sendFrame_ok
    | with_reducible apply receiveMuster_ok
    | with_reducible apply yieldPrepare_ok
    | with_reducible apply rulePrepare_ok
    | with_reducible apply receiveCommit_ok
    | with_reducible apply receiveAbort_ok
    | with_reducible apply receiveState_ok
    | (fail_if_no_progress with_reducible refine Ok.upd ?_ (by with_unfolding_all rfl))
    | split

theorem dropHeld_ok {a s : State} (typ : Nat) (hs : Ok a s) : Ok a (dropHeld typ s) := by
  unfold dropHeld
  repeat' first
    | with_reducible assumption
    | (fail_if_no_progress with_reducible refine Ok.upd ?_ (by with_unfolding_all rfl))
    | split

theorem takeFrame_ok {a s : State} (typ src : Nat) (value : BitVec 29) (hs : Ok a s) : Ok a (takeFrame typ src value s) := by
  unfold takeFrame
  repeat' first
    | with_reducible assumption
    | (intro y; refine (fun (k : Ok a y) => ?_) ?_; (on_goal 1 => clear_value y); on_goal 2 => subst y)
    | (intro y; refine (fun (k : Ok a y.1) => ?_) ?_; (on_goal 1 => clear_value y); on_goal 2 => subst y)
    | (intro y; subst y)
    | lift_lets
    | with_reducible apply dropHeld_ok
    | with_reducible apply frameEffect_ok
    | with_reducible apply wake_ok
    | (fail_if_no_progress with_reducible refine Ok.upd ?_ (by with_unfolding_all rfl))
    | split

theorem frameSent_ok {a s : State} (f : LigFrame) (hs : Ok a s) : Ok a (frameSent f s) := by
  unfold frameSent
  repeat' first
    | with_reducible assumption
    | (intro y; refine (fun (k : Ok a y) => ?_) ?_; (on_goal 1 => clear_value y); on_goal 2 => subst y)
    | (intro y; refine (fun (k : Ok a y.1) => ?_) ?_; (on_goal 1 => clear_value y); on_goal 2 => subst y)
    | (intro y; subst y)
    | lift_lets
    | with_reducible apply emit_ok
    | with_reducible apply takeFrame_ok
    | (fail_if_no_progress with_reducible refine Ok.upd ?_ (by with_unfolding_all rfl))
    | split

theorem stepFive_ok {a s : State} (n : Nat) (hs : Ok a s) : Ok a (stepFive n s) := by
  unfold stepFive
  repeat' first
    | with_reducible assumption
    | with_reducible apply decideOpen_ok
    | (fail_if_no_progress with_reducible refine Ok.upd ?_ (by with_unfolding_all rfl))
    | split

theorem coupleLink_ok {a s : State} (ps : Nat) (hs : Ok a s) : Ok a (coupleLink ps s) := by
  unfold coupleLink
  repeat' first
    | with_reducible assumption
    | (intro y; refine (fun (k : Ok a y) => ?_) ?_; (on_goal 1 => clear_value y); on_goal 2 => subst y)
    | (intro y; refine (fun (k : Ok a y.1) => ?_) ?_; (on_goal 1 => clear_value y); on_goal 2 => subst y)
    | (intro y; subst y)
    | lift_lets
    | with_reducible apply emit_ok
    | (fail_if_no_progress with_reducible refine Ok.upd ?_ (by with_unfolding_all rfl))
    | split

theorem enterState_ok {a s : State} (ps : Nat) (hp : ps ≤ 4) (h : Ok a s) : Ok a (enterState ps s) := by
  unfold enterState
  exact coupleLink_ok _ (ltrUpdate_ok (h.sameBut rfl (fun z => { z with power := hp })))

theorem entryStep_le (j n : Int) : entryStep j n ≤ 4 := by
  unfold entryStep
  repeat' split
  all_goals omega

theorem raiseStep_ok {a s : State} (junction nand : Int) (h : Ok a s) : Ok a (raiseStep junction nand s) := by
  have k : Ok a { s with pwr := { s.pwr with step := max s.pwr.step (entryStep junction nand) } } :=
    h.sameBut rfl (fun z => { z with step := Nat.max_le.mpr ⟨z.step, entryStep_le _ _⟩ })
  unfold raiseStep
  simp only
  split
  · exact recordFault_ok _ _ _ _ _ (powerOfStep_ok k)
  · exact powerOfStep_ok k

theorem thermalSafeEntry_ok {a s : State} (junction : Int) (hs : Ok a s) : Ok a (thermalSafeEntry junction s) := by
  unfold thermalSafeEntry
  repeat' first
    | with_reducible assumption
    | with_reducible apply recordFault_ok
    | with_reducible apply powerOfStep_ok
    | (fail_if_no_progress with_reducible refine Ok.upd ?_ (by with_unfolding_all rfl))
    | split

theorem retryAon_ok {a s : State} (hs : Ok a s) : Ok a (retryAon s) := by
  unfold retryAon
  repeat' first
    | with_reducible assumption
    | with_reducible apply ackReaction_ok
    | with_reducible apply aonDrain_ok
    | (fail_if_no_progress with_reducible refine Ok.upd ?_ (by with_unfolding_all rfl))
    | split

theorem passMillisecond_ok {a s : State} (hs : Ok a s) : Ok a (passMillisecond s) := by
  unfold passMillisecond
  repeat' first
    | with_reducible assumption
    | with_reducible apply retryAon_ok
    | (fail_if_no_progress with_reducible refine Ok.upd ?_ (by with_unfolding_all rfl))
    | split

end Sys2Proof.Laws
end

