-- ==== Sys2Proof/Laws/State.lean ====
section
/-! SUPPORT. The named updates of State: one lemma per field per update. The fields that an update leaves alone are simp lemmas; what it makes of the
field that it changes is stated beside them, under the same name. -/

namespace Sys2Proof.Laws

open Sys2Proof Sys2Proof.Machine

/-! `emit` -/

@[simp] theorem emit_unit (o : Out) (s : State) : (emit o s).unit = s.unit := rfl
@[simp] theorem emit_rst (o : Out) (s : State) : (emit o s).rst = s.rst := rfl
@[simp] theorem emit_strap (o : Out) (s : State) : (emit o s).strap = s.strap := rfl
@[simp] theorem emit_aon (o : Out) (s : State) : (emit o s).aon = s.aon := rfl
@[simp] theorem emit_sup (o : Out) (s : State) : (emit o s).sup = s.sup := rfl
@[simp] theorem emit_lands (o : Out) (s : State) : (emit o s).lands = s.lands := rfl
@[simp] theorem emit_boot (o : Out) (s : State) : (emit o s).boot = s.boot := rfl
@[simp] theorem emit_pcie (o : Out) (s : State) : (emit o s).pcie = s.pcie := rfl
@[simp] theorem emit_nb (o : Out) (s : State) : (emit o s).nb = s.nb := rfl
@[simp] theorem emit_nib (o : Out) (s : State) : (emit o s).nib = s.nib := rfl
@[simp] theorem emit_res (o : Out) (s : State) : (emit o s).res = s.res := rfl
@[simp] theorem emit_map (o : Out) (s : State) : (emit o s).map = s.map := rfl
@[simp] theorem emit_log (o : Out) (s : State) : (emit o s).log = s.log := rfl
@[simp] theorem emit_ftl (o : Out) (s : State) : (emit o s).ftl = s.ftl := rfl
@[simp] theorem emit_dies (o : Out) (s : State) : (emit o s).dies = s.dies := rfl
@[simp] theorem emit_rec_ (o : Out) (s : State) : (emit o s).rec_ = s.rec_ := rfl
@[simp] theorem emit_health (o : Out) (s : State) : (emit o s).health = s.health := rfl
@[simp] theorem emit_flt (o : Out) (s : State) : (emit o s).flt = s.flt := rfl
@[simp] theorem emit_lops (o : Out) (s : State) : (emit o s).lops = s.lops := rfl
@[simp] theorem emit_lig (o : Out) (s : State) : (emit o s).lig = s.lig := rfl
@[simp] theorem emit_pwr (o : Out) (s : State) : (emit o s).pwr = s.pwr := rfl
@[simp] theorem emit_dbg (o : Out) (s : State) : (emit o s).dbg = s.dbg := rfl
@[simp] theorem emit_elog (o : Out) (s : State) : (emit o s).elog = s.elog := rfl
@[simp] theorem emit_wall (o : Out) (s : State) : (emit o s).wall = s.wall := rfl
theorem emit_out (o : Out) (s : State) : (emit o s).out = s.out ++ [o] := rfl
@[simp] theorem emit_drawn (o : Out) (s : State) : (emit o s).drawn = s.drawn := rfl
@[simp] theorem emit_pending (o : Out) (s : State) : (emit o s).pending = s.pending := rfl

/-! `emits` -/

@[simp] theorem emits_unit (os : List Out) (s : State) : (emits os s).unit = s.unit := rfl
@[simp] theorem emits_rst (os : List Out) (s : State) : (emits os s).rst = s.rst := rfl
@[simp] theorem emits_strap (os : List Out) (s : State) : (emits os s).strap = s.strap := rfl
@[simp] theorem emits_aon (os : List Out) (s : State) : (emits os s).aon = s.aon := rfl
@[simp] theorem emits_sup (os : List Out) (s : State) : (emits os s).sup = s.sup := rfl
@[simp] theorem emits_lands (os : List Out) (s : State) : (emits os s).lands = s.lands := rfl
@[simp] theorem emits_boot (os : List Out) (s : State) : (emits os s).boot = s.boot := rfl
@[simp] theorem emits_pcie (os : List Out) (s : State) : (emits os s).pcie = s.pcie := rfl
@[simp] theorem emits_nb (os : List Out) (s : State) : (emits os s).nb = s.nb := rfl
@[simp] theorem emits_nib (os : List Out) (s : State) : (emits os s).nib = s.nib := rfl
@[simp] theorem emits_res (os : List Out) (s : State) : (emits os s).res = s.res := rfl
@[simp] theorem emits_map (os : List Out) (s : State) : (emits os s).map = s.map := rfl
@[simp] theorem emits_log (os : List Out) (s : State) : (emits os s).log = s.log := rfl
@[simp] theorem emits_ftl (os : List Out) (s : State) : (emits os s).ftl = s.ftl := rfl
@[simp] theorem emits_dies (os : List Out) (s : State) : (emits os s).dies = s.dies := rfl
@[simp] theorem emits_rec_ (os : List Out) (s : State) : (emits os s).rec_ = s.rec_ := rfl
@[simp] theorem emits_health (os : List Out) (s : State) : (emits os s).health = s.health := rfl
@[simp] theorem emits_flt (os : List Out) (s : State) : (emits os s).flt = s.flt := rfl
@[simp] theorem emits_lops (os : List Out) (s : State) : (emits os s).lops = s.lops := rfl
@[simp] theorem emits_lig (os : List Out) (s : State) : (emits os s).lig = s.lig := rfl
@[simp] theorem emits_pwr (os : List Out) (s : State) : (emits os s).pwr = s.pwr := rfl
@[simp] theorem emits_dbg (os : List Out) (s : State) : (emits os s).dbg = s.dbg := rfl
@[simp] theorem emits_elog (os : List Out) (s : State) : (emits os s).elog = s.elog := rfl
@[simp] theorem emits_wall (os : List Out) (s : State) : (emits os s).wall = s.wall := rfl
theorem emits_out (os : List Out) (s : State) : (emits os s).out = s.out ++ os := rfl
@[simp] theorem emits_drawn (os : List Out) (s : State) : (emits os s).drawn = s.drawn := rfl
@[simp] theorem emits_pending (os : List Out) (s : State) : (emits os s).pending = s.pending := rfl

/-! `draw` -/

@[simp] theorem draw_unit (s : State) : (draw s).unit = s.unit := rfl
@[simp] theorem draw_rst (s : State) : (draw s).rst = s.rst := rfl
@[simp] theorem draw_strap (s : State) : (draw s).strap = s.strap := rfl
@[simp] theorem draw_aon (s : State) : (draw s).aon = s.aon := rfl
@[simp] theorem draw_sup (s : State) : (draw s).sup = s.sup := rfl
@[simp] theorem draw_lands (s : State) : (draw s).lands = s.lands := rfl
@[simp] theorem draw_boot (s : State) : (draw s).boot = s.boot := rfl
@[simp] theorem draw_pcie (s : State) : (draw s).pcie = s.pcie := rfl
@[simp] theorem draw_nb (s : State) : (draw s).nb = s.nb := rfl
@[simp] theorem draw_nib (s : State) : (draw s).nib = s.nib := rfl
@[simp] theorem draw_res (s : State) : (draw s).res = s.res := rfl
@[simp] theorem draw_map (s : State) : (draw s).map = s.map := rfl
@[simp] theorem draw_log (s : State) : (draw s).log = s.log := rfl
@[simp] theorem draw_ftl (s : State) : (draw s).ftl = s.ftl := rfl
@[simp] theorem draw_dies (s : State) : (draw s).dies = s.dies := rfl
@[simp] theorem draw_rec_ (s : State) : (draw s).rec_ = s.rec_ := rfl
@[simp] theorem draw_health (s : State) : (draw s).health = s.health := rfl
@[simp] theorem draw_flt (s : State) : (draw s).flt = s.flt := rfl
@[simp] theorem draw_lops (s : State) : (draw s).lops = s.lops := rfl
@[simp] theorem draw_lig (s : State) : (draw s).lig = s.lig := rfl
@[simp] theorem draw_pwr (s : State) : (draw s).pwr = s.pwr := rfl
@[simp] theorem draw_dbg (s : State) : (draw s).dbg = s.dbg := rfl
@[simp] theorem draw_elog (s : State) : (draw s).elog = s.elog := rfl
@[simp] theorem draw_wall (s : State) : (draw s).wall = s.wall := rfl
@[simp] theorem draw_out (s : State) : (draw s).out = s.out := rfl
theorem draw_drawn (s : State) : (draw s).drawn = s.drawn + 1 := rfl
@[simp] theorem draw_pending (s : State) : (draw s).pending = s.pending := rfl

/-! `touch` -/

@[simp] theorem touch_unit (s : State) : (touch s).unit = s.unit := rfl
@[simp] theorem touch_rst (s : State) : (touch s).rst = s.rst := rfl
@[simp] theorem touch_strap (s : State) : (touch s).strap = s.strap := rfl
@[simp] theorem touch_aon (s : State) : (touch s).aon = s.aon := rfl
@[simp] theorem touch_sup (s : State) : (touch s).sup = s.sup := rfl
@[simp] theorem touch_lands (s : State) : (touch s).lands = s.lands := rfl
@[simp] theorem touch_boot (s : State) : (touch s).boot = s.boot := rfl
@[simp] theorem touch_pcie (s : State) : (touch s).pcie = s.pcie := rfl
@[simp] theorem touch_nb (s : State) : (touch s).nb = s.nb := rfl
@[simp] theorem touch_nib (s : State) : (touch s).nib = s.nib := rfl
@[simp] theorem touch_res (s : State) : (touch s).res = s.res := rfl
@[simp] theorem touch_map (s : State) : (touch s).map = s.map := rfl
@[simp] theorem touch_log (s : State) : (touch s).log = s.log := rfl
@[simp] theorem touch_ftl (s : State) : (touch s).ftl = s.ftl := rfl
@[simp] theorem touch_dies (s : State) : (touch s).dies = s.dies := rfl
@[simp] theorem touch_rec_ (s : State) : (touch s).rec_ = s.rec_ := rfl
@[simp] theorem touch_health (s : State) : (touch s).health = s.health := rfl
@[simp] theorem touch_flt (s : State) : (touch s).flt = s.flt := rfl
@[simp] theorem touch_lops (s : State) : (touch s).lops = s.lops := rfl
@[simp] theorem touch_lig (s : State) : (touch s).lig = s.lig := rfl
theorem touch_pwr (s : State) : (touch s).pwr = { s.pwr with entering4 := false } := rfl
@[simp] theorem touch_dbg (s : State) : (touch s).dbg = s.dbg := rfl
@[simp] theorem touch_elog (s : State) : (touch s).elog = s.elog := rfl
@[simp] theorem touch_wall (s : State) : (touch s).wall = s.wall := rfl
@[simp] theorem touch_out (s : State) : (touch s).out = s.out := rfl
@[simp] theorem touch_drawn (s : State) : (touch s).drawn = s.drawn := rfl
@[simp] theorem touch_pending (s : State) : (touch s).pending = s.pending := rfl

/-! `setItem` -/

@[simp] theorem setItem_unit (i : Item) (s : State) : (setItem i s).unit = s.unit := rfl
@[simp] theorem setItem_rst (i : Item) (s : State) : (setItem i s).rst = s.rst := rfl
@[simp] theorem setItem_strap (i : Item) (s : State) : (setItem i s).strap = s.strap := rfl
@[simp] theorem setItem_aon (i : Item) (s : State) : (setItem i s).aon = s.aon := rfl
@[simp] theorem setItem_sup (i : Item) (s : State) : (setItem i s).sup = s.sup := rfl
@[simp] theorem setItem_lands (i : Item) (s : State) : (setItem i s).lands = s.lands := rfl
@[simp] theorem setItem_boot (i : Item) (s : State) : (setItem i s).boot = s.boot := rfl
@[simp] theorem setItem_pcie (i : Item) (s : State) : (setItem i s).pcie = s.pcie := rfl
@[simp] theorem setItem_nb (i : Item) (s : State) : (setItem i s).nb = s.nb := rfl
theorem setItem_nib (i : Item) (s : State) : (setItem i s).nib = { s.nib with items := mapIf (fun j => j.ruling = i.ruling) (fun _ => i) s.nib.items } := rfl
@[simp] theorem setItem_res (i : Item) (s : State) : (setItem i s).res = s.res := rfl
@[simp] theorem setItem_map (i : Item) (s : State) : (setItem i s).map = s.map := rfl
@[simp] theorem setItem_log (i : Item) (s : State) : (setItem i s).log = s.log := rfl
@[simp] theorem setItem_ftl (i : Item) (s : State) : (setItem i s).ftl = s.ftl := rfl
@[simp] theorem setItem_dies (i : Item) (s : State) : (setItem i s).dies = s.dies := rfl
@[simp] theorem setItem_rec_ (i : Item) (s : State) : (setItem i s).rec_ = s.rec_ := rfl
@[simp] theorem setItem_health (i : Item) (s : State) : (setItem i s).health = s.health := rfl
@[simp] theorem setItem_flt (i : Item) (s : State) : (setItem i s).flt = s.flt := rfl
@[simp] theorem setItem_lops (i : Item) (s : State) : (setItem i s).lops = s.lops := rfl
@[simp] theorem setItem_lig (i : Item) (s : State) : (setItem i s).lig = s.lig := rfl
@[simp] theorem setItem_pwr (i : Item) (s : State) : (setItem i s).pwr = s.pwr := rfl
@[simp] theorem setItem_dbg (i : Item) (s : State) : (setItem i s).dbg = s.dbg := rfl
@[simp] theorem setItem_elog (i : Item) (s : State) : (setItem i s).elog = s.elog := rfl
@[simp] theorem setItem_wall (i : Item) (s : State) : (setItem i s).wall = s.wall := rfl
@[simp] theorem setItem_out (i : Item) (s : State) : (setItem i s).out = s.out := rfl
@[simp] theorem setItem_drawn (i : Item) (s : State) : (setItem i s).drawn = s.drawn := rfl
@[simp] theorem setItem_pending (i : Item) (s : State) : (setItem i s).pending = s.pending := rfl

/-! `dropItem` -/

@[simp] theorem dropItem_unit (r : Nat) (s : State) : (dropItem r s).unit = s.unit := rfl
@[simp] theorem dropItem_rst (r : Nat) (s : State) : (dropItem r s).rst = s.rst := rfl
@[simp] theorem dropItem_strap (r : Nat) (s : State) : (dropItem r s).strap = s.strap := rfl
@[simp] theorem dropItem_aon (r : Nat) (s : State) : (dropItem r s).aon = s.aon := rfl
@[simp] theorem dropItem_sup (r : Nat) (s : State) : (dropItem r s).sup = s.sup := rfl
@[simp] theorem dropItem_lands (r : Nat) (s : State) : (dropItem r s).lands = s.lands := rfl
@[simp] theorem dropItem_boot (r : Nat) (s : State) : (dropItem r s).boot = s.boot := rfl
@[simp] theorem dropItem_pcie (r : Nat) (s : State) : (dropItem r s).pcie = s.pcie := rfl
@[simp] theorem dropItem_nb (r : Nat) (s : State) : (dropItem r s).nb = s.nb := rfl
theorem dropItem_nib (r : Nat) (s : State) : (dropItem r s).nib = { s.nib with items := s.nib.items.filter (fun i => i.ruling ≠ r) } := rfl
@[simp] theorem dropItem_res (r : Nat) (s : State) : (dropItem r s).res = s.res := rfl
@[simp] theorem dropItem_map (r : Nat) (s : State) : (dropItem r s).map = s.map := rfl
@[simp] theorem dropItem_log (r : Nat) (s : State) : (dropItem r s).log = s.log := rfl
@[simp] theorem dropItem_ftl (r : Nat) (s : State) : (dropItem r s).ftl = s.ftl := rfl
@[simp] theorem dropItem_dies (r : Nat) (s : State) : (dropItem r s).dies = s.dies := rfl
@[simp] theorem dropItem_rec_ (r : Nat) (s : State) : (dropItem r s).rec_ = s.rec_ := rfl
@[simp] theorem dropItem_health (r : Nat) (s : State) : (dropItem r s).health = s.health := rfl
@[simp] theorem dropItem_flt (r : Nat) (s : State) : (dropItem r s).flt = s.flt := rfl
@[simp] theorem dropItem_lops (r : Nat) (s : State) : (dropItem r s).lops = s.lops := rfl
@[simp] theorem dropItem_lig (r : Nat) (s : State) : (dropItem r s).lig = s.lig := rfl
@[simp] theorem dropItem_pwr (r : Nat) (s : State) : (dropItem r s).pwr = s.pwr := rfl
@[simp] theorem dropItem_dbg (r : Nat) (s : State) : (dropItem r s).dbg = s.dbg := rfl
@[simp] theorem dropItem_elog (r : Nat) (s : State) : (dropItem r s).elog = s.elog := rfl
@[simp] theorem dropItem_wall (r : Nat) (s : State) : (dropItem r s).wall = s.wall := rfl
@[simp] theorem dropItem_out (r : Nat) (s : State) : (dropItem r s).out = s.out := rfl
@[simp] theorem dropItem_drawn (r : Nat) (s : State) : (dropItem r s).drawn = s.drawn := rfl
@[simp] theorem dropItem_pending (r : Nat) (s : State) : (dropItem r s).pending = s.pending := rfl

/-! `modPair` -/

@[simp] theorem modPair_unit (q : Nat) (f : Pair → Pair) (s : State) : (modPair q f s).unit = s.unit := rfl
@[simp] theorem modPair_rst (q : Nat) (f : Pair → Pair) (s : State) : (modPair q f s).rst = s.rst := rfl
@[simp] theorem modPair_strap (q : Nat) (f : Pair → Pair) (s : State) : (modPair q f s).strap = s.strap := rfl
@[simp] theorem modPair_aon (q : Nat) (f : Pair → Pair) (s : State) : (modPair q f s).aon = s.aon := rfl
@[simp] theorem modPair_sup (q : Nat) (f : Pair → Pair) (s : State) : (modPair q f s).sup = s.sup := rfl
@[simp] theorem modPair_lands (q : Nat) (f : Pair → Pair) (s : State) : (modPair q f s).lands = s.lands := rfl
@[simp] theorem modPair_boot (q : Nat) (f : Pair → Pair) (s : State) : (modPair q f s).boot = s.boot := rfl
@[simp] theorem modPair_pcie (q : Nat) (f : Pair → Pair) (s : State) : (modPair q f s).pcie = s.pcie := rfl
@[simp] theorem modPair_nb (q : Nat) (f : Pair → Pair) (s : State) : (modPair q f s).nb = s.nb := rfl
theorem modPair_nib (q : Nat) (f : Pair → Pair) (s : State) : (modPair q f s).nib = { s.nib with pairs := mapIf (fun p => p.id = q) f s.nib.pairs } := rfl
@[simp] theorem modPair_res (q : Nat) (f : Pair → Pair) (s : State) : (modPair q f s).res = s.res := rfl
@[simp] theorem modPair_map (q : Nat) (f : Pair → Pair) (s : State) : (modPair q f s).map = s.map := rfl
@[simp] theorem modPair_log (q : Nat) (f : Pair → Pair) (s : State) : (modPair q f s).log = s.log := rfl
@[simp] theorem modPair_ftl (q : Nat) (f : Pair → Pair) (s : State) : (modPair q f s).ftl = s.ftl := rfl
@[simp] theorem modPair_dies (q : Nat) (f : Pair → Pair) (s : State) : (modPair q f s).dies = s.dies := rfl
@[simp] theorem modPair_rec_ (q : Nat) (f : Pair → Pair) (s : State) : (modPair q f s).rec_ = s.rec_ := rfl
@[simp] theorem modPair_health (q : Nat) (f : Pair → Pair) (s : State) : (modPair q f s).health = s.health := rfl
@[simp] theorem modPair_flt (q : Nat) (f : Pair → Pair) (s : State) : (modPair q f s).flt = s.flt := rfl
@[simp] theorem modPair_lops (q : Nat) (f : Pair → Pair) (s : State) : (modPair q f s).lops = s.lops := rfl
@[simp] theorem modPair_lig (q : Nat) (f : Pair → Pair) (s : State) : (modPair q f s).lig = s.lig := rfl
@[simp] theorem modPair_pwr (q : Nat) (f : Pair → Pair) (s : State) : (modPair q f s).pwr = s.pwr := rfl
@[simp] theorem modPair_dbg (q : Nat) (f : Pair → Pair) (s : State) : (modPair q f s).dbg = s.dbg := rfl
@[simp] theorem modPair_elog (q : Nat) (f : Pair → Pair) (s : State) : (modPair q f s).elog = s.elog := rfl
@[simp] theorem modPair_wall (q : Nat) (f : Pair → Pair) (s : State) : (modPair q f s).wall = s.wall := rfl
@[simp] theorem modPair_out (q : Nat) (f : Pair → Pair) (s : State) : (modPair q f s).out = s.out := rfl
@[simp] theorem modPair_drawn (q : Nat) (f : Pair → Pair) (s : State) : (modPair q f s).drawn = s.drawn := rfl
@[simp] theorem modPair_pending (q : Nat) (f : Pair → Pair) (s : State) : (modPair q f s).pending = s.pending := rfl

/-! `dropPair` -/

@[simp] theorem dropPair_unit (q : Nat) (s : State) : (dropPair q s).unit = s.unit := rfl
@[simp] theorem dropPair_rst (q : Nat) (s : State) : (dropPair q s).rst = s.rst := rfl
@[simp] theorem dropPair_strap (q : Nat) (s : State) : (dropPair q s).strap = s.strap := rfl
@[simp] theorem dropPair_aon (q : Nat) (s : State) : (dropPair q s).aon = s.aon := rfl
@[simp] theorem dropPair_sup (q : Nat) (s : State) : (dropPair q s).sup = s.sup := rfl
@[simp] theorem dropPair_lands (q : Nat) (s : State) : (dropPair q s).lands = s.lands := rfl
@[simp] theorem dropPair_boot (q : Nat) (s : State) : (dropPair q s).boot = s.boot := rfl
@[simp] theorem dropPair_pcie (q : Nat) (s : State) : (dropPair q s).pcie = s.pcie := rfl
@[simp] theorem dropPair_nb (q : Nat) (s : State) : (dropPair q s).nb = s.nb := rfl
theorem dropPair_nib (q : Nat) (s : State) : (dropPair q s).nib = { s.nib with pairs := s.nib.pairs.filter (fun p => p.id ≠ q) } := rfl
@[simp] theorem dropPair_res (q : Nat) (s : State) : (dropPair q s).res = s.res := rfl
@[simp] theorem dropPair_map (q : Nat) (s : State) : (dropPair q s).map = s.map := rfl
@[simp] theorem dropPair_log (q : Nat) (s : State) : (dropPair q s).log = s.log := rfl
@[simp] theorem dropPair_ftl (q : Nat) (s : State) : (dropPair q s).ftl = s.ftl := rfl
@[simp] theorem dropPair_dies (q : Nat) (s : State) : (dropPair q s).dies = s.dies := rfl
@[simp] theorem dropPair_rec_ (q : Nat) (s : State) : (dropPair q s).rec_ = s.rec_ := rfl
@[simp] theorem dropPair_health (q : Nat) (s : State) : (dropPair q s).health = s.health := rfl
@[simp] theorem dropPair_flt (q : Nat) (s : State) : (dropPair q s).flt = s.flt := rfl
@[simp] theorem dropPair_lops (q : Nat) (s : State) : (dropPair q s).lops = s.lops := rfl
@[simp] theorem dropPair_lig (q : Nat) (s : State) : (dropPair q s).lig = s.lig := rfl
@[simp] theorem dropPair_pwr (q : Nat) (s : State) : (dropPair q s).pwr = s.pwr := rfl
@[simp] theorem dropPair_dbg (q : Nat) (s : State) : (dropPair q s).dbg = s.dbg := rfl
@[simp] theorem dropPair_elog (q : Nat) (s : State) : (dropPair q s).elog = s.elog := rfl
@[simp] theorem dropPair_wall (q : Nat) (s : State) : (dropPair q s).wall = s.wall := rfl
@[simp] theorem dropPair_out (q : Nat) (s : State) : (dropPair q s).out = s.out := rfl
@[simp] theorem dropPair_drawn (q : Nat) (s : State) : (dropPair q s).drawn = s.drawn := rfl
@[simp] theorem dropPair_pending (q : Nat) (s : State) : (dropPair q s).pending = s.pending := rfl

/-! `settle` -/

@[simp] theorem settle_unit (r : Nat) (s : State) : (settle r s).unit = s.unit := rfl
@[simp] theorem settle_rst (r : Nat) (s : State) : (settle r s).rst = s.rst := rfl
@[simp] theorem settle_strap (r : Nat) (s : State) : (settle r s).strap = s.strap := rfl
@[simp] theorem settle_aon (r : Nat) (s : State) : (settle r s).aon = s.aon := rfl
@[simp] theorem settle_sup (r : Nat) (s : State) : (settle r s).sup = s.sup := rfl
@[simp] theorem settle_lands (r : Nat) (s : State) : (settle r s).lands = s.lands := rfl
@[simp] theorem settle_boot (r : Nat) (s : State) : (settle r s).boot = s.boot := rfl
@[simp] theorem settle_pcie (r : Nat) (s : State) : (settle r s).pcie = s.pcie := rfl
@[simp] theorem settle_nb (r : Nat) (s : State) : (settle r s).nb = s.nb := rfl
theorem settle_nib (r : Nat) (s : State) : (settle r s).nib = { s.nib with unsettled := without r s.nib.unsettled } := rfl
@[simp] theorem settle_res (r : Nat) (s : State) : (settle r s).res = s.res := rfl
@[simp] theorem settle_map (r : Nat) (s : State) : (settle r s).map = s.map := rfl
@[simp] theorem settle_log (r : Nat) (s : State) : (settle r s).log = s.log := rfl
@[simp] theorem settle_ftl (r : Nat) (s : State) : (settle r s).ftl = s.ftl := rfl
@[simp] theorem settle_dies (r : Nat) (s : State) : (settle r s).dies = s.dies := rfl
@[simp] theorem settle_rec_ (r : Nat) (s : State) : (settle r s).rec_ = s.rec_ := rfl
@[simp] theorem settle_health (r : Nat) (s : State) : (settle r s).health = s.health := rfl
@[simp] theorem settle_flt (r : Nat) (s : State) : (settle r s).flt = s.flt := rfl
@[simp] theorem settle_lops (r : Nat) (s : State) : (settle r s).lops = s.lops := rfl
@[simp] theorem settle_lig (r : Nat) (s : State) : (settle r s).lig = s.lig := rfl
@[simp] theorem settle_pwr (r : Nat) (s : State) : (settle r s).pwr = s.pwr := rfl
@[simp] theorem settle_dbg (r : Nat) (s : State) : (settle r s).dbg = s.dbg := rfl
@[simp] theorem settle_elog (r : Nat) (s : State) : (settle r s).elog = s.elog := rfl
@[simp] theorem settle_wall (r : Nat) (s : State) : (settle r s).wall = s.wall := rfl
@[simp] theorem settle_out (r : Nat) (s : State) : (settle r s).out = s.out := rfl
@[simp] theorem settle_drawn (r : Nat) (s : State) : (settle r s).drawn = s.drawn := rfl
@[simp] theorem settle_pending (r : Nat) (s : State) : (settle r s).pending = s.pending := rfl

/-! `dropStaged` -/

@[simp] theorem dropStaged_unit (r : Nat) (s : State) : (dropStaged r s).unit = s.unit := rfl
@[simp] theorem dropStaged_rst (r : Nat) (s : State) : (dropStaged r s).rst = s.rst := rfl
@[simp] theorem dropStaged_strap (r : Nat) (s : State) : (dropStaged r s).strap = s.strap := rfl
@[simp] theorem dropStaged_aon (r : Nat) (s : State) : (dropStaged r s).aon = s.aon := rfl
@[simp] theorem dropStaged_sup (r : Nat) (s : State) : (dropStaged r s).sup = s.sup := rfl
@[simp] theorem dropStaged_lands (r : Nat) (s : State) : (dropStaged r s).lands = s.lands := rfl
@[simp] theorem dropStaged_boot (r : Nat) (s : State) : (dropStaged r s).boot = s.boot := rfl
@[simp] theorem dropStaged_pcie (r : Nat) (s : State) : (dropStaged r s).pcie = s.pcie := rfl
@[simp] theorem dropStaged_nb (r : Nat) (s : State) : (dropStaged r s).nb = s.nb := rfl
@[simp] theorem dropStaged_nib (r : Nat) (s : State) : (dropStaged r s).nib = s.nib := rfl
theorem dropStaged_res (r : Nat) (s : State) : (dropStaged r s).res = { s.res with staged := s.res.staged.filter (fun b => b.ruling ≠ r) } := rfl
@[simp] theorem dropStaged_map (r : Nat) (s : State) : (dropStaged r s).map = s.map := rfl
@[simp] theorem dropStaged_log (r : Nat) (s : State) : (dropStaged r s).log = s.log := rfl
@[simp] theorem dropStaged_ftl (r : Nat) (s : State) : (dropStaged r s).ftl = s.ftl := rfl
@[simp] theorem dropStaged_dies (r : Nat) (s : State) : (dropStaged r s).dies = s.dies := rfl
@[simp] theorem dropStaged_rec_ (r : Nat) (s : State) : (dropStaged r s).rec_ = s.rec_ := rfl
@[simp] theorem dropStaged_health (r : Nat) (s : State) : (dropStaged r s).health = s.health := rfl
@[simp] theorem dropStaged_flt (r : Nat) (s : State) : (dropStaged r s).flt = s.flt := rfl
@[simp] theorem dropStaged_lops (r : Nat) (s : State) : (dropStaged r s).lops = s.lops := rfl
@[simp] theorem dropStaged_lig (r : Nat) (s : State) : (dropStaged r s).lig = s.lig := rfl
@[simp] theorem dropStaged_pwr (r : Nat) (s : State) : (dropStaged r s).pwr = s.pwr := rfl
@[simp] theorem dropStaged_dbg (r : Nat) (s : State) : (dropStaged r s).dbg = s.dbg := rfl
@[simp] theorem dropStaged_elog (r : Nat) (s : State) : (dropStaged r s).elog = s.elog := rfl
@[simp] theorem dropStaged_wall (r : Nat) (s : State) : (dropStaged r s).wall = s.wall := rfl
@[simp] theorem dropStaged_out (r : Nat) (s : State) : (dropStaged r s).out = s.out := rfl
@[simp] theorem dropStaged_drawn (r : Nat) (s : State) : (dropStaged r s).drawn = s.drawn := rfl
@[simp] theorem dropStaged_pending (r : Nat) (s : State) : (dropStaged r s).pending = s.pending := rfl

/-! `setBand` -/

@[simp] theorem setBand_unit (b : Band) (s : State) : (setBand b s).unit = s.unit := rfl
@[simp] theorem setBand_rst (b : Band) (s : State) : (setBand b s).rst = s.rst := rfl
@[simp] theorem setBand_strap (b : Band) (s : State) : (setBand b s).strap = s.strap := rfl
@[simp] theorem setBand_aon (b : Band) (s : State) : (setBand b s).aon = s.aon := rfl
@[simp] theorem setBand_sup (b : Band) (s : State) : (setBand b s).sup = s.sup := rfl
@[simp] theorem setBand_lands (b : Band) (s : State) : (setBand b s).lands = s.lands := rfl
@[simp] theorem setBand_boot (b : Band) (s : State) : (setBand b s).boot = s.boot := rfl
@[simp] theorem setBand_pcie (b : Band) (s : State) : (setBand b s).pcie = s.pcie := rfl
@[simp] theorem setBand_nb (b : Band) (s : State) : (setBand b s).nb = s.nb := rfl
@[simp] theorem setBand_nib (b : Band) (s : State) : (setBand b s).nib = s.nib := rfl
@[simp] theorem setBand_res (b : Band) (s : State) : (setBand b s).res = s.res := rfl
@[simp] theorem setBand_map (b : Band) (s : State) : (setBand b s).map = s.map := rfl
@[simp] theorem setBand_log (b : Band) (s : State) : (setBand b s).log = s.log := rfl
theorem setBand_ftl (b : Band) (s : State) : (setBand b s).ftl = { s.ftl with bands := upsert (·.n) b s.ftl.bands } := rfl
@[simp] theorem setBand_dies (b : Band) (s : State) : (setBand b s).dies = s.dies := rfl
@[simp] theorem setBand_rec_ (b : Band) (s : State) : (setBand b s).rec_ = s.rec_ := rfl
@[simp] theorem setBand_health (b : Band) (s : State) : (setBand b s).health = s.health := rfl
@[simp] theorem setBand_flt (b : Band) (s : State) : (setBand b s).flt = s.flt := rfl
@[simp] theorem setBand_lops (b : Band) (s : State) : (setBand b s).lops = s.lops := rfl
@[simp] theorem setBand_lig (b : Band) (s : State) : (setBand b s).lig = s.lig := rfl
@[simp] theorem setBand_pwr (b : Band) (s : State) : (setBand b s).pwr = s.pwr := rfl
@[simp] theorem setBand_dbg (b : Band) (s : State) : (setBand b s).dbg = s.dbg := rfl
@[simp] theorem setBand_elog (b : Band) (s : State) : (setBand b s).elog = s.elog := rfl
@[simp] theorem setBand_wall (b : Band) (s : State) : (setBand b s).wall = s.wall := rfl
@[simp] theorem setBand_out (b : Band) (s : State) : (setBand b s).out = s.out := rfl
@[simp] theorem setBand_drawn (b : Band) (s : State) : (setBand b s).drawn = s.drawn := rfl
@[simp] theorem setBand_pending (b : Band) (s : State) : (setBand b s).pending = s.pending := rfl

/-! `modBand` -/

@[simp] theorem modBand_unit (n : Nat) (f : Band → Band) (s : State) : (modBand n f s).unit = s.unit := rfl
@[simp] theorem modBand_rst (n : Nat) (f : Band → Band) (s : State) : (modBand n f s).rst = s.rst := rfl
@[simp] theorem modBand_strap (n : Nat) (f : Band → Band) (s : State) : (modBand n f s).strap = s.strap := rfl
@[simp] theorem modBand_aon (n : Nat) (f : Band → Band) (s : State) : (modBand n f s).aon = s.aon := rfl
@[simp] theorem modBand_sup (n : Nat) (f : Band → Band) (s : State) : (modBand n f s).sup = s.sup := rfl
@[simp] theorem modBand_lands (n : Nat) (f : Band → Band) (s : State) : (modBand n f s).lands = s.lands := rfl
@[simp] theorem modBand_boot (n : Nat) (f : Band → Band) (s : State) : (modBand n f s).boot = s.boot := rfl
@[simp] theorem modBand_pcie (n : Nat) (f : Band → Band) (s : State) : (modBand n f s).pcie = s.pcie := rfl
@[simp] theorem modBand_nb (n : Nat) (f : Band → Band) (s : State) : (modBand n f s).nb = s.nb := rfl
@[simp] theorem modBand_nib (n : Nat) (f : Band → Band) (s : State) : (modBand n f s).nib = s.nib := rfl
@[simp] theorem modBand_res (n : Nat) (f : Band → Band) (s : State) : (modBand n f s).res = s.res := rfl
@[simp] theorem modBand_map (n : Nat) (f : Band → Band) (s : State) : (modBand n f s).map = s.map := rfl
@[simp] theorem modBand_log (n : Nat) (f : Band → Band) (s : State) : (modBand n f s).log = s.log := rfl
theorem modBand_ftl (n : Nat) (f : Band → Band) (s : State) : (modBand n f s).ftl = { s.ftl with bands := mapIf (fun b => b.n = n) f s.ftl.bands } := rfl
@[simp] theorem modBand_dies (n : Nat) (f : Band → Band) (s : State) : (modBand n f s).dies = s.dies := rfl
@[simp] theorem modBand_rec_ (n : Nat) (f : Band → Band) (s : State) : (modBand n f s).rec_ = s.rec_ := rfl
@[simp] theorem modBand_health (n : Nat) (f : Band → Band) (s : State) : (modBand n f s).health = s.health := rfl
@[simp] theorem modBand_flt (n : Nat) (f : Band → Band) (s : State) : (modBand n f s).flt = s.flt := rfl
@[simp] theorem modBand_lops (n : Nat) (f : Band → Band) (s : State) : (modBand n f s).lops = s.lops := rfl
@[simp] theorem modBand_lig (n : Nat) (f : Band → Band) (s : State) : (modBand n f s).lig = s.lig := rfl
@[simp] theorem modBand_pwr (n : Nat) (f : Band → Band) (s : State) : (modBand n f s).pwr = s.pwr := rfl
@[simp] theorem modBand_dbg (n : Nat) (f : Band → Band) (s : State) : (modBand n f s).dbg = s.dbg := rfl
@[simp] theorem modBand_elog (n : Nat) (f : Band → Band) (s : State) : (modBand n f s).elog = s.elog := rfl
@[simp] theorem modBand_wall (n : Nat) (f : Band → Band) (s : State) : (modBand n f s).wall = s.wall := rfl
@[simp] theorem modBand_out (n : Nat) (f : Band → Band) (s : State) : (modBand n f s).out = s.out := rfl
@[simp] theorem modBand_drawn (n : Nat) (f : Band → Band) (s : State) : (modBand n f s).drawn = s.drawn := rfl
@[simp] theorem modBand_pending (n : Nat) (f : Band → Band) (s : State) : (modBand n f s).pending = s.pending := rfl

/-! `resizeCache` -/

@[simp] theorem resizeCache_unit (s : State) : (resizeCache s).unit = s.unit := rfl
@[simp] theorem resizeCache_rst (s : State) : (resizeCache s).rst = s.rst := rfl
@[simp] theorem resizeCache_strap (s : State) : (resizeCache s).strap = s.strap := rfl
@[simp] theorem resizeCache_aon (s : State) : (resizeCache s).aon = s.aon := rfl
@[simp] theorem resizeCache_sup (s : State) : (resizeCache s).sup = s.sup := rfl
@[simp] theorem resizeCache_lands (s : State) : (resizeCache s).lands = s.lands := rfl
@[simp] theorem resizeCache_boot (s : State) : (resizeCache s).boot = s.boot := rfl
@[simp] theorem resizeCache_pcie (s : State) : (resizeCache s).pcie = s.pcie := rfl
@[simp] theorem resizeCache_nb (s : State) : (resizeCache s).nb = s.nb := rfl
@[simp] theorem resizeCache_nib (s : State) : (resizeCache s).nib = s.nib := rfl
@[simp] theorem resizeCache_res (s : State) : (resizeCache s).res = s.res := rfl
@[simp] theorem resizeCache_map (s : State) : (resizeCache s).map = s.map := rfl
@[simp] theorem resizeCache_log (s : State) : (resizeCache s).log = s.log := rfl
theorem resizeCache_ftl (s : State) : (resizeCache s).ftl = { s.ftl with cacheHeld := some s.cacheNow } := rfl
@[simp] theorem resizeCache_dies (s : State) : (resizeCache s).dies = s.dies := rfl
@[simp] theorem resizeCache_rec_ (s : State) : (resizeCache s).rec_ = s.rec_ := rfl
@[simp] theorem resizeCache_health (s : State) : (resizeCache s).health = s.health := rfl
@[simp] theorem resizeCache_flt (s : State) : (resizeCache s).flt = s.flt := rfl
@[simp] theorem resizeCache_lops (s : State) : (resizeCache s).lops = s.lops := rfl
@[simp] theorem resizeCache_lig (s : State) : (resizeCache s).lig = s.lig := rfl
@[simp] theorem resizeCache_pwr (s : State) : (resizeCache s).pwr = s.pwr := rfl
@[simp] theorem resizeCache_dbg (s : State) : (resizeCache s).dbg = s.dbg := rfl
@[simp] theorem resizeCache_elog (s : State) : (resizeCache s).elog = s.elog := rfl
@[simp] theorem resizeCache_wall (s : State) : (resizeCache s).wall = s.wall := rfl
@[simp] theorem resizeCache_out (s : State) : (resizeCache s).out = s.out := rfl
@[simp] theorem resizeCache_drawn (s : State) : (resizeCache s).drawn = s.drawn := rfl
@[simp] theorem resizeCache_pending (s : State) : (resizeCache s).pending = s.pending := rfl

/-! `addRec` -/

@[simp] theorem addRec_unit (r : MapRec) (s : State) : (addRec r s).unit = s.unit := rfl
@[simp] theorem addRec_rst (r : MapRec) (s : State) : (addRec r s).rst = s.rst := rfl
@[simp] theorem addRec_strap (r : MapRec) (s : State) : (addRec r s).strap = s.strap := rfl
@[simp] theorem addRec_aon (r : MapRec) (s : State) : (addRec r s).aon = s.aon := rfl
@[simp] theorem addRec_sup (r : MapRec) (s : State) : (addRec r s).sup = s.sup := rfl
@[simp] theorem addRec_lands (r : MapRec) (s : State) : (addRec r s).lands = s.lands := rfl
@[simp] theorem addRec_boot (r : MapRec) (s : State) : (addRec r s).boot = s.boot := rfl
@[simp] theorem addRec_pcie (r : MapRec) (s : State) : (addRec r s).pcie = s.pcie := rfl
@[simp] theorem addRec_nb (r : MapRec) (s : State) : (addRec r s).nb = s.nb := rfl
@[simp] theorem addRec_nib (r : MapRec) (s : State) : (addRec r s).nib = s.nib := rfl
@[simp] theorem addRec_res (r : MapRec) (s : State) : (addRec r s).res = s.res := rfl
@[simp] theorem addRec_map (r : MapRec) (s : State) : (addRec r s).map = s.map := rfl
theorem addRec_log (r : MapRec) (s : State) : (addRec r s).log = { s.log with buf := s.log.buf ++ [{ r with seq := s.log.nextSeq }], nextSeq := (s.log.nextSeq + 1) % 2 ^ 32 } := rfl
@[simp] theorem addRec_ftl (r : MapRec) (s : State) : (addRec r s).ftl = s.ftl := rfl
@[simp] theorem addRec_dies (r : MapRec) (s : State) : (addRec r s).dies = s.dies := rfl
@[simp] theorem addRec_rec_ (r : MapRec) (s : State) : (addRec r s).rec_ = s.rec_ := rfl
@[simp] theorem addRec_health (r : MapRec) (s : State) : (addRec r s).health = s.health := rfl
@[simp] theorem addRec_flt (r : MapRec) (s : State) : (addRec r s).flt = s.flt := rfl
@[simp] theorem addRec_lops (r : MapRec) (s : State) : (addRec r s).lops = s.lops := rfl
@[simp] theorem addRec_lig (r : MapRec) (s : State) : (addRec r s).lig = s.lig := rfl
@[simp] theorem addRec_pwr (r : MapRec) (s : State) : (addRec r s).pwr = s.pwr := rfl
@[simp] theorem addRec_dbg (r : MapRec) (s : State) : (addRec r s).dbg = s.dbg := rfl
@[simp] theorem addRec_elog (r : MapRec) (s : State) : (addRec r s).elog = s.elog := rfl
@[simp] theorem addRec_wall (r : MapRec) (s : State) : (addRec r s).wall = s.wall := rfl
@[simp] theorem addRec_out (r : MapRec) (s : State) : (addRec r s).out = s.out := rfl
@[simp] theorem addRec_drawn (r : MapRec) (s : State) : (addRec r s).drawn = s.drawn := rfl
@[simp] theorem addRec_pending (r : MapRec) (s : State) : (addRec r s).pending = s.pending := rfl

/-! `setWp` -/

@[simp] theorem setWp_unit (w : WritePoint) (s : State) : (setWp w s).unit = s.unit := rfl
@[simp] theorem setWp_rst (w : WritePoint) (s : State) : (setWp w s).rst = s.rst := rfl
@[simp] theorem setWp_strap (w : WritePoint) (s : State) : (setWp w s).strap = s.strap := rfl
@[simp] theorem setWp_aon (w : WritePoint) (s : State) : (setWp w s).aon = s.aon := rfl
@[simp] theorem setWp_sup (w : WritePoint) (s : State) : (setWp w s).sup = s.sup := rfl
@[simp] theorem setWp_lands (w : WritePoint) (s : State) : (setWp w s).lands = s.lands := rfl
@[simp] theorem setWp_boot (w : WritePoint) (s : State) : (setWp w s).boot = s.boot := rfl
@[simp] theorem setWp_pcie (w : WritePoint) (s : State) : (setWp w s).pcie = s.pcie := rfl
@[simp] theorem setWp_nb (w : WritePoint) (s : State) : (setWp w s).nb = s.nb := rfl
@[simp] theorem setWp_nib (w : WritePoint) (s : State) : (setWp w s).nib = s.nib := rfl
@[simp] theorem setWp_res (w : WritePoint) (s : State) : (setWp w s).res = s.res := rfl
@[simp] theorem setWp_map (w : WritePoint) (s : State) : (setWp w s).map = s.map := rfl
@[simp] theorem setWp_log (w : WritePoint) (s : State) : (setWp w s).log = s.log := rfl
theorem setWp_ftl (w : WritePoint) (s : State) : (setWp w s).ftl = { s.ftl with wps := w :: s.ftl.wps.filter (fun x => x.kind ≠ w.kind || x.stream ≠ w.stream) } := rfl
@[simp] theorem setWp_dies (w : WritePoint) (s : State) : (setWp w s).dies = s.dies := rfl
@[simp] theorem setWp_rec_ (w : WritePoint) (s : State) : (setWp w s).rec_ = s.rec_ := rfl
@[simp] theorem setWp_health (w : WritePoint) (s : State) : (setWp w s).health = s.health := rfl
@[simp] theorem setWp_flt (w : WritePoint) (s : State) : (setWp w s).flt = s.flt := rfl
@[simp] theorem setWp_lops (w : WritePoint) (s : State) : (setWp w s).lops = s.lops := rfl
@[simp] theorem setWp_lig (w : WritePoint) (s : State) : (setWp w s).lig = s.lig := rfl
@[simp] theorem setWp_pwr (w : WritePoint) (s : State) : (setWp w s).pwr = s.pwr := rfl
@[simp] theorem setWp_dbg (w : WritePoint) (s : State) : (setWp w s).dbg = s.dbg := rfl
@[simp] theorem setWp_elog (w : WritePoint) (s : State) : (setWp w s).elog = s.elog := rfl
@[simp] theorem setWp_wall (w : WritePoint) (s : State) : (setWp w s).wall = s.wall := rfl
@[simp] theorem setWp_out (w : WritePoint) (s : State) : (setWp w s).out = s.out := rfl
@[simp] theorem setWp_drawn (w : WritePoint) (s : State) : (setWp w s).drawn = s.drawn := rfl
@[simp] theorem setWp_pending (w : WritePoint) (s : State) : (setWp w s).pending = s.pending := rfl

/-! `addFill` -/

@[simp] theorem addFill_unit (slot : Nat) (c : Codeword) (s : State) : (addFill slot c s).unit = s.unit := rfl
@[simp] theorem addFill_rst (slot : Nat) (c : Codeword) (s : State) : (addFill slot c s).rst = s.rst := rfl
@[simp] theorem addFill_strap (slot : Nat) (c : Codeword) (s : State) : (addFill slot c s).strap = s.strap := rfl
@[simp] theorem addFill_aon (slot : Nat) (c : Codeword) (s : State) : (addFill slot c s).aon = s.aon := rfl
@[simp] theorem addFill_sup (slot : Nat) (c : Codeword) (s : State) : (addFill slot c s).sup = s.sup := rfl
@[simp] theorem addFill_lands (slot : Nat) (c : Codeword) (s : State) : (addFill slot c s).lands = s.lands := rfl
@[simp] theorem addFill_boot (slot : Nat) (c : Codeword) (s : State) : (addFill slot c s).boot = s.boot := rfl
@[simp] theorem addFill_pcie (slot : Nat) (c : Codeword) (s : State) : (addFill slot c s).pcie = s.pcie := rfl
@[simp] theorem addFill_nb (slot : Nat) (c : Codeword) (s : State) : (addFill slot c s).nb = s.nb := rfl
@[simp] theorem addFill_nib (slot : Nat) (c : Codeword) (s : State) : (addFill slot c s).nib = s.nib := rfl
@[simp] theorem addFill_res (slot : Nat) (c : Codeword) (s : State) : (addFill slot c s).res = s.res := rfl
@[simp] theorem addFill_map (slot : Nat) (c : Codeword) (s : State) : (addFill slot c s).map = s.map := rfl
@[simp] theorem addFill_log (slot : Nat) (c : Codeword) (s : State) : (addFill slot c s).log = s.log := rfl
theorem addFill_ftl (slot : Nat) (c : Codeword) (s : State) : (addFill slot c s).ftl = { s.ftl with fill := s.ftl.fill ++ [{ n := slot, cw := c }] } := rfl
@[simp] theorem addFill_dies (slot : Nat) (c : Codeword) (s : State) : (addFill slot c s).dies = s.dies := rfl
@[simp] theorem addFill_rec_ (slot : Nat) (c : Codeword) (s : State) : (addFill slot c s).rec_ = s.rec_ := rfl
@[simp] theorem addFill_health (slot : Nat) (c : Codeword) (s : State) : (addFill slot c s).health = s.health := rfl
@[simp] theorem addFill_flt (slot : Nat) (c : Codeword) (s : State) : (addFill slot c s).flt = s.flt := rfl
@[simp] theorem addFill_lops (slot : Nat) (c : Codeword) (s : State) : (addFill slot c s).lops = s.lops := rfl
@[simp] theorem addFill_lig (slot : Nat) (c : Codeword) (s : State) : (addFill slot c s).lig = s.lig := rfl
@[simp] theorem addFill_pwr (slot : Nat) (c : Codeword) (s : State) : (addFill slot c s).pwr = s.pwr := rfl
@[simp] theorem addFill_dbg (slot : Nat) (c : Codeword) (s : State) : (addFill slot c s).dbg = s.dbg := rfl
@[simp] theorem addFill_elog (slot : Nat) (c : Codeword) (s : State) : (addFill slot c s).elog = s.elog := rfl
@[simp] theorem addFill_wall (slot : Nat) (c : Codeword) (s : State) : (addFill slot c s).wall = s.wall := rfl
@[simp] theorem addFill_out (slot : Nat) (c : Codeword) (s : State) : (addFill slot c s).out = s.out := rfl
@[simp] theorem addFill_drawn (slot : Nat) (c : Codeword) (s : State) : (addFill slot c s).drawn = s.drawn := rfl
@[simp] theorem addFill_pending (slot : Nat) (c : Codeword) (s : State) : (addFill slot c s).pending = s.pending := rfl

/-! `markPlaced` -/

@[simp] theorem markPlaced_unit (r b slot : Nat) (s : State) : (markPlaced r b slot s).unit = s.unit := rfl
@[simp] theorem markPlaced_rst (r b slot : Nat) (s : State) : (markPlaced r b slot s).rst = s.rst := rfl
@[simp] theorem markPlaced_strap (r b slot : Nat) (s : State) : (markPlaced r b slot s).strap = s.strap := rfl
@[simp] theorem markPlaced_aon (r b slot : Nat) (s : State) : (markPlaced r b slot s).aon = s.aon := rfl
@[simp] theorem markPlaced_sup (r b slot : Nat) (s : State) : (markPlaced r b slot s).sup = s.sup := rfl
@[simp] theorem markPlaced_lands (r b slot : Nat) (s : State) : (markPlaced r b slot s).lands = s.lands := rfl
@[simp] theorem markPlaced_boot (r b slot : Nat) (s : State) : (markPlaced r b slot s).boot = s.boot := rfl
@[simp] theorem markPlaced_pcie (r b slot : Nat) (s : State) : (markPlaced r b slot s).pcie = s.pcie := rfl
@[simp] theorem markPlaced_nb (r b slot : Nat) (s : State) : (markPlaced r b slot s).nb = s.nb := rfl
@[simp] theorem markPlaced_nib (r b slot : Nat) (s : State) : (markPlaced r b slot s).nib = s.nib := rfl
theorem markPlaced_res (r b slot : Nat) (s : State) : (markPlaced r b slot s).res = { s.res with staged := mapIf (fun x => x.ruling = r && x.block = b) (fun x => { x with placed := some slot }) s.res.staged } := rfl
@[simp] theorem markPlaced_map (r b slot : Nat) (s : State) : (markPlaced r b slot s).map = s.map := rfl
@[simp] theorem markPlaced_log (r b slot : Nat) (s : State) : (markPlaced r b slot s).log = s.log := rfl
@[simp] theorem markPlaced_ftl (r b slot : Nat) (s : State) : (markPlaced r b slot s).ftl = s.ftl := rfl
@[simp] theorem markPlaced_dies (r b slot : Nat) (s : State) : (markPlaced r b slot s).dies = s.dies := rfl
@[simp] theorem markPlaced_rec_ (r b slot : Nat) (s : State) : (markPlaced r b slot s).rec_ = s.rec_ := rfl
@[simp] theorem markPlaced_health (r b slot : Nat) (s : State) : (markPlaced r b slot s).health = s.health := rfl
@[simp] theorem markPlaced_flt (r b slot : Nat) (s : State) : (markPlaced r b slot s).flt = s.flt := rfl
@[simp] theorem markPlaced_lops (r b slot : Nat) (s : State) : (markPlaced r b slot s).lops = s.lops := rfl
@[simp] theorem markPlaced_lig (r b slot : Nat) (s : State) : (markPlaced r b slot s).lig = s.lig := rfl
@[simp] theorem markPlaced_pwr (r b slot : Nat) (s : State) : (markPlaced r b slot s).pwr = s.pwr := rfl
@[simp] theorem markPlaced_dbg (r b slot : Nat) (s : State) : (markPlaced r b slot s).dbg = s.dbg := rfl
@[simp] theorem markPlaced_elog (r b slot : Nat) (s : State) : (markPlaced r b slot s).elog = s.elog := rfl
@[simp] theorem markPlaced_wall (r b slot : Nat) (s : State) : (markPlaced r b slot s).wall = s.wall := rfl
@[simp] theorem markPlaced_out (r b slot : Nat) (s : State) : (markPlaced r b slot s).out = s.out := rfl
@[simp] theorem markPlaced_drawn (r b slot : Nat) (s : State) : (markPlaced r b slot s).drawn = s.drawn := rfl
@[simp] theorem markPlaced_pending (r b slot : Nat) (s : State) : (markPlaced r b slot s).pending = s.pending := rfl

/-! `acknowledge` -/

@[simp] theorem acknowledge_unit (host : Bool) (seq : Nat) (s : State) : (acknowledge host seq s).unit = s.unit := rfl
@[simp] theorem acknowledge_rst (host : Bool) (seq : Nat) (s : State) : (acknowledge host seq s).rst = s.rst := rfl
@[simp] theorem acknowledge_strap (host : Bool) (seq : Nat) (s : State) : (acknowledge host seq s).strap = s.strap := rfl
@[simp] theorem acknowledge_aon (host : Bool) (seq : Nat) (s : State) : (acknowledge host seq s).aon = s.aon := rfl
@[simp] theorem acknowledge_sup (host : Bool) (seq : Nat) (s : State) : (acknowledge host seq s).sup = s.sup := rfl
@[simp] theorem acknowledge_lands (host : Bool) (seq : Nat) (s : State) : (acknowledge host seq s).lands = s.lands := rfl
@[simp] theorem acknowledge_boot (host : Bool) (seq : Nat) (s : State) : (acknowledge host seq s).boot = s.boot := rfl
@[simp] theorem acknowledge_pcie (host : Bool) (seq : Nat) (s : State) : (acknowledge host seq s).pcie = s.pcie := rfl
@[simp] theorem acknowledge_nb (host : Bool) (seq : Nat) (s : State) : (acknowledge host seq s).nb = s.nb := rfl
@[simp] theorem acknowledge_nib (host : Bool) (seq : Nat) (s : State) : (acknowledge host seq s).nib = s.nib := rfl
@[simp] theorem acknowledge_res (host : Bool) (seq : Nat) (s : State) : (acknowledge host seq s).res = s.res := rfl
@[simp] theorem acknowledge_map (host : Bool) (seq : Nat) (s : State) : (acknowledge host seq s).map = s.map := rfl
@[simp] theorem acknowledge_log (host : Bool) (seq : Nat) (s : State) : (acknowledge host seq s).log = s.log := rfl
@[simp] theorem acknowledge_ftl (host : Bool) (seq : Nat) (s : State) : (acknowledge host seq s).ftl = s.ftl := rfl
@[simp] theorem acknowledge_dies (host : Bool) (seq : Nat) (s : State) : (acknowledge host seq s).dies = s.dies := rfl
@[simp] theorem acknowledge_rec_ (host : Bool) (seq : Nat) (s : State) : (acknowledge host seq s).rec_ = s.rec_ := rfl
@[simp] theorem acknowledge_health (host : Bool) (seq : Nat) (s : State) : (acknowledge host seq s).health = s.health := rfl
@[simp] theorem acknowledge_lops (host : Bool) (seq : Nat) (s : State) : (acknowledge host seq s).lops = s.lops := rfl
@[simp] theorem acknowledge_lig (host : Bool) (seq : Nat) (s : State) : (acknowledge host seq s).lig = s.lig := rfl
@[simp] theorem acknowledge_pwr (host : Bool) (seq : Nat) (s : State) : (acknowledge host seq s).pwr = s.pwr := rfl
@[simp] theorem acknowledge_dbg (host : Bool) (seq : Nat) (s : State) : (acknowledge host seq s).dbg = s.dbg := rfl
@[simp] theorem acknowledge_elog (host : Bool) (seq : Nat) (s : State) : (acknowledge host seq s).elog = s.elog := rfl
@[simp] theorem acknowledge_wall (host : Bool) (seq : Nat) (s : State) : (acknowledge host seq s).wall = s.wall := rfl
@[simp] theorem acknowledge_out (host : Bool) (seq : Nat) (s : State) : (acknowledge host seq s).out = s.out := rfl
@[simp] theorem acknowledge_drawn (host : Bool) (seq : Nat) (s : State) : (acknowledge host seq s).drawn = s.drawn := rfl
@[simp] theorem acknowledge_pending (host : Bool) (seq : Nat) (s : State) : (acknowledge host seq s).pending = s.pending := rfl

/-! `beginSwap` -/

@[simp] theorem beginSwap_unit (w : SwapWork) (s : State) : (beginSwap w s).unit = s.unit := rfl
@[simp] theorem beginSwap_rst (w : SwapWork) (s : State) : (beginSwap w s).rst = s.rst := rfl
@[simp] theorem beginSwap_strap (w : SwapWork) (s : State) : (beginSwap w s).strap = s.strap := rfl
@[simp] theorem beginSwap_aon (w : SwapWork) (s : State) : (beginSwap w s).aon = s.aon := rfl
@[simp] theorem beginSwap_sup (w : SwapWork) (s : State) : (beginSwap w s).sup = s.sup := rfl
@[simp] theorem beginSwap_lands (w : SwapWork) (s : State) : (beginSwap w s).lands = s.lands := rfl
theorem beginSwap_boot (w : SwapWork) (s : State) : (beginSwap w s).boot = { s.boot.clearSlot with swapWork := some w } := rfl
@[simp] theorem beginSwap_pcie (w : SwapWork) (s : State) : (beginSwap w s).pcie = s.pcie := rfl
@[simp] theorem beginSwap_nb (w : SwapWork) (s : State) : (beginSwap w s).nb = s.nb := rfl
@[simp] theorem beginSwap_nib (w : SwapWork) (s : State) : (beginSwap w s).nib = s.nib := rfl
@[simp] theorem beginSwap_res (w : SwapWork) (s : State) : (beginSwap w s).res = s.res := rfl
@[simp] theorem beginSwap_map (w : SwapWork) (s : State) : (beginSwap w s).map = s.map := rfl
@[simp] theorem beginSwap_log (w : SwapWork) (s : State) : (beginSwap w s).log = s.log := rfl
@[simp] theorem beginSwap_ftl (w : SwapWork) (s : State) : (beginSwap w s).ftl = s.ftl := rfl
@[simp] theorem beginSwap_dies (w : SwapWork) (s : State) : (beginSwap w s).dies = s.dies := rfl
@[simp] theorem beginSwap_rec_ (w : SwapWork) (s : State) : (beginSwap w s).rec_ = s.rec_ := rfl
@[simp] theorem beginSwap_health (w : SwapWork) (s : State) : (beginSwap w s).health = s.health := rfl
@[simp] theorem beginSwap_flt (w : SwapWork) (s : State) : (beginSwap w s).flt = s.flt := rfl
@[simp] theorem beginSwap_lops (w : SwapWork) (s : State) : (beginSwap w s).lops = s.lops := rfl
@[simp] theorem beginSwap_lig (w : SwapWork) (s : State) : (beginSwap w s).lig = s.lig := rfl
@[simp] theorem beginSwap_pwr (w : SwapWork) (s : State) : (beginSwap w s).pwr = s.pwr := rfl
@[simp] theorem beginSwap_dbg (w : SwapWork) (s : State) : (beginSwap w s).dbg = s.dbg := rfl
@[simp] theorem beginSwap_elog (w : SwapWork) (s : State) : (beginSwap w s).elog = s.elog := rfl
@[simp] theorem beginSwap_wall (w : SwapWork) (s : State) : (beginSwap w s).wall = s.wall := rfl
@[simp] theorem beginSwap_out (w : SwapWork) (s : State) : (beginSwap w s).out = s.out := rfl
@[simp] theorem beginSwap_drawn (w : SwapWork) (s : State) : (beginSwap w s).drawn = s.drawn := rfl
@[simp] theorem beginSwap_pending (w : SwapWork) (s : State) : (beginSwap w s).pending = s.pending := rfl

/-! `endDownload` -/

@[simp] theorem endDownload_unit (s : State) : (endDownload s).unit = s.unit := rfl
@[simp] theorem endDownload_rst (s : State) : (endDownload s).rst = s.rst := rfl
@[simp] theorem endDownload_strap (s : State) : (endDownload s).strap = s.strap := rfl
@[simp] theorem endDownload_aon (s : State) : (endDownload s).aon = s.aon := rfl
@[simp] theorem endDownload_sup (s : State) : (endDownload s).sup = s.sup := rfl
@[simp] theorem endDownload_lands (s : State) : (endDownload s).lands = s.lands := rfl
theorem endDownload_boot (s : State) : (endDownload s).boot = { s.boot with dl := none, busy := none } := rfl
@[simp] theorem endDownload_pcie (s : State) : (endDownload s).pcie = s.pcie := rfl
@[simp] theorem endDownload_nb (s : State) : (endDownload s).nb = s.nb := rfl
@[simp] theorem endDownload_nib (s : State) : (endDownload s).nib = s.nib := rfl
@[simp] theorem endDownload_res (s : State) : (endDownload s).res = s.res := rfl
@[simp] theorem endDownload_map (s : State) : (endDownload s).map = s.map := rfl
@[simp] theorem endDownload_log (s : State) : (endDownload s).log = s.log := rfl
@[simp] theorem endDownload_ftl (s : State) : (endDownload s).ftl = s.ftl := rfl
@[simp] theorem endDownload_dies (s : State) : (endDownload s).dies = s.dies := rfl
@[simp] theorem endDownload_rec_ (s : State) : (endDownload s).rec_ = s.rec_ := rfl
@[simp] theorem endDownload_health (s : State) : (endDownload s).health = s.health := rfl
@[simp] theorem endDownload_flt (s : State) : (endDownload s).flt = s.flt := rfl
@[simp] theorem endDownload_lops (s : State) : (endDownload s).lops = s.lops := rfl
@[simp] theorem endDownload_lig (s : State) : (endDownload s).lig = s.lig := rfl
@[simp] theorem endDownload_pwr (s : State) : (endDownload s).pwr = s.pwr := rfl
@[simp] theorem endDownload_dbg (s : State) : (endDownload s).dbg = s.dbg := rfl
@[simp] theorem endDownload_elog (s : State) : (endDownload s).elog = s.elog := rfl
@[simp] theorem endDownload_wall (s : State) : (endDownload s).wall = s.wall := rfl
@[simp] theorem endDownload_out (s : State) : (endDownload s).out = s.out := rfl
@[simp] theorem endDownload_drawn (s : State) : (endDownload s).drawn = s.drawn := rfl
@[simp] theorem endDownload_pending (s : State) : (endDownload s).pending = s.pending := rfl

/-! `modOp` -/

@[simp] theorem modOp_unit (h : Nat) (f : LongOp → LongOp) (s : State) : (modOp h f s).unit = s.unit := rfl
@[simp] theorem modOp_rst (h : Nat) (f : LongOp → LongOp) (s : State) : (modOp h f s).rst = s.rst := rfl
@[simp] theorem modOp_strap (h : Nat) (f : LongOp → LongOp) (s : State) : (modOp h f s).strap = s.strap := rfl
@[simp] theorem modOp_aon (h : Nat) (f : LongOp → LongOp) (s : State) : (modOp h f s).aon = s.aon := rfl
@[simp] theorem modOp_sup (h : Nat) (f : LongOp → LongOp) (s : State) : (modOp h f s).sup = s.sup := rfl
@[simp] theorem modOp_lands (h : Nat) (f : LongOp → LongOp) (s : State) : (modOp h f s).lands = s.lands := rfl
@[simp] theorem modOp_boot (h : Nat) (f : LongOp → LongOp) (s : State) : (modOp h f s).boot = s.boot := rfl
@[simp] theorem modOp_pcie (h : Nat) (f : LongOp → LongOp) (s : State) : (modOp h f s).pcie = s.pcie := rfl
@[simp] theorem modOp_nb (h : Nat) (f : LongOp → LongOp) (s : State) : (modOp h f s).nb = s.nb := rfl
@[simp] theorem modOp_nib (h : Nat) (f : LongOp → LongOp) (s : State) : (modOp h f s).nib = s.nib := rfl
@[simp] theorem modOp_res (h : Nat) (f : LongOp → LongOp) (s : State) : (modOp h f s).res = s.res := rfl
@[simp] theorem modOp_map (h : Nat) (f : LongOp → LongOp) (s : State) : (modOp h f s).map = s.map := rfl
@[simp] theorem modOp_log (h : Nat) (f : LongOp → LongOp) (s : State) : (modOp h f s).log = s.log := rfl
@[simp] theorem modOp_ftl (h : Nat) (f : LongOp → LongOp) (s : State) : (modOp h f s).ftl = s.ftl := rfl
@[simp] theorem modOp_dies (h : Nat) (f : LongOp → LongOp) (s : State) : (modOp h f s).dies = s.dies := rfl
@[simp] theorem modOp_rec_ (h : Nat) (f : LongOp → LongOp) (s : State) : (modOp h f s).rec_ = s.rec_ := rfl
@[simp] theorem modOp_health (h : Nat) (f : LongOp → LongOp) (s : State) : (modOp h f s).health = s.health := rfl
@[simp] theorem modOp_flt (h : Nat) (f : LongOp → LongOp) (s : State) : (modOp h f s).flt = s.flt := rfl
theorem modOp_lops (h : Nat) (f : LongOp → LongOp) (s : State) : (modOp h f s).lops = { s.lops with list := mapIf (fun o => o.handle = h) f s.lops.list } := rfl
@[simp] theorem modOp_lig (h : Nat) (f : LongOp → LongOp) (s : State) : (modOp h f s).lig = s.lig := rfl
@[simp] theorem modOp_pwr (h : Nat) (f : LongOp → LongOp) (s : State) : (modOp h f s).pwr = s.pwr := rfl
@[simp] theorem modOp_dbg (h : Nat) (f : LongOp → LongOp) (s : State) : (modOp h f s).dbg = s.dbg := rfl
@[simp] theorem modOp_elog (h : Nat) (f : LongOp → LongOp) (s : State) : (modOp h f s).elog = s.elog := rfl
@[simp] theorem modOp_wall (h : Nat) (f : LongOp → LongOp) (s : State) : (modOp h f s).wall = s.wall := rfl
@[simp] theorem modOp_out (h : Nat) (f : LongOp → LongOp) (s : State) : (modOp h f s).out = s.out := rfl
@[simp] theorem modOp_drawn (h : Nat) (f : LongOp → LongOp) (s : State) : (modOp h f s).drawn = s.drawn := rfl
@[simp] theorem modOp_pending (h : Nat) (f : LongOp → LongOp) (s : State) : (modOp h f s).pending = s.pending := rfl

/-! `modMoves` -/

@[simp] theorem modMoves_unit (p : Move → Bool) (f : Move → Move) (s : State) : (modMoves p f s).unit = s.unit := rfl
@[simp] theorem modMoves_rst (p : Move → Bool) (f : Move → Move) (s : State) : (modMoves p f s).rst = s.rst := rfl
@[simp] theorem modMoves_strap (p : Move → Bool) (f : Move → Move) (s : State) : (modMoves p f s).strap = s.strap := rfl
@[simp] theorem modMoves_aon (p : Move → Bool) (f : Move → Move) (s : State) : (modMoves p f s).aon = s.aon := rfl
@[simp] theorem modMoves_sup (p : Move → Bool) (f : Move → Move) (s : State) : (modMoves p f s).sup = s.sup := rfl
@[simp] theorem modMoves_lands (p : Move → Bool) (f : Move → Move) (s : State) : (modMoves p f s).lands = s.lands := rfl
@[simp] theorem modMoves_boot (p : Move → Bool) (f : Move → Move) (s : State) : (modMoves p f s).boot = s.boot := rfl
@[simp] theorem modMoves_pcie (p : Move → Bool) (f : Move → Move) (s : State) : (modMoves p f s).pcie = s.pcie := rfl
@[simp] theorem modMoves_nb (p : Move → Bool) (f : Move → Move) (s : State) : (modMoves p f s).nb = s.nb := rfl
@[simp] theorem modMoves_nib (p : Move → Bool) (f : Move → Move) (s : State) : (modMoves p f s).nib = s.nib := rfl
@[simp] theorem modMoves_res (p : Move → Bool) (f : Move → Move) (s : State) : (modMoves p f s).res = s.res := rfl
@[simp] theorem modMoves_map (p : Move → Bool) (f : Move → Move) (s : State) : (modMoves p f s).map = s.map := rfl
@[simp] theorem modMoves_log (p : Move → Bool) (f : Move → Move) (s : State) : (modMoves p f s).log = s.log := rfl
theorem modMoves_ftl (p : Move → Bool) (f : Move → Move) (s : State) : (modMoves p f s).ftl = { s.ftl with moves := mapIf p f s.ftl.moves } := rfl
@[simp] theorem modMoves_dies (p : Move → Bool) (f : Move → Move) (s : State) : (modMoves p f s).dies = s.dies := rfl
@[simp] theorem modMoves_rec_ (p : Move → Bool) (f : Move → Move) (s : State) : (modMoves p f s).rec_ = s.rec_ := rfl
@[simp] theorem modMoves_health (p : Move → Bool) (f : Move → Move) (s : State) : (modMoves p f s).health = s.health := rfl
@[simp] theorem modMoves_flt (p : Move → Bool) (f : Move → Move) (s : State) : (modMoves p f s).flt = s.flt := rfl
@[simp] theorem modMoves_lops (p : Move → Bool) (f : Move → Move) (s : State) : (modMoves p f s).lops = s.lops := rfl
@[simp] theorem modMoves_lig (p : Move → Bool) (f : Move → Move) (s : State) : (modMoves p f s).lig = s.lig := rfl
@[simp] theorem modMoves_pwr (p : Move → Bool) (f : Move → Move) (s : State) : (modMoves p f s).pwr = s.pwr := rfl
@[simp] theorem modMoves_dbg (p : Move → Bool) (f : Move → Move) (s : State) : (modMoves p f s).dbg = s.dbg := rfl
@[simp] theorem modMoves_elog (p : Move → Bool) (f : Move → Move) (s : State) : (modMoves p f s).elog = s.elog := rfl
@[simp] theorem modMoves_wall (p : Move → Bool) (f : Move → Move) (s : State) : (modMoves p f s).wall = s.wall := rfl
@[simp] theorem modMoves_out (p : Move → Bool) (f : Move → Move) (s : State) : (modMoves p f s).out = s.out := rfl
@[simp] theorem modMoves_drawn (p : Move → Bool) (f : Move → Move) (s : State) : (modMoves p f s).drawn = s.drawn := rfl
@[simp] theorem modMoves_pending (p : Move → Bool) (f : Move → Move) (s : State) : (modMoves p f s).pending = s.pending := rfl

/-! `modProgs` -/

@[simp] theorem modProgs_unit (p : Prog → Bool) (f : Prog → Prog) (s : State) : (modProgs p f s).unit = s.unit := rfl
@[simp] theorem modProgs_rst (p : Prog → Bool) (f : Prog → Prog) (s : State) : (modProgs p f s).rst = s.rst := rfl
@[simp] theorem modProgs_strap (p : Prog → Bool) (f : Prog → Prog) (s : State) : (modProgs p f s).strap = s.strap := rfl
@[simp] theorem modProgs_aon (p : Prog → Bool) (f : Prog → Prog) (s : State) : (modProgs p f s).aon = s.aon := rfl
@[simp] theorem modProgs_sup (p : Prog → Bool) (f : Prog → Prog) (s : State) : (modProgs p f s).sup = s.sup := rfl
@[simp] theorem modProgs_lands (p : Prog → Bool) (f : Prog → Prog) (s : State) : (modProgs p f s).lands = s.lands := rfl
@[simp] theorem modProgs_boot (p : Prog → Bool) (f : Prog → Prog) (s : State) : (modProgs p f s).boot = s.boot := rfl
@[simp] theorem modProgs_pcie (p : Prog → Bool) (f : Prog → Prog) (s : State) : (modProgs p f s).pcie = s.pcie := rfl
@[simp] theorem modProgs_nb (p : Prog → Bool) (f : Prog → Prog) (s : State) : (modProgs p f s).nb = s.nb := rfl
@[simp] theorem modProgs_nib (p : Prog → Bool) (f : Prog → Prog) (s : State) : (modProgs p f s).nib = s.nib := rfl
@[simp] theorem modProgs_res (p : Prog → Bool) (f : Prog → Prog) (s : State) : (modProgs p f s).res = s.res := rfl
@[simp] theorem modProgs_map (p : Prog → Bool) (f : Prog → Prog) (s : State) : (modProgs p f s).map = s.map := rfl
@[simp] theorem modProgs_log (p : Prog → Bool) (f : Prog → Prog) (s : State) : (modProgs p f s).log = s.log := rfl
theorem modProgs_ftl (p : Prog → Bool) (f : Prog → Prog) (s : State) : (modProgs p f s).ftl = { s.ftl with progs := mapIf p f s.ftl.progs } := rfl
@[simp] theorem modProgs_dies (p : Prog → Bool) (f : Prog → Prog) (s : State) : (modProgs p f s).dies = s.dies := rfl
@[simp] theorem modProgs_rec_ (p : Prog → Bool) (f : Prog → Prog) (s : State) : (modProgs p f s).rec_ = s.rec_ := rfl
@[simp] theorem modProgs_health (p : Prog → Bool) (f : Prog → Prog) (s : State) : (modProgs p f s).health = s.health := rfl
@[simp] theorem modProgs_flt (p : Prog → Bool) (f : Prog → Prog) (s : State) : (modProgs p f s).flt = s.flt := rfl
@[simp] theorem modProgs_lops (p : Prog → Bool) (f : Prog → Prog) (s : State) : (modProgs p f s).lops = s.lops := rfl
@[simp] theorem modProgs_lig (p : Prog → Bool) (f : Prog → Prog) (s : State) : (modProgs p f s).lig = s.lig := rfl
@[simp] theorem modProgs_pwr (p : Prog → Bool) (f : Prog → Prog) (s : State) : (modProgs p f s).pwr = s.pwr := rfl
@[simp] theorem modProgs_dbg (p : Prog → Bool) (f : Prog → Prog) (s : State) : (modProgs p f s).dbg = s.dbg := rfl
@[simp] theorem modProgs_elog (p : Prog → Bool) (f : Prog → Prog) (s : State) : (modProgs p f s).elog = s.elog := rfl
@[simp] theorem modProgs_wall (p : Prog → Bool) (f : Prog → Prog) (s : State) : (modProgs p f s).wall = s.wall := rfl
@[simp] theorem modProgs_out (p : Prog → Bool) (f : Prog → Prog) (s : State) : (modProgs p f s).out = s.out := rfl
@[simp] theorem modProgs_drawn (p : Prog → Bool) (f : Prog → Prog) (s : State) : (modProgs p f s).drawn = s.drawn := rfl
@[simp] theorem modProgs_pending (p : Prog → Bool) (f : Prog → Prog) (s : State) : (modProgs p f s).pending = s.pending := rfl

/-! `modEmptying` -/

@[simp] theorem modEmptying_unit (n : Nat) (f : Emptying → Emptying) (s : State) : (modEmptying n f s).unit = s.unit := rfl
@[simp] theorem modEmptying_rst (n : Nat) (f : Emptying → Emptying) (s : State) : (modEmptying n f s).rst = s.rst := rfl
@[simp] theorem modEmptying_strap (n : Nat) (f : Emptying → Emptying) (s : State) : (modEmptying n f s).strap = s.strap := rfl
@[simp] theorem modEmptying_aon (n : Nat) (f : Emptying → Emptying) (s : State) : (modEmptying n f s).aon = s.aon := rfl
@[simp] theorem modEmptying_sup (n : Nat) (f : Emptying → Emptying) (s : State) : (modEmptying n f s).sup = s.sup := rfl
@[simp] theorem modEmptying_lands (n : Nat) (f : Emptying → Emptying) (s : State) : (modEmptying n f s).lands = s.lands := rfl
@[simp] theorem modEmptying_boot (n : Nat) (f : Emptying → Emptying) (s : State) : (modEmptying n f s).boot = s.boot := rfl
@[simp] theorem modEmptying_pcie (n : Nat) (f : Emptying → Emptying) (s : State) : (modEmptying n f s).pcie = s.pcie := rfl
@[simp] theorem modEmptying_nb (n : Nat) (f : Emptying → Emptying) (s : State) : (modEmptying n f s).nb = s.nb := rfl
@[simp] theorem modEmptying_nib (n : Nat) (f : Emptying → Emptying) (s : State) : (modEmptying n f s).nib = s.nib := rfl
@[simp] theorem modEmptying_res (n : Nat) (f : Emptying → Emptying) (s : State) : (modEmptying n f s).res = s.res := rfl
@[simp] theorem modEmptying_map (n : Nat) (f : Emptying → Emptying) (s : State) : (modEmptying n f s).map = s.map := rfl
@[simp] theorem modEmptying_log (n : Nat) (f : Emptying → Emptying) (s : State) : (modEmptying n f s).log = s.log := rfl
theorem modEmptying_ftl (n : Nat) (f : Emptying → Emptying) (s : State) : (modEmptying n f s).ftl = { s.ftl with emptying := mapIf (fun e => e.band = n) f s.ftl.emptying } := rfl
@[simp] theorem modEmptying_dies (n : Nat) (f : Emptying → Emptying) (s : State) : (modEmptying n f s).dies = s.dies := rfl
@[simp] theorem modEmptying_rec_ (n : Nat) (f : Emptying → Emptying) (s : State) : (modEmptying n f s).rec_ = s.rec_ := rfl
@[simp] theorem modEmptying_health (n : Nat) (f : Emptying → Emptying) (s : State) : (modEmptying n f s).health = s.health := rfl
@[simp] theorem modEmptying_flt (n : Nat) (f : Emptying → Emptying) (s : State) : (modEmptying n f s).flt = s.flt := rfl
@[simp] theorem modEmptying_lops (n : Nat) (f : Emptying → Emptying) (s : State) : (modEmptying n f s).lops = s.lops := rfl
@[simp] theorem modEmptying_lig (n : Nat) (f : Emptying → Emptying) (s : State) : (modEmptying n f s).lig = s.lig := rfl
@[simp] theorem modEmptying_pwr (n : Nat) (f : Emptying → Emptying) (s : State) : (modEmptying n f s).pwr = s.pwr := rfl
@[simp] theorem modEmptying_dbg (n : Nat) (f : Emptying → Emptying) (s : State) : (modEmptying n f s).dbg = s.dbg := rfl
@[simp] theorem modEmptying_elog (n : Nat) (f : Emptying → Emptying) (s : State) : (modEmptying n f s).elog = s.elog := rfl
@[simp] theorem modEmptying_wall (n : Nat) (f : Emptying → Emptying) (s : State) : (modEmptying n f s).wall = s.wall := rfl
@[simp] theorem modEmptying_out (n : Nat) (f : Emptying → Emptying) (s : State) : (modEmptying n f s).out = s.out := rfl
@[simp] theorem modEmptying_drawn (n : Nat) (f : Emptying → Emptying) (s : State) : (modEmptying n f s).drawn = s.drawn := rfl
@[simp] theorem modEmptying_pending (n : Nat) (f : Emptying → Emptying) (s : State) : (modEmptying n f s).pending = s.pending := rfl

/-! `modRd` -/

@[simp] theorem modRd_unit (id : Nat) (f : Rd → Rd) (s : State) : (modRd id f s).unit = s.unit := rfl
@[simp] theorem modRd_rst (id : Nat) (f : Rd → Rd) (s : State) : (modRd id f s).rst = s.rst := rfl
@[simp] theorem modRd_strap (id : Nat) (f : Rd → Rd) (s : State) : (modRd id f s).strap = s.strap := rfl
@[simp] theorem modRd_aon (id : Nat) (f : Rd → Rd) (s : State) : (modRd id f s).aon = s.aon := rfl
@[simp] theorem modRd_sup (id : Nat) (f : Rd → Rd) (s : State) : (modRd id f s).sup = s.sup := rfl
@[simp] theorem modRd_lands (id : Nat) (f : Rd → Rd) (s : State) : (modRd id f s).lands = s.lands := rfl
@[simp] theorem modRd_boot (id : Nat) (f : Rd → Rd) (s : State) : (modRd id f s).boot = s.boot := rfl
@[simp] theorem modRd_pcie (id : Nat) (f : Rd → Rd) (s : State) : (modRd id f s).pcie = s.pcie := rfl
@[simp] theorem modRd_nb (id : Nat) (f : Rd → Rd) (s : State) : (modRd id f s).nb = s.nb := rfl
@[simp] theorem modRd_nib (id : Nat) (f : Rd → Rd) (s : State) : (modRd id f s).nib = s.nib := rfl
@[simp] theorem modRd_res (id : Nat) (f : Rd → Rd) (s : State) : (modRd id f s).res = s.res := rfl
@[simp] theorem modRd_map (id : Nat) (f : Rd → Rd) (s : State) : (modRd id f s).map = s.map := rfl
@[simp] theorem modRd_log (id : Nat) (f : Rd → Rd) (s : State) : (modRd id f s).log = s.log := rfl
@[simp] theorem modRd_ftl (id : Nat) (f : Rd → Rd) (s : State) : (modRd id f s).ftl = s.ftl := rfl
theorem modRd_dies (id : Nat) (f : Rd → Rd) (s : State) : (modRd id f s).dies = { s.dies with reads := mapIf (fun r => r.id = id) f s.dies.reads } := rfl
@[simp] theorem modRd_rec_ (id : Nat) (f : Rd → Rd) (s : State) : (modRd id f s).rec_ = s.rec_ := rfl
@[simp] theorem modRd_health (id : Nat) (f : Rd → Rd) (s : State) : (modRd id f s).health = s.health := rfl
@[simp] theorem modRd_flt (id : Nat) (f : Rd → Rd) (s : State) : (modRd id f s).flt = s.flt := rfl
@[simp] theorem modRd_lops (id : Nat) (f : Rd → Rd) (s : State) : (modRd id f s).lops = s.lops := rfl
@[simp] theorem modRd_lig (id : Nat) (f : Rd → Rd) (s : State) : (modRd id f s).lig = s.lig := rfl
@[simp] theorem modRd_pwr (id : Nat) (f : Rd → Rd) (s : State) : (modRd id f s).pwr = s.pwr := rfl
@[simp] theorem modRd_dbg (id : Nat) (f : Rd → Rd) (s : State) : (modRd id f s).dbg = s.dbg := rfl
@[simp] theorem modRd_elog (id : Nat) (f : Rd → Rd) (s : State) : (modRd id f s).elog = s.elog := rfl
@[simp] theorem modRd_wall (id : Nat) (f : Rd → Rd) (s : State) : (modRd id f s).wall = s.wall := rfl
@[simp] theorem modRd_out (id : Nat) (f : Rd → Rd) (s : State) : (modRd id f s).out = s.out := rfl
@[simp] theorem modRd_drawn (id : Nat) (f : Rd → Rd) (s : State) : (modRd id f s).drawn = s.drawn := rfl
@[simp] theorem modRd_pending (id : Nat) (f : Rd → Rd) (s : State) : (modRd id f s).pending = s.pending := rfl

/-! `dropRd` -/

@[simp] theorem dropRd_unit (id : Nat) (s : State) : (dropRd id s).unit = s.unit := rfl
@[simp] theorem dropRd_rst (id : Nat) (s : State) : (dropRd id s).rst = s.rst := rfl
@[simp] theorem dropRd_strap (id : Nat) (s : State) : (dropRd id s).strap = s.strap := rfl
@[simp] theorem dropRd_aon (id : Nat) (s : State) : (dropRd id s).aon = s.aon := rfl
@[simp] theorem dropRd_sup (id : Nat) (s : State) : (dropRd id s).sup = s.sup := rfl
@[simp] theorem dropRd_lands (id : Nat) (s : State) : (dropRd id s).lands = s.lands := rfl
@[simp] theorem dropRd_boot (id : Nat) (s : State) : (dropRd id s).boot = s.boot := rfl
@[simp] theorem dropRd_pcie (id : Nat) (s : State) : (dropRd id s).pcie = s.pcie := rfl
@[simp] theorem dropRd_nb (id : Nat) (s : State) : (dropRd id s).nb = s.nb := rfl
@[simp] theorem dropRd_nib (id : Nat) (s : State) : (dropRd id s).nib = s.nib := rfl
@[simp] theorem dropRd_res (id : Nat) (s : State) : (dropRd id s).res = s.res := rfl
@[simp] theorem dropRd_map (id : Nat) (s : State) : (dropRd id s).map = s.map := rfl
@[simp] theorem dropRd_log (id : Nat) (s : State) : (dropRd id s).log = s.log := rfl
@[simp] theorem dropRd_ftl (id : Nat) (s : State) : (dropRd id s).ftl = s.ftl := rfl
theorem dropRd_dies (id : Nat) (s : State) : (dropRd id s).dies = { s.dies with reads := s.dies.reads.filter (fun r => r.id ≠ id && r.parent ≠ some id) } := rfl
@[simp] theorem dropRd_rec_ (id : Nat) (s : State) : (dropRd id s).rec_ = s.rec_ := rfl
@[simp] theorem dropRd_health (id : Nat) (s : State) : (dropRd id s).health = s.health := rfl
@[simp] theorem dropRd_flt (id : Nat) (s : State) : (dropRd id s).flt = s.flt := rfl
@[simp] theorem dropRd_lops (id : Nat) (s : State) : (dropRd id s).lops = s.lops := rfl
@[simp] theorem dropRd_lig (id : Nat) (s : State) : (dropRd id s).lig = s.lig := rfl
@[simp] theorem dropRd_pwr (id : Nat) (s : State) : (dropRd id s).pwr = s.pwr := rfl
@[simp] theorem dropRd_dbg (id : Nat) (s : State) : (dropRd id s).dbg = s.dbg := rfl
@[simp] theorem dropRd_elog (id : Nat) (s : State) : (dropRd id s).elog = s.elog := rfl
@[simp] theorem dropRd_wall (id : Nat) (s : State) : (dropRd id s).wall = s.wall := rfl
@[simp] theorem dropRd_out (id : Nat) (s : State) : (dropRd id s).out = s.out := rfl
@[simp] theorem dropRd_drawn (id : Nat) (s : State) : (dropRd id s).drawn = s.drawn := rfl
@[simp] theorem dropRd_pending (id : Nat) (s : State) : (dropRd id s).pending = s.pending := rfl

/-! `countReadData` -/

@[simp] theorem countReadData_unit (s : State) : (countReadData s).unit = s.unit := rfl
@[simp] theorem countReadData_rst (s : State) : (countReadData s).rst = s.rst := rfl
@[simp] theorem countReadData_strap (s : State) : (countReadData s).strap = s.strap := rfl
@[simp] theorem countReadData_aon (s : State) : (countReadData s).aon = s.aon := rfl
@[simp] theorem countReadData_sup (s : State) : (countReadData s).sup = s.sup := rfl
@[simp] theorem countReadData_lands (s : State) : (countReadData s).lands = s.lands := rfl
@[simp] theorem countReadData_boot (s : State) : (countReadData s).boot = s.boot := rfl
@[simp] theorem countReadData_pcie (s : State) : (countReadData s).pcie = s.pcie := rfl
@[simp] theorem countReadData_nb (s : State) : (countReadData s).nb = s.nb := rfl
@[simp] theorem countReadData_nib (s : State) : (countReadData s).nib = s.nib := rfl
@[simp] theorem countReadData_res (s : State) : (countReadData s).res = s.res := rfl
@[simp] theorem countReadData_map (s : State) : (countReadData s).map = s.map := rfl
@[simp] theorem countReadData_log (s : State) : (countReadData s).log = s.log := rfl
@[simp] theorem countReadData_ftl (s : State) : (countReadData s).ftl = s.ftl := rfl
@[simp] theorem countReadData_dies (s : State) : (countReadData s).dies = s.dies := rfl
@[simp] theorem countReadData_rec_ (s : State) : (countReadData s).rec_ = s.rec_ := rfl
@[simp] theorem countReadData_health (s : State) : (countReadData s).health = s.health := rfl
@[simp] theorem countReadData_flt (s : State) : (countReadData s).flt = s.flt := rfl
@[simp] theorem countReadData_lops (s : State) : (countReadData s).lops = s.lops := rfl
@[simp] theorem countReadData_lig (s : State) : (countReadData s).lig = s.lig := rfl
theorem countReadData_pwr (s : State) : (countReadData s).pwr = { s.pwr with readBytes := s.readOver + 4096, readWindow := s.rst.timeMs / 10 } := rfl
@[simp] theorem countReadData_dbg (s : State) : (countReadData s).dbg = s.dbg := rfl
@[simp] theorem countReadData_elog (s : State) : (countReadData s).elog = s.elog := rfl
@[simp] theorem countReadData_wall (s : State) : (countReadData s).wall = s.wall := rfl
@[simp] theorem countReadData_out (s : State) : (countReadData s).out = s.out := rfl
@[simp] theorem countReadData_drawn (s : State) : (countReadData s).drawn = s.drawn := rfl
@[simp] theorem countReadData_pending (s : State) : (countReadData s).pending = s.pending := rfl

/-! `testFound` -/

@[simp] theorem testFound_unit (s : State) : (testFound s).unit = s.unit := rfl
@[simp] theorem testFound_rst (s : State) : (testFound s).rst = s.rst := rfl
@[simp] theorem testFound_strap (s : State) : (testFound s).strap = s.strap := rfl
@[simp] theorem testFound_aon (s : State) : (testFound s).aon = s.aon := rfl
@[simp] theorem testFound_sup (s : State) : (testFound s).sup = s.sup := rfl
@[simp] theorem testFound_lands (s : State) : (testFound s).lands = s.lands := rfl
@[simp] theorem testFound_boot (s : State) : (testFound s).boot = s.boot := rfl
@[simp] theorem testFound_pcie (s : State) : (testFound s).pcie = s.pcie := rfl
@[simp] theorem testFound_nb (s : State) : (testFound s).nb = s.nb := rfl
@[simp] theorem testFound_nib (s : State) : (testFound s).nib = s.nib := rfl
@[simp] theorem testFound_res (s : State) : (testFound s).res = s.res := rfl
@[simp] theorem testFound_map (s : State) : (testFound s).map = s.map := rfl
@[simp] theorem testFound_log (s : State) : (testFound s).log = s.log := rfl
@[simp] theorem testFound_ftl (s : State) : (testFound s).ftl = s.ftl := rfl
@[simp] theorem testFound_dies (s : State) : (testFound s).dies = s.dies := rfl
@[simp] theorem testFound_rec_ (s : State) : (testFound s).rec_ = s.rec_ := rfl
@[simp] theorem testFound_health (s : State) : (testFound s).health = s.health := rfl
@[simp] theorem testFound_flt (s : State) : (testFound s).flt = s.flt := rfl
theorem testFound_lops (s : State) : (testFound s).lops = { s.lops with list := mapIf (fun o => isSelfTest o.typ && o.state = 1) (fun o => { o with found := true }) s.lops.list } := rfl
@[simp] theorem testFound_lig (s : State) : (testFound s).lig = s.lig := rfl
@[simp] theorem testFound_pwr (s : State) : (testFound s).pwr = s.pwr := rfl
@[simp] theorem testFound_dbg (s : State) : (testFound s).dbg = s.dbg := rfl
@[simp] theorem testFound_elog (s : State) : (testFound s).elog = s.elog := rfl
@[simp] theorem testFound_wall (s : State) : (testFound s).wall = s.wall := rfl
@[simp] theorem testFound_out (s : State) : (testFound s).out = s.out := rfl
@[simp] theorem testFound_drawn (s : State) : (testFound s).drawn = s.drawn := rfl
@[simp] theorem testFound_pending (s : State) : (testFound s).pending = s.pending := rfl

/-! `addPage` -/

@[simp] theorem addPage_unit (p : LogPage) (s : State) : (addPage p s).unit = s.unit := rfl
@[simp] theorem addPage_rst (p : LogPage) (s : State) : (addPage p s).rst = s.rst := rfl
@[simp] theorem addPage_strap (p : LogPage) (s : State) : (addPage p s).strap = s.strap := rfl
@[simp] theorem addPage_aon (p : LogPage) (s : State) : (addPage p s).aon = s.aon := rfl
@[simp] theorem addPage_sup (p : LogPage) (s : State) : (addPage p s).sup = s.sup := rfl
@[simp] theorem addPage_lands (p : LogPage) (s : State) : (addPage p s).lands = s.lands := rfl
@[simp] theorem addPage_boot (p : LogPage) (s : State) : (addPage p s).boot = s.boot := rfl
@[simp] theorem addPage_pcie (p : LogPage) (s : State) : (addPage p s).pcie = s.pcie := rfl
@[simp] theorem addPage_nb (p : LogPage) (s : State) : (addPage p s).nb = s.nb := rfl
theorem addPage_nib (p : LogPage) (s : State) : (addPage p s).nib = { s.nib with ceiling := p.ceiling } := rfl
@[simp] theorem addPage_res (p : LogPage) (s : State) : (addPage p s).res = s.res := rfl
@[simp] theorem addPage_map (p : LogPage) (s : State) : (addPage p s).map = s.map := rfl
theorem addPage_log (p : LogPage) (s : State) : (addPage p s).log = { s.log with pages := s.log.pages ++ [p], nextPage := s.log.nextPage + 1 } := rfl
@[simp] theorem addPage_ftl (p : LogPage) (s : State) : (addPage p s).ftl = s.ftl := rfl
@[simp] theorem addPage_dies (p : LogPage) (s : State) : (addPage p s).dies = s.dies := rfl
@[simp] theorem addPage_rec_ (p : LogPage) (s : State) : (addPage p s).rec_ = s.rec_ := rfl
@[simp] theorem addPage_health (p : LogPage) (s : State) : (addPage p s).health = s.health := rfl
@[simp] theorem addPage_flt (p : LogPage) (s : State) : (addPage p s).flt = s.flt := rfl
@[simp] theorem addPage_lops (p : LogPage) (s : State) : (addPage p s).lops = s.lops := rfl
@[simp] theorem addPage_lig (p : LogPage) (s : State) : (addPage p s).lig = s.lig := rfl
@[simp] theorem addPage_pwr (p : LogPage) (s : State) : (addPage p s).pwr = s.pwr := rfl
@[simp] theorem addPage_dbg (p : LogPage) (s : State) : (addPage p s).dbg = s.dbg := rfl
@[simp] theorem addPage_elog (p : LogPage) (s : State) : (addPage p s).elog = s.elog := rfl
@[simp] theorem addPage_wall (p : LogPage) (s : State) : (addPage p s).wall = s.wall := rfl
@[simp] theorem addPage_out (p : LogPage) (s : State) : (addPage p s).out = s.out := rfl
@[simp] theorem addPage_drawn (p : LogPage) (s : State) : (addPage p s).drawn = s.drawn := rfl
@[simp] theorem addPage_pending (p : LogPage) (s : State) : (addPage p s).pending = s.pending := rfl

/-! `settleCovered` -/

@[simp] theorem settleCovered_unit (s : State) : (settleCovered s).unit = s.unit := rfl
@[simp] theorem settleCovered_rst (s : State) : (settleCovered s).rst = s.rst := rfl
@[simp] theorem settleCovered_strap (s : State) : (settleCovered s).strap = s.strap := rfl
@[simp] theorem settleCovered_aon (s : State) : (settleCovered s).aon = s.aon := rfl
@[simp] theorem settleCovered_sup (s : State) : (settleCovered s).sup = s.sup := rfl
@[simp] theorem settleCovered_lands (s : State) : (settleCovered s).lands = s.lands := rfl
@[simp] theorem settleCovered_boot (s : State) : (settleCovered s).boot = s.boot := rfl
@[simp] theorem settleCovered_pcie (s : State) : (settleCovered s).pcie = s.pcie := rfl
@[simp] theorem settleCovered_nb (s : State) : (settleCovered s).nb = s.nb := rfl
theorem settleCovered_nib (s : State) : (settleCovered s).nib = { s.nib with unsettled := s.nib.unsettled.filter (fun r => s.settled < r) } := rfl
@[simp] theorem settleCovered_res (s : State) : (settleCovered s).res = s.res := rfl
@[simp] theorem settleCovered_map (s : State) : (settleCovered s).map = s.map := rfl
@[simp] theorem settleCovered_log (s : State) : (settleCovered s).log = s.log := rfl
@[simp] theorem settleCovered_ftl (s : State) : (settleCovered s).ftl = s.ftl := rfl
@[simp] theorem settleCovered_dies (s : State) : (settleCovered s).dies = s.dies := rfl
@[simp] theorem settleCovered_rec_ (s : State) : (settleCovered s).rec_ = s.rec_ := rfl
@[simp] theorem settleCovered_health (s : State) : (settleCovered s).health = s.health := rfl
@[simp] theorem settleCovered_flt (s : State) : (settleCovered s).flt = s.flt := rfl
@[simp] theorem settleCovered_lops (s : State) : (settleCovered s).lops = s.lops := rfl
@[simp] theorem settleCovered_lig (s : State) : (settleCovered s).lig = s.lig := rfl
@[simp] theorem settleCovered_pwr (s : State) : (settleCovered s).pwr = s.pwr := rfl
@[simp] theorem settleCovered_dbg (s : State) : (settleCovered s).dbg = s.dbg := rfl
@[simp] theorem settleCovered_elog (s : State) : (settleCovered s).elog = s.elog := rfl
@[simp] theorem settleCovered_wall (s : State) : (settleCovered s).wall = s.wall := rfl
@[simp] theorem settleCovered_out (s : State) : (settleCovered s).out = s.out := rfl
@[simp] theorem settleCovered_drawn (s : State) : (settleCovered s).drawn = s.drawn := rfl
@[simp] theorem settleCovered_pending (s : State) : (settleCovered s).pending = s.pending := rfl

/-! `holdTests` -/

@[simp] theorem holdTests_unit (s : State) : (holdTests s).unit = s.unit := rfl
@[simp] theorem holdTests_rst (s : State) : (holdTests s).rst = s.rst := rfl
@[simp] theorem holdTests_strap (s : State) : (holdTests s).strap = s.strap := rfl
@[simp] theorem holdTests_aon (s : State) : (holdTests s).aon = s.aon := rfl
@[simp] theorem holdTests_sup (s : State) : (holdTests s).sup = s.sup := rfl
@[simp] theorem holdTests_lands (s : State) : (holdTests s).lands = s.lands := rfl
@[simp] theorem holdTests_boot (s : State) : (holdTests s).boot = s.boot := rfl
@[simp] theorem holdTests_pcie (s : State) : (holdTests s).pcie = s.pcie := rfl
@[simp] theorem holdTests_nb (s : State) : (holdTests s).nb = s.nb := rfl
@[simp] theorem holdTests_nib (s : State) : (holdTests s).nib = s.nib := rfl
@[simp] theorem holdTests_res (s : State) : (holdTests s).res = s.res := rfl
@[simp] theorem holdTests_map (s : State) : (holdTests s).map = s.map := rfl
@[simp] theorem holdTests_log (s : State) : (holdTests s).log = s.log := rfl
@[simp] theorem holdTests_ftl (s : State) : (holdTests s).ftl = s.ftl := rfl
theorem holdTests_dies (s : State) : (holdTests s).dies = { s.dies with queue := s.dies.queue.filter (fun o => !s.isTest o.kind) } := rfl
@[simp] theorem holdTests_rec_ (s : State) : (holdTests s).rec_ = s.rec_ := rfl
@[simp] theorem holdTests_health (s : State) : (holdTests s).health = s.health := rfl
@[simp] theorem holdTests_flt (s : State) : (holdTests s).flt = s.flt := rfl
@[simp] theorem holdTests_lops (s : State) : (holdTests s).lops = s.lops := rfl
@[simp] theorem holdTests_lig (s : State) : (holdTests s).lig = s.lig := rfl
@[simp] theorem holdTests_pwr (s : State) : (holdTests s).pwr = s.pwr := rfl
@[simp] theorem holdTests_dbg (s : State) : (holdTests s).dbg = s.dbg := rfl
@[simp] theorem holdTests_elog (s : State) : (holdTests s).elog = s.elog := rfl
@[simp] theorem holdTests_wall (s : State) : (holdTests s).wall = s.wall := rfl
@[simp] theorem holdTests_out (s : State) : (holdTests s).out = s.out := rfl
@[simp] theorem holdTests_drawn (s : State) : (holdTests s).drawn = s.drawn := rfl
@[simp] theorem holdTests_pending (s : State) : (holdTests s).pending = s.pending := rfl

/-! `sendFrame` -/

@[simp] theorem sendFrame_unit (typ value : Nat) (s : State) : (sendFrame typ value s).unit = s.unit := rfl
@[simp] theorem sendFrame_rst (typ value : Nat) (s : State) : (sendFrame typ value s).rst = s.rst := rfl
@[simp] theorem sendFrame_strap (typ value : Nat) (s : State) : (sendFrame typ value s).strap = s.strap := rfl
@[simp] theorem sendFrame_aon (typ value : Nat) (s : State) : (sendFrame typ value s).aon = s.aon := rfl
@[simp] theorem sendFrame_sup (typ value : Nat) (s : State) : (sendFrame typ value s).sup = s.sup := rfl
@[simp] theorem sendFrame_lands (typ value : Nat) (s : State) : (sendFrame typ value s).lands = s.lands := rfl
@[simp] theorem sendFrame_boot (typ value : Nat) (s : State) : (sendFrame typ value s).boot = s.boot := rfl
@[simp] theorem sendFrame_pcie (typ value : Nat) (s : State) : (sendFrame typ value s).pcie = s.pcie := rfl
@[simp] theorem sendFrame_nb (typ value : Nat) (s : State) : (sendFrame typ value s).nb = s.nb := rfl
@[simp] theorem sendFrame_nib (typ value : Nat) (s : State) : (sendFrame typ value s).nib = s.nib := rfl
@[simp] theorem sendFrame_res (typ value : Nat) (s : State) : (sendFrame typ value s).res = s.res := rfl
@[simp] theorem sendFrame_map (typ value : Nat) (s : State) : (sendFrame typ value s).map = s.map := rfl
@[simp] theorem sendFrame_log (typ value : Nat) (s : State) : (sendFrame typ value s).log = s.log := rfl
@[simp] theorem sendFrame_ftl (typ value : Nat) (s : State) : (sendFrame typ value s).ftl = s.ftl := rfl
@[simp] theorem sendFrame_dies (typ value : Nat) (s : State) : (sendFrame typ value s).dies = s.dies := rfl
@[simp] theorem sendFrame_rec_ (typ value : Nat) (s : State) : (sendFrame typ value s).rec_ = s.rec_ := rfl
@[simp] theorem sendFrame_health (typ value : Nat) (s : State) : (sendFrame typ value s).health = s.health := rfl
@[simp] theorem sendFrame_flt (typ value : Nat) (s : State) : (sendFrame typ value s).flt = s.flt := rfl
@[simp] theorem sendFrame_lops (typ value : Nat) (s : State) : (sendFrame typ value s).lops = s.lops := rfl
theorem sendFrame_lig (typ value : Nat) (s : State) : (sendFrame typ value s).lig = { s.lig with sendQ := s.lig.sendQ ++ [{ source := s.own, typ := typ, value := BitVec.ofNat 29 value }] } := rfl
@[simp] theorem sendFrame_pwr (typ value : Nat) (s : State) : (sendFrame typ value s).pwr = s.pwr := rfl
@[simp] theorem sendFrame_dbg (typ value : Nat) (s : State) : (sendFrame typ value s).dbg = s.dbg := rfl
@[simp] theorem sendFrame_elog (typ value : Nat) (s : State) : (sendFrame typ value s).elog = s.elog := rfl
@[simp] theorem sendFrame_wall (typ value : Nat) (s : State) : (sendFrame typ value s).wall = s.wall := rfl
@[simp] theorem sendFrame_out (typ value : Nat) (s : State) : (sendFrame typ value s).out = s.out := rfl
@[simp] theorem sendFrame_drawn (typ value : Nat) (s : State) : (sendFrame typ value s).drawn = s.drawn := rfl
@[simp] theorem sendFrame_pending (typ value : Nat) (s : State) : (sendFrame typ value s).pending = s.pending := rfl

/-! `modEpoch` -/

@[simp] theorem modEpoch_unit (n : Nat) (f : Epoch → Epoch) (s : State) : (modEpoch n f s).unit = s.unit := rfl
@[simp] theorem modEpoch_rst (n : Nat) (f : Epoch → Epoch) (s : State) : (modEpoch n f s).rst = s.rst := rfl
@[simp] theorem modEpoch_strap (n : Nat) (f : Epoch → Epoch) (s : State) : (modEpoch n f s).strap = s.strap := rfl
@[simp] theorem modEpoch_aon (n : Nat) (f : Epoch → Epoch) (s : State) : (modEpoch n f s).aon = s.aon := rfl
@[simp] theorem modEpoch_sup (n : Nat) (f : Epoch → Epoch) (s : State) : (modEpoch n f s).sup = s.sup := rfl
@[simp] theorem modEpoch_lands (n : Nat) (f : Epoch → Epoch) (s : State) : (modEpoch n f s).lands = s.lands := rfl
@[simp] theorem modEpoch_boot (n : Nat) (f : Epoch → Epoch) (s : State) : (modEpoch n f s).boot = s.boot := rfl
@[simp] theorem modEpoch_pcie (n : Nat) (f : Epoch → Epoch) (s : State) : (modEpoch n f s).pcie = s.pcie := rfl
@[simp] theorem modEpoch_nb (n : Nat) (f : Epoch → Epoch) (s : State) : (modEpoch n f s).nb = s.nb := rfl
@[simp] theorem modEpoch_nib (n : Nat) (f : Epoch → Epoch) (s : State) : (modEpoch n f s).nib = s.nib := rfl
@[simp] theorem modEpoch_res (n : Nat) (f : Epoch → Epoch) (s : State) : (modEpoch n f s).res = s.res := rfl
@[simp] theorem modEpoch_map (n : Nat) (f : Epoch → Epoch) (s : State) : (modEpoch n f s).map = s.map := rfl
@[simp] theorem modEpoch_log (n : Nat) (f : Epoch → Epoch) (s : State) : (modEpoch n f s).log = s.log := rfl
@[simp] theorem modEpoch_ftl (n : Nat) (f : Epoch → Epoch) (s : State) : (modEpoch n f s).ftl = s.ftl := rfl
@[simp] theorem modEpoch_dies (n : Nat) (f : Epoch → Epoch) (s : State) : (modEpoch n f s).dies = s.dies := rfl
theorem modEpoch_rec_ (n : Nat) (f : Epoch → Epoch) (s : State) : (modEpoch n f s).rec_ = { s.rec_ with epochs := mapIf (fun e => e.n = n && !e.closed) f s.rec_.epochs } := rfl
@[simp] theorem modEpoch_health (n : Nat) (f : Epoch → Epoch) (s : State) : (modEpoch n f s).health = s.health := rfl
@[simp] theorem modEpoch_flt (n : Nat) (f : Epoch → Epoch) (s : State) : (modEpoch n f s).flt = s.flt := rfl
@[simp] theorem modEpoch_lops (n : Nat) (f : Epoch → Epoch) (s : State) : (modEpoch n f s).lops = s.lops := rfl
@[simp] theorem modEpoch_lig (n : Nat) (f : Epoch → Epoch) (s : State) : (modEpoch n f s).lig = s.lig := rfl
@[simp] theorem modEpoch_pwr (n : Nat) (f : Epoch → Epoch) (s : State) : (modEpoch n f s).pwr = s.pwr := rfl
@[simp] theorem modEpoch_dbg (n : Nat) (f : Epoch → Epoch) (s : State) : (modEpoch n f s).dbg = s.dbg := rfl
@[simp] theorem modEpoch_elog (n : Nat) (f : Epoch → Epoch) (s : State) : (modEpoch n f s).elog = s.elog := rfl
@[simp] theorem modEpoch_wall (n : Nat) (f : Epoch → Epoch) (s : State) : (modEpoch n f s).wall = s.wall := rfl
@[simp] theorem modEpoch_out (n : Nat) (f : Epoch → Epoch) (s : State) : (modEpoch n f s).out = s.out := rfl
@[simp] theorem modEpoch_drawn (n : Nat) (f : Epoch → Epoch) (s : State) : (modEpoch n f s).drawn = s.drawn := rfl
@[simp] theorem modEpoch_pending (n : Nat) (f : Epoch → Epoch) (s : State) : (modEpoch n f s).pending = s.pending := rfl

/-! `flagEpoch` -/

@[simp] theorem flagEpoch_unit (n : Nat) (f : Epoch → Epoch) (s : State) : (flagEpoch n f s).unit = s.unit := rfl
@[simp] theorem flagEpoch_rst (n : Nat) (f : Epoch → Epoch) (s : State) : (flagEpoch n f s).rst = s.rst := rfl
@[simp] theorem flagEpoch_strap (n : Nat) (f : Epoch → Epoch) (s : State) : (flagEpoch n f s).strap = s.strap := rfl
@[simp] theorem flagEpoch_aon (n : Nat) (f : Epoch → Epoch) (s : State) : (flagEpoch n f s).aon = s.aon := rfl
@[simp] theorem flagEpoch_sup (n : Nat) (f : Epoch → Epoch) (s : State) : (flagEpoch n f s).sup = s.sup := rfl
@[simp] theorem flagEpoch_lands (n : Nat) (f : Epoch → Epoch) (s : State) : (flagEpoch n f s).lands = s.lands := rfl
@[simp] theorem flagEpoch_boot (n : Nat) (f : Epoch → Epoch) (s : State) : (flagEpoch n f s).boot = s.boot := rfl
@[simp] theorem flagEpoch_pcie (n : Nat) (f : Epoch → Epoch) (s : State) : (flagEpoch n f s).pcie = s.pcie := rfl
@[simp] theorem flagEpoch_nb (n : Nat) (f : Epoch → Epoch) (s : State) : (flagEpoch n f s).nb = s.nb := rfl
@[simp] theorem flagEpoch_nib (n : Nat) (f : Epoch → Epoch) (s : State) : (flagEpoch n f s).nib = s.nib := rfl
@[simp] theorem flagEpoch_res (n : Nat) (f : Epoch → Epoch) (s : State) : (flagEpoch n f s).res = s.res := rfl
@[simp] theorem flagEpoch_map (n : Nat) (f : Epoch → Epoch) (s : State) : (flagEpoch n f s).map = s.map := rfl
@[simp] theorem flagEpoch_log (n : Nat) (f : Epoch → Epoch) (s : State) : (flagEpoch n f s).log = s.log := rfl
@[simp] theorem flagEpoch_ftl (n : Nat) (f : Epoch → Epoch) (s : State) : (flagEpoch n f s).ftl = s.ftl := rfl
@[simp] theorem flagEpoch_dies (n : Nat) (f : Epoch → Epoch) (s : State) : (flagEpoch n f s).dies = s.dies := rfl
theorem flagEpoch_rec_ (n : Nat) (f : Epoch → Epoch) (s : State) : (flagEpoch n f s).rec_ = { s.rec_ with epochs := mapIf (fun e => e.n = n) f s.rec_.epochs } := rfl
@[simp] theorem flagEpoch_health (n : Nat) (f : Epoch → Epoch) (s : State) : (flagEpoch n f s).health = s.health := rfl
@[simp] theorem flagEpoch_flt (n : Nat) (f : Epoch → Epoch) (s : State) : (flagEpoch n f s).flt = s.flt := rfl
@[simp] theorem flagEpoch_lops (n : Nat) (f : Epoch → Epoch) (s : State) : (flagEpoch n f s).lops = s.lops := rfl
@[simp] theorem flagEpoch_lig (n : Nat) (f : Epoch → Epoch) (s : State) : (flagEpoch n f s).lig = s.lig := rfl
@[simp] theorem flagEpoch_pwr (n : Nat) (f : Epoch → Epoch) (s : State) : (flagEpoch n f s).pwr = s.pwr := rfl
@[simp] theorem flagEpoch_dbg (n : Nat) (f : Epoch → Epoch) (s : State) : (flagEpoch n f s).dbg = s.dbg := rfl
@[simp] theorem flagEpoch_elog (n : Nat) (f : Epoch → Epoch) (s : State) : (flagEpoch n f s).elog = s.elog := rfl
@[simp] theorem flagEpoch_wall (n : Nat) (f : Epoch → Epoch) (s : State) : (flagEpoch n f s).wall = s.wall := rfl
@[simp] theorem flagEpoch_out (n : Nat) (f : Epoch → Epoch) (s : State) : (flagEpoch n f s).out = s.out := rfl
@[simp] theorem flagEpoch_drawn (n : Nat) (f : Epoch → Epoch) (s : State) : (flagEpoch n f s).drawn = s.drawn := rfl
@[simp] theorem flagEpoch_pending (n : Nat) (f : Epoch → Epoch) (s : State) : (flagEpoch n f s).pending = s.pending := rfl

/-! `closePrepare` -/

@[simp] theorem closePrepare_unit (s : State) : (closePrepare s).unit = s.unit := rfl
@[simp] theorem closePrepare_rst (s : State) : (closePrepare s).rst = s.rst := rfl
@[simp] theorem closePrepare_strap (s : State) : (closePrepare s).strap = s.strap := rfl
@[simp] theorem closePrepare_aon (s : State) : (closePrepare s).aon = s.aon := rfl
@[simp] theorem closePrepare_sup (s : State) : (closePrepare s).sup = s.sup := rfl
@[simp] theorem closePrepare_lands (s : State) : (closePrepare s).lands = s.lands := rfl
@[simp] theorem closePrepare_boot (s : State) : (closePrepare s).boot = s.boot := rfl
@[simp] theorem closePrepare_pcie (s : State) : (closePrepare s).pcie = s.pcie := rfl
@[simp] theorem closePrepare_nb (s : State) : (closePrepare s).nb = s.nb := rfl
@[simp] theorem closePrepare_nib (s : State) : (closePrepare s).nib = s.nib := rfl
@[simp] theorem closePrepare_res (s : State) : (closePrepare s).res = s.res := rfl
@[simp] theorem closePrepare_map (s : State) : (closePrepare s).map = s.map := rfl
@[simp] theorem closePrepare_log (s : State) : (closePrepare s).log = s.log := rfl
@[simp] theorem closePrepare_ftl (s : State) : (closePrepare s).ftl = s.ftl := rfl
@[simp] theorem closePrepare_dies (s : State) : (closePrepare s).dies = s.dies := rfl
@[simp] theorem closePrepare_rec_ (s : State) : (closePrepare s).rec_ = s.rec_ := rfl
@[simp] theorem closePrepare_health (s : State) : (closePrepare s).health = s.health := rfl
@[simp] theorem closePrepare_flt (s : State) : (closePrepare s).flt = s.flt := rfl
@[simp] theorem closePrepare_lops (s : State) : (closePrepare s).lops = s.lops := rfl
theorem closePrepare_lig (s : State) : (closePrepare s).lig = { s.lig with open_ := none, leaderAsked := false, sawCommitted := false } := rfl
@[simp] theorem closePrepare_pwr (s : State) : (closePrepare s).pwr = s.pwr := rfl
@[simp] theorem closePrepare_dbg (s : State) : (closePrepare s).dbg = s.dbg := rfl
@[simp] theorem closePrepare_elog (s : State) : (closePrepare s).elog = s.elog := rfl
@[simp] theorem closePrepare_wall (s : State) : (closePrepare s).wall = s.wall := rfl
@[simp] theorem closePrepare_out (s : State) : (closePrepare s).out = s.out := rfl
@[simp] theorem closePrepare_drawn (s : State) : (closePrepare s).drawn = s.drawn := rfl
@[simp] theorem closePrepare_pending (s : State) : (closePrepare s).pending = s.pending := rfl

/-! `clearEvents` -/

@[simp] theorem clearEvents_unit (s : State) : (clearEvents s).unit = s.unit := rfl
@[simp] theorem clearEvents_rst (s : State) : (clearEvents s).rst = s.rst := rfl
@[simp] theorem clearEvents_strap (s : State) : (clearEvents s).strap = s.strap := rfl
@[simp] theorem clearEvents_aon (s : State) : (clearEvents s).aon = s.aon := rfl
@[simp] theorem clearEvents_sup (s : State) : (clearEvents s).sup = s.sup := rfl
@[simp] theorem clearEvents_lands (s : State) : (clearEvents s).lands = s.lands := rfl
@[simp] theorem clearEvents_boot (s : State) : (clearEvents s).boot = s.boot := rfl
@[simp] theorem clearEvents_pcie (s : State) : (clearEvents s).pcie = s.pcie := rfl
@[simp] theorem clearEvents_nb (s : State) : (clearEvents s).nb = s.nb := rfl
@[simp] theorem clearEvents_nib (s : State) : (clearEvents s).nib = s.nib := rfl
@[simp] theorem clearEvents_res (s : State) : (clearEvents s).res = s.res := rfl
@[simp] theorem clearEvents_map (s : State) : (clearEvents s).map = s.map := rfl
@[simp] theorem clearEvents_log (s : State) : (clearEvents s).log = s.log := rfl
@[simp] theorem clearEvents_ftl (s : State) : (clearEvents s).ftl = s.ftl := rfl
@[simp] theorem clearEvents_dies (s : State) : (clearEvents s).dies = s.dies := rfl
@[simp] theorem clearEvents_rec_ (s : State) : (clearEvents s).rec_ = s.rec_ := rfl
@[simp] theorem clearEvents_health (s : State) : (clearEvents s).health = s.health := rfl
theorem clearEvents_flt (s : State) : (clearEvents s).flt = { s.flt with events := s.flt.events.map (fun e => { e with pending := false, count := 0 }) } := rfl
@[simp] theorem clearEvents_lops (s : State) : (clearEvents s).lops = s.lops := rfl
@[simp] theorem clearEvents_lig (s : State) : (clearEvents s).lig = s.lig := rfl
@[simp] theorem clearEvents_pwr (s : State) : (clearEvents s).pwr = s.pwr := rfl
@[simp] theorem clearEvents_dbg (s : State) : (clearEvents s).dbg = s.dbg := rfl
@[simp] theorem clearEvents_elog (s : State) : (clearEvents s).elog = s.elog := rfl
@[simp] theorem clearEvents_wall (s : State) : (clearEvents s).wall = s.wall := rfl
@[simp] theorem clearEvents_out (s : State) : (clearEvents s).out = s.out := rfl
@[simp] theorem clearEvents_drawn (s : State) : (clearEvents s).drawn = s.drawn := rfl
@[simp] theorem clearEvents_pending (s : State) : (clearEvents s).pending = s.pending := rfl

/-! `stall` -/

@[simp] theorem stall_unit (f : Fetched) (s : State) : (stall f s).unit = s.unit := rfl
@[simp] theorem stall_rst (f : Fetched) (s : State) : (stall f s).rst = s.rst := rfl
@[simp] theorem stall_strap (f : Fetched) (s : State) : (stall f s).strap = s.strap := rfl
@[simp] theorem stall_aon (f : Fetched) (s : State) : (stall f s).aon = s.aon := rfl
@[simp] theorem stall_sup (f : Fetched) (s : State) : (stall f s).sup = s.sup := rfl
@[simp] theorem stall_lands (f : Fetched) (s : State) : (stall f s).lands = s.lands := rfl
@[simp] theorem stall_boot (f : Fetched) (s : State) : (stall f s).boot = s.boot := rfl
@[simp] theorem stall_pcie (f : Fetched) (s : State) : (stall f s).pcie = s.pcie := rfl
@[simp] theorem stall_nb (f : Fetched) (s : State) : (stall f s).nb = s.nb := rfl
theorem stall_nib (f : Fetched) (s : State) : (stall f s).nib = { s.nib with fetched := mapIf (fun x => x = f) (fun x => { x with stalled := true }) s.nib.fetched } := rfl
@[simp] theorem stall_res (f : Fetched) (s : State) : (stall f s).res = s.res := rfl
@[simp] theorem stall_map (f : Fetched) (s : State) : (stall f s).map = s.map := rfl
@[simp] theorem stall_log (f : Fetched) (s : State) : (stall f s).log = s.log := rfl
@[simp] theorem stall_ftl (f : Fetched) (s : State) : (stall f s).ftl = s.ftl := rfl
@[simp] theorem stall_dies (f : Fetched) (s : State) : (stall f s).dies = s.dies := rfl
@[simp] theorem stall_rec_ (f : Fetched) (s : State) : (stall f s).rec_ = s.rec_ := rfl
@[simp] theorem stall_health (f : Fetched) (s : State) : (stall f s).health = s.health := rfl
@[simp] theorem stall_flt (f : Fetched) (s : State) : (stall f s).flt = s.flt := rfl
@[simp] theorem stall_lops (f : Fetched) (s : State) : (stall f s).lops = s.lops := rfl
@[simp] theorem stall_lig (f : Fetched) (s : State) : (stall f s).lig = s.lig := rfl
@[simp] theorem stall_pwr (f : Fetched) (s : State) : (stall f s).pwr = s.pwr := rfl
@[simp] theorem stall_dbg (f : Fetched) (s : State) : (stall f s).dbg = s.dbg := rfl
@[simp] theorem stall_elog (f : Fetched) (s : State) : (stall f s).elog = s.elog := rfl
@[simp] theorem stall_wall (f : Fetched) (s : State) : (stall f s).wall = s.wall := rfl
@[simp] theorem stall_out (f : Fetched) (s : State) : (stall f s).out = s.out := rfl
@[simp] theorem stall_drawn (f : Fetched) (s : State) : (stall f s).drawn = s.drawn := rfl
@[simp] theorem stall_pending (f : Fetched) (s : State) : (stall f s).pending = s.pending := rfl

/-! `setIsland` -/

@[simp] theorem setIsland_unit (i : Island) (st : IslState) (s : State) : (setIsland i st s).unit = s.unit := rfl
theorem setIsland_rst (i : Island) (st : IslState) (s : State) : (setIsland i st s).rst = { s.rst with islands := mapIf (fun x => x.1 = i) (fun x => (x.1, st)) s.rst.islands } := rfl
@[simp] theorem setIsland_strap (i : Island) (st : IslState) (s : State) : (setIsland i st s).strap = s.strap := rfl
@[simp] theorem setIsland_aon (i : Island) (st : IslState) (s : State) : (setIsland i st s).aon = s.aon := rfl
@[simp] theorem setIsland_sup (i : Island) (st : IslState) (s : State) : (setIsland i st s).sup = s.sup := rfl
@[simp] theorem setIsland_lands (i : Island) (st : IslState) (s : State) : (setIsland i st s).lands = s.lands := rfl
@[simp] theorem setIsland_boot (i : Island) (st : IslState) (s : State) : (setIsland i st s).boot = s.boot := rfl
@[simp] theorem setIsland_pcie (i : Island) (st : IslState) (s : State) : (setIsland i st s).pcie = s.pcie := rfl
@[simp] theorem setIsland_nb (i : Island) (st : IslState) (s : State) : (setIsland i st s).nb = s.nb := rfl
@[simp] theorem setIsland_nib (i : Island) (st : IslState) (s : State) : (setIsland i st s).nib = s.nib := rfl
@[simp] theorem setIsland_res (i : Island) (st : IslState) (s : State) : (setIsland i st s).res = s.res := rfl
@[simp] theorem setIsland_map (i : Island) (st : IslState) (s : State) : (setIsland i st s).map = s.map := rfl
@[simp] theorem setIsland_log (i : Island) (st : IslState) (s : State) : (setIsland i st s).log = s.log := rfl
@[simp] theorem setIsland_ftl (i : Island) (st : IslState) (s : State) : (setIsland i st s).ftl = s.ftl := rfl
@[simp] theorem setIsland_dies (i : Island) (st : IslState) (s : State) : (setIsland i st s).dies = s.dies := rfl
@[simp] theorem setIsland_rec_ (i : Island) (st : IslState) (s : State) : (setIsland i st s).rec_ = s.rec_ := rfl
@[simp] theorem setIsland_health (i : Island) (st : IslState) (s : State) : (setIsland i st s).health = s.health := rfl
@[simp] theorem setIsland_flt (i : Island) (st : IslState) (s : State) : (setIsland i st s).flt = s.flt := rfl
@[simp] theorem setIsland_lops (i : Island) (st : IslState) (s : State) : (setIsland i st s).lops = s.lops := rfl
@[simp] theorem setIsland_lig (i : Island) (st : IslState) (s : State) : (setIsland i st s).lig = s.lig := rfl
@[simp] theorem setIsland_pwr (i : Island) (st : IslState) (s : State) : (setIsland i st s).pwr = s.pwr := rfl
@[simp] theorem setIsland_dbg (i : Island) (st : IslState) (s : State) : (setIsland i st s).dbg = s.dbg := rfl
@[simp] theorem setIsland_elog (i : Island) (st : IslState) (s : State) : (setIsland i st s).elog = s.elog := rfl
@[simp] theorem setIsland_wall (i : Island) (st : IslState) (s : State) : (setIsland i st s).wall = s.wall := rfl
@[simp] theorem setIsland_out (i : Island) (st : IslState) (s : State) : (setIsland i st s).out = s.out := rfl
@[simp] theorem setIsland_drawn (i : Island) (st : IslState) (s : State) : (setIsland i st s).drawn = s.drawn := rfl
@[simp] theorem setIsland_pending (i : Island) (st : IslState) (s : State) : (setIsland i st s).pending = s.pending := rfl

/-! `journalEpochs` -/

@[simp] theorem journalEpochs_unit (s : State) : (journalEpochs s).unit = s.unit := rfl
@[simp] theorem journalEpochs_rst (s : State) : (journalEpochs s).rst = s.rst := rfl
@[simp] theorem journalEpochs_strap (s : State) : (journalEpochs s).strap = s.strap := rfl
@[simp] theorem journalEpochs_aon (s : State) : (journalEpochs s).aon = s.aon := rfl
@[simp] theorem journalEpochs_sup (s : State) : (journalEpochs s).sup = s.sup := rfl
@[simp] theorem journalEpochs_lands (s : State) : (journalEpochs s).lands = s.lands := rfl
@[simp] theorem journalEpochs_boot (s : State) : (journalEpochs s).boot = s.boot := rfl
@[simp] theorem journalEpochs_pcie (s : State) : (journalEpochs s).pcie = s.pcie := rfl
@[simp] theorem journalEpochs_nb (s : State) : (journalEpochs s).nb = s.nb := rfl
@[simp] theorem journalEpochs_nib (s : State) : (journalEpochs s).nib = s.nib := rfl
@[simp] theorem journalEpochs_res (s : State) : (journalEpochs s).res = s.res := rfl
@[simp] theorem journalEpochs_map (s : State) : (journalEpochs s).map = s.map := rfl
@[simp] theorem journalEpochs_log (s : State) : (journalEpochs s).log = s.log := rfl
@[simp] theorem journalEpochs_ftl (s : State) : (journalEpochs s).ftl = s.ftl := rfl
@[simp] theorem journalEpochs_dies (s : State) : (journalEpochs s).dies = s.dies := rfl
theorem journalEpochs_rec_ (s : State) : (journalEpochs s).rec_ = { s.rec_ with epochs := s.rec_.epochs.map (recoverEpoch (s.recovered_ none).1) } := rfl
@[simp] theorem journalEpochs_health (s : State) : (journalEpochs s).health = s.health := rfl
@[simp] theorem journalEpochs_flt (s : State) : (journalEpochs s).flt = s.flt := rfl
@[simp] theorem journalEpochs_lops (s : State) : (journalEpochs s).lops = s.lops := rfl
@[simp] theorem journalEpochs_lig (s : State) : (journalEpochs s).lig = s.lig := rfl
@[simp] theorem journalEpochs_pwr (s : State) : (journalEpochs s).pwr = s.pwr := rfl
@[simp] theorem journalEpochs_dbg (s : State) : (journalEpochs s).dbg = s.dbg := rfl
@[simp] theorem journalEpochs_elog (s : State) : (journalEpochs s).elog = s.elog := rfl
@[simp] theorem journalEpochs_wall (s : State) : (journalEpochs s).wall = s.wall := rfl
@[simp] theorem journalEpochs_out (s : State) : (journalEpochs s).out = s.out := rfl
@[simp] theorem journalEpochs_drawn (s : State) : (journalEpochs s).drawn = s.drawn := rfl
@[simp] theorem journalEpochs_pending (s : State) : (journalEpochs s).pending = s.pending := rfl

/-! `setStatus` -/

@[simp] theorem setStatus_unit (bits : BitVec 16) (s : State) : (setStatus bits s).unit = s.unit := rfl
@[simp] theorem setStatus_rst (bits : BitVec 16) (s : State) : (setStatus bits s).rst = s.rst := rfl
@[simp] theorem setStatus_strap (bits : BitVec 16) (s : State) : (setStatus bits s).strap = s.strap := rfl
@[simp] theorem setStatus_aon (bits : BitVec 16) (s : State) : (setStatus bits s).aon = s.aon := rfl
@[simp] theorem setStatus_sup (bits : BitVec 16) (s : State) : (setStatus bits s).sup = s.sup := rfl
@[simp] theorem setStatus_lands (bits : BitVec 16) (s : State) : (setStatus bits s).lands = s.lands := rfl
@[simp] theorem setStatus_boot (bits : BitVec 16) (s : State) : (setStatus bits s).boot = s.boot := rfl
theorem setStatus_pcie (bits : BitVec 16) (s : State) : (setStatus bits s).pcie = { s.pcie with status := s.pcie.status ||| bits } := rfl
@[simp] theorem setStatus_nb (bits : BitVec 16) (s : State) : (setStatus bits s).nb = s.nb := rfl
@[simp] theorem setStatus_nib (bits : BitVec 16) (s : State) : (setStatus bits s).nib = s.nib := rfl
@[simp] theorem setStatus_res (bits : BitVec 16) (s : State) : (setStatus bits s).res = s.res := rfl
@[simp] theorem setStatus_map (bits : BitVec 16) (s : State) : (setStatus bits s).map = s.map := rfl
@[simp] theorem setStatus_log (bits : BitVec 16) (s : State) : (setStatus bits s).log = s.log := rfl
@[simp] theorem setStatus_ftl (bits : BitVec 16) (s : State) : (setStatus bits s).ftl = s.ftl := rfl
@[simp] theorem setStatus_dies (bits : BitVec 16) (s : State) : (setStatus bits s).dies = s.dies := rfl
@[simp] theorem setStatus_rec_ (bits : BitVec 16) (s : State) : (setStatus bits s).rec_ = s.rec_ := rfl
@[simp] theorem setStatus_health (bits : BitVec 16) (s : State) : (setStatus bits s).health = s.health := rfl
@[simp] theorem setStatus_flt (bits : BitVec 16) (s : State) : (setStatus bits s).flt = s.flt := rfl
@[simp] theorem setStatus_lops (bits : BitVec 16) (s : State) : (setStatus bits s).lops = s.lops := rfl
@[simp] theorem setStatus_lig (bits : BitVec 16) (s : State) : (setStatus bits s).lig = s.lig := rfl
@[simp] theorem setStatus_pwr (bits : BitVec 16) (s : State) : (setStatus bits s).pwr = s.pwr := rfl
@[simp] theorem setStatus_dbg (bits : BitVec 16) (s : State) : (setStatus bits s).dbg = s.dbg := rfl
@[simp] theorem setStatus_elog (bits : BitVec 16) (s : State) : (setStatus bits s).elog = s.elog := rfl
@[simp] theorem setStatus_wall (bits : BitVec 16) (s : State) : (setStatus bits s).wall = s.wall := rfl
@[simp] theorem setStatus_out (bits : BitVec 16) (s : State) : (setStatus bits s).out = s.out := rfl
@[simp] theorem setStatus_drawn (bits : BitVec 16) (s : State) : (setStatus bits s).drawn = s.drawn := rfl
@[simp] theorem setStatus_pending (bits : BitVec 16) (s : State) : (setStatus bits s).pending = s.pending := rfl

/-! `countRetry` -/

@[simp] theorem countRetry_unit (f : Fetched) (s : State) : (countRetry f s).unit = s.unit := rfl
@[simp] theorem countRetry_rst (f : Fetched) (s : State) : (countRetry f s).rst = s.rst := rfl
@[simp] theorem countRetry_strap (f : Fetched) (s : State) : (countRetry f s).strap = s.strap := rfl
@[simp] theorem countRetry_aon (f : Fetched) (s : State) : (countRetry f s).aon = s.aon := rfl
@[simp] theorem countRetry_sup (f : Fetched) (s : State) : (countRetry f s).sup = s.sup := rfl
@[simp] theorem countRetry_lands (f : Fetched) (s : State) : (countRetry f s).lands = s.lands := rfl
@[simp] theorem countRetry_boot (f : Fetched) (s : State) : (countRetry f s).boot = s.boot := rfl
@[simp] theorem countRetry_pcie (f : Fetched) (s : State) : (countRetry f s).pcie = s.pcie := rfl
@[simp] theorem countRetry_nb (f : Fetched) (s : State) : (countRetry f s).nb = s.nb := rfl
theorem countRetry_nib (f : Fetched) (s : State) : (countRetry f s).nib = { s.nib with fetched := mapIf (fun x => x = f) (fun x => { x with retries := x.retries + 1 }) s.nib.fetched } := rfl
@[simp] theorem countRetry_res (f : Fetched) (s : State) : (countRetry f s).res = s.res := rfl
@[simp] theorem countRetry_map (f : Fetched) (s : State) : (countRetry f s).map = s.map := rfl
@[simp] theorem countRetry_log (f : Fetched) (s : State) : (countRetry f s).log = s.log := rfl
@[simp] theorem countRetry_ftl (f : Fetched) (s : State) : (countRetry f s).ftl = s.ftl := rfl
@[simp] theorem countRetry_dies (f : Fetched) (s : State) : (countRetry f s).dies = s.dies := rfl
@[simp] theorem countRetry_rec_ (f : Fetched) (s : State) : (countRetry f s).rec_ = s.rec_ := rfl
@[simp] theorem countRetry_health (f : Fetched) (s : State) : (countRetry f s).health = s.health := rfl
@[simp] theorem countRetry_flt (f : Fetched) (s : State) : (countRetry f s).flt = s.flt := rfl
@[simp] theorem countRetry_lops (f : Fetched) (s : State) : (countRetry f s).lops = s.lops := rfl
@[simp] theorem countRetry_lig (f : Fetched) (s : State) : (countRetry f s).lig = s.lig := rfl
@[simp] theorem countRetry_pwr (f : Fetched) (s : State) : (countRetry f s).pwr = s.pwr := rfl
@[simp] theorem countRetry_dbg (f : Fetched) (s : State) : (countRetry f s).dbg = s.dbg := rfl
@[simp] theorem countRetry_elog (f : Fetched) (s : State) : (countRetry f s).elog = s.elog := rfl
@[simp] theorem countRetry_wall (f : Fetched) (s : State) : (countRetry f s).wall = s.wall := rfl
@[simp] theorem countRetry_out (f : Fetched) (s : State) : (countRetry f s).out = s.out := rfl
@[simp] theorem countRetry_drawn (f : Fetched) (s : State) : (countRetry f s).drawn = s.drawn := rfl
@[simp] theorem countRetry_pending (f : Fetched) (s : State) : (countRetry f s).pending = s.pending := rfl

/-! `wipeMedia` -/

@[simp] theorem wipeMedia_unit (r : Nat) (s : State) : (wipeMedia r s).unit = s.unit := rfl
@[simp] theorem wipeMedia_rst (r : Nat) (s : State) : (wipeMedia r s).rst = s.rst := rfl
@[simp] theorem wipeMedia_strap (r : Nat) (s : State) : (wipeMedia r s).strap = s.strap := rfl
@[simp] theorem wipeMedia_aon (r : Nat) (s : State) : (wipeMedia r s).aon = s.aon := rfl
@[simp] theorem wipeMedia_sup (r : Nat) (s : State) : (wipeMedia r s).sup = s.sup := rfl
@[simp] theorem wipeMedia_lands (r : Nat) (s : State) : (wipeMedia r s).lands = s.lands := rfl
@[simp] theorem wipeMedia_boot (r : Nat) (s : State) : (wipeMedia r s).boot = s.boot := rfl
@[simp] theorem wipeMedia_pcie (r : Nat) (s : State) : (wipeMedia r s).pcie = s.pcie := rfl
@[simp] theorem wipeMedia_nb (r : Nat) (s : State) : (wipeMedia r s).nb = s.nb := rfl
theorem wipeMedia_nib (r : Nat) (s : State) : (wipeMedia r s).nib = { s.nib with unsettled := s.nib.unsettled.filter (fun x => r < x) } := rfl
theorem wipeMedia_res (r : Nat) (s : State) : (wipeMedia r s).res = { s.res with staged := s.res.staged.filter (fun x => r < x.ruling) } := rfl
theorem wipeMedia_map (r : Nat) (s : State) : (wipeMedia r s).map = MapState.empty := rfl
theorem wipeMedia_log (r : Nat) (s : State) : (wipeMedia r s).log = { s.log with buf := [], inflight := [], progs := [], cps := [], cpWriting := none, needOpened := false } := rfl
theorem wipeMedia_dies (r : Nat) (s : State) : (wipeMedia r s).dies = { s.dies with cold := [], queue := [], reads := [], probes := [], sweep := [], dies := s.dies.dies.filter (fun x => x.failed) } := rfl
theorem wipeMedia_rec_ (r : Nat) (s : State) : (wipeMedia r s).rec_ = { s.rec_ with sanitize := none, rebuilds := [], profile := s.profile, epochs := (s.rec_.epochs.filter (s.epochAfter r)).map (fun (e : Epoch) => { e with pend := [] }) } := rfl
@[simp] theorem wipeMedia_health (r : Nat) (s : State) : (wipeMedia r s).health = s.health := rfl
@[simp] theorem wipeMedia_flt (r : Nat) (s : State) : (wipeMedia r s).flt = s.flt := rfl
@[simp] theorem wipeMedia_lops (r : Nat) (s : State) : (wipeMedia r s).lops = s.lops := rfl
@[simp] theorem wipeMedia_lig (r : Nat) (s : State) : (wipeMedia r s).lig = s.lig := rfl
@[simp] theorem wipeMedia_pwr (r : Nat) (s : State) : (wipeMedia r s).pwr = s.pwr := rfl
@[simp] theorem wipeMedia_dbg (r : Nat) (s : State) : (wipeMedia r s).dbg = s.dbg := rfl
@[simp] theorem wipeMedia_elog (r : Nat) (s : State) : (wipeMedia r s).elog = s.elog := rfl
@[simp] theorem wipeMedia_wall (r : Nat) (s : State) : (wipeMedia r s).wall = s.wall := rfl
@[simp] theorem wipeMedia_out (r : Nat) (s : State) : (wipeMedia r s).out = s.out := rfl
@[simp] theorem wipeMedia_drawn (r : Nat) (s : State) : (wipeMedia r s).drawn = s.drawn := rfl
@[simp] theorem wipeMedia_pending (r : Nat) (s : State) : (wipeMedia r s).pending = s.pending := rfl

/-! Views of a state that an update of `out` or `pending` leaves alone -/

@[simp] theorem running_out (s : State) (o : List Out) : ({ s with out := o } : State).running = s.running := rfl
@[simp] theorem running_pending (s : State) (l : List Instr) : ({ s with pending := l } : State).running = s.running := rfl
@[simp] theorem recovery_out (s : State) (o : List Out) : ({ s with out := o } : State).recovery = s.recovery := rfl
@[simp] theorem mismatch_out (s : State) (o : List Out) : ({ s with out := o } : State).mismatch = s.mismatch := rfl
@[simp] theorem onPcie_out (s : State) (o : List Out) : ({ s with out := o } : State).onPcie = s.onPcie := rfl
@[simp] theorem barOpen_out (s : State) (o : List Out) : ({ s with out := o } : State).barOpen = s.barOpen := rfl
@[simp] theorem nbOn_out (s : State) (o : List Out) : ({ s with out := o } : State).nbOn = s.nbOn := rfl
@[simp] theorem awake_out (s : State) (o : List Out) : ({ s with out := o } : State).awake = s.awake := rfl
@[simp] theorem canRule_out (s : State) (o : List Out) : ({ s with out := o } : State).canRule = s.canRule := rfl
@[simp] theorem ligOn_out (s : State) (o : List Out) : ({ s with out := o } : State).ligOn = s.ligOn := rfl
@[simp] theorem portOn_out (s : State) (o : List Out) : ({ s with out := o } : State).portOn = s.portOn := rfl
@[simp] theorem collects_out (s : State) (o : List Out) : ({ s with out := o } : State).collects = s.collects := rfl
@[simp] theorem ownWork_out (s : State) (o : List Out) : ({ s with out := o } : State).ownWork = s.ownWork := rfl
@[simp] theorem logOn_out (s : State) (o : List Out) : ({ s with out := o } : State).logOn = s.logOn := rfl
@[simp] theorem item?_out (s : State) (o : List Out) (r : Nat) : ({ s with out := o } : State).item? r = s.item? r := rfl
@[simp] theorem pair?_out (s : State) (o : List Out) (q : Nat) : ({ s with out := o } : State).pair? q = s.pair? q := rfl
@[simp] theorem die_out (s : State) (o : List Out) (d : Nat) : ({ s with out := o } : State).die d = s.die d := rfl
@[simp] theorem levelFor_out (s : State) (o : List Out) (a b : Nat) : ({ s with out := o } : State).levelFor a b = s.levelFor a b := rfl

end Sys2Proof.Laws
end

