-- ==== Sys2Proof/Laws/Steady.lean ====
section
/-! SUPPORT. What the settling work of a step leaves alone (`Steady`): the unit, the reset and start state, the straps, AON, the fault collector,
long operations, the debug port, the wall time, the next ruling and the queue of commands. -/

namespace Sys2Proof.Laws

open Sys2Proof Sys2Proof.Machine

/-- What settling leaves alone. -/
def outer (s : State) :=
  ((s.unit, s.rst, s.strap, s.aon, s.flt, s.lops), (s.dbg, s.wall, s.pending, s.nib.next, s.drawn))

/-- `t` has that part of `a`. -/
structure Steady (a t : State) : Prop where
  eq : outer t = outer a

theorem Steady.refl (a : State) : Steady a a := ⟨rfl⟩

theorem Steady.same {a s t : State} (h : Steady a s) (e : outer t = outer s) : Steady a t := ⟨e.trans h.eq⟩

/-- An update of other fields. -/
theorem Steady.upd {a s : State} {sup lands boot pcie nb nib res map log ftl dies rec_ health lig pwr elog out}
    (h : Steady a s)
    (e : outer ⟨s.unit, s.rst, s.strap, s.aon, sup, lands, boot, pcie, nb, nib, res, map, log, ftl, dies, rec_, health, s.flt, s.lops, lig, pwr,
      s.dbg, elog, s.wall, out, s.drawn, s.pending⟩ = outer s) :
    Steady a ⟨s.unit, s.rst, s.strap, s.aon, sup, lands, boot, pcie, nb, nib, res, map, log, ftl, dies, rec_, health, s.flt, s.lops, lig, pwr,
      s.dbg, elog, s.wall, out, s.drawn, s.pending⟩ := h.same e

theorem Steady.foldl {α : Type} {a s : State} {f : State → α → State} {l : List α} (h : Steady a s) (k : ∀ s x, Steady a s → Steady a (f s x)) :
    Steady a (l.foldl f s) := by
  induction l generalizing s with
  | nil => exact h
  | cons x xs ih => exact ih (k s x h)

theorem emit_st {a s : State} (o : Out) (hs : Steady a s) : Steady a (emit o s) := by
  unfold emit
  repeat' first
    | with_reducible assumption
    | (fail_if_no_progress with_reducible refine Steady.upd ?_ (by with_unfolding_all rfl))
    | split

theorem actUpdate_st {a s : State} (hs : Steady a s) : Steady a (actUpdate s) := by
  unfold actUpdate
  repeat' first
    | with_reducible assumption
    | (fail_if_no_progress with_reducible refine Steady.upd ?_ (by with_unfolding_all rfl))
    | split

theorem setItem_st {a s : State} (i : Item) (hs : Steady a s) : Steady a (setItem i s) := by
  unfold setItem
  repeat' first
    | with_reducible assumption
    | (fail_if_no_progress with_reducible refine Steady.upd ?_ (by with_unfolding_all rfl))
    | split

theorem dropItem_st {a s : State} (r : Nat) (hs : Steady a s) : Steady a (dropItem r s) := by
  unfold dropItem
  repeat' first
    | with_reducible assumption
    | (fail_if_no_progress with_reducible refine Steady.upd ?_ (by with_unfolding_all rfl))
    | split

theorem modPair_st {a s : State} (q : Nat) (f : Pair → Pair) (hs : Steady a s) : Steady a (modPair q f s) := by
  unfold modPair
  repeat' first
    | with_reducible assumption
    | (fail_if_no_progress with_reducible refine Steady.upd ?_ (by with_unfolding_all rfl))
    | split

theorem dropPair_st {a s : State} (q : Nat) (hs : Steady a s) : Steady a (dropPair q s) := by
  unfold dropPair
  repeat' first
    | with_reducible assumption
    | (fail_if_no_progress with_reducible refine Steady.upd ?_ (by with_unfolding_all rfl))
    | split

theorem settle_st {a s : State} (r : Nat) (hs : Steady a s) : Steady a (settle r s) := by
  unfold settle
  repeat' first
    | with_reducible assumption
    | (fail_if_no_progress with_reducible refine Steady.upd ?_ (by with_unfolding_all rfl))
    | split

theorem dropStaged_st {a s : State} (r : Nat) (hs : Steady a s) : Steady a (dropStaged r s) := by
  unfold dropStaged
  repeat' first
    | with_reducible assumption
    | (fail_if_no_progress with_reducible refine Steady.upd ?_ (by with_unfolding_all rfl))
    | split

theorem post_st {a s : State} (o : Out) (hs : Steady a s) : Steady a (post o s) := by
  unfold post
  repeat' first
    | with_reducible assumption
    | with_reducible apply emit_st
    | (fail_if_no_progress with_reducible refine Steady.upd ?_ (by with_unfolding_all rfl))
    | split

theorem sendMsix_st {a s : State} (v : Nat) (hs : Steady a s) : Steady a (sendMsix v s) := by
  unfold sendMsix
  repeat' first
    | with_reducible assumption
    | with_reducible apply post_st
    | (fail_if_no_progress with_reducible refine Steady.upd ?_ (by with_unfolding_all rfl))
    | split

theorem logError_st {a s : State} (e : ErrEntry) (hs : Steady a s) : Steady a (logError e s) := by
  unfold logError
  repeat' first
    | with_reducible assumption
    | (intro y; refine (fun (k : Steady a y) => ?_) ?_; (on_goal 1 => clear_value y); on_goal 2 => subst y)
    | (intro y; refine (fun (k : Steady a y.1) => ?_) ?_; (on_goal 1 => clear_value y); on_goal 2 => subst y)
    | (intro y; subst y)
    | lift_lets
    | (fail_if_no_progress with_reducible refine Steady.upd ?_ (by with_unfolding_all rfl))
    | split

theorem postCompletion_st {a s : State} (q cid result ruling status : Nat) (hs : Steady a s) : Steady a (postCompletion q cid result ruling status s) := by
  unfold postCompletion
  repeat' first
    | with_reducible assumption
    | (intro y; refine (fun (k : Steady a y) => ?_) ?_; (on_goal 1 => clear_value y); on_goal 2 => subst y)
    | (intro y; refine (fun (k : Steady a y.1) => ?_) ?_; (on_goal 1 => clear_value y); on_goal 2 => subst y)
    | (intro y; subst y)
    | lift_lets
    | with_reducible apply post_st
    | with_reducible apply modPair_st
    | with_reducible apply sendMsix_st
    | (fail_if_no_progress with_reducible refine Steady.upd ?_ (by with_unfolding_all rfl))
    | split

theorem freezeRing_st {a s : State} (q slot : Nat) (hs : Steady a s) : Steady a (freezeRing q slot s) := by
  unfold freezeRing
  repeat' first
    | with_reducible assumption
    | with_reducible apply modPair_st
    | (fail_if_no_progress with_reducible refine Steady.upd ?_ (by with_unfolding_all rfl))
    | split

theorem completeTask_st {a s : State} (e : Ending) (status result : Nat) (h : Steady a s) : Steady a (completeTask e status result s) := by
  refine h.same ?_
  have k : ∀ nb : Narrow, outer { s with nb := nb } = outer s := fun _ => rfl
  exact k { s.nb with
    completion := completionEntry result e.ruling 0 0 (Entry.cid e.entry) true status
    task := if status = 0 ∧ !s.nb.contained then .done else .frozen
    outData := none, slots := 0, slotNo := 0, inData := [], inLen := 0 }

theorem complete_st {a s : State} (e : Ending) (f : Fail) (result : Nat) (h : Steady a s) : Steady a (complete e f result s) := by
  unfold complete
  apply actUpdate_st
  have k : Steady a (if f.status = 0 then s else logError (e.err f) s) := by
    split
    · exact h
    · exact logError_st _ h
  split
  · exact completeTask_st _ _ _ (Steady.upd k rfl)
  · apply postCompletion_st
    split
    · exact freezeRing_st _ _ (Steady.upd k rfl)
    · exact Steady.upd k rfl

theorem removeItem_st {a s : State} (i : Item) (failed : Bool) (hs : Steady a s) : Steady a (removeItem i failed s) := by
  unfold removeItem
  repeat' first
    | with_reducible assumption
    | (intro y; refine (fun (k : Steady a y) => ?_) ?_; (on_goal 1 => clear_value y); on_goal 2 => subst y)
    | (intro y; refine (fun (k : Steady a y.1) => ?_) ?_; (on_goal 1 => clear_value y); on_goal 2 => subst y)
    | (intro y; subst y)
    | lift_lets
    | with_reducible apply dropItem_st
    | with_reducible apply settle_st
    | with_reducible apply dropStaged_st
    | (fail_if_no_progress with_reducible refine Steady.upd ?_ (by with_unfolding_all rfl))
    | split

theorem finish_st {a s : State} (i : Item) (f : Fail) (result : Nat) (hs : Steady a s) : Steady a (finish i f result s) := by
  unfold finish
  repeat' first
    | with_reducible assumption
    | with_reducible apply complete_st
    | with_reducible apply removeItem_st
    | (fail_if_no_progress with_reducible refine Steady.upd ?_ (by with_unfolding_all rfl))
    | split

theorem succeed_st {a s : State} (i : Item) (result : Nat) (hs : Steady a s) : Steady a (succeed i result s) := by
  unfold succeed
  repeat' first
    | with_reducible assumption
    | with_reducible apply finish_st
    | (fail_if_no_progress with_reducible refine Steady.upd ?_ (by with_unfolding_all rfl))
    | split

theorem failWith_st {a s : State} (i : Item) (status : Nat) (hs : Steady a s) : Steady a (failWith i status s) := by
  unfold failWith
  repeat' first
    | with_reducible assumption
    | with_reducible apply finish_st
    | (fail_if_no_progress with_reducible refine Steady.upd ?_ (by with_unfolding_all rfl))
    | split

theorem setBand_st {a s : State} (b : Band) (hs : Steady a s) : Steady a (setBand b s) := by
  unfold setBand
  repeat' first
    | with_reducible assumption
    | (fail_if_no_progress with_reducible refine Steady.upd ?_ (by with_unfolding_all rfl))
    | split

theorem modBand_st {a s : State} (n : Nat) (f : Band → Band) (hs : Steady a s) : Steady a (modBand n f s) := by
  unfold modBand
  repeat' first
    | with_reducible assumption
    | (fail_if_no_progress with_reducible refine Steady.upd ?_ (by with_unfolding_all rfl))
    | split

theorem resizeCache_st {a s : State} (hs : Steady a s) : Steady a (resizeCache s) := by
  unfold resizeCache
  repeat' first
    | with_reducible assumption
    | (fail_if_no_progress with_reducible refine Steady.upd ?_ (by simp only [outer] <;> rfl))
    | split

theorem enqueue_st {a s : State} (ops : List DieOp) (hs : Steady a s) : Steady a (enqueue ops s) := by
  unfold enqueue
  repeat' first
    | with_reducible assumption
    | (intro y; refine (fun (k : Steady a y) => ?_) ?_; (on_goal 1 => clear_value y); on_goal 2 => subst y)
    | (intro y; refine (fun (k : Steady a y.1) => ?_) ?_; (on_goal 1 => clear_value y); on_goal 2 => subst y)
    | (intro y; subst y)
    | lift_lets
    | with_reducible refine Steady.foldl ?_ (fun _ _ _ => ?_)
    | (fail_if_no_progress with_reducible refine Steady.upd ?_ (by with_unfolding_all rfl))
    | split

theorem queueErase_st {a s : State} (n cls : Nat) (dies : List Nat) (hs : Steady a s) : Steady a (queueErase n cls dies s) := by
  unfold queueErase
  repeat' first
    | with_reducible assumption
    | with_reducible apply enqueue_st
    | with_reducible apply modBand_st
    | (fail_if_no_progress with_reducible refine Steady.upd ?_ (by with_unfolding_all rfl))
    | split

theorem launch_st {a s : State} (n wl cls : Nat) (slots : List Slot) (hs : Steady a s) : Steady a (launch n wl cls slots s) := by
  unfold launch
  repeat' first
    | with_reducible assumption
    | (intro y; refine (fun (k : Steady a y) => ?_) ?_; (on_goal 1 => clear_value y); on_goal 2 => subst y)
    | (intro y; refine (fun (k : Steady a y.1) => ?_) ?_; (on_goal 1 => clear_value y); on_goal 2 => subst y)
    | (intro y; subst y)
    | lift_lets
    | with_reducible apply enqueue_st
    | (fail_if_no_progress with_reducible refine Steady.upd ?_ (by with_unfolding_all rfl))
    | split

theorem addRec_st {a s : State} (r : MapRec) (hs : Steady a s) : Steady a (addRec r s) := by
  unfold addRec
  repeat' first
    | with_reducible assumption
    | (fail_if_no_progress with_reducible refine Steady.upd ?_ (by with_unfolding_all rfl))
    | split

theorem noteBand_st {a s : State} (n : Nat) (hs : Steady a s) : Steady a (noteBand n s) := by
  unfold noteBand
  repeat' first
    | with_reducible assumption
    | with_reducible apply addRec_st
    | (fail_if_no_progress with_reducible refine Steady.upd ?_ (by with_unfolding_all rfl))
    | split

theorem formBand_st {a s : State} (n : Nat) (tlc cache : Bool) (hs : Steady a s) : Steady a (formBand n tlc cache s) := by
  unfold formBand
  repeat' first
    | with_reducible assumption
    | (intro y; refine (fun (k : Steady a y) => ?_) ?_; (on_goal 1 => clear_value y); on_goal 2 => subst y)
    | (intro y; refine (fun (k : Steady a y.1) => ?_) ?_; (on_goal 1 => clear_value y); on_goal 2 => subst y)
    | (intro y; subst y)
    | lift_lets
    | with_reducible apply resizeCache_st
    | with_reducible apply setBand_st
    | (fail_if_no_progress with_reducible refine Steady.upd ?_ (by with_unfolding_all rfl))
    | split

theorem openBand_st {a s : State} (n : Nat) (tlc cache : Bool) (cls : Nat) (hs : Steady a s) : Steady a (openBand n tlc cache cls s) := by
  unfold openBand
  repeat' first
    | with_reducible assumption
    | (intro y; refine (fun (k : Steady a y) => ?_) ?_; (on_goal 1 => clear_value y); on_goal 2 => subst y)
    | (intro y; refine (fun (k : Steady a y.1) => ?_) ?_; (on_goal 1 => clear_value y); on_goal 2 => subst y)
    | (intro y; subst y)
    | lift_lets
    | with_reducible apply noteBand_st
    | with_reducible apply formBand_st
    | with_reducible apply queueErase_st
    | with_reducible apply launch_st
    | (fail_if_no_progress with_reducible refine Steady.upd ?_ (by with_unfolding_all rfl))
    | split

theorem setWp_st {a s : State} (w : WritePoint) (hs : Steady a s) : Steady a (setWp w s) := by
  unfold setWp
  repeat' first
    | with_reducible assumption
    | (fail_if_no_progress with_reducible refine Steady.upd ?_ (by with_unfolding_all rfl))
    | split

theorem addFill_st {a s : State} (slot : Nat) (c : Codeword) (hs : Steady a s) : Steady a (addFill slot c s) := by
  unfold addFill
  repeat' first
    | with_reducible assumption
    | (fail_if_no_progress with_reducible refine Steady.upd ?_ (by with_unfolding_all rfl))
    | split

theorem padTo_st {a s : State} (n lo hi : Nat) (hs : Steady a s) : Steady a (padTo n lo hi s) := by
  unfold padTo
  repeat' first
    | with_reducible assumption
    | with_reducible apply addFill_st
    | with_reducible refine Steady.foldl ?_ (fun _ _ _ => ?_)
    | (fail_if_no_progress with_reducible refine Steady.upd ?_ (by with_unfolding_all rfl))
    | split

theorem programWordline_st {a s : State} (n wl cls : Nat) (hs : Steady a s) : Steady a (programWordline n wl cls s) := by
  unfold programWordline
  repeat' first
    | with_reducible assumption
    | (intro y; refine (fun (k : Steady a y) => ?_) ?_; (on_goal 1 => clear_value y); on_goal 2 => subst y)
    | (intro y; refine (fun (k : Steady a y.1) => ?_) ?_; (on_goal 1 => clear_value y); on_goal 2 => subst y)
    | (intro y; subst y)
    | lift_lets
    | with_reducible apply launch_st
    | with_reducible apply modBand_st
    | (fail_if_no_progress with_reducible refine Steady.upd ?_ (by with_unfolding_all rfl))
    | split

theorem programComplete_st {a s : State} (n cls fuel : Nat) (hs : Steady a s) : Steady a (programComplete n cls fuel s) := by
  induction fuel generalizing s with
  | zero => exact hs
  | succ k ih =>
    unfold programComplete
    split
    · exact hs
    · split
      · exact ih (programWordline_st _ _ _ hs)
      · exact hs

theorem closeBandStripes_st {a s : State} (n cls : Nat) (hs : Steady a s) : Steady a (closeBandStripes n cls s) := by
  unfold closeBandStripes
  repeat' first
    | with_reducible assumption
    | (intro y; refine (fun (k : Steady a y) => ?_) ?_; (on_goal 1 => clear_value y); on_goal 2 => subst y)
    | (intro y; refine (fun (k : Steady a y.1) => ?_) ?_; (on_goal 1 => clear_value y); on_goal 2 => subst y)
    | (intro y; subst y)
    | lift_lets
    | with_reducible apply programWordline_st
    | with_reducible apply padTo_st
    | (fail_if_no_progress with_reducible refine Steady.upd ?_ (by with_unfolding_all rfl))
    | split

theorem closeStripesOf_st {a s : State} (p : Slot → Bool) (hs : Steady a s) : Steady a (closeStripesOf p s) := by
  unfold closeStripesOf
  repeat' first
    | with_reducible assumption
    | with_reducible apply closeBandStripes_st
    | with_reducible refine Steady.foldl ?_ (fun _ _ _ => ?_)
    | (fail_if_no_progress with_reducible refine Steady.upd ?_ (by with_unfolding_all rfl))
    | split

theorem closeStripes_st {a s : State} (hs : Steady a s) : Steady a (closeStripes s) := by
  unfold closeStripes
  repeat' first
    | with_reducible assumption
    | with_reducible apply closeStripesOf_st
    | (fail_if_no_progress with_reducible refine Steady.upd ?_ (by with_unfolding_all rfl))
    | split

theorem pushStripes_st {a s : State} (hs : Steady a s) : Steady a (pushStripes s) := by
  unfold pushStripes
  repeat' first
    | with_reducible assumption
    | (intro y; refine (fun (k : Steady a y) => ?_) ?_; (on_goal 1 => clear_value y); on_goal 2 => subst y)
    | (intro y; refine (fun (k : Steady a y.1) => ?_) ?_; (on_goal 1 => clear_value y); on_goal 2 => subst y)
    | (intro y; subst y)
    | lift_lets
    | with_reducible apply closeStripesOf_st
    | with_reducible refine Steady.foldl ?_ (fun _ _ _ => ?_)
    | (fail_if_no_progress with_reducible refine Steady.upd ?_ (by with_unfolding_all rfl))
    | split

theorem bindWp_st {a s : State} (kind stream : Nat) (hs : Steady a s) : Steady a (bindWp kind stream s) := by
  unfold bindWp
  repeat' first
    | with_reducible assumption
    | (intro y; refine (fun (k : Steady a y) => ?_) ?_; (on_goal 1 => clear_value y); on_goal 2 => subst y)
    | (intro y; refine (fun (k : Steady a y.1) => ?_) ?_; (on_goal 1 => clear_value y); on_goal 2 => subst y)
    | (intro y; subst y)
    | lift_lets
    | with_reducible apply closeBandStripes_st
    | with_reducible apply setWp_st
    | with_reducible refine Steady.foldl ?_ (fun _ _ _ => ?_)
    | (fail_if_no_progress with_reducible refine Steady.upd ?_ (by with_unfolding_all rfl))
    | split

theorem newBand_st {a s : State} (w : WritePoint) (tlc cache : Bool) (cls : Nat) (whole : Bool) (hs : Steady a s) : Steady a (newBand w tlc cache cls whole s).1 := by
  unfold newBand
  repeat' first
    | with_reducible assumption
    | (intro y; refine (fun (k : Steady a y) => ?_) ?_; (on_goal 1 => clear_value y); on_goal 2 => subst y)
    | (intro y; refine (fun (k : Steady a y.1) => ?_) ?_; (on_goal 1 => clear_value y); on_goal 2 => subst y)
    | (intro y; subst y)
    | lift_lets
    | with_reducible apply setWp_st
    | with_reducible apply openBand_st
    | (fail_if_no_progress with_reducible refine Steady.upd ?_ (by with_unfolding_all rfl))
    | split

theorem withRoom_st {a s : State} (kind stream cls : Nat) (whole : Bool) (hs : Steady a s) : Steady a (withRoom kind stream cls whole s).1 := by
  unfold withRoom
  repeat' first
    | with_reducible assumption
    | (intro y; refine (fun (k : Steady a y) => ?_) ?_; (on_goal 1 => clear_value y); on_goal 2 => subst y)
    | (intro y; refine (fun (k : Steady a y.1) => ?_) ?_; (on_goal 1 => clear_value y); on_goal 2 => subst y)
    | (intro y; subst y)
    | lift_lets
    | with_reducible apply newBand_st
    | (fail_if_no_progress with_reducible refine Steady.upd ?_ (by with_unfolding_all rfl))
    | split

theorem append_st {a s : State} (kind stream cls : Nat) (cws : List Codeword) (h : Steady a s) : Steady a (append kind stream cls cws s).1 := by
  have k := withRoom_st kind stream cls (decide (cws.length = 32)) h
  have w : ∀ (x : State) n pos fin, Steady a x → Steady a (modBand n (fun b => { b with nextPos := fin })
      ((List.range cws.length).foldl (fun s i => addFill (n * bandSlots + (pos + i)) (cws.getD i padCodeword) s) x)) :=
    fun x n pos fin z => modBand_st _ _ (Steady.foldl z (fun _ _ z => addFill_st _ _ z))
  unfold append
  dsimp only
  split
  · exact k
  · split
    · exact k
    · apply programComplete_st
      split
      · exact setWp_st _ (w _ _ _ _ (padTo_st _ _ _ k))
      · exact w _ _ _ _ (padTo_st _ _ _ k)

theorem markPlaced_st {a s : State} (r b slot : Nat) (hs : Steady a s) : Steady a (markPlaced r b slot s) := by
  unfold markPlaced
  repeat' first
    | with_reducible assumption
    | (fail_if_no_progress with_reducible refine Steady.upd ?_ (by with_unfolding_all rfl))
    | split

theorem placeBlocks_st {a s : State} (r kind stream fuel : Nat) (l : List Staged) (h : Steady a s) :
    Steady a (placeBlocks r kind stream fuel l s) := by
  induction fuel generalizing s l with
  | zero => simpa [placeBlocks] using h
  | succ k ih =>
    cases l with
    | nil => simpa [placeBlocks] using h
    | cons x xs =>
      simp only [placeBlocks]
      split
      · have z := append_st kind stream 2 (((x :: xs).take 32).map (·.cw)) h
        split
        · exact ih _ (Steady.foldl z (fun _ _ w => markPlaced_st _ _ _ w))
        · exact z
      · have z := append_st kind stream 2 [x.cw] h
        split
        · exact ih _ (markPlaced_st _ _ _ z)
        · exact z

theorem placeWrite_st {a s : State} (r : Nat) (h : Steady a s) : Steady a (placeWrite r s) := by
  unfold placeWrite
  split
  · exact h
  · exact placeBlocks_st _ _ _ _ _ (bindWp_st _ _ h)

theorem touchStrokes_st {a s : State} (r : MapRec) (hs : Steady a s) : Steady a (touchStrokes r s) := by
  unfold touchStrokes
  repeat' first
    | with_reducible assumption
    | with_reducible refine Steady.foldl ?_ (fun _ _ _ => ?_)
    | (fail_if_no_progress with_reducible refine Steady.upd ?_ (by with_unfolding_all rfl))
    | split

theorem addRecs_st {a s : State} (l : List MapRec) (h : Steady a s) : Steady a (addRecs l s) := by
  induction l generalizing s with
  | nil => exact h
  | cons r rs ih => exact ih (touchStrokes_st r (Steady.upd (addRec_st _ h) rfl))

theorem undefineBuffer_st {a s : State} (i : Item) (hs : Steady a s) : Steady a (undefineBuffer i s) := by
  unfold undefineBuffer
  repeat' first
    | with_reducible assumption
    | with_reducible apply emit_st
    | (fail_if_no_progress with_reducible refine Steady.upd ?_ (by with_unfolding_all rfl))
    | split

theorem startPeers_st {a s : State} (r : Rd) (hs : Steady a s) : Steady a (startPeers r s) := by
  unfold startPeers
  repeat' first
    | with_reducible assumption
    | (intro y; refine (fun (k : Steady a y) => ?_) ?_; (on_goal 1 => clear_value y); on_goal 2 => subst y)
    | (intro y; refine (fun (k : Steady a y.1) => ?_) ?_; (on_goal 1 => clear_value y); on_goal 2 => subst y)
    | (intro y; subst y)
    | lift_lets
    | with_reducible apply enqueue_st
    | (fail_if_no_progress with_reducible refine Steady.upd ?_ (by with_unfolding_all rfl))
    | split

theorem startRdOn_st {a s : State} (d ruling block slot cls use : Nat) (hs : Steady a s) : Steady a (startRdOn d ruling block slot cls use s) := by
  unfold startRdOn
  repeat' first
    | with_reducible assumption
    | (intro y; refine (fun (k : Steady a y) => ?_) ?_; (on_goal 1 => clear_value y); on_goal 2 => subst y)
    | (intro y; refine (fun (k : Steady a y.1) => ?_) ?_; (on_goal 1 => clear_value y); on_goal 2 => subst y)
    | (intro y; subst y)
    | lift_lets
    | with_reducible apply enqueue_st
    | with_reducible apply startPeers_st
    | (fail_if_no_progress with_reducible refine Steady.upd ?_ (by with_unfolding_all rfl))
    | split

theorem startRd_st {a s : State} (ruling block slot cls use : Nat) (hs : Steady a s) : Steady a (startRd ruling block slot cls use s) := by
  unfold startRd
  repeat' first
    | with_reducible assumption
    | with_reducible apply startRdOn_st
    | (fail_if_no_progress with_reducible refine Steady.upd ?_ (by with_unfolding_all rfl))
    | split

theorem startMerge_st {a s : State} (i : Item) (l : List (Nat × Nat)) (hs : Steady a s) : Steady a (startMerge i l s) := by
  unfold startMerge
  repeat' first
    | with_reducible assumption
    | with_reducible apply startRd_st
    | with_reducible apply setItem_st
    | with_reducible refine Steady.foldl ?_ (fun _ _ _ => ?_)
    | (fail_if_no_progress with_reducible refine Steady.upd ?_ (by with_unfolding_all rfl))
    | split

theorem enterRecs_st {a s : State} (last : Bool) (l : List MapRec) (h : Steady a s) : Steady a (enterRecs last l s) := by
  induction l generalizing s with
  | nil => exact h
  | cons r rs ih => exact ih (touchStrokes_st r (Steady.upd (addRec_st _ h) rfl))

theorem endRelease_st {a s : State} (i : Item) (hs : Steady a s) : Steady a (endRelease i s) := by
  unfold endRelease
  repeat' first
    | with_reducible assumption
    | with_reducible apply setItem_st
    | with_reducible apply succeed_st
    | (fail_if_no_progress with_reducible refine Steady.upd ?_ (by with_unfolding_all rfl))
    | split

theorem runRelease_st {a s : State} (i : Item) (hs : Steady a s) : Steady a (runRelease i s) := by
  unfold runRelease
  repeat' first
    | with_reducible assumption
    | (intro y; refine (fun (k : Steady a y) => ?_) ?_; (on_goal 1 => clear_value y); on_goal 2 => subst y)
    | (intro y; refine (fun (k : Steady a y.1) => ?_) ?_; (on_goal 1 => clear_value y); on_goal 2 => subst y)
    | (intro y; subst y)
    | lift_lets
    | with_reducible apply setItem_st
    | with_reducible apply endRelease_st
    | with_reducible apply enterRecs_st
    | with_reducible apply startMerge_st
    | with_reducible apply pushStripes_st
    | with_reducible apply placeWrite_st
    | (fail_if_no_progress with_reducible refine Steady.upd ?_ (by simp only [outer] <;> rfl))
    | split

theorem setBank_st {a s : State} (b : BankId) (f : Bank → Bank) (hs : Steady a s) : Steady a (setBank b f s) := by
  unfold setBank
  repeat' first
    | with_reducible assumption
    | (fail_if_no_progress with_reducible refine Steady.upd ?_ (by with_unfolding_all rfl))
    | split

theorem beginSwap_st {a s : State} (w : SwapWork) (hs : Steady a s) : Steady a (beginSwap w s) := by
  unfold beginSwap
  repeat' first
    | with_reducible assumption
    | (fail_if_no_progress with_reducible refine Steady.upd ?_ (by with_unfolding_all rfl))
    | split

theorem markEmpty_st {a s : State} (b : BankId) (hs : Steady a s) : Steady a (markEmpty b s) := by
  unfold markEmpty
  repeat' first
    | with_reducible assumption
    | with_reducible apply setBank_st
    | (fail_if_no_progress with_reducible refine Steady.upd ?_ (by with_unfolding_all rfl))
    | split

theorem takePiece_st {a s : State} (i : Item) (data : Mem) (d : Download) (hs : Steady a s) : Steady a (takePiece i data d s) := by
  unfold takePiece
  repeat' first
    | with_reducible assumption
    | (intro y; refine (fun (k : Steady a y) => ?_) ?_; (on_goal 1 => clear_value y); on_goal 2 => subst y)
    | (intro y; refine (fun (k : Steady a y.1) => ?_) ?_; (on_goal 1 => clear_value y); on_goal 2 => subst y)
    | (intro y; subst y)
    | lift_lets
    | with_reducible apply beginSwap_st
    | with_reducible apply markEmpty_st
    | with_reducible apply complete_st
    | with_reducible apply setItem_st
    | (fail_if_no_progress with_reducible refine Steady.upd ?_ (by with_unfolding_all rfl))
    | split

theorem startPiece_st {a s : State} (i : Item) (data : Mem) (hs : Steady a s) : Steady a (startPiece i data s) := by
  unfold startPiece
  repeat' first
    | with_reducible assumption
    | (intro y; refine (fun (k : Steady a y) => ?_) ?_; (on_goal 1 => clear_value y); on_goal 2 => subst y)
    | (intro y; refine (fun (k : Steady a y.1) => ?_) ?_; (on_goal 1 => clear_value y); on_goal 2 => subst y)
    | (intro y; subst y)
    | lift_lets
    | with_reducible apply failWith_st
    | with_reducible apply takePiece_st
    | with_reducible apply complete_st
    | (fail_if_no_progress with_reducible refine Steady.upd ?_ (by with_unfolding_all rfl))
    | split

theorem startActivate_st {a s : State} (i : Item) (hs : Steady a s) : Steady a (startActivate i s) := by
  unfold startActivate
  repeat' first
    | with_reducible assumption
    | (intro y; refine (fun (k : Steady a y) => ?_) ?_; (on_goal 1 => clear_value y); on_goal 2 => subst y)
    | (intro y; refine (fun (k : Steady a y.1) => ?_) ?_; (on_goal 1 => clear_value y); on_goal 2 => subst y)
    | (intro y; subst y)
    | lift_lets
    | with_reducible apply failWith_st
    | with_reducible apply setItem_st
    | with_reducible apply beginSwap_st
    | (fail_if_no_progress with_reducible refine Steady.upd ?_ (by with_unfolding_all rfl))
    | split

theorem startFirmware_st {a s : State} (i : Item) (hs : Steady a s) : Steady a (startFirmware i s) := by
  unfold startFirmware
  repeat' first
    | with_reducible assumption
    | (intro y; refine (fun (k : Steady a y) => ?_) ?_; (on_goal 1 => clear_value y); on_goal 2 => subst y)
    | (intro y; refine (fun (k : Steady a y.1) => ?_) ?_; (on_goal 1 => clear_value y); on_goal 2 => subst y)
    | (intro y; subst y)
    | lift_lets
    | with_reducible apply setItem_st
    | with_reducible apply startPiece_st
    | with_reducible apply startActivate_st
    | (fail_if_no_progress with_reducible refine Steady.upd ?_ (by with_unfolding_all rfl))
    | split

theorem collectUpdate_st {a s : State} (hs : Steady a s) : Steady a (collectUpdate s) := by
  unfold collectUpdate
  repeat' first
    | with_reducible assumption
    | (intro y; refine (fun (k : Steady a y) => ?_) ?_; (on_goal 1 => clear_value y); on_goal 2 => subst y)
    | (intro y; refine (fun (k : Steady a y.1) => ?_) ?_; (on_goal 1 => clear_value y); on_goal 2 => subst y)
    | (intro y; subst y)
    | lift_lets
    | (fail_if_no_progress with_reducible refine Steady.upd ?_ (by with_unfolding_all rfl))
    | split

theorem poolUpdate_st {a s : State} (hs : Steady a s) : Steady a (poolUpdate s) := by
  unfold poolUpdate
  repeat' first
    | with_reducible assumption
    | (intro y; refine (fun (k : Steady a y) => ?_) ?_; (on_goal 1 => clear_value y); on_goal 2 => subst y)
    | (intro y; refine (fun (k : Steady a y.1) => ?_) ?_; (on_goal 1 => clear_value y); on_goal 2 => subst y)
    | (intro y; subst y)
    | lift_lets
    | with_reducible apply collectUpdate_st
    | (fail_if_no_progress with_reducible refine Steady.upd ?_ (by with_unfolding_all rfl))
    | split

theorem completePersistent_st {a s : State} (hs : Steady a s) : Steady a (completePersistent s) := by
  unfold completePersistent
  repeat' first
    | with_reducible assumption
    | (intro y; refine (fun (k : Steady a y) => ?_) ?_; (on_goal 1 => clear_value y); on_goal 2 => subst y)
    | (intro y; refine (fun (k : Steady a y.1) => ?_) ?_; (on_goal 1 => clear_value y); on_goal 2 => subst y)
    | (intro y; subst y)
    | lift_lets
    | with_reducible apply succeed_st
    | with_reducible refine Steady.foldl ?_ (fun _ _ _ => ?_)
    | (fail_if_no_progress with_reducible refine Steady.upd ?_ (by with_unfolding_all rfl))
    | split

theorem modEpoch_st {a s : State} (n : Nat) (f : Epoch → Epoch) (hs : Steady a s) : Steady a (modEpoch n f s) := by
  unfold modEpoch
  repeat' first
    | with_reducible assumption
    | (fail_if_no_progress with_reducible refine Steady.upd ?_ (by with_unfolding_all rfl))
    | split

theorem flagEpoch_st {a s : State} (n : Nat) (f : Epoch → Epoch) (hs : Steady a s) : Steady a (flagEpoch n f s) := by
  unfold flagEpoch
  repeat' first
    | with_reducible assumption
    | (fail_if_no_progress with_reducible refine Steady.upd ?_ (by with_unfolding_all rfl))
    | split

theorem commitEpoch_st {a s : State} (n r : Nat) (hs : Steady a s) : Steady a (commitEpoch n r s) := by
  unfold commitEpoch
  repeat' first
    | with_reducible assumption
    | (intro y; refine (fun (k : Steady a y) => ?_) ?_; (on_goal 1 => clear_value y); on_goal 2 => subst y)
    | (intro y; refine (fun (k : Steady a y.1) => ?_) ?_; (on_goal 1 => clear_value y); on_goal 2 => subst y)
    | (intro y; subst y)
    | lift_lets
    | with_reducible apply settle_st
    | with_reducible apply modEpoch_st
    | with_reducible apply addRecs_st
    | (fail_if_no_progress with_reducible refine Steady.upd ?_ (by with_unfolding_all rfl))
    | split

theorem rollBack_st {a s : State} (n r : Nat) (hs : Steady a s) : Steady a (rollBack n r s) := by
  unfold rollBack
  repeat' first
    | with_reducible assumption
    | with_reducible apply settle_st
    | with_reducible apply modEpoch_st
    | (fail_if_no_progress with_reducible refine Steady.upd ?_ (by with_unfolding_all rfl))
    | split

theorem runCommit_st {a s : State} (i : Item) (hs : Steady a s) : Steady a (runCommit i s) := by
  unfold runCommit
  repeat' first
    | with_reducible assumption
    | with_reducible apply dropItem_st
    | with_reducible apply commitEpoch_st
    | with_reducible apply setItem_st
    | (fail_if_no_progress with_reducible refine Steady.upd ?_ (by with_unfolding_all rfl))
    | split

theorem runCreatePair_st {a s : State} (i : Item) (hs : Steady a s) : Steady a (runCreatePair i s) := by
  unfold runCreatePair
  repeat' first
    | with_reducible assumption
    | with_reducible apply setItem_st
    | with_reducible apply failWith_st
    | with_reducible apply succeed_st
    | (fail_if_no_progress with_reducible refine Steady.upd ?_ (by with_unfolding_all rfl))
    | split

theorem abortFetched_st {a s : State} (f : Fetched) (freezes : Bool) (hs : Steady a s) : Steady a (abortFetched f freezes s) := by
  unfold abortFetched
  repeat' first
    | with_reducible assumption
    | (intro y; refine (fun (k : Steady a y) => ?_) ?_; (on_goal 1 => clear_value y); on_goal 2 => subst y)
    | (intro y; refine (fun (k : Steady a y.1) => ?_) ?_; (on_goal 1 => clear_value y); on_goal 2 => subst y)
    | (intro y; subst y)
    | lift_lets
    | with_reducible apply complete_st
    | (fail_if_no_progress with_reducible refine Steady.upd ?_ (by with_unfolding_all rfl))
    | split

theorem abortItem_st {a s : State} (i : Item) (freezes : Bool) (hs : Steady a s) : Steady a (abortItem i freezes s) := by
  unfold abortItem
  repeat' first
    | with_reducible assumption
    | (intro y; refine (fun (k : Steady a y) => ?_) ?_; (on_goal 1 => clear_value y); on_goal 2 => subst y)
    | (intro y; refine (fun (k : Steady a y.1) => ?_) ?_; (on_goal 1 => clear_value y); on_goal 2 => subst y)
    | (intro y; subst y)
    | lift_lets
    | with_reducible apply undefineBuffer_st
    | with_reducible apply complete_st
    | with_reducible apply removeItem_st
    | (fail_if_no_progress with_reducible refine Steady.upd ?_ (by with_unfolding_all rfl))
    | split

theorem abortCommands_st {a s : State} (p : Nat → Bool) (except : Nat) (freezes : Nat → Bool) (hs : Steady a s) : Steady a (abortCommands p except freezes s) := by
  unfold abortCommands
  repeat' first
    | with_reducible assumption
    | (intro y; refine (fun (k : Steady a y) => ?_) ?_; (on_goal 1 => clear_value y); on_goal 2 => subst y)
    | (intro y; refine (fun (k : Steady a y.1) => ?_) ?_; (on_goal 1 => clear_value y); on_goal 2 => subst y)
    | (intro y; subst y)
    | lift_lets
    | with_reducible apply abortItem_st
    | with_reducible apply abortFetched_st
    | with_reducible refine Steady.foldl ?_ (fun _ _ _ => ?_)
    | (fail_if_no_progress with_reducible refine Steady.upd ?_ (by with_unfolding_all rfl))
    | split

theorem deletePair_st {a s : State} (q : Nat) (hs : Steady a s) : Steady a (deletePair q s) := by
  unfold deletePair
  repeat' first
    | with_reducible assumption
    | with_reducible apply dropPair_st
    | (fail_if_no_progress with_reducible refine Steady.upd ?_ (by with_unfolding_all rfl))
    | split

theorem endDeletePair_st {a s : State} (i : Item) (hs : Steady a s) : Steady a (endDeletePair i s) := by
  unfold endDeletePair
  repeat' first
    | with_reducible assumption
    | (intro y; refine (fun (k : Steady a y) => ?_) ?_; (on_goal 1 => clear_value y); on_goal 2 => subst y)
    | (intro y; refine (fun (k : Steady a y.1) => ?_) ?_; (on_goal 1 => clear_value y); on_goal 2 => subst y)
    | (intro y; subst y)
    | lift_lets
    | with_reducible apply succeed_st
    | with_reducible apply deletePair_st
    | (fail_if_no_progress with_reducible refine Steady.upd ?_ (by with_unfolding_all rfl))
    | split

theorem runDeletePair_st {a s : State} (i : Item) (hs : Steady a s) : Steady a (runDeletePair i s) := by
  unfold runDeletePair
  repeat' first
    | with_reducible assumption
    | (intro y; refine (fun (k : Steady a y) => ?_) ?_; (on_goal 1 => clear_value y); on_goal 2 => subst y)
    | (intro y; refine (fun (k : Steady a y.1) => ?_) ?_; (on_goal 1 => clear_value y); on_goal 2 => subst y)
    | (intro y; subst y)
    | lift_lets
    | with_reducible apply setItem_st
    | with_reducible apply endDeletePair_st
    | with_reducible apply modPair_st
    | with_reducible apply abortCommands_st
    | (fail_if_no_progress with_reducible refine Steady.upd ?_ (by with_unfolding_all rfl))
    | split

theorem endCancel_st {a s : State} (i : Item) (hs : Steady a s) : Steady a (endCancel i s) := by
  unfold endCancel
  repeat' first
    | with_reducible assumption
    | with_reducible apply succeed_st
    | (fail_if_no_progress with_reducible refine Steady.upd ?_ (by with_unfolding_all rfl))
    | split

theorem endRestart_st {a s : State} (i : Item) (hs : Steady a s) : Steady a (endRestart i s) := by
  unfold endRestart
  repeat' first
    | with_reducible assumption
    | (intro y; refine (fun (k : Steady a y) => ?_) ?_; (on_goal 1 => clear_value y); on_goal 2 => subst y)
    | (intro y; refine (fun (k : Steady a y.1) => ?_) ?_; (on_goal 1 => clear_value y); on_goal 2 => subst y)
    | (intro y; subst y)
    | lift_lets
    | with_reducible apply succeed_st
    | with_reducible apply modPair_st
    | (fail_if_no_progress with_reducible refine Steady.upd ?_ (by with_unfolding_all rfl))
    | split

theorem beginPs4_st {a s : State} (hs : Steady a s) : Steady a (beginPs4 s) := by
  unfold beginPs4
  repeat' first
    | with_reducible assumption
    | with_reducible apply closeStripes_st
    | (fail_if_no_progress with_reducible refine Steady.upd ?_ (by with_unfolding_all rfl))
    | split

theorem enterD3_st {a s : State} (hs : Steady a s) : Steady a (enterD3 s) := by
  unfold enterD3
  repeat' first
    | with_reducible assumption
    | with_reducible apply beginPs4_st
    | (fail_if_no_progress with_reducible refine Steady.upd ?_ (by with_unfolding_all rfl))
    | split

theorem endClear_st {a s : State} (hs : Steady a s) : Steady a (endClear s) := by
  unfold endClear
  repeat' first
    | with_reducible assumption
    | (fail_if_no_progress with_reducible refine Steady.upd ?_ (by with_unfolding_all rfl))
    | split

theorem settleD3_st {a s : State} (hs : Steady a s) : Steady a (settleD3 s) := by
  unfold settleD3
  repeat' first
    | with_reducible assumption
    | with_reducible apply enterD3_st
    | (fail_if_no_progress with_reducible refine Steady.upd ?_ (by with_unfolding_all rfl))
    | split

theorem movePendingRegion_st {a s : State} (id by_ to_ : Nat) (hs : Steady a s) : Steady a (movePendingRegion id by_ to_ s) := by
  unfold movePendingRegion
  repeat' first
    | with_reducible assumption
    | (intro y; refine (fun (k : Steady a y) => ?_) ?_; (on_goal 1 => clear_value y); on_goal 2 => subst y)
    | (intro y; refine (fun (k : Steady a y.1) => ?_) ?_; (on_goal 1 => clear_value y); on_goal 2 => subst y)
    | (intro y; subst y)
    | lift_lets
    | (fail_if_no_progress with_reducible refine Steady.upd ?_ (by with_unfolding_all rfl))
    | split

theorem moveRegions_st {a s : State} (l : List (Nat × Nat)) (hs : Steady a s) : Steady a (moveRegions l s) := by
  unfold moveRegions
  repeat' first
    | with_reducible assumption
    | (intro y; refine (fun (k : Steady a y) => ?_) ?_; (on_goal 1 => clear_value y); on_goal 2 => subst y)
    | (intro y; refine (fun (k : Steady a y.1) => ?_) ?_; (on_goal 1 => clear_value y); on_goal 2 => subst y)
    | (intro y; subst y)
    | lift_lets
    | with_reducible apply movePendingRegion_st
    | with_reducible refine Steady.foldl ?_ (fun _ _ _ => ?_)
    | (fail_if_no_progress with_reducible refine Steady.upd ?_ (by with_unfolding_all rfl))
    | split

theorem runChange_st {a s : State} (i : Item) (hs : Steady a s) : Steady a (runChange i s) := by
  unfold runChange
  repeat' first
    | with_reducible assumption
    | (intro y; refine (fun (k : Steady a y) => ?_) ?_; (on_goal 1 => clear_value y); on_goal 2 => subst y)
    | (intro y; refine (fun (k : Steady a y.1) => ?_) ?_; (on_goal 1 => clear_value y); on_goal 2 => subst y)
    | (intro y; subst y)
    | lift_lets
    | with_reducible apply setItem_st
    | with_reducible apply addRecs_st
    | with_reducible apply moveRegions_st
    | with_reducible apply settle_st
    | (fail_if_no_progress with_reducible refine Steady.upd ?_ (by with_unfolding_all rfl))
    | split

theorem runEpochResolve_st {a s : State} (i : Item) (hs : Steady a s) : Steady a (runEpochResolve i s) := by
  unfold runEpochResolve
  repeat' first
    | with_reducible assumption
    | (intro y; refine (fun (k : Steady a y) => ?_) ?_; (on_goal 1 => clear_value y); on_goal 2 => subst y)
    | (intro y; refine (fun (k : Steady a y.1) => ?_) ?_; (on_goal 1 => clear_value y); on_goal 2 => subst y)
    | (intro y; subst y)
    | lift_lets
    | with_reducible apply failWith_st
    | with_reducible apply setItem_st
    | with_reducible apply flagEpoch_st
    | with_reducible apply commitEpoch_st
    | with_reducible apply rollBack_st
    | (fail_if_no_progress with_reducible refine Steady.upd ?_ (by with_unfolding_all rfl))
    | split

theorem retryTurn_st {a s : State} (r : Nat) (hs : Steady a s) : Steady a (retryTurn r s) := by
  unfold retryTurn
  repeat' first
    | with_reducible assumption
    | with_reducible apply runRelease_st
    | with_reducible apply runCreatePair_st
    | with_reducible apply runDeletePair_st
    | with_reducible apply endCancel_st
    | with_reducible apply endRestart_st
    | with_reducible apply runChange_st
    | with_reducible apply startFirmware_st
    | with_reducible apply runEpochResolve_st
    | with_reducible apply runCommit_st
    | (fail_if_no_progress with_reducible refine Steady.upd ?_ (by with_unfolding_all rfl))
    | split

theorem progress_st {a s : State} (hs : Steady a s) : Steady a (progress s) := by
  unfold progress
  repeat' first
    | with_reducible assumption
    | with_reducible apply retryTurn_st
    | with_reducible refine Steady.foldl ?_ (fun _ _ _ => ?_)
    | (fail_if_no_progress with_reducible refine Steady.upd ?_ (by with_unfolding_all rfl))
    | split

theorem pruneVersions_st {a s : State} (hs : Steady a s) : Steady a (pruneVersions s) := by
  unfold pruneVersions
  repeat' first
    | with_reducible assumption
    | (fail_if_no_progress with_reducible refine Steady.upd ?_ (by with_unfolding_all rfl))
    | split

theorem ltrUpdate_st {a s : State} (hs : Steady a s) : Steady a (ltrUpdate s) := by
  unfold ltrUpdate
  repeat' first
    | with_reducible assumption
    | (intro y; refine (fun (k : Steady a y) => ?_) ?_; (on_goal 1 => clear_value y); on_goal 2 => subst y)
    | (intro y; refine (fun (k : Steady a y.1) => ?_) ?_; (on_goal 1 => clear_value y); on_goal 2 => subst y)
    | (intro y; subst y)
    | lift_lets
    | with_reducible apply emit_st
    | (fail_if_no_progress with_reducible refine Steady.upd ?_ (by with_unfolding_all rfl))
    | split

theorem endDrain_st {a s : State} (hs : Steady a s) : Steady a (endDrain s) := by
  unfold endDrain
  repeat' first
    | with_reducible assumption
    | (fail_if_no_progress with_reducible refine Steady.upd ?_ (by with_unfolding_all rfl))
    | split

end Sys2Proof.Laws
end

