-- ==== Sys2Proof/WellFormed.lean ====
section
/-! DEFINITION. Which operands the outside world can give a command: numbers within their tables, bytes in canonical form, frames whose fields
fit. The machine gives a meaning to every command, well formed or not; these are the ranges that the spec gives the operands. -/

namespace Sys2Proof

/-- Every number of the list lies below `n`. -/
def allBelow (n : Nat) (l : List Nat) : Bool := l.all (fun x => decide (x < n))

/-- A queue pair of R171: 0 to 2,047. -/
def pairOk (q : Nat) : Bool := decide (q < 2048)

/-- A die of Table 15-1: channel × 4 + group. -/
def dieOk (d : Nat) : Bool := decide (d < 64)

/-- A decoder of the LDPC island (R319). -/
def decoderOk (d : Nat) : Bool := decide (d < 8)

/-- A scribe core (R318). -/
def coreOk (k : Nat) : Bool := decide (k < 10)

/-- A flash channel (R1). -/
def channelOk (c : Nat) : Bool := decide (c < 16)

/-- A ligature address that a frame's source can have (R420). -/
def sourceOk (x : Nat) : Bool := decide (x < 24)

/-- A unit of Table 15-1 that reports faults, one byte. -/
def unitOk (x : Nat) : Bool := decide (x < 256)

/-- A ruling: 64 bits, 0 names none (R177). -/
def rulingOk (r : Nat) : Bool := decide (r < 2 ^ 64)

/-- A handle of a long operation: 16 bits, 0 names none (R227). -/
def handleOk (h : Nat) : Bool := decide (0 < h) && decide (h < 65536)

/-- A device block (R4). -/
def blockOk (b : Nat) : Bool := decide (b < 2 ^ 40)

/-- Bytes of a transfer, 4 GiB at most, in canonical form (R166). -/
def dataOk (d : Byte) (m : Mem) : Bool := Mem.wf d m && m.all (fun c => decide (c.1 < 2 ^ 32))

/-- What a fault hits exists. -/
def hitOk : Hit → Bool
  | .none => true
  | .write r b => rulingOk r && blockOk b
  | .read r b => rulingOk r && blockOk b
  | .pair q => pairOk q
  | .task => true
  | .control => true
  | .stroke n _ => decide (n < 2 ^ 31)
  | .cache b => blockOk b
  | .table => true
  | .gate p w r => decide (p < 65) && decide (w < 64) && rulingOk r
  | .die d => dieOk d
  | .channel c => channelOk c
  | .decoder d => decoderOk d
  | .core k => coreOk k

/-- The settings of configuration space that the host can make: sizes in bytes are powers of two from 128 to 4,096 (R148). -/
def hostOk (h : HostCfg) : Bool := h.mps ∈ [128, 256, 512, 1024, 2048, 4096] && h.mrrs ∈ [128, 256, 512, 1024, 2048, 4096]

/-- A class table has the shape of Table 13-5 and offsets of one signed byte. -/
def tableOk (t : DieTable) : Bool :=
  let byte := fun (x : Int) => decide (-128 ≤ x) && decide (x ≤ 127)
  decide (t.die < 64) && t.tlc.length = 64 && t.tlc.all (fun l => l.length = 7 && l.all byte) && t.slc.length = 64 && t.slc.all byte
    && t.cross.length = 8 && t.cross.all byte

/-- The operands of a command lie in the ranges that the spec gives them. -/
def Instr.wf : Instr → Bool
  | .powerOnReset _ => true
  | .powerLoss => true
  | .dumpComplete _ _ _ => true
  | .pinReset => true
  | .sequencerRowRead _ => true
  | .strapSample microvolts => decide (microvolts.length = 9)
  | .faultIslandRelease => true
  | .resetStretchEnd _ => true
  | .vccqSettled _ => true
  | .resetRelease _ cores decoders => allBelow 10 cores && allBelow 8 decoders
  | .islandRelease _ _ => true
  | .islandClockTimeout _ => true
  | .faceSelection _ _ => true
  | .imageCheck => true
  | .dramTrained => true
  | .adminReady => true
  | .recovery errors _ => decide (errors.length ≤ 64) && errors.all (fun l => decide (l.length ≤ 16) && l.all (fun x => decide (x.length = 4)))
  | .ioReady => true
  | .failedStartLimit => true
  | .narrowIdReady => true
  | .linkTrained speed width _ host => decide (1 ≤ speed) && decide (speed ≤ 6) && width ∈ [1, 2] && hostOk host
  | .bootstrapEnable => true
  | .bootstrapEnableClear => true
  | .shutdownRequest => true
  | .shutdownComplete => true
  | .bar0RegisterWrite off len _ => decide (off + len ≤ 131072)
  | .bar0OversizedRead off len => decide (off + len ≤ 131072)
  | .submissionTailDoorbell q _ => pairOk q
  | .pair0ResumeDoorbell _ => true
  | .completionHeadDoorbell q _ => pairOk q
  | .msixVectorUnmask v => decide (v < 2048)
  | .hotReset => true
  | .linkDown => true
  | .functionLevelReset => true
  | .d3hotEntry => true
  | .d3hotExit => true
  | .linkError _ _ _ => true
  | .moduleRequestFailure r q _ => (decide (r = 0) || rulingOk r) && pairOk q
  | .clkreqnHostAssert => true
  | .fetchTurn entries => decide (entries.length ≤ 128)
  | .admissionStallEnd => true
  | .rangeLockGranted r => rulingOk r
  | .writeDataReceived r data _ => rulingOk r && dataOk 0 data
  | .readDataDelivered r _ => rulingOk r
  | .write q => pairOk q
  | .read q => pairOk q
  | .flush q => pairOk q
  | .release q => pairOk q
  | .verify q => pairOk q
  | .planeRead q => pairOk q
  | .precisionRead q => pairOk q
  | .createQueuePair => true
  | .deleteQueuePair => true
  | .resumeQueue => true
  | .cancelCommand => true
  | .controllerRestart => true
  | .awaitEvent => true
  | .identify q _ => pairOk q
  | .getLogPage q _ => pairOk q
  | .getLogPageClear q _ => pairOk q
  | .getLogPageAcknowledge q _ => pairOk q
  | .setTime => true
  | .powerHint => true
  | .powerHintExpiry => true
  | .createPartition => true
  | .deletePartition => true
  | .cap => true
  | .uncap => true
  | .fix => true
  | .setAccess => true
  | .sanitizeDevice => true
  | .sanitizeComplete => true
  | .selfTest => true
  | .selfTestSegmentDone _ => true
  | .calibrate => true
  | .calibrationComplete tables => tables.all tableOk
  | .operationSuspend => true
  | .operationResume => true
  | .operationCancel => true
  | .longOperationSuspended h => handleOk h
  | .rebuildComplete h => handleOk h
  | .firmwareDownload data _ => dataOk 0xFF data
  | .bootFlashOperationComplete _ => true
  | .firmwareActivateNextReset => true
  | .firmwareActivateImmediate => true
  | .firmwareActivationRestart => true
  | .firmwareActivateOtherBank => true
  | .attest _ => true
  | .epochCommit => true
  | .epochResolve => true
  | .selectVersion _ _ => true
  | .versionEffective => true
  | .identificationPhaseEntry => true
  | .readStatus _ _ => true
  | .writeTaskRegister _ _ => true
  | .readTaskRegister _ _ => true
  | .writeTaskBlock _ _ => true
  | .readTaskBlock _ _ => true
  | .executeTask _ _ => true
  | .writeData _ _ => true
  | .hostDataBlock data crcs => dataOk 0 data && decide (crcs.length = 1 ∨ crcs.length = 4)
  | .readData _ _ => true
  | .resumeTask _ _ => true
  | .cancelTask _ _ => true
  | .sendTuningBlock _ _ => true
  | .busReset _ _ => true
  | .malformedCommandFrame _ => true
  | .channelDispatch c => channelOk c
  | .nestedSuspendLimit d => dieOk d
  | .dieProgramComplete d _ _ _ plane => dieOk d && decide (plane < 4)
  | .dieEraseComplete d _ plane => dieOk d && decide (plane < 4)
  | .dieReadComplete d _ => dieOk d
  | .ldpcDecodeComplete _ decoder _ _ => decoderOk decoder
  | .decoderTimeout decoder => decoderOk decoder
  | .dieReadyTimeout d => dieOk d
  | .dieResetWaitExpiry d => dieOk d
  | .dieSlowDiversion d => dieOk d
  | .failureHoldbackExpiry d => dieOk d
  | .logPageFill => true
  | .logPageVerified => true
  | .checkpointStart => true
  | .garbageCollectionStart => true
  | .settledWaitExpiry => true
  | .foldStart => true
  | .demotion stroke => decide (stroke < 2 ^ 31)
  | .wearLevelling => true
  | .patrol _ => true
  | .agingClockTick temps => decide (temps.length = 64)
  | .ejectionWarning => true
  | .wpswPinEvent _ => true
  | .bankReady _ => true
  | .bankReadyLost _ => true
  | .bankFaultTimeout _ => true
  | .faultReport source cls _ hit => unitOk source && decide (cls < 16) && hitOk hit
  | .wireFault source => unitOk source
  | .islandStall source requester => unitOk source && unitOk requester
  | .lockstepDisagreement => true
  | .safeLevelEnd => true
  | .scribeWatchdogExpiry core => coreOk core
  | .deviceWatchdogExpiry => true
  | .brownOut _ => true
  | .vccqOutOfRange _ => true
  | .memoryScrub _ _ wrongBits hit => decide (1 ≤ wrongBits) && hitOk hit
  | .aliveEdge => true
  | .actHoldExpiry => true
  | .dbgaddr _ => true
  | .dbgdata _ => true
  | .dbgchal => true
  | .dbgunlk _ _ => true
  | .extest _ => true
  | .leaderLckWatchEnd _ => true
  | .leaderTickTimer => true
  | .leaderCallTimer => true
  | .musterTimer => true
  | .ligatureFrameSend differs => (match differs with | some b => decide (b < 48) | none => true)
  | .tick source _ => sourceOk source
  | .call source _ => sourceOk source
  | .present source _ => sourceOk source
  | .muster source _ => sourceOk source
  | .prepare source _ => sourceOk source
  | .members source _ => sourceOk source
  | .ready source _ => sourceOk source
  | .refuse source _ => sourceOk source
  | .commit source _ => sourceOk source
  | .abort source _ => sourceOk source
  | .query source _ => sourceOk source
  | .state source _ => sourceOk source
  | .ligatureFrameError _ => true
  | .tickLossTimeout => true
  | .lrdyRise => true
  | .preparePersistent => true
  | .commitPersistent => true
  | .prepareTimeout => true
  | .commitReleaseTimeout => true
  | .leaderDecisionTimer => true
  | .preparedQueryTimer => true
  | .indoubtQueryWindowEnd => true
  | .ps2Entry => true
  | .ps3Entry => true
  | .ps4Entry => true
  | .ps4EntryComplete => true
  | .wakeEvent => true
  | .temperatureReading _ _ => true
  | .throttleLeave => true
  | .thermalSafeExit => true
  | .ejectnRise => true
  | .interfaceTrainingComplete c _ _ => channelOk c
  | .minimumRunAfterResumeExpiry d => dieOk d
  | .ruleEpochDrainLimit => true
  | .reservedIndexFrame _ _ _ => true
  | .invalidOpcodeCommand q => pairOk q

end Sys2Proof
end

