-- ==== Sys2Proof/Tests/Slice0.lean ====
section
/-! SUPPORT. Small states that meet the hypotheses of every clause of the obligations, ill-formed commands that WellFormed refuses, and
single steps whose results the spec states. -/

namespace Sys2Proof.Tests

open Sys2Proof Sys2Proof.Machine

set_option Elab.async false

/-! ## Builders -/

/-- A submission entry: opcode, partition, and further fields as offset, width and value (Table 07-1); its identifier is 7. -/
def cmd (op part : Nat) (l : List (Nat × Nat × Nat)) : Entry :=
  ((0x00, 1, op) :: (0x02, 2, 7) :: (0x04, 1, part) :: l).foldl (fun e f => Entry.put e f.1 f.2.1 f.2.2) (0 : Entry)

def fet (q : Nat) (e : Entry) : Fetched := { narrow := false, q := q, slot := 0, entry := e, stalled := false, retries := 0 }

def part1 : Part :=
  { id := 1, base := 0, size := 64, sector := false, layout := 0, width := 0, planes := 0, owner := 0, rd := BitVec.allOnes 64
    wr := BitVec.allOnes 64, capped := false, fixed := false, born := 1 }

def pairOf (id : Nat) : Pair :=
  { id := id, well := 0, vector := id, burst := 8, sqBase := 0x10000, cqBase := 0x20000, sqSize := 16, cqSize := 16, tail := 4, head := 0
    cqHead := 0, cqTail := 0, phase := true, frozen := none, refetch := false, retry := [], contained := false, deleting := false }

def parts1 : MapState := { MapState.empty with parts := [part1] }

/-- An outstanding command of pair q, past no cancel point, with no lock. -/
def itemOf (r q : Nat) (e : Entry) (w : Wait) : Item :=
  { ruling := r, narrow := false, q := q, slot := 0, entry := e, well := 0, epoch := 1, lock := none, past := false, wait := w, resClaim := 0
    hairClaim := 0, retries := 0, result := 0, verdict := 0, after := none, fast := false, segs := [] }

/-- I/O ready on the PCIe face with two pairs and one partition: SA4 nested, SA5 hold-up and ejection, SA8 update and debug, standalone. -/
def up : State :=
  { State.reset with
    rst := { Rst.init with
      phase := .run, power := false, rowsRead := true, calGood := true, osc50 := true, faultReleased := true
      islands := allIslands.map (·, .released), face := .pcie, armedPcie := true, imageRuns := true, dram := true, recovered := true
      admin := true, io := true }
    strap := { Strap.init with codes := [0, 0, 2, 0, 2, 3, 7, 7, 2], vccq18 := some true, vccqMv := 1800 }
    lands := { Lands.init with resetLow := false, alive := .khz1 }
    pcie := { Pcie.init with host := { HostCfg.init with command := 6 }, speed := 4, width := 2, request := 2, granted := 2, enable := true, ready := true, asqSize := 16, acqSize := 16 }
    nib := { Nib.init with next := 10, ceiling := 1000, pairs := [pairOf 0, pairOf 1], adm := parts1 }
    dies := { State.reset.dies with cold := [] }
    map := parts1 }

/-- The same with one fetched command. -/
def upWith (q : Nat) (e : Entry) : State := { up with nib := { up.nib with fetched := [fet q e] } }

/-- A member of a ligature, address 3, with the leader's address 0. -/
def lug : State := { up with strap := { up.strap with codes := [0, 0, 2, 0, 2, 3, 0, 3, 2] }, lig := { Lig.init with state := 2, joined := 15 } }

/-- The leader. -/
def lead : State := { lug with strap := { up.strap with codes := [0, 0, 2, 0, 2, 3, 0, 0, 2] } }

/-- The narrow bus in version N2 with the task idle. -/
def nar : State :=
  { up with
    rst := { up.rst with face := .narrow, armedPcie := false, armedNarrow := true }, pcie := Pcie.init
    nib := { up.nib with pairs := [] }, nb := { Narrow.init with idReady := true, version := 2 } }

/-! ## The hypotheses on states, as tests -/

def soundB (s : State) : Bool :=
  decide (s.flt.blotter.length ≤ 32) && decide (s.aon.tail.length ≤ 8) && decide (s.aon.queue.length ≤ 8)
  && decide (s.elog.list.length ≤ 256) && decide (s.aon.failed ≤ 15) && s.nib.items.all (fun i => decide (i.ruling < s.nib.next))
  && decide (1 ≤ s.nib.next) && decide (s.pwr.ps ≤ 4) && decide (s.pwr.step ≤ 4) && decide (s.nb.version ≤ 3)
  && s.nb.grantedNext.all (fun x => x.1 ≤ 3) && decide (s.pcie.granted ≤ 2) && decide (s.dbg.fails ≤ 3) && decide (s.lig.state ≤ 3)
  && Mem.wf 0 s.pcie.msixTable && Mem.wf 0xFF s.boot.bankA.bytes && Mem.wf 0xFF s.boot.bankB.bytes
  && s.boot.dl.all (fun d => Mem.wf 0xFF d.piece)

theorem sound_of {s : State} (h : soundB s = true) : s.Sound := by
  simp only [soundB, Bool.and_eq_true, decide_eq_true_eq, List.all_eq_true] at h
  obtain ⟨⟨⟨⟨⟨⟨⟨⟨⟨⟨⟨⟨⟨⟨⟨⟨⟨h1, h2⟩, h3⟩, h4⟩, h5⟩, h6⟩, h7⟩, h8⟩, h9⟩, h10⟩, h11⟩, h12⟩, h13⟩, h14⟩, h15⟩, h16⟩, h17⟩, h18⟩ := h
  exact ⟨h1, h2, h3, h4, h5, h6, h7, h8, h9, h10, h11, h12, h13, h14, h15, h16, h17, fun d hd => by simpa [hd] using h18⟩

def takesB (s : State) (c : Instr) (q : Nat) (f : Fetched) : Bool :=
  match s.hostRow c with | some x => decide (x.1 = q) && x.2 f.entry | none => false

theorem takes_of {s : State} {c : Instr} {q : Nat} {f : Fetched} (h : takesB s c q f = true) : s.Takes c q f := by
  unfold takesB at h
  split at h
  · rename_i x hx
    obtain ⟨a, k⟩ := x
    simp only [Bool.and_eq_true, decide_eq_true_eq] at h
    obtain ⟨rfl, hk⟩ := h
    exact ⟨k, hx, hk⟩
  · cases h

def rulesB (s : State) (q : Nat) (f : Fetched) : Bool :=
  decide (s.front? q = some f) && s.canRule && s.awake && !f.stalled && !s.mustStall f && !s.outranked q f

theorem rules_of {s : State} {q : Nat} {f : Fetched} (h : rulesB s q f = true) : s.Rules q f := by
  simp only [rulesB, Bool.and_eq_true, decide_eq_true_eq, Bool.not_eq_true'] at h
  obtain ⟨⟨⟨⟨⟨h1, h2⟩, h3⟩, h4⟩, h5⟩, h6⟩ := h
  exact ⟨h1, h2, h3, h4, h5, h6⟩

def entersB (s : State) (q : Nat) (f : Fetched) (g : Given) : Bool :=
  rulesB s q f && decide ((s.ruledBy f).checkEarly false q f.entry = none) && !(s.listed q f g).waitsForMedia f.entry

theorem enters_of {s : State} {q : Nat} {f : Fetched} {g : Given} (h : entersB s q f g = true) : s.Enters q f g := by
  simp only [entersB, Bool.and_eq_true, decide_eq_true_eq, Bool.not_eq_true'] at h
  exact ⟨rules_of h.1.1, h.1.2, h.2⟩

/-- The state in which a command of the row begins, and its item there. -/
def tOf (s : State) (c : Instr) (q : Nat) (f : Fetched) : State := admitted (s.listedItem q f (rowGiven c)) (s.listed q f (rowGiven c))

def iOf (s : State) (c : Instr) (q : Nat) (f : Fetched) : Item := ((tOf s c q f).item? s.nib.next).getD (s.ruledItem q f)

def beginsB (s : State) (c : Instr) (q : Nat) (f : Fetched) : Bool :=
  soundB s && takesB s c q f && entersB s q f (rowGiven c)
  && decide ((s.listed q f (rowGiven c)).checkLate (s.ruledItem q f).well f.entry = none)
  && ((tOf s c q f).item? s.nib.next).isSome && (tOf s c q f).granted (iOf s c q f) && decide ((iOf s c q f).verdict = 0)
  && decide ((iOf s c q f).retries < 2)
  && !(isBlockCmd (Entry.opcode (iOf s c q f).entry) && (tOf s c q f).rangeInDoubt (iOf s c q f))

theorem begins_of {s : State} {c : Instr} {q : Nat} {f : Fetched} (h : beginsB s c q f = true) :
    s.Begins c q f (tOf s c q f) (iOf s c q f) := by
  simp only [beginsB, Bool.and_eq_true, decide_eq_true_eq] at h
  obtain ⟨⟨⟨⟨⟨⟨⟨⟨h1, h2⟩, h3⟩, h4⟩, h5⟩, h6⟩, h7⟩, h8⟩, h9⟩ := h
  rw [Bool.not_eq_true'] at h9
  refine ⟨sound_of h1, takes_of h2, ⟨enters_of h3, h4, rfl, ?_, h6, h7, h8, h9⟩⟩
  unfold iOf
  cases hi : (tOf s c q f).item? s.nib.next with
  | none => rw [hi] at h5; cases h5
  | some x => rfl

/-- The answer of a command, taken out of the outcome. -/
def execTo (c : Instr) (s : State) : State := match exec c s with | .next t => t | _ => s

theorem exec_to (c : Instr) (s : State) (h : (match exec c s with | .next _ => true | _ => false) = true) : exec c s = .next (execTo c s) := by
  unfold execTo
  split at h
  · rename_i t ht; rw [ht]
  · cases h

/-- The state that a step leaves. -/
def stepTo (s : State) : State := match step s with | .next t => t | _ => s

theorem step_to (s : State) (h : (match step s with | .next _ => true | _ => false) = true) : step s = .next (stepTo s) := by
  unfold stepTo
  split at h
  · rename_i t ht; rw [ht]
  · cases h

/-! ## Small records -/

/-- Every island but one released. -/
def allBut (i : Island) (x : IslState) : List (Island × IslState) := allIslands.map (fun j => (j, if j = i then x else .released))

def lopOf (h typ st : Nat) : LongOp :=
  { handle := h, typ := typ, state := st, progress := 0, outcome := 0, detail := 0, ruling := 3, started := 0, active := 0, target := 0xFFFF
    wants := [], lost := false, total := 0, doneDies := [], begun := false, found := false }

def epOf (n st : Nat) : Epoch :=
  { n := n, state := st, initiated := false, atLimit := false, contradictory := false, resolved := false, members := 15, prepRuling := 2
    outcomeRuling := 0, prepared := false, pend := [] }

def bandOf (n : Nat) (st : BandSt) : Band :=
  { n := n, tlc := true, st := st, chans := List.range 16, nextPos := 0, nextWl := 0, erases := 1, cache := false, closedAt := 0, stamps := []
    blks := [], refresh := none, soft := [], softBefore := [], retireAfter := [], eraseWait := [] }

def blkOf (key : Nat) (st : BlkSt) : Blk := { key := key, no := 20, st := st, tlc := true, nextWl := 0, wear := 0, reads := 0, zones := [] }

def rdOf (id r step : Nat) : Rd := { newRd id r 0 0 5 0 0 1 with step := step, staged := true }

def probeOf (id d : Nat) (l : List Nat) : Probe :=
  { id := id, die := d, band := 20, plane := 0, rd := none, cls := 3, todo := l, found := [] }

def opOf (d cls : Nat) (k : OpKind) : DieOp := { die := d, cls := cls, kind := k, minRun := false }

def dieWith (d : Nat) (o : Option DieOp) : Die := { Die.idle d with active := o }

def progOf (id band wl : Nat) (w : List Nat) : Prog := { id := id, band := band, wl := wl, tlc := true, cls := 4, wait := w, begun := false, slots := [] }

def cwOf (b : Nat) : Codeword :=
  { block := b, ruling := 2, part := 1, pad := false, poisoned := false, relocated := false, system := false, stream := 0, temp := 250, wall := 0, aging := 0
    data := [] }

def dlOf (at_ off len next : Nat) (done : Bool) : Download :=
  { next := next, complete := done, piece := [], pieceLen := len, pieceOff := off, at_ := at_, fails := [] }

def blotOf (seq cls : Nat) : Blot :=
  { slot := 0, seq := seq, resetNo := 1, kind := 1, cls := cls, level := 3, escalated := false, acked := false, hostAcked := false
    earlier := false, source := 0, count := 1, time := 0, detail := 0 }

def endingOf (q : Nat) : Ending :=
  { ruling := 5, narrow := false, q := q, slot := 0, entry := cmd 2 1 [], well := 0, freezes := true }

def stgOf (r b : Nat) (poisoned : Bool) : Staged :=
  { ruling := r, part := 1, hair := 0, block := b, stream := 0, epoch := 0, poisoned := poisoned, placed := none, verified := false, data := [] }

def pageOf (n : Nat) : LogPage :=
  { seq := n, clean := false, opened := false, dump := false, recs := [], settled := 0, ceiling := 0, wall := 0, powerOn := 0, cpSlot := none
    cpStart := 0, replay := 0, cpRuling := 0, aging := [] }

def emptyingOf (n kind : Nat) : Emptying :=
  { band := n, kind := kind, cls := 3, logged := true, logSeq := 0, copied := 0, dueStale := 1, waited := false, lost := [] }


/-! ## Worked examples of the spec -/

/-- R4's example: the 14.0 TB profile has 3,417,968,750 blocks, the 08T's 6.5 TB profile 1,586,914,062. -/
theorem test_capacity : State.reset.logicalBlocks = 3417968750
    ∧ State.logicalBlocks { State.reset with unit.variant := .t08, strap.codes := [7, 7, 7, 1, 7, 7, 7, 7, 7] } = 1586914062 := by decide +kernel

/-- The strap chapter's example: the parts fitted read as the codes given. -/
theorem test_strap_parts : [4990, 2000, 10000, 2000, 2000000, 10000, 0, 40200, 2000000].map strapBand
    = [some 2, some 1, some 3, some 1, some 7, some 3, some 0, some 5, some 7] := by decide +kernel

/-- Its settings: PCIe only, Gen5 x2, 10 W, nested, hold-up with EJECTn, address 5, debug off with update allowed. -/
theorem test_strap_settings : let s : State := { State.reset with unit.variant := .t08, strap.codes := [2, 1, 3, 1, 7, 3, 0, 5, 7] }
    s.sa0 = 2 ∧ s.sa1 = 1 ∧ s.powerClass = 10 ∧ s.suspendPolicy = 2 ∧ s.holdupFitted = true ∧ s.ejectUsed = true
    ∧ s.ligAddress = some 5 ∧ s.updateAllowed = true ∧ s.debugOn = false := by decide +kernel

/-- Chapter 05's identification string, 134 bytes. -/
theorem test_identification : let s : State := { State.reset with unit.variant := .t08, strap.vccq18 := some false, strap.codes := List.replicate 9 7, rst.phase := .run, rst.imageRuns := true, boot.runVersion := 0x20202020202020202031312E34302E32 }
    s.idString = ascii "EXD;VEND=BURRINOV;PART=SX6400-08T-C;SER=3Q8M-0417-7720;FW=A:2.04.11;VER=N1,N2;WID=1,4;VQ=3.3;LBS=4096;CAP=1708984375;MODE=START;LIG=S;"
    ∧ s.idString.length = 134 := by decide +kernel

/-- Chapter 09's interleave example: host byte 80,002 lies at byte 3,616 of storage block 18. -/
theorem test_interleave : interleaveStore 2 4 80002 = 18 * 4096 + 3616 ∧ interleaveHost 2 4 (18 * 4096 + 3616) = 80002 := by decide +kernel

/-- Chapter 09's bit-plane example: storage block 24j holds bit 23 of a group's samples, block 24j + 23 holds bit 0. -/
theorem test_bit_planes : planeStore 3 (24 * 32768 * 2 + 23) = 32768 * 24 * 2 ∧ planeStore 3 (24 * 32768 * 2) = 32768 * (24 * 2 + 23) := by decide +kernel

/-- Chapter 10's example: 100 h, 5,900 h and 5,932 h after the stamp, a block of 20,000 wear units has classes 27, 51 and 51 on die 12; the fixed offsets of the
ladder reach class 32. -/
theorem test_threshold_class :
    [100, 5900, 5932].map (fun h => State.computedClass { State.reset with dies.aging := List.replicate 12 0 ++ [(30000 + 60 * h) * 2 ^ 32] }
      { bandOf 1207 .closed with stamps := [⟨0, 0, 30000, 0⟩] } { blkOf 50 .closed with wear := 20000 } 0) = [27, 51, 51]
    ∧ stepClass 27 6 = 32 := by decide +kernel

/-! ## Single steps -/

/-- Chapter 07's example: the capped partition's write fails with 0Dh under its own ruling, and its slot freezes pair 1 (R189, Table 07-6). -/
theorem test_capped_write : let e := cmd 1 1 [(0x10, 4, 4096), (0x28, 4, 1)]
    let t := execTo (.write 1) { up with nib.adm.parts := [{ part1 with capped := true }], nib.fetched := [{ fet 1 e with slot := 3 }] }
    (t.pair? 1).map (·.frozen) = some (some 3) ∧ t.elog.list.map (fun x => (x.status, x.ruling, x.pos)) = [(0x0D, 10, 3)]
    ∧ t.nib.next = 11 ∧ t.nib.items = [] := by decide +kernel

/-- A read of an unmapped block has its data at once, and completes once it is delivered (R209). -/
theorem test_unmapped_read : let t := execTo (.read 1) (upWith 1 (cmd 2 1 [(0x10, 4, 4096), (0x28, 4, 1)]))
    t.nib.items.map (·.wait) = [.data] ∧ t.readsOpen 10 = false ∧ (execTo (.readDataDelivered 10 []) t).nib.items = [] := by decide +kernel

/-- A write's data enters the reservoir at its block, and the write, which is not durable, completes unsettled (R186, R494). -/
theorem test_write_data : let t := execTo (.write 1) (upWith 1 (cmd 1 1 [(0x10, 4, 4096), (0x20, 8, 5), (0x28, 4, 1)]))
    let u := execTo (.writeDataReceived 10 [(0, 7)] []) t
    u.res.staged.map (fun x => (x.block, x.data)) = [(5, [(0, 7)])] ∧ u.nib.items = [] ∧ u.nib.unsettled = [10] := by decide +kernel

/-- Select Version of N3 at VCCQ 3.3 V: Granted 0, Offered 2 (chapter 05's example); the version stands. -/
theorem test_select_n3 : let t := execTo (.selectVersion 1 3) { nar with nb.version := 0, strap.vccq18 := some false }
    t.nb.version = 0 ∧ t.nb.grantedNext = none := by decide +kernel

/-- A doorbell of an index that is not below the ring's size is discarded, with an error log entry of status 08h; no queue freezes (R169). -/
theorem test_bad_doorbell : let t := execTo (.submissionTailDoorbell 1 16) up
    t.nib = up.nib ∧ t.elog.list.map (fun x => (x.status, x.q, x.pos)) = [(0x08, 1, 16)] := by decide +kernel

/-- Level entry of the throttle: 93 °C in a die is step 2, which is FC11 (Table 17-6). -/
theorem test_throttle : let t := execTo (.temperatureReading 250 930) up
    t.pwr.step = 2 ∧ t.flt.blotter.map (·.cls) = [11] := by decide +kernel

/-- An access of the debug port to a locked region reads 0 and is recorded (R392). -/
theorem test_locked_debug : let t := execTo (.dbgdata 0) { up with dbg.addr := 0 }
    t.dbg.met = true ∧ t.out = [.tdo 0] := by decide +kernel

/-- SA1 at code 3, Gen6 x1: Max Link Speed 0110b, Max Link Width 1, and every speed up to it is supported (R147's example, Table 06-2); the header after reset. -/
theorem test_link_capability : ({ up with strap := { up.strap with codes := [0, 3, 2, 0, 2, 3, 0, 3, 2] } } : State).linkCapability = (6, 0x7E, 1)
    ∧ (0x10, 4, 4) ∈ up.configHeader ∧ (0x2E, 2, 0x0010) ∈ State.reset.configHeader := by decide +kernel

/-- Another card's prepare opens while this card's Prepare waits for the line: it is withdrawn, and its Epoch Commit waits again (R433). -/
theorem test_prepare_gives_way :
    let i := itemOf 5 0 (cmd 0xA8 0 [(0x2C, 4, 8), (0x30, 4, 8)]) .ligature
    let t := execTo (.members 1 1) { lug with lig.held := some (1, 5), lig.initiating := some (8, 0), lig.sendQ := [⟨3, 4, 8⟩, ⟨3, 5, 8⟩], nib.items := [i] }
    t.lig.open_ = some (1, 5) ∧ t.lig.sendQ = [] ∧ t.lig.initiating = none ∧ t.nib.items = [i] := by decide +kernel

/-! ## Ill-formed commands, one for each check of WellFormed -/

theorem test_illformed_numbers : [Instr.resetRelease true [10] [], .resetRelease true [] [8], .write 2048, .decoderTimeout 8, .scribeWatchdogExpiry 10,
    .channelDispatch 16, .tick 24 0, .wireFault 256, .rangeLockGranted (2 ^ 64), .longOperationSuspended 0, .longOperationSuspended 65536,
    .dieReadyTimeout 64, .dieEraseComplete 0 true 4, .dieReadComplete 64 0, .msixVectorUnmask 2048, .demotion (2 ^ 31), .bar0OversizedRead 131072 1,
    .ligatureFrameSend (some 48)].all (fun i => !i.wf) = true := by decide +kernel

theorem test_illformed_data : [Instr.writeDataReceived 1 [(1, 1), (0, 1)] [], .writeDataReceived 1 [(0, 0)] [], .writeDataReceived 1 [(2 ^ 32, 1)] [],
    .firmwareDownload [(0, 0xFF)] [], .hostDataBlock [] [0, 0], .strapSample [], .agingClockTick [], .memoryScrub true 0 0 .none,
    .fetchTurn (List.replicate 129 0), .recovery (List.replicate 65 []) none, .calibrationComplete [⟨64, [], [], []⟩],
    .linkTrained 7 1 false HostCfg.init, .linkTrained 1 4 false HostCfg.init, .linkTrained 1 1 false { HostCfg.init with mps := 100 },
    .faultReport 0 16 0 .none].all (fun i => !i.wf) = true := by decide +kernel

theorem test_illformed_hits : [Hit.write 0 (2 ^ 40), .read (2 ^ 64) 0, .pair 2048, .stroke (2 ^ 31) true, .cache (2 ^ 40), .gate 65 0 0, .gate 0 64 0,
    .die 64, .channel 16, .decoder 8, .core 10].all (fun h => !(Instr.faultReport 0 1 0 h).wf) = true := by decide +kernel

theorem test_wellformed : [Instr.resetRelease true [9] [7], .write 2047, .writeDataReceived (2 ^ 64 - 1) [(0, 1), (2 ^ 32 - 1, 255)] [],
    .linkTrained 6 2 true HostCfg.init, .ligatureFrameSend none].all (·.wf) = true := by decide +kernel

/-- The table gives no row any bits, so no word spells a command. -/
theorem test_table_words : decodeTableWord 0 0 = none ∧ State.withFetchWord State.reset 8 0xFF = State.reset := ⟨rfl, rfl⟩


/-! ## The hypotheses of every clause can be met

One theorem for each obligation that has hypotheses: for each clause, values that meet all of the clause's hypotheses together. -/

theorem test_meets_StepRunsTheFrontCommand :
    ∃ (c : Instr) (rest : List Instr) (s : State), s.pending = c :: rest :=
  ⟨.hotReset, [.linkDown], {up with pending := [.hotReset, .linkDown]}, by decide +kernel⟩

theorem test_meets_EmptyQueuePassesOneMillisecond :
    (∃ (s : State), s.pending = [] ∧ s.running = false)
    ∧ (∃ (s : State), s.pending = [] ∧ s.running = true ∧ 0x01 ∉ s.flt.out) :=
  ⟨⟨State.reset, by decide +kernel⟩,
   ⟨up, by decide +kernel⟩⟩

theorem test_meets_EveryStepKeepsSoundness :
    ∃ (s : State) (t : State), s.Sound ∧ step s = .next t :=
  ⟨up, (stepTo up), sound_of (by decide +kernel), step_to _ rfl⟩

theorem test_meets_FailuresAndWearArePermanent :
    (∃ (s : State) (t : State), step s = .next t)
    ∧ (∃ (s : State) (t : State), step s = .next t ∧ s.rec_.worn = true)
    ∧ (∃ (s : State) (t : State) (d : _), step s = .next t ∧ d ∈ s.rec_.failedDies)
    ∧ (∃ (s : State) (t : State) (c : _), step s = .next t ∧ c ∈ s.rec_.failedChannels) :=
  ⟨⟨{up with rec_.worn := true, rec_.failedDies := [5], rec_.failedChannels := [3], pending := [.hotReset]}, (stepTo
      {up with rec_.worn := true, rec_.failedDies := [5], rec_.failedChannels := [3], pending := [.hotReset]}), step_to _ rfl⟩,
   ⟨{up with rec_.worn := true, rec_.failedDies := [5], rec_.failedChannels := [3], pending := [.hotReset]}, (stepTo
       {up with rec_.worn := true, rec_.failedDies := [5], rec_.failedChannels := [3], pending := [.hotReset]}), step_to _ rfl, by decide +kernel⟩,
   ⟨{up with rec_.worn := true, rec_.failedDies := [5], rec_.failedChannels := [3], pending := [.hotReset]}, (stepTo
       {up with rec_.worn := true, rec_.failedDies := [5], rec_.failedChannels := [3], pending := [.hotReset]}), 5, step_to _ rfl, by decide +kernel⟩,
   ⟨{up with rec_.worn := true, rec_.failedDies := [5], rec_.failedChannels := [3], pending := [.hotReset]}, (stepTo
       {up with rec_.worn := true, rec_.failedDies := [5], rec_.failedChannels := [3], pending := [.hotReset]}), 3, step_to _ rfl, by decide +kernel⟩⟩

theorem test_meets_RulingsNeverGoBack :
    (∃ (s : State) (t : State), s.Sound ∧ step s = .next t ∧ s.running = true ∧ t.running = true)
    ∧ (∃ (s : State) (t : State) (i : _), s.Sound ∧ step s = .next t ∧ i ∈ t.nib.items ∧ s.running = true ∧ t.running = true) :=
  ⟨⟨{up with pending := [.hotReset], nib.items := [itemOf 9 1 (cmd 3 0 []) .persist]}, (stepTo
      {up with pending := [.hotReset], nib.items := [itemOf 9 1 (cmd 3 0 []) .persist]}), sound_of (by decide +kernel), step_to _ rfl, by decide +kernel⟩,
   ⟨{up with nib.items := [itemOf 9 1 (cmd 3 0 []) .persist]}, (stepTo {up with nib.items := [itemOf 9 1 (cmd 3 0 []) .persist]}), (itemOf 9 1 (cmd 3 0 [])
       .persist), sound_of (by decide +kernel), step_to _ rfl, by decide +kernel⟩⟩

theorem test_meets_WhatSettlingKeeps :
    ∃ (s : State), s.nib.items = [] ∧ s.pcie.clearing = false ∧ s.pcie.d3Next = false ∧ s.dies.reads = [] ∧ s.nib.versions = [] ∧ s.sup.draining = false ∧ poolUpdate
        s = s ∧ actUpdate s = s ∧ s.pwr.ltr = s.ltrRow :=
  ⟨{up with pwr.ltr := 2}, by decide +kernel⟩

theorem test_meets_HostCommandsLeaveTheMachineAlone :
    ∃ (c : Instr) (s : State) (t : State), exec c s = .next t ∧ (s.hostRow c).isSome = true :=
  ⟨(.read 1), up, (execTo (.read 1) up), exec_to _ _ rfl, by decide +kernel⟩

theorem test_meets_ResetsAreTaken :
    (∃ (s : State), s.rst.phase ≠ .dump)
    ∧ (∃ (s : State), s.running = true)
    ∧ (∃ (s : State), s.startFails = true)
    ∧ (∃ (s : State), s.rst.phase ≠ .off ∧ s.rst.phase ≠ .dump ∧ (s.running = false ∨ s.sup.bank ≠ .ready))
    ∧ (∃ (s : State), s.running = true ∧ s.sup.bank = .ready)
    ∧ (∃ (s : State) (ranOut : Bool), s.rst.phase = .dump ∧ (s.rst.recovered = false ∨ ranOut = true))
    ∧ (∃ (s : State), s.rst.phase = .dump ∧ s.rst.recovered = true) :=
  ⟨⟨up, by decide +kernel⟩,
   ⟨up, by decide +kernel⟩,
   ⟨{up with rst.io := false}, by decide +kernel⟩,
   ⟨up, by decide +kernel⟩,
   ⟨{up with sup.bank := .ready}, by decide +kernel⟩,
   ⟨{up with rst.phase := .dump}, true, by decide +kernel⟩,
   ⟨{up with rst.phase := .dump}, by decide +kernel⟩⟩

theorem test_meets_StretchEventsBuildTheStart :
    (∃ (s : State), s.rst.phase = .stretch ∧ s.rst.rowsRead = false)
    ∧ (∃ (s : State), s.rst.phase = .stretch ∧ s.rst.rowsRead = true ∧ s.rst.samples.length < 7)
    ∧ (∃ (s : State), s.rst.phase = .stretch ∧ s.rst.rowsRead = true ∧ s.rst.samples.length = 7)
    ∧ (∃ (s : State), s.rst.phase = .stretch)
    ∧ (∃ (s : State) (mv : Nat), s.rst.phase = .stretch ∧ s.rst.samples.length = 8 ∧ mv < 1650)
    ∧ (∃ (s : State) (mv : Nat) (c : Instr), 1650 ≤ mv ∧ (mv < 2300 ∨ 2500 < mv) ∧ (c = .resetStretchEnd mv ∧ s.rst.phase = .stretch ∧ s.rst.samples.length = 8 ∨ c =
        .vccqSettled mv ∧ s.rst.phase = .extended))
    ∧ (∃ (s : State) (mv : Nat) (c : Instr), 1650 ≤ mv ∧ (mv < 2300 ∨ 2500 < mv) ∧ (c = .resetStretchEnd mv ∧ s.rst.phase = .stretch ∧ s.rst.samples.length = 8 ∨ c =
        .vccqSettled mv ∧ s.rst.phase = .extended))
    ∧ (∃ (s : State) (mv : Nat) (c : Instr), 2300 ≤ mv ∧ mv ≤ 2500 ∧ (c = .resetStretchEnd mv ∧ s.rst.phase = .stretch ∧ s.rst.samples.length = 8 ∨ c = .vccqSettled
        mv ∧ s.rst.phase = .extended))
    ∧ (∃ (s : State) (mv : Nat) (c : Instr), 2300 ≤ mv ∧ mv ≤ 2500 ∧ (c = .resetStretchEnd mv ∧ s.rst.phase = .stretch ∧ s.rst.samples.length = 8 ∨ c = .vccqSettled
        mv ∧ s.rst.phase = .extended))
    ∧ (∃ (x : List (List Nat)) (n : Nat) (c : _), n < 9 ∧ x ≠ [] ∧ (∀ r ∈ x, strapBand (r.getD n 0) = some c) ∧ strapReserved n c = false ∧ (n = 6 ∨ n = 7 →
        pairFault (strapCode 6 (landReadings x 6)) (strapCode 7 (landReadings x 7)) = false))
    ∧ (∃ (x : List (List Nat)) (n : Nat), ((∀ c, ¬ ∀ r ∈ x, strapBand (r.getD n 0) = some c) ∨ (∃ c, strapReserved n c = true ∧ ∀ r ∈ x, strapBand (r.getD n 0) =
        some c)) ∧ n < 9 ∧ x ≠ [])
    ∧ (∃ (x : List (List Nat)) (n : Nat), ((∀ c, ¬ ∀ r ∈ x, strapBand (r.getD n 0) = some c) ∨ (∃ c, strapReserved n c = true ∧ ∀ r ∈ x, strapBand (r.getD n 0) =
        some c)) ∧ n < 9 ∧ x ≠ []) :=
  ⟨⟨State.reset, by decide +kernel⟩,
   ⟨{State.reset with rst.rowsRead := true, rst.samples := List.replicate 6 (List.replicate 9 0)}, by decide +kernel⟩,
   ⟨{State.reset with rst.rowsRead := true, rst.samples := List.replicate 7 (List.replicate 9 0)}, by decide +kernel⟩,
   ⟨State.reset, by decide +kernel⟩,
   ⟨{State.reset with rst.samples := List.replicate 8 (List.replicate 9 0)}, 1649, by decide +kernel⟩,
   ⟨{State.reset with rst.samples := List.replicate 8 (List.replicate 9 0)}, 1650, (.resetStretchEnd 1650), by decide +kernel⟩,
   ⟨{State.reset with rst.phase := .extended}, 2501, (.vccqSettled 2501), by decide +kernel⟩,
   ⟨{State.reset with rst.phase := .extended}, 2300, (.vccqSettled 2300), by decide +kernel⟩,
   ⟨{State.reset with rst.samples := List.replicate 8 (List.replicate 9 0)}, 2500, (.resetStretchEnd 2500), by decide +kernel⟩,
   ⟨[[0,0,0,0,0,0,500,0,0]], 6, 0, by decide +kernel⟩,
   ⟨[[501,0,0,0,0,0,0,0,0]], 0, Or.inl (fun c h => by simp [strapBand] at h), by decide +kernel⟩,
   ⟨[[0,0,0,0,16000,0,0,0,0]], 4, Or.inr ⟨4, by decide +kernel⟩, by decide +kernel⟩⟩

theorem test_meets_TheStartIsChosenAndIslandsReleased :
    (∃ (s : State) (i : Island), s.islandDue i = true ∧ s.islandState i = .held ∧ i ≠ .hostP ∧ i ≠ .hostN)
    ∧ (∃ (s : State), s.islandDue .hostP = true ∧ s.islandState .hostP = .held ∧ s.rst.admin = false ∧ s.rst.face ≠ .narrow)
    ∧ (∃ (s : State), s.islandDue .hostN = true ∧ s.islandState .hostN = .held ∧ s.rst.admin = false ∧ s.rst.face ≠ .pcie)
    ∧ (∃ (s : State) (i : Island), s.islandDue i = true ∧ s.islandState i = .held ∧ s.rst.admin = false ∧ (i = .hostP ∧ s.rst.face = .narrow ∨ i = .hostN ∧
        s.rst.face = .pcie))
    ∧ (∃ (s : State) (i : Island), s.islandDue i = true ∧ s.islandState i = .held ∧ s.rst.admin = false ∧ (i = .hostP ∧ s.rst.face = .narrow ∨ i = .hostN ∧
        s.rst.face = .pcie))
    ∧ (∃ (s : State) (i : Island), s.islandDue i = true ∧ (i, .held) ∈ s.rst.islands ∧ s.islandState i = .held ∧ s.flt.unack = [] ∧ s.flt.stopping = false)
    ∧ (∃ (s : State) (n : Fin 16), s.islandDue (.ch n) = true ∧ s.islandState (.ch n) = .retried ∧ s.recovery = true ∧ s.flt.unack = [] ∧ s.flt.stopping = false)
    ∧ (∃ (s : State) (i : Island), (∀ n, i ≠ .ch n) ∧ s.islandDue i = true ∧ s.islandState i = .retried ∧ s.flt.unack = [] ∧ s.flt.stopping = false)
    ∧ (∃ (s : State), s.rst.phase = .waitRelease ∧ s.rst.calGood = true ∧ vccqInRange s.strap.vccq18 s.strap.vccqMv = true ∧ (s.boot.swap0.isSome = true ∨
        s.boot.swap1.isSome = true) ∧ 2 ≤ s.flt.cores.length ∧ s.dies.decoders ≠ [] ∧ s.flt.stopping = false) :=
  ⟨⟨{up with rst.islands := allBut (.ch 3) .held}, (.ch 3), by decide +kernel⟩,
   ⟨{up with rst.islands := allBut .hostP .held, rst.admin := false}, by decide +kernel⟩,
   ⟨{up with rst.islands := allBut .hostN .held, rst.admin := false, rst.face := .none}, by decide +kernel⟩,
   ⟨{up with rst.islands := allBut .hostN .held, rst.admin := false}, .hostN, by decide +kernel⟩,
   ⟨{up with rst.islands := allBut .hostP .held, rst.admin := false, rst.face := .narrow}, .hostP, by decide +kernel⟩,
   ⟨{up with rst.islands := allBut (.ch 3) .held}, (.ch 3), by decide +kernel⟩,
   ⟨{up with rst.islands := allBut (.ch 15) .retried, rst.mode := .recStrap, rst.admin := false}, 15, by decide +kernel⟩,
   ⟨{up with rst.islands := allBut .map .retried}, .map, by decide +kernel⟩,
   ⟨{up with rst.phase := .waitRelease}, by decide +kernel⟩⟩

theorem test_meets_TheFirstEventSelectsTheFace :
    ∃ (s : State), s.running = true ∧ s.rst.face = .none :=
  ⟨{up with rst.face := .none}, by decide +kernel⟩

theorem test_meets_TheStartReachesAdminReady :
    (∃ (s : State), s.running = true ∧ s.recovery = false ∧ s.rst.imageRuns = false ∧ s.ordersDone 2 = true ∧ s.imagePasses s.rst.bank = true)
    ∧ (∃ (s : State), s.running = true ∧ s.recovery = false ∧ s.rst.imageRuns = false ∧ s.rst.io = false ∧ s.rst.admin = false ∧ s.ordersDone 2 = true ∧
        s.imagePasses s.rst.bank = false ∧ s.flt.unack = [] ∧ s.flt.stopping = false)
    ∧ (∃ (s : State), s.running = true ∧ s.rst.imageRuns = true)
    ∧ (∃ (s : State), s.running = true ∧ s.rst.admin = false ∧ s.ordersDone 4 = true ∧ s.recovery = true ∧ s.nib.fetched = [])
    ∧ (∃ (s : State), s.running = true ∧ s.rst.admin = false ∧ s.ordersDone 4 = true ∧ s.recovery = false ∧ s.rst.imageRuns = true ∧ s.rst.dram = true ∧
        s.nib.fetched = [] ∧ mismatchMap s.rec_.profile s.profile = 0)
    ∧ (∃ (s : State), s.running = true ∧ s.rst.admin = false ∧ s.ordersDone 4 = true ∧ s.recovery = false ∧ s.rst.imageRuns = true ∧ s.rst.dram = true ∧
        s.nib.fetched = [] ∧ mismatchMap s.rec_.profile s.profile ≠ 0 ∧ s.rst.fallback = false ∧ s.boot.rebuild = false) :=
  ⟨⟨{up with rst.imageRuns := false}, by decide +kernel⟩,
   ⟨{up with rst.imageRuns := false, rst.io := false, rst.admin := false, rst.bank := .b}, by decide +kernel⟩,
   ⟨up, by decide +kernel⟩,
   ⟨{up with rst.admin := false, rst.mode := .recCount}, by decide +kernel⟩,
   ⟨{up with rst.admin := false, rst.io := false}, by decide +kernel⟩,
   ⟨{up with rst.admin := false, rst.io := false, rec_.profile := 3}, by decide +kernel⟩⟩

theorem test_meets_RecoveryPresentsThePrefix :
    (∃ (s : State), s.running = true ∧ s.rst.admin = true ∧ s.recovery = false ∧ s.mismatch = false ∧ s.rst.recovered = false ∧ s.rst.clean = true ∧ s.rec_.sanitize
        = none ∧ (∀ b ∈ s.ftl.bands, b.st ≠ .erasing))
    ∧ (∃ (s : State) (bad : Option Nat), s.running = true ∧ s.rst.admin = true ∧ s.recovery = false ∧ s.mismatch = false ∧ s.rst.recovered = false ∧ s.rst.clean =
        false ∧ s.rec_.sanitize = none ∧ bad = none ∧ (∀ b ∈ s.ftl.bands, b.st ≠ .erasing))
    ∧ (∃ (s : State) (b : Band) (c : Nat) (x : Blk), s.running = true ∧ s.rst.admin = true ∧ s.recovery = false ∧ s.mismatch = false ∧ s.rst.recovered = false ∧
        s.ftl.bands = [b] ∧ b.st = .erasing ∧ c ∈ b.chans ∧ s.dieDead (dieOf c (bandGroup b.n)) = false ∧ x ∈ b.blks ∧ x.key / 4 = dieOf c (bandGroup b.n) ∧ x.st ≠
        .erased ∧ dieOf c (bandGroup b.n) ∉ s.namedDies)
    ∧ (∃ (s : State) (b : Band) (d : Nat) (k : Nat), s.running = true ∧ s.recovery = false ∧ s.mismatch = false ∧ s.rst.admin = true ∧ s.rst.io = false ∧
        s.rst.recovered = true ∧ s.nib.items = [] ∧ s.nib.fetched = [] ∧ s.rec_.sanitize = none ∧ s.rec_.rebuilds = [] ∧ s.lops.list = [] ∧ s.spareCount ≠ 0 ∧
        s.lig.state = 0 ∧ s.ftl.bands = [b] ∧ s.dies.sweep = [] ∧ s.dies.probes = [] ∧ s.dies.chHeld = [] ∧ s.namedDies = [] ∧ d < 64 ∧ (d, b.n, k) ∈ b.probed)
    ∧ (∃ (s : State) (b : Band), s.running = true ∧ s.recovery = false ∧ s.mismatch = false ∧ s.rst.admin = true ∧ s.rst.io = false ∧ s.rst.recovered = true ∧
        s.nib.items = [] ∧ s.nib.fetched = [] ∧ s.rec_.sanitize = none ∧ s.rec_.rebuilds = [] ∧ s.lops.list = [] ∧ s.spareCount ≠ 0 ∧ s.lig.state = 0 ∧
        s.boot.swapWork = none ∧ s.ftl.bands = [b] ∧ b.probed = [] ∧ s.dies.sweep = [] ∧ s.strokeOnly = true ∧ b.tlc = false ∧ s.isHostBand b.n = true ∧ (b.st =
        .closed ∨ b.st = .closedEarly) ∧ s.liveSlots b.n ≠ [] ∧ s.ftl.emptying = [] ∧ s.ftl.moves = [])
    ∧ (∃ (s : State), s.running = true ∧ s.recovery = false ∧ s.rst.admin = true ∧ s.rst.io = false ∧ s.rst.recovered = true ∧ s.nib.items = [] ∧ s.nib.fetched = []
        ∧ s.boot.swapWork = none ∧ (s.strokeOnly = true → ∀ b ∈ s.ftl.bands, s.liveSlots b.n = []) ∧ (∀ b ∈ s.ftl.bands, b.probed = []) ∧ s.dies.sweep = [] ∧
        s.dies.chHeld = [] ∧ s.namedDies = [] ∧ s.rec_.sanitize = none ∧ s.rec_.rebuilds = [] ∧ s.lops.list = [] ∧ s.spareCount ≠ 0 ∧ s.lig.state = 0 ∧
        s.rst.fallback = false ∧ s.boot.rebuild = false ∧ s.boot.record.trial = false) :=
  ⟨⟨{up with rst.recovered := false, rst.clean := true, rst.io := false}, by decide +kernel⟩,
   ⟨{up with rst.recovered := false, rst.io := false}, none, by decide +kernel⟩,
   ⟨{up with rst.recovered := false, rst.io := false, ftl.bands := [{bandOf 20 .erasing with blks := [blkOf 17 .erasing]}]},
       {bandOf 20 .erasing with blks := [blkOf 17 .erasing]}, 1, (blkOf 17 .erasing), by decide +kernel⟩,
   ⟨{up with rst.io := false, ftl.bands := [{bandOf 20 .closed with blks := [{blkOf 17 .closed with nextWl := 768}]}]},
       {bandOf 20 .closed with blks := [{blkOf 17 .closed with nextWl := 768}]}, 4, 1, by decide +kernel⟩,
⟨{up with rst.io := false, strap.codes := [0, 0, 2, 3, 2, 3, 7, 7, 2], rec_.profile := 3, map.strokes := [⟨0, 3, 0⟩], map.hair := [⟨0, some (20 * bandSlots)⟩], ftl := {up.ftl with bands := [{bandOf 20 .closed with tlc := false}], slots := [⟨20 * bandSlots, cwOf 0⟩]}},
       {bandOf 20 .closed with tlc := false}, by decide +kernel⟩,
   ⟨{up with rst.io := false}, by decide +kernel⟩⟩

theorem test_meets_InBandEventsEndTheHostsCommands :
    (∃ (s : State) (speed : Nat), s.onPcie = true ∧ speed ≠ 0)
    ∧ (∃ (s : State) (c : Instr) (p : Pcie), s.onPcie = true ∧ (c = .hotReset ∧ p = Pcie.init ∨ c = .linkDown ∧ p = Pcie.init ∨ c = .functionLevelReset ∧ p =
        { Pcie.init with speed := s.pcie.speed, width := s.pcie.width, lane0 := s.pcie.lane0, host := flrHost s.pcie.host, aerUncor := s.pcie.aerUncor, aerCor := s.pcie.aerCor, aerHeader := s.pcie.aerHeader }))
    ∧ (∃ (s : State) (c : Instr) (p : Pcie), s.onPcie = true ∧ (c = .hotReset ∧ p = Pcie.init ∨ c = .linkDown ∧ p = Pcie.init ∨ c = .functionLevelReset ∧ p =
        { Pcie.init with speed := s.pcie.speed, width := s.pcie.width, lane0 := s.pcie.lane0, host := flrHost s.pcie.host, aerUncor := s.pcie.aerUncor, aerCor := s.pcie.aerCor, aerHeader := s.pcie.aerHeader }))
    ∧ (∃ (s : State) (c : Instr) (p : Pcie), s.onPcie = true ∧ (c = .hotReset ∧ p = Pcie.init ∨ c = .linkDown ∧ p = Pcie.init ∨ c = .functionLevelReset ∧ p =
        { Pcie.init with speed := s.pcie.speed, width := s.pcie.width, lane0 := s.pcie.lane0, host := flrHost s.pcie.host, aerUncor := s.pcie.aerUncor, aerCor := s.pcie.aerCor, aerHeader := s.pcie.aerHeader }))
    ∧ (∃ (s : State), s.onPcie = true ∧ s.pcie.d3hot = true)
    ∧ (∃ (s : State), s.onPcie = true ∧ s.pcie.d3hot = false ∧ s.pcie.ready = false ∧ s.pcie.clearing = false ∧ s.recovery = false ∧ s.mismatch = false)
    ∧ (∃ (s : State), s.onPcie = true ∧ s.pcie.d3hot = false ∧ s.pcie.ready = true ∧ s.pcie.clearing = false ∧ s.nib.items = [] ∧ s.nib.fetched = [] ∧ s.recovery =
        false ∧ s.mismatch = false)
    ∧ (∃ (s : State) (i : Item), s.onPcie = true ∧ s.pcie.d3hot = false ∧ s.pcie.ready = true ∧ s.pcie.clearing = false ∧ s.nib.items = [i] ∧ i.narrow = false ∧ i.q
        ≠ 65535 ∧ i.past = true)
    ∧ (∃ (s : State), s.onPcie = true ∧ 2 ≤ s.pcie.l1) :=
  ⟨⟨up, 1, by decide +kernel⟩,
   ⟨up, .hotReset, Pcie.init, by decide +kernel⟩,
   ⟨up, .linkDown, Pcie.init, by decide +kernel⟩,
   ⟨up, .functionLevelReset,
       { Pcie.init with speed := 4, width := 2, lane0 := up.pcie.lane0, host := flrHost up.pcie.host, aerUncor := 0, aerCor := 0, aerHeader := 0 }, by
       decide +kernel⟩,
   ⟨{up with pcie.d3hot := true}, by decide +kernel⟩,
   ⟨{up with pcie.ready := false}, by decide +kernel⟩,
   ⟨up, by decide +kernel⟩,
   ⟨{up with nib.items := [{itemOf 5 1 (cmd 2 1 [(0x10, 4, 4096), (0x28, 4, 1)]) .data with past := true}]},
       {itemOf 5 1 (cmd 2 1 [(0x10, 4, 4096), (0x28, 4, 1)]) .data with past := true}, by decide +kernel⟩,
   ⟨{up with pcie.l1 := 2}, by decide +kernel⟩⟩

theorem test_meets_EnableIsSetClearedAndShutDown :
    (∃ (s : State), s.barOpen = true ∧ s.pcie.enable = false ∧ s.pcie.clearing = false ∧ s.enablePasses = false)
    ∧ (∃ (s : State), s.barOpen = true ∧ s.pcie.enable = false ∧ s.pcie.clearing = false ∧ s.nib.pairs = [] ∧ s.pcie.request ≤ 2 ∧ s.pcie.asq % 4096 = 0 ∧ s.pcie.acq
        % 4096 = 0 ∧ 2 ≤ s.pcie.asqSize ∧ s.pcie.asqSize ≤ 4096 ∧ 2 ≤ s.pcie.acqSize ∧ s.pcie.acqSize ≤ 4096)
    ∧ (∃ (s : State), s.barOpen = true ∧ s.pcie.enable = true ∧ s.pcie.ready = false)
    ∧ (∃ (s : State), s.barOpen = true ∧ s.pcie.enable = true ∧ s.pcie.ready = true ∧ s.pcie.clearing = false ∧ s.nib.items = [] ∧ s.nib.fetched = [])
    ∧ (∃ (s : State), s.barOpen = true ∧ s.pcie.enable = true ∧ s.pcie.ready = true ∧ s.pcie.clearing = false ∧ (∀ i ∈ s.nib.items, i.ruling ≠ 0))
    ∧ (∃ (s : State), s.barOpen = true ∧ s.pcie.ready = true ∧ s.pcie.shutdown = 0 ∧ s.ftl.fill = [])
    ∧ (∃ (s : State), s.running = true ∧ s.log.closing = true ∧ s.pwr.entering4 = false ∧ s.rst.io = true ∧ s.nib.fetched = [] ∧ s.nib.items = [] ∧ s.res.staged = []
        ∧ s.ftl.emptying = [])
    ∧ (∃ (s : State), s.running = true ∧ s.log.closing = true ∧ s.pwr.entering4 = false ∧ s.rst.io = false ∧ (s.recovery = true ∨ s.mismatch = true) ∧ s.nib.fetched
        = [] ∧ s.nib.items = [] ∧ s.res.staged = []) :=
  ⟨⟨{up with pcie.enable := false, pcie.ready := false, pcie.request := 3}, by decide +kernel⟩,
   ⟨{up with pcie.enable := false, pcie.ready := false, nib.pairs := [], pcie.request := 2, pcie.asqSize := 2, pcie.acqSize := 4096}, by decide +kernel⟩,
   ⟨{up with pcie.ready := false}, by decide +kernel⟩,
   ⟨up, by decide +kernel⟩,
   ⟨up, by decide +kernel⟩,
   ⟨up, by decide +kernel⟩,
   ⟨{up with log.closing := true}, by decide +kernel⟩,
   ⟨{up with log.closing := true, rst.io := false, rst.mode := .recStrap}, by decide +kernel⟩⟩

theorem test_meets_Bar0AnswersAndDoorbellsMoveTheRings :
    (∃ (s : State) (off : Nat) (len : Nat), s.barOpen = true ∧ (8 < len ∨ 8 < off % 8 + len))
    ∧ (∃ (s : State), s.linkUp = true ∧ s.barOpen = false)
    ∧ (∃ (s : State), s.linkUp = true ∧ s.barOpen = false)
    ∧ (∃ (s : State) (off : Nat) (len : Nat), s.barOpen = true ∧ len ≤ 8 ∧ off % 8 + len ≤ 8)
    ∧ (∃ (s : State) (off : Nat) (len : Nat), s.barOpen = true ∧ ¬ (len = 4 ∧ off % 4 = 0) ∧ ¬ (len = 8 ∧ off % 8 = 0))
    ∧ (∃ (s : State) (off : Nat) (len : Nat), s.barOpen = true ∧ (off < 0x1000 ∨ 0x1024 ≤ off ∧ off < 0x4000 ∨ 0x10000 ≤ off) ∧ (len = 4 ∨ len = 8 ∧ (off + 8 ≤
        0x1000 ∨ 0x1024 ≤ off ∧ off + 8 ≤ 0x4000 ∨ 0x10000 ≤ off)))
    ∧ (∃ (s : State) (off : Nat) (len : Nat), s.barOpen = true ∧ (off < 0x1000 ∨ 0x1024 ≤ off ∧ off < 0x4000 ∨ 0x10000 ≤ off) ∧ (len = 4 ∨ len = 8 ∧ (off + 8 ≤
        0x1000 ∨ 0x1024 ≤ off ∧ off + 8 ≤ 0x4000 ∨ 0x10000 ≤ off)))
    ∧ (∃ (s : State) (off : Nat), s.barOpen = true ∧ (s.pcie.enable = true ∨ s.pcie.ready = true) ∧ 0x1000 ≤ off ∧ off < 0x1024 ∧ off % 4 = 0 ∧ off ≠ 0x1008)
    ∧ (∃ (s : State), s.barOpen = true ∧ s.pcie.enable = false ∧ s.pcie.ready = false)
    ∧ (∃ (a : Nat), (0x1024 ≤ a ∧ a < 0x8000 ∨ 0x10100 ≤ a))
    ∧ (∃ (s : State) (q : Nat) (v : BitVec 32) (p : Pair), s.barOpen = true ∧ s.pair? q = some p ∧ (v.extractLsb' 0 16).toNat < p.sqSize ∧ (q ≠ 0 ∨ v.getLsbD 31 = false))
    ∧ (∃ (s : State) (q : Nat) (v : BitVec 32) (p : Pair), s.barOpen = true ∧ s.pair? q = some p ∧ (v.extractLsb' 0 16).toNat < p.cqSize)
    ∧ (∃ (s : State) (q : Nat) (v : BitVec 32) (p : Pair) (c : Instr) (d : Nat), s.barOpen = true ∧ s.pair? q = some p ∧ (c = .submissionTailDoorbell q v ∧ p.sqSize
        ≤ (v.extractLsb' 0 16).toNat ∧ d = 0 ∨ c = .completionHeadDoorbell q v ∧ p.cqSize ≤ (v.extractLsb' 0 16).toNat ∧ d = 1))
    ∧ (∃ (s : State) (q : Nat) (v : BitVec 32) (p : Pair) (c : Instr) (d : Nat), s.barOpen = true ∧ s.pair? q = some p ∧ (c = .submissionTailDoorbell q v ∧ p.sqSize
        ≤ (v.extractLsb' 0 16).toNat ∧ d = 0 ∨ c = .completionHeadDoorbell q v ∧ p.cqSize ≤ (v.extractLsb' 0 16).toNat ∧ d = 1))
    ∧ (∃ (s : State) (q : Nat), s.barOpen = true ∧ s.pair? q = none) :=
  ⟨⟨up, 7, 2, by decide +kernel⟩,
   ⟨{up with pcie.host := HostCfg.init}, by decide +kernel⟩,
   ⟨{up with pcie.host := HostCfg.init}, by decide +kernel⟩,
   ⟨up, 0, 8, by decide +kernel⟩,
   ⟨up, 2, 4, by decide +kernel⟩,
   ⟨up, (0x4000 - 8), 8, by decide +kernel⟩,
   ⟨up, 0x10000, 4, by decide +kernel⟩,
   ⟨up, 0x1020, by decide +kernel⟩,
   ⟨{up with pcie.enable := false, pcie.ready := false}, by decide +kernel⟩,
   ⟨0x10100, by decide +kernel⟩,
   ⟨up, 1, 15, (pairOf 1), by decide +kernel⟩,
   ⟨up, 0, 0x8000000F, (pairOf 0), by decide +kernel⟩,
   ⟨up, 1, 16, (pairOf 1), (.submissionTailDoorbell 1 16), 0, by decide +kernel⟩,
   ⟨up, 1, 16, (pairOf 1), (.completionHeadDoorbell 1 16), 1, by decide +kernel⟩,
   ⟨up, 2, by decide +kernel⟩⟩

theorem test_meets_PairZeroIsResumedByItsDoorbell :
    (∃ (s : State) (e : Entry), Entry.opcode e = 0x82 ∧ Entry.h2C e = 0 ∧ s.recovery = false ∧ s.mismatch = false)
    ∧ (∃ (s : State) (v : BitVec 32) (p : Pair) (k : Nat), s.barOpen = true ∧ s.pair? 0 = some p ∧ p.frozen = some k ∧ (v.extractLsb' 0 16).toNat < p.sqSize)
    ∧ (∃ (s : State) (v : BitVec 32) (p : Pair), s.barOpen = true ∧ s.pair? 0 = some p ∧ p.frozen = none ∧ (v.extractLsb' 0 16).toNat < p.sqSize) :=
  ⟨⟨up, (cmd 0x82 0 []), by decide +kernel⟩,
   ⟨{up with nib.pairs := [{pairOf 0 with frozen := some 3}]}, 0x8000000F, {pairOf 0 with frozen := some 3}, 3, by decide +kernel⟩,
   ⟨up, 0x80000000, (pairOf 0), by decide +kernel⟩⟩

theorem test_meets_MsixMessagesAndPendingBits :
    (∃ (s : State) (v : Nat), s.barOpen = true ∧ v < 2048 ∧ s.pcie.host.msixEnable = true ∧ s.pcie.host.msixMask = false ∧ v ∈ s.pcie.msixPending ∧ Mem.wf 0
        s.pcie.msixTable = true)
    ∧ (∃ (s : State) (v : Nat), s.barOpen = true ∧ v < 2048 ∧ v ∉ s.pcie.msixPending ∧ Mem.wf 0 s.pcie.msixTable = true) :=
  ⟨⟨{up with pcie.host.msixEnable := true, pcie.msixPending := [2047]}, 2047, by decide +kernel⟩,
   ⟨up, 2047, by decide +kernel⟩⟩

theorem test_meets_LinkErrorsAreReported :
    (∃ (s : State), s.onPcie = true)
    ∧ (∃ (s : State), s.onPcie = true)
    ∧ (∃ (s : State), s.onPcie = true ∧ s.flt.unack = [] ∧ s.flt.stopping = false ∧ s.nib.items = [])
    ∧ (∃ (s : State) (e : LinkErr), s.onPcie = true ∧ s.pcie.ready = true ∧ s.flt.unack = [] ∧ s.flt.stopping = false ∧ s.nib.items = [] ∧ (e = .surpriseDown ∨ e =
        .fatal true))
    ∧ (∃ (s : State) (e : LinkErr), s.onPcie = true ∧ s.pcie.ready = true ∧ s.flt.unack = [] ∧ s.flt.stopping = false ∧ s.nib.items = [] ∧ (e = .surpriseDown ∨ e =
        .fatal true))
    ∧ (∃ (s : State) (r : Nat) (i : Item), r ≠ 0 ∧ s.item? r = some i ∧ s.readsHost i = true ∧ i.retries = 0 ∧ s.flt.unack = [] ∧ s.flt.stopping = false ∧
        s.nib.items = [i])
    ∧ (∃ (s : State) (r : Nat) (i : Item), r ≠ 0 ∧ s.item? r = some i ∧ s.readsHost i = true ∧ i.retries ≠ 0 ∧ s.flt.unack = [] ∧ s.flt.stopping = false ∧
        s.nib.items = [i])
    ∧ (∃ (s : State) (q : Nat) (p : Pair), s.onPcie = true ∧ s.pair? q = some p ∧ s.nib.fetched = [] ∧ p.refetch = false ∧ s.flt.unack = [] ∧ s.flt.stopping = false
        ∧ s.nib.items = []) :=
  ⟨⟨up, by decide +kernel⟩,
   ⟨up, by decide +kernel⟩,
   ⟨up, by decide +kernel⟩,
   ⟨up, .surpriseDown, by decide +kernel⟩,
   ⟨up, (.fatal true), by decide +kernel⟩,
   ⟨{up with nib.items := [itemOf 5 1 (cmd 1 1 [(0x10, 4, 4096), (0x28, 4, 1)]) .data]}, 5, (itemOf 5 1 (cmd 1 1 [(0x10, 4, 4096), (0x28, 4, 1)]) .data), by
       decide +kernel⟩,
   ⟨{up with nib.items := [{itemOf 5 1 (cmd 1 1 [(0x10, 4, 4096), (0x28, 4, 1)]) .data with retries := 1}]}, 5,
       {itemOf 5 1 (cmd 1 1 [(0x10, 4, 4096), (0x28, 4, 1)]) .data with retries := 1}, by decide +kernel⟩,
   ⟨up, 1, (pairOf 1), by decide +kernel⟩⟩

theorem test_meets_FetchTurnsServeOnePair :
    (∃ (s : State), s.onPcie = true ∧ s.awake = true ∧ s.pcie.d3hot = false ∧ (∀ p ∈ s.nib.pairs, s.fetchable p = false))
    ∧ (∃ (s : State), s.onPcie = true ∧ s.awake = true ∧ s.busMaster = true ∧ s.pcie.d3hot = false ∧ (∃ p ∈ s.nib.pairs, s.fetchable p = true))
    ∧ (∃ (s : State) (p : Pair), s.onPcie = true ∧ s.awake = true ∧ s.busMaster = true ∧ s.pcie.d3hot = false ∧ s.nib.pairs = [p] ∧ s.fetchable p = true ∧ 1 ≤ p.burst)
    ∧ (∃ (s : State), s.busMaster = false) :=
  ⟨⟨{up with nib.paused := true}, by decide +kernel⟩,
   ⟨up, by decide +kernel⟩,
   ⟨{up with nib.pairs := [pairOf 1]}, (pairOf 1), by decide +kernel⟩,
   ⟨{up with pcie.host := HostCfg.init}, by decide +kernel⟩⟩

theorem test_meets_AdmissionTakesOneRulingOrStalls :
    (∃ (s : State) (c : Instr) (q : Nat) (f : Fetched), s.Takes c q f ∧ s.front? q = some f ∧ s.canRule = true ∧ s.awake = true ∧ f.stalled = false ∧ s.mustStall f =
        true)
    ∧ (∃ (s : State) (f : Fetched) (l : List Fetched) (x : Fail), f.narrow = false ∧ f.stalled = true ∧ s.nib.fetched = f :: l ∧ (∀ g ∈ l, g.stalled = false) ∧
        s.canRule = true ∧ s.awake = true ∧ s.shortFor false f.entry = false ∧ s.nib.pairs = [] ∧ (s.ruledBy f).checkEarly false f.q f.entry = some x ∧ x.status ≠ 0)
    ∧ (∃ (s : State), (∀ f ∈ s.nib.fetched, f.stalled = false))
    ∧ (∃ (s : State) (i : Item), s.running = true ∧ s.nib.stopped = false ∧ s.nib.items = [i] ∧ i.wait = .lock ∧ i.narrow = false ∧ Entry.opcode i.entry = 1 ∧
        i.verdict = 0 ∧ s.rec_.sanitize = none ∧ s.rec_.epochs = [])
    ∧ (∃ (s : State) (i : Item) (j : Item) (k : Lock) (l : Lock), s.running = true ∧ s.item? i.ruling = some i ∧ i.wait = .lock ∧ i.lock = some k ∧ j ∈ s.nib.items ∧
        j.ruling < i.ruling ∧ j.lock = some l ∧ l.overlaps k = true)
    ∧ (∃ (s : State) (c : Instr) (q : Nat) (f : Fetched) (t : State) (i : Item), s.Begins c q f t i ∧ Entry.opcode f.entry ≠ 0x98)
    ∧ (∃ (s : State) (c : Instr) (q : Nat) (f : Fetched) (t : State) (i : Item) (k : _) (j : Item) (l : Lock), s.Begins c q f t i ∧ Entry.opcode f.entry ≠ 0x98 ∧
        i.lock = some k ∧ j ∈ s.nib.items ∧ j.lock = some l)
    ∧ (∃ (s : State) (c : Instr) (q : Nat) (f : Fetched) (t : State) (i : Item), s.Begins c q f t i ∧ Entry.opcode f.entry ≠ 0x98 ∧ Entry.opcode f.entry ≠ 0xA0)
    ∧ (∃ (s : State) (c : Instr) (q : Nat) (f : Fetched) (t : State) (i : Item), s.Begins c q f t i ∧ Entry.opcode f.entry ≠ 0x98 ∧ Entry.opcode f.entry ≠ 1)
    ∧ (∃ (s : State) (c : Instr) (q : Nat) (f : Fetched) (t : State) (i : Item), s.Begins c q f t i ∧ Entry.opcode f.entry ≠ 0x98 ∧ Entry.opcode f.entry ≠ 1)
    ∧ (∃ (s : State) (c : Instr) (q : Nat) (f : Fetched) (t : State) (i : Item), s.Begins c q f t i ∧ Entry.opcode f.entry ≠ 0x98 ∧ Entry.opcode f.entry ≠ 1 ∧
        Entry.opcode f.entry ≠ 4) :=
  ⟨⟨{up with nib.fetched := [fet 1 (cmd 1 1 [(0x10, 4, 4096), (0x28, 4, 1)])], ftl.pacing := some 4095}, (.write 1), 1, (fet 1 (cmd 1 1 [(0x10, 4, 4096), (0x28, 4,
      1)])), takes_of (by decide +kernel), by decide +kernel⟩,
   ⟨{up with nib.pairs := [], nib.fetched := [{fet 0 (cmd 0x0F 0 []) with stalled := true}]}, {fet 0 (cmd 0x0F 0 []) with stalled := true}, [], (Fail.of 1), by
       decide +kernel⟩,
   ⟨up, by decide +kernel⟩,
   ⟨{up with nib.items := [itemOf 5 1 (cmd 1 1 [(0x10, 4, 4096), (0x28, 4, 1)]) .lock]}, (itemOf 5 1 (cmd 1 1 [(0x10, 4, 4096), (0x28, 4, 1)]) .lock), by decide +kernel⟩,
⟨{up with nib.items := [{itemOf 4 1 (cmd 1 1 [(0x10, 4, 4096), (0x28, 4, 1)]) .data with lock := some ⟨1, false, 1, 3⟩}, {itemOf 5 1 (cmd 1 1 [(0x10, 4, 4096), (0x28, 4, 1)]) .lock with lock := some ⟨1, false, 0, 2⟩}]},
       {itemOf 5 1 (cmd 1 1 [(0x10, 4, 4096), (0x28, 4, 1)]) .lock with lock := some ⟨1, false, 0, 2⟩},
       {itemOf 4 1 (cmd 1 1 [(0x10, 4, 4096), (0x28, 4, 1)]) .data with lock := some ⟨1, false, 1, 3⟩}, ⟨1, false, 0, 2⟩, ⟨1, false, 1, 3⟩, by decide +kernel⟩,
   ⟨{up with nib.fetched := [fet 1 (cmd 1 1 [(0x10, 4, 4096), (0x28, 4, 1)])]}, (.write 1), 1, (fet 1 (cmd 1 1 [(0x10, 4, 4096), (0x28, 4, 1)])), _, _, begins_of (by
       decide +kernel), by decide +kernel⟩,
⟨{up with nib.items := [{itemOf 4 1 (cmd 1 1 [(0x10, 4, 4096), (0x28, 4, 1)]) .data with lock := some ⟨1, false, 1, 3⟩}], nib.fetched := [fet 1 (cmd 1 1 [(0x10, 4, 4096), (0x28, 4, 1)])]},
       (.write 1), 1, (fet 1 (cmd 1 1 [(0x10, 4, 4096), (0x28, 4, 1)])), _, _, ⟨1, false, 0, 1⟩,
       {itemOf 4 1 (cmd 1 1 [(0x10, 4, 4096), (0x28, 4, 1)]) .data with lock := some ⟨1, false, 1, 3⟩}, ⟨1, false, 1, 3⟩, begins_of (by decide +kernel), by
       decide +kernel⟩,
   ⟨{up with nib.fetched := [fet 1 (cmd 3 0 [])]}, (.flush 1), 1, (fet 1 (cmd 3 0 [])), _, _, begins_of (by decide +kernel), by decide +kernel⟩,
   ⟨{up with nib.fetched := [fet 1 (cmd 4 1 [(0x28, 4, 32)])]}, (.release 1), 1, (fet 1 (cmd 4 1 [(0x28, 4, 32)])), _, _, begins_of (by decide +kernel), by
       decide +kernel⟩,
   ⟨{up with nib.fetched := [fet 1 (cmd 2 1 [(0x10, 4, 4096), (0x28, 4, 1)])]}, (.read 1), 1, (fet 1 (cmd 2 1 [(0x10, 4, 4096), (0x28, 4, 1)])), _, _, begins_of (by
       decide +kernel), by decide +kernel⟩,
   ⟨{up with nib.fetched := [fet 0 (cmd 0x8A 0 [(0x2C, 8, 1)])]}, .setTime, 0, (fet 0 (cmd 0x8A 0 [(0x2C, 8, 1)])), _, _, begins_of (by decide +kernel), by
       decide +kernel⟩⟩

theorem test_meets_FailedChecksTakeNoEffect :
    (∃ (s : State) (c : Instr) (q : Nat) (f : Fetched) (x : Fail), s.Takes c q f ∧ s.Rules q f ∧ (s.ruledBy f).checkEarly false q f.entry = some x ∧ x.status ≠ 0)
    ∧ (∃ (s : State) (q : Nat) (f : Fetched), s.Rules q f ∧ s.opcodeAllowed false q f.entry = false ∧ s.recovery = false ∧ s.mismatch = false)
    ∧ (∃ (s : State) (c : Instr) (q : Nat) (f : Fetched) (x : Fail), s.Sound ∧ s.Takes c q f ∧ s.Enters q f (rowGiven c) ∧ (s.listed q f (rowGiven c)).checkLate
        (s.wellOf q) f.entry = some x ∧ x.status ≠ 0) :=
  ⟨⟨{up with strap.state := 2, nib.fetched := [fet 1 (cmd 3 0 [])]}, (.flush 1), 1, (fet 1 (cmd 3 0 [])), (Fail.of 0x0F), takes_of (by decide +kernel), rules_of (by
      decide +kernel), by decide +kernel⟩,
   ⟨{up with nib.fetched := [fet 1 (cmd 0x0F 0 [])]}, 1, (fet 1 (cmd 0x0F 0 [])), rules_of (by decide +kernel), by decide +kernel⟩,
   ⟨{up with nib.fetched := [fet 1 (cmd 1 1 [(0x10, 4, 4096), (0x28, 4, 1)])], nib.adm := MapState.empty}, (.write 1), 1, (fet 1 (cmd 1 1 [(0x10, 4, 4096), (0x28, 4,
       1)])), (Fail.of 4), sound_of (by decide +kernel), takes_of (by decide +kernel), enters_of (by decide +kernel), by decide +kernel⟩⟩

theorem test_meets_PhaseAlternatesWithEachPass :
    (∃ (s : State) (q : Nat) (p : Pair), s.pair? q = some p)
    ∧ (∃ (s : State) (q : Nat) (p : Pair), s.pair? q = some p ∧ 1 ≤ p.cqSize ∧ p.phase = true ∧ p.cqTail = 0) :=
  ⟨⟨up, 1, (pairOf 1), by decide +kernel⟩,
   ⟨up, 1, (pairOf 1), by decide +kernel⟩⟩

theorem test_meets_FailuresAreLoggedAndFreezeTheRing :
    (∃ (s : State) (e : Ending) (f : Fail) (p : Pair), f.status ≠ 0 ∧ e.narrow = false ∧ e.freezes = true ∧ s.pair? e.q = some p)
    ∧ (∃ (f : Fail), f.status = 0)
    ∧ (∃ (e : Ending) (q : Nat), q ≠ e.q) :=
  ⟨⟨up, (endingOf 1), (Fail.of 7), (pairOf 1), by decide +kernel⟩,
   ⟨(Fail.of 0), by decide +kernel⟩,
   ⟨(endingOf 1), 0, by decide +kernel⟩⟩

theorem test_meets_BlockCommandsBegin :
    (∃ (s : State) (q : Nat) (f : Fetched) (t : State) (i : Item), s.Begins (.write q) q f t i)
    ∧ (∃ (s : State) (c : Instr) (q : Nat) (f : Fetched) (t : State) (i : Item) (p : Part), s.Begins c q f t i ∧ (c = .read q ∨ c = .planeRead q ∨ c = .precisionRead
        q) ∧ t.partOf i = some p ∧ s.dies.reads = [] ∧ t.poisonedRead i p = none ∧ (∀ b ∈ t.blocksRead i p, (t.staged? b).isSome = true ∨ b ∈ t.ftl.cache ∨
        t.map.lookup b = none))
    ∧ (∃ (s : State) (c : Instr) (q : Nat) (f : Fetched) (t : State) (i : Item) (p : Part), s.Begins c q f t i ∧ (c = .read q ∨ c = .planeRead q ∨ c = .precisionRead
        q) ∧ t.partOf i = some p ∧ s.dies.reads = [] ∧ t.poisonedRead i p = none ∧ (∀ b ∈ t.blocksRead i p, (t.staged? b).isSome = true ∨ b ∈ t.ftl.cache ∨
        t.map.lookup b = none))
    ∧ (∃ (s : State) (c : Instr) (q : Nat) (f : Fetched) (t : State) (i : Item) (p : Part), s.Begins c q f t i ∧ (c = .read q ∨ c = .planeRead q ∨ c = .precisionRead
        q) ∧ t.partOf i = some p ∧ s.dies.reads = [] ∧ t.poisonedRead i p = none ∧ (∀ b ∈ t.blocksRead i p, (t.staged? b).isSome = true ∨ b ∈ t.ftl.cache ∨
        t.map.lookup b = none))
    ∧ (∃ (s : State) (q : Nat) (f : Fetched) (t : State) (i : Item) (p : Part), s.Begins (.verify q) q f t i ∧ t.partOf i = some p ∧ s.dies.reads = [] ∧
        t.poisonedRead i p = none ∧ (∀ b ∈ t.blocksRead i p, (t.staged? b).isSome = true ∨ t.map.lookup b = none))
    ∧ (∃ (s : State) (c : Instr) (q : Nat) (f : Fetched) (t : State) (i : Item) (p : Part) (b : Nat) (sl : Nat), s.Begins c q f t i ∧ (c = .read q ∨ c = .verify q ∨
        c = .planeRead q ∨ c = .precisionRead q) ∧ t.partOf i = some p ∧ b ∈ t.blocksRead i p ∧ (t.staged? b).isSome = false ∧ (b ∉ t.ftl.cache ∨ c = .verify q) ∧
        t.map.lookup b = some sl ∧ t.dieDead (t.dieOfSlot sl) = false ∧ (∀ x ∈ t.dies.dies, x.slow = false))
    ∧ (∃ (s : State) (q : Nat) (f : Fetched) (t : State) (i : Item) (p : Part) (b : Nat), s.Begins (.verify q) q f t i ∧ t.partOf i = some p ∧ s.dies.reads = [] ∧
        t.poisonedRead i p = some b ∧ (∀ b ∈ t.blocksRead i p, (t.staged? b).isSome = true ∨ t.map.lookup b = none))
    ∧ (∃ (s : State) (c : Instr) (q : Nat) (f : Fetched) (t : State) (i : Item) (p : Part) (b : Nat), s.Begins c q f t i ∧ (c = .read q ∨ c = .planeRead q ∨ c =
        .precisionRead q) ∧ t.partOf i = some p ∧ s.dies.reads = [] ∧ t.poisonedRead i p = some b ∧ (∀ b ∈ t.blocksRead i p, (t.staged? b).isSome = true ∨ b ∈
        t.ftl.cache ∨ t.map.lookup b = none)) :=
  ⟨⟨{up with nib.fetched := [fet 1 (cmd 1 1 [(0x10, 4, 4096), (0x28, 4, 1)])]}, 1, (fet 1 (cmd 1 1 [(0x10, 4, 4096), (0x28, 4, 1)])), _, _, begins_of (by
      decide +kernel)⟩,
   ⟨{up with nib.fetched := [fet 1 (cmd 2 1 [(0x10, 4, 4096), (0x28, 4, 1)])]}, (.read 1), 1, (fet 1 (cmd 2 1 [(0x10, 4, 4096), (0x28, 4, 1)])), _, _, part1,
       begins_of (by decide +kernel), by decide +kernel⟩,
⟨{up with map.parts := [{part1 with layout := 1, width := 1, planes := 2}], nib.adm.parts := [{part1 with layout := 1, width := 1, planes := 2}], nib.fetched := [fet 1 (cmd 6 1 [(0x10, 4, 4096), (0x28, 4, 2)])]},
       (.planeRead 1), 1, (fet 1 (cmd 6 1 [(0x10, 4, 4096), (0x28, 4, 2)])), _, _, {part1 with layout := 1, width := 1, planes := 2}, begins_of (by decide +kernel),
       by decide +kernel⟩,
⟨{up with map.parts := [{part1 with layout := 2, width := 1}], nib.adm.parts := [{part1 with layout := 2, width := 1}], nib.fetched := [fet 1 (cmd 7 1 [(0x10, 4, 512), (0x28, 4, 1), (0x2C, 1, 1)])]},
       (.precisionRead 1), 1, (fet 1 (cmd 7 1 [(0x10, 4, 512), (0x28, 4, 1), (0x2C, 1, 1)])), _, _, {part1 with layout := 2, width := 1}, begins_of (by
       decide +kernel), by decide +kernel⟩,
   ⟨{up with nib.fetched := [fet 1 (cmd 5 1 [(0x28, 4, 1)])]}, 1, (fet 1 (cmd 5 1 [(0x28, 4, 1)])), _, _, part1, begins_of (by decide +kernel), by decide +kernel⟩,
   ⟨{up with map.strokes := [⟨0, 3, 0⟩], map.hair := [⟨0, some 5000000⟩], nib.fetched := [fet 1 (cmd 2 1 [(0x10, 4, 4096), (0x28, 4, 1)])]}, (.read 1), 1, (fet 1
       (cmd 2 1 [(0x10, 4, 4096), (0x28, 4, 1)])), _, _, part1, 0, 5000000, begins_of (by decide +kernel), by decide +kernel⟩,
   ⟨{up with res.staged := [stgOf 3 0 true], nib.fetched := [fet 1 (cmd 5 1 [(0x28, 4, 1)])]}, 1, (fet 1 (cmd 5 1 [(0x28, 4, 1)])), _, _, part1, 0, begins_of (by
       decide +kernel), by decide +kernel⟩,
   ⟨{up with res.staged := [stgOf 3 0 true], nib.fetched := [fet 1 (cmd 2 1 [(0x10, 4, 4096), (0x28, 4, 1)])]}, (.read 1), 1, (fet 1 (cmd 2 1 [(0x10, 4, 4096),
       (0x28, 4, 1)])), _, _, part1, 0, begins_of (by decide +kernel), by decide +kernel⟩⟩

theorem test_meets_DataMovesWithTheHost :
    (∃ (s : State) (i : Item) (p : Part) (segs : List Nat), s.running = true ∧ s.nib.stopped = false ∧ s.nib.items = [i] ∧ i.narrow = false ∧ i.wait = .data ∧
        i.retries = 0 ∧ Entry.opcode i.entry = 1 ∧ s.partOf i = some p ∧ segmentsFit i.entry segs = true ∧ s.dataWaits i = false ∧ s.gateRefuses i = false ∧
        s.mergeBlocks i p = [])
    ∧ (∃ (s : State) (i : Item) (p : Part) (segs : List Nat), s.running = true ∧ s.nib.stopped = false ∧ s.nib.items = [i] ∧ i.narrow = false ∧ i.wait = .data ∧
        i.retries = 0 ∧ Entry.opcode i.entry = 1 ∧ s.partOf i = some p ∧ segmentsFit i.entry segs = true ∧ s.dataWaits i = false ∧ s.gateRefuses i = false ∧
        s.mergeBlocks i p ≠ [])
    ∧ (∃ (s : State) (i : Item) (segs : List Nat), s.running = true ∧ s.nib.stopped = false ∧ s.nib.items = [i] ∧ i.narrow = false ∧ i.wait = .data ∧ i.retries = 0 ∧
        Entry.opcode i.entry = 1 ∧ segmentsFit i.entry segs = true ∧ s.dataWaits i = true)
    ∧ (∃ (s : State) (i : Item) (segs : List Nat), s.running = true ∧ s.nib.stopped = false ∧ s.nib.items = [i] ∧ i.narrow = false ∧ i.wait = .data ∧ i.retries = 0 ∧
        Entry.opcode i.entry = 1 ∧ segmentsFit i.entry segs = true ∧ s.dataWaits i = false ∧ s.gateRefuses i = true ∧ s.flt.unack = [] ∧ s.flt.stopping = false)
    ∧ (∃ (s : State) (id : Nat) (dec : Nat) (n : Nat) (r : Rd) (i : Item), s.running = true ∧ dec ∈ s.dies.decoders ∧ s.dies.reads = [r] ∧ r.id = id ∧ r.staged =
        true ∧ r.done = false ∧ r.bad = false ∧ r.step = 0 ∧ r.falsely = none ∧ r.use = 5 ∧ n ≤ 132 ∧ r.tried.getLastD 0 < 56 ∧ s.flt.unack = [] ∧ s.nib.items = [i]
        ∧ i.ruling = r.ruling ∧ i.wait = .merge ∧ Entry.opcode i.entry = 1 ∧ Entry.durable i.entry = false ∧ s.afterWarning i.ruling = false)
    ∧ (∃ (s : State) (i : Item) (segs : List Nat), s.running = true ∧ s.nib.stopped = false ∧ s.nib.items = [i] ∧ i.narrow = false ∧ i.wait = .data ∧ i.retries = 0 ∧
        Entry.opcode i.entry = 1 ∧ Entry.segmented i.entry = true ∧ segs.sum ≠ Entry.length i.entry)
    ∧ (∃ (s : State) (i : Item) (p : Part) (segs : List Nat), s.running = true ∧ s.nib.stopped = false ∧ s.item? i.ruling = some i ∧ i.narrow = false ∧ i.wait =
        .data ∧ (Entry.opcode i.entry = 2 ∨ Entry.opcode i.entry = 6 ∨ Entry.opcode i.entry = 7) ∧ s.readsOpen i.ruling = false ∧ s.partOf i = some p ∧ segmentsFit
        i.entry segs = true)
    ∧ (∃ (s : State) (i : Item) (p : Part) (segs : List Nat), s.running = true ∧ s.nib.stopped = false ∧ s.item? i.ruling = some i ∧ i.narrow = false ∧ i.wait =
        .data ∧ (Entry.opcode i.entry = 2 ∨ Entry.opcode i.entry = 6 ∨ Entry.opcode i.entry = 7) ∧ s.readsOpen i.ruling = false ∧ s.partOf i = some p ∧ segmentsFit
        i.entry segs = true)
    ∧ (∃ (s : State) (i : Item) (p : Part) (segs : List Nat), s.running = true ∧ s.nib.stopped = false ∧ s.item? i.ruling = some i ∧ i.narrow = false ∧ i.wait =
        .data ∧ (Entry.opcode i.entry = 2 ∨ Entry.opcode i.entry = 6 ∨ Entry.opcode i.entry = 7) ∧ s.readsOpen i.ruling = false ∧ s.partOf i = some p ∧ segmentsFit
        i.entry segs = true)
    ∧ (∃ (s : State) (i : Item) (p : Part) (segs : List Nat), s.running = true ∧ s.nib.stopped = false ∧ s.item? i.ruling = some i ∧ i.narrow = false ∧ i.wait =
        .data ∧ (Entry.opcode i.entry = 2 ∨ Entry.opcode i.entry = 6 ∨ Entry.opcode i.entry = 7) ∧ s.readsOpen i.ruling = false ∧ s.partOf i = some p ∧
        Entry.segmented i.entry = true ∧ segs.sum ≠ Entry.length i.entry)
    ∧ (∃ (s : State) (i : Item), s.item? i.ruling = some i ∧ s.readsOpen i.ruling = true) :=
  ⟨⟨{up with nib.items := [itemOf 5 1 (cmd 1 1 [(0x10, 4, 4096), (0x28, 4, 1)]) .data]}, (itemOf 5 1 (cmd 1 1 [(0x10, 4, 4096), (0x28, 4, 1)]) .data), part1, [], by
      decide +kernel⟩,
⟨{up with map := {parts1 with parts := [{part1 with sector := true}], strokes := [⟨0, 3, 0⟩], hair := [⟨0, some 5000000⟩]}, nib.adm := {parts1 with parts := [{part1 with sector := true}]}, nib.items := [itemOf 5 1 (cmd 1 1 [(0x10, 4, 512), (0x28, 4, 1)]) .data]},
       (itemOf 5 1 (cmd 1 1 [(0x10, 4, 512), (0x28, 4, 1)]) .data), {part1 with sector := true}, [], by decide +kernel⟩,
⟨{up with nib.items := [{itemOf 5 1 (cmd 1 1 [(0x10, 4, 2097152), (0x28, 4, 512)]) .data with resClaim := 1048576}], res := {up.res with claimed := 16777216, staged := [stgOf 3 0 false]}},
       {itemOf 5 1 (cmd 1 1 [(0x10, 4, 2097152), (0x28, 4, 512)]) .data with resClaim := 1048576}, [], by decide +kernel⟩,
   ⟨{up with nib.items := [itemOf 5 1 (cmd 1 1 [(0x10, 4, 4096), (0x28, 4, 1)]) .data], nib.adm.parts := [{part1 with wr := 0}]}, (itemOf 5 1 (cmd 1 1 [(0x10, 4,
       4096), (0x28, 4, 1)]) .data), [], by decide +kernel⟩,
   ⟨{up with dies.reads := [{rdOf 3 5 0 with use := 5}], nib.items := [itemOf 5 1 (cmd 1 1 [(0x10, 4, 512), (0x28, 4, 1)]) .merge]}, 3, 7, 132,
       {rdOf 3 5 0 with use := 5}, (itemOf 5 1 (cmd 1 1 [(0x10, 4, 512), (0x28, 4, 1)]) .merge), by decide +kernel⟩,
   ⟨{up with nib.items := [itemOf 5 1 (cmd 1 1 [(1, 1, 2), (0x10, 4, 8192), (0x14, 2, 2), (0x28, 4, 2)]) .data]}, (itemOf 5 1 (cmd 1 1 [(1, 1, 2), (0x10, 4, 8192),
       (0x14, 2, 2), (0x28, 4, 2)]) .data), [4096], by decide +kernel⟩,
   ⟨{up with nib.items := [itemOf 5 1 (cmd 2 1 [(0x10, 4, 4096), (0x28, 4, 1)]) .data]}, (itemOf 5 1 (cmd 2 1 [(0x10, 4, 4096), (0x28, 4, 1)]) .data), part1, [], by
       decide +kernel⟩,
⟨{up with map.parts := [{part1 with layout := 1, width := 1, planes := 2}], nib.adm.parts := [{part1 with layout := 1, width := 1, planes := 2}], nib.items := [itemOf 5 1 (cmd 6 1 [(0x10, 4, 4096), (0x28, 4, 2)]) .data]},
       (itemOf 5 1 (cmd 6 1 [(0x10, 4, 4096), (0x28, 4, 2)]) .data), {part1 with layout := 1, width := 1, planes := 2}, [], by decide +kernel⟩,
⟨{up with map.parts := [{part1 with layout := 2, width := 1}], nib.adm.parts := [{part1 with layout := 2, width := 1}], nib.items := [itemOf 5 1 (cmd 7 1 [(0x10, 4, 512), (0x28, 4, 1), (0x2C, 1, 1)]) .data]},
       (itemOf 5 1 (cmd 7 1 [(0x10, 4, 512), (0x28, 4, 1), (0x2C, 1, 1)]) .data), {part1 with layout := 2, width := 1}, [], by decide +kernel⟩,
   ⟨{up with nib.items := [itemOf 5 1 (cmd 2 1 [(1, 1, 2), (0x10, 4, 8192), (0x14, 2, 2), (0x28, 4, 2)]) .data]}, (itemOf 5 1 (cmd 2 1 [(1, 1, 2), (0x10, 4, 8192),
       (0x14, 2, 2), (0x28, 4, 2)]) .data), part1, [4096], by decide +kernel⟩,
   ⟨{up with nib.items := [itemOf 5 1 (cmd 2 1 [(0x10, 4, 4096), (0x28, 4, 1)]) .data], dies.reads := [rdOf 0 5 0]}, (itemOf 5 1 (cmd 2 1 [(0x10, 4, 4096), (0x28, 4,
       1)]) .data), by decide +kernel⟩⟩

theorem test_meets_FlushAndReleaseTakeEffect :
    (∃ (s : State) (q : Nat) (f : Fetched) (t : State) (i : Item), s.Begins (.flush q) q f t i ∧ (∀ r ∈ s.nib.unsettled, s.nib.next ≤ r))
    ∧ (∃ (s : State) (q : Nat) (f : Fetched) (t : State) (i : Item), s.Begins (.flush q) q f t i ∧ (∃ r ∈ s.nib.unsettled, r < s.nib.next))
    ∧ (∃ (s : State) (q : Nat) (f : Fetched) (t : State) (i : Item) (p : Part), s.Begins (.release q) q f t i ∧ t.partOf i = some p ∧ t.clearOf i.ruling (p.base +
        (t.extentOf i p).1) ((t.extentOf i p).2 - (t.extentOf i p).1) = true ∧ (∀ x ∈ t.releaseChunks i p, x.2.2 = true) ∧ s.sup.warning = none)
    ∧ (∃ (s : State) (q : Nat) (f : Fetched) (t : State) (i : Item) (p : Part), s.Begins (.release q) q f t i ∧ t.partOf i = some p ∧ t.clearOf i.ruling (p.base +
        (t.extentOf i p).1) ((t.extentOf i p).2 - (t.extentOf i p).1) = false)
    ∧ (∃ (i : Item), i.verdict = 0x100)
    ∧ (∃ (s : State) (e : Entry), Entry.opcode e = 4 ∧ s.sanitizeResumed = false ∧ s.partContained (Entry.part e) = false ∧ s.readOnly.isSome = true)
    ∧ (∃ (s : State) (q : Nat) (f : Fetched) (t : State) (i : Item) (p : Part), s.Begins (.release q) q f t i ∧ t.partOf i = some p ∧ t.clearOf i.ruling (p.base +
        (t.extentOf i p).1) ((t.extentOf i p).2 - (t.extentOf i p).1) = true ∧ (∃ x ∈ t.releaseChunks i p, x.2.2 = false) ∧ t.mergeBlocks i p ≠ []) :=
  ⟨⟨{up with nib.fetched := [fet 1 (cmd 3 0 [])]}, 1, (fet 1 (cmd 3 0 [])), _, _, begins_of (by decide +kernel), by decide +kernel⟩,
   ⟨{up with nib.unsettled := [9], nib.fetched := [fet 1 (cmd 3 0 [])]}, 1, (fet 1 (cmd 3 0 [])), _, _, begins_of (by decide +kernel), by decide +kernel⟩,
   ⟨{up with nib.fetched := [fet 1 (cmd 4 1 [(0x28, 4, 32)])]}, 1, (fet 1 (cmd 4 1 [(0x28, 4, 32)])), _, _, part1, begins_of (by decide +kernel), by decide +kernel⟩,
   ⟨{up with res.staged := [stgOf 3 31 false], nib.fetched := [fet 1 (cmd 4 1 [(0x28, 4, 32)])]}, 1, (fet 1 (cmd 4 1 [(0x28, 4, 32)])), _, _, part1, begins_of (by
       decide +kernel), by decide +kernel⟩,
   ⟨{itemOf 5 1 (cmd 4 1 [(0x28, 4, 32)]) .lock with verdict := 0x100}, by decide +kernel⟩,
   ⟨{up with rec_.worn := true}, (cmd 4 1 [(0x28, 4, 32)]), by decide +kernel⟩,
⟨{up with map := {parts1 with parts := [{part1 with sector := true}], strokes := [⟨0, 3, 0⟩], hair := [⟨0, some 5000000⟩]}, nib.adm := {parts1 with parts := [{part1 with sector := true}]}, nib.fetched := [fet 1 (cmd 4 1 [(0x28, 4, 1)])]},
       1, (fet 1 (cmd 4 1 [(0x28, 4, 1)])), _, _, {part1 with sector := true}, begins_of (by decide +kernel), by decide +kernel⟩⟩

theorem test_meets_QueuePairsAreMadeDeletedAndResumed :
    (∃ (s : State) (f : Fetched) (t : State) (i : Item), s.Begins .createQueuePair 0 f t i ∧ s.pair? (Entry.h2C i.entry) = none ∧ (∀ j ∈ s.nib.items, j.pairCmd
        (Entry.h2C i.entry) = false))
    ∧ (∃ (s : State) (f : Fetched) (t : State) (i : Item) (p : Pair), s.Begins .createQueuePair 0 f t i ∧ s.pair? (Entry.h2C i.entry) = some p ∧ (∀ j ∈ s.nib.items,
        j.pairCmd (Entry.h2C i.entry) = false))
    ∧ (∃ (s : State) (f : Fetched) (t : State) (i : Item), s.Begins .deleteQueuePair 0 f t i ∧ Entry.h2C i.entry ≠ 0 ∧ (∀ j ∈ s.nib.items, j.q ≠ Entry.h2C i.entry ∧
        j.pairCmd (Entry.h2C i.entry) = false) ∧ (∀ g ∈ s.nib.fetched, g.q ≠ Entry.h2C i.entry) ∧ (∀ p, s.pair? (Entry.h2C i.entry) = some p → p.deleting = false))
    ∧ (∃ (s : State) (c : Instr) (f : Fetched) (t : State) (i : Item) (j : Item), s.Begins c 0 f t i ∧ (c = .createQueuePair ∨ c = .deleteQueuePair) ∧ s.nib.items =
        [j] ∧ j.pairCmd (Entry.h2C i.entry) = true)
    ∧ (∃ (s : State) (c : Instr) (f : Fetched) (t : State) (i : Item) (j : Item), s.Begins c 0 f t i ∧ (c = .createQueuePair ∨ c = .deleteQueuePair) ∧ s.nib.items =
        [j] ∧ j.pairCmd (Entry.h2C i.entry) = true)
    ∧ (∃ (s : State) (f : Fetched) (t : State) (i : Item) (p : Pair), s.Begins .resumeQueue 0 f t i ∧ s.pair? (Entry.h2C i.entry) = some p ∧ p.frozen.isSome = true ∧
        p.contained = false ∧ p.deleting = false)
    ∧ (∃ (s : State) (f : Fetched) (t : State) (i : Item) (p : Pair), s.Begins .resumeQueue 0 f t i ∧ s.pair? (Entry.h2C i.entry) = some p ∧ (p.frozen = none ∨
        p.contained = true ∨ p.deleting = true)) :=
  ⟨⟨{up with nib.fetched := [fet 0 (cmd 0x80 0 [(0x08, 8, 0x30000), (0x18, 8, 0x40000), (0x2C, 2, 2), (0x2E, 2, 16), (0x30, 2, 16), (0x32, 2, 2), (0x35, 1, 3)])]},
      (fet 0 (cmd 0x80 0 [(0x08, 8, 0x30000), (0x18, 8, 0x40000), (0x2C, 2, 2), (0x2E, 2, 16), (0x30, 2, 16), (0x32, 2, 2), (0x35, 1, 3)])), _, _, begins_of (by
      decide +kernel), by decide +kernel⟩,
   ⟨{up with nib.fetched := [fet 0 (cmd 0x80 0 [(0x08, 8, 0x30000), (0x18, 8, 0x40000), (0x2C, 2, 1), (0x2E, 2, 16), (0x30, 2, 16), (0x32, 2, 2), (0x35, 1, 3)])]},
       (fet 0 (cmd 0x80 0 [(0x08, 8, 0x30000), (0x18, 8, 0x40000), (0x2C, 2, 1), (0x2E, 2, 16), (0x30, 2, 16), (0x32, 2, 2), (0x35, 1, 3)])), _, _, (pairOf 1),
       begins_of (by decide +kernel), by decide +kernel⟩,
   ⟨{up with nib.fetched := [fet 0 (cmd 0x81 0 [(0x2C, 2, 1)])]}, (fet 0 (cmd 0x81 0 [(0x2C, 2, 1)])), _, _, begins_of (by decide +kernel), by decide +kernel⟩,
⟨{up with nib.items := [itemOf 5 0 (cmd 0x80 0 [(0x08, 8, 0x30000), (0x18, 8, 0x40000), (0x2C, 2, 1), (0x2E, 2, 16), (0x30, 2, 16), (0x32, 2, 2), (0x35, 1, 3)]) .turn], nib.fetched := [fet 0 (cmd 0x81 0 [(0x2C, 2, 1)])]},
       .deleteQueuePair, (fet 0 (cmd 0x81 0 [(0x2C, 2, 1)])), _, _, (itemOf 5 0 (cmd 0x80 0 [(0x08, 8, 0x30000), (0x18, 8, 0x40000), (0x2C, 2, 1), (0x2E, 2, 16),
       (0x30, 2, 16), (0x32, 2, 2), (0x35, 1, 3)]) .turn), begins_of (by decide +kernel), by decide +kernel⟩,
⟨{up with nib.items := [itemOf 5 0 (cmd 0x81 0 [(0x2C, 2, 1)]) .turn], nib.pairs := [pairOf 0, {pairOf 1 with deleting := true}], nib.fetched := [fet 0 (cmd 0x80 0 [(0x08, 8, 0x30000), (0x18, 8, 0x40000), (0x2C, 2, 1), (0x2E, 2, 16), (0x30, 2, 16), (0x32, 2, 2), (0x35, 1, 3)])]},
       .createQueuePair, (fet 0 (cmd 0x80 0 [(0x08, 8, 0x30000), (0x18, 8, 0x40000), (0x2C, 2, 1), (0x2E, 2, 16), (0x30, 2, 16), (0x32, 2, 2), (0x35, 1, 3)])), _, _,
       (itemOf 5 0 (cmd 0x81 0 [(0x2C, 2, 1)]) .turn), begins_of (by decide +kernel), by decide +kernel⟩,
   ⟨{up with nib.pairs := [pairOf 0, {pairOf 1 with frozen := some 3}], nib.fetched := [fet 0 (cmd 0x82 0 [(0x2C, 2, 1)])]}, (fet 0 (cmd 0x82 0 [(0x2C, 2, 1)])), _,
       _, {pairOf 1 with frozen := some 3}, begins_of (by decide +kernel), by decide +kernel⟩,
   ⟨{up with nib.fetched := [fet 0 (cmd 0x82 0 [(0x2C, 2, 1)])]}, (fet 0 (cmd 0x82 0 [(0x2C, 2, 1)])), _, _, (pairOf 1), begins_of (by decide +kernel), by
       decide +kernel⟩⟩

theorem test_meets_CommandsAreCancelledAndRestarted :
    (∃ (s : State) (f : Fetched) (t : State) (i : Item), s.Begins .cancelCommand 0 f t i ∧ Entry.h2C i.entry ≠ 0 ∧ (∀ j ∈ s.nib.items, j.q ≠ Entry.h2C i.entry ∨
        Entry.cid j.entry ≠ Entry.h2E i.entry) ∧ (∀ g ∈ s.nib.fetched, g.q ≠ Entry.h2C i.entry ∨ Entry.cid g.entry ≠ Entry.h2E i.entry))
    ∧ (∃ (s : State) (f : Fetched) (t : State) (i : Item) (j : Item), s.Begins .cancelCommand 0 f t i ∧ s.nib.items = [j] ∧ j.narrow = false ∧ j.past = true ∧ j.q =
        Entry.h2C i.entry ∧ Entry.cid j.entry = Entry.h2E i.entry)
    ∧ (∃ (s : State) (f : Fetched) (t : State) (i : Item) (j : Item), s.Begins .cancelCommand 0 f t i ∧ s.nib.items = [j] ∧ j.narrow = false ∧ j.past = false ∧ j.q =
        Entry.h2C i.entry ∧ Entry.cid j.entry = Entry.h2E i.entry)
    ∧ (∃ (s : State) (f : Fetched) (t : State) (i : Item), s.Begins .controllerRestart 0 f t i ∧ s.nib.items = [] ∧ s.nib.fetched = [f])
    ∧ (∃ (s : State) (f : Fetched) (t : State) (i : Item) (j : Item), s.Begins .controllerRestart 0 f t i ∧ s.nib.items = [j] ∧ s.nib.fetched = [f] ∧ j.narrow =
        false ∧ j.past = false ∧ j.q ≠ 65535) :=
  ⟨⟨{up with nib.fetched := [fet 0 (cmd 0x83 0 [(0x2C, 2, 1), (0x2E, 2, 7)])]}, (fet 0 (cmd 0x83 0 [(0x2C, 2, 1), (0x2E, 2, 7)])), _, _, begins_of (by
      decide +kernel), by decide +kernel⟩,
⟨{up with nib.items := [{itemOf 5 1 (cmd 2 1 [(0x10, 4, 4096), (0x28, 4, 1)]) .data with past := true}], nib.fetched := [fet 0 (cmd 0x83 0 [(0x2C, 2, 1), (0x2E, 2, 7)])]},
       (fet 0 (cmd 0x83 0 [(0x2C, 2, 1), (0x2E, 2, 7)])), _, _, {itemOf 5 1 (cmd 2 1 [(0x10, 4, 4096), (0x28, 4, 1)]) .data with past := true}, begins_of (by
       decide +kernel), by decide +kernel⟩,
   ⟨{up with nib.items := [itemOf 5 1 (cmd 2 1 [(0x10, 4, 4096), (0x28, 4, 1)]) .data], nib.fetched := [fet 0 (cmd 0x83 0 [(0x2C, 2, 1), (0x2E, 2, 7)])]}, (fet 0
       (cmd 0x83 0 [(0x2C, 2, 1), (0x2E, 2, 7)])), _, _, (itemOf 5 1 (cmd 2 1 [(0x10, 4, 4096), (0x28, 4, 1)]) .data), begins_of (by decide +kernel), by
       decide +kernel⟩,
   ⟨{up with nib.fetched := [fet 0 (cmd 0x84 0 [])]}, (fet 0 (cmd 0x84 0 [])), _, _, begins_of (by decide +kernel), by decide +kernel⟩,
   ⟨{up with nib.items := [itemOf 5 1 (cmd 2 1 [(0x10, 4, 4096), (0x28, 4, 1)]) .data], nib.fetched := [fet 0 (cmd 0x84 0 [])]}, (fet 0 (cmd 0x84 0 [])), _, _,
       (itemOf 5 1 (cmd 2 1 [(0x10, 4, 4096), (0x28, 4, 1)]) .data), begins_of (by decide +kernel), by decide +kernel⟩⟩

theorem test_meets_StructuresGoToTheHost :
    (∃ (s : State) (q : Nat) (g : List Nat) (f : Fetched) (t : State) (i : Item) (n : Nat) (l : List Field), s.Begins (.identify q g) q f t i ∧ (Entry.b2C i.entry =
        0 ∧ n = 2048 ∧ l = t.deviceFields ∨ Entry.b2C i.entry = 2 ∧ n = 576 ∧ l = partListFields s.nib.adm ∨ Entry.b2C i.entry = 1 ∧ n = 256 ∧ (∃ p, s.nib.adm.part?
        (Entry.part i.entry) = some p ∧ l = t.partFields p)) ∧ segmentsFit i.entry g = true)
    ∧ (∃ (s : State) (q : Nat) (g : List Nat) (f : Fetched) (t : State) (i : Item) (n : Nat) (l : List Field), s.Begins (.identify q g) q f t i ∧ (Entry.b2C i.entry
        = 0 ∧ n = 2048 ∧ l = t.deviceFields ∨ Entry.b2C i.entry = 2 ∧ n = 576 ∧ l = partListFields s.nib.adm ∨ Entry.b2C i.entry = 1 ∧ n = 256 ∧ (∃ p,
        s.nib.adm.part? (Entry.part i.entry) = some p ∧ l = t.partFields p)) ∧ segmentsFit i.entry g = true)
    ∧ (∃ (s : State) (q : Nat) (g : List Nat) (f : Fetched) (t : State) (i : Item) (n : Nat) (l : List Field), s.Begins (.identify q g) q f t i ∧ (Entry.b2C i.entry
        = 0 ∧ n = 2048 ∧ l = t.deviceFields ∨ Entry.b2C i.entry = 2 ∧ n = 576 ∧ l = partListFields s.nib.adm ∨ Entry.b2C i.entry = 1 ∧ n = 256 ∧ (∃ p,
        s.nib.adm.part? (Entry.part i.entry) = some p ∧ l = t.partFields p)) ∧ segmentsFit i.entry g = true)
    ∧ (∃ (s : State) (q : Nat) (g : List Nat) (f : Fetched) (t : State) (i : Item) (n : Nat) (l : List Field), s.Begins (.getLogPage q g) q f t i ∧ (Entry.b2C
        i.entry = 1 ∧ n = 16448 ∧ l = t.errorPage ∨ Entry.b2C i.entry = 2 ∧ n = 512 ∧ l = t.healthPage ∨ Entry.b2C i.entry = 3 ∧ n = 1088 ∧ l = t.blotterPage ∨
        Entry.b2C i.entry = 4 ∧ n = 64 ∧ l = [(0, 4, t.resetCause (s.wellOf q))] ∨ Entry.b2C i.entry = 5 ∧ n = 256 ∧ l = t.eventsPage ∨ Entry.b2C i.entry = 6 ∧ n =
        544 ∧ l = t.longOpsPage ∨ Entry.b2C i.entry = 7 ∧ n = 32 ∧ l = strapFields s.strap ∨ Entry.b2C i.entry = 8 ∧ n = 2112 ∧ l = t.ligaturePage) ∧ segmentsFit
        i.entry g = true)
    ∧ (∃ (s : State) (q : Nat) (g : List Nat) (f : Fetched) (t : State) (i : Item) (n : Nat) (l : List Field), s.Begins (.getLogPage q g) q f t i ∧ (Entry.b2C
        i.entry = 1 ∧ n = 16448 ∧ l = t.errorPage ∨ Entry.b2C i.entry = 2 ∧ n = 512 ∧ l = t.healthPage ∨ Entry.b2C i.entry = 3 ∧ n = 1088 ∧ l = t.blotterPage ∨
        Entry.b2C i.entry = 4 ∧ n = 64 ∧ l = [(0, 4, t.resetCause (s.wellOf q))] ∨ Entry.b2C i.entry = 5 ∧ n = 256 ∧ l = t.eventsPage ∨ Entry.b2C i.entry = 6 ∧ n =
        544 ∧ l = t.longOpsPage ∨ Entry.b2C i.entry = 7 ∧ n = 32 ∧ l = strapFields s.strap ∨ Entry.b2C i.entry = 8 ∧ n = 2112 ∧ l = t.ligaturePage) ∧ segmentsFit
        i.entry g = true)
    ∧ (∃ (s : State) (q : Nat) (g : List Nat) (f : Fetched) (t : State) (i : Item) (n : Nat) (l : List Field), s.Begins (.getLogPage q g) q f t i ∧ (Entry.b2C
        i.entry = 1 ∧ n = 16448 ∧ l = t.errorPage ∨ Entry.b2C i.entry = 2 ∧ n = 512 ∧ l = t.healthPage ∨ Entry.b2C i.entry = 3 ∧ n = 1088 ∧ l = t.blotterPage ∨
        Entry.b2C i.entry = 4 ∧ n = 64 ∧ l = [(0, 4, t.resetCause (s.wellOf q))] ∨ Entry.b2C i.entry = 5 ∧ n = 256 ∧ l = t.eventsPage ∨ Entry.b2C i.entry = 6 ∧ n =
        544 ∧ l = t.longOpsPage ∨ Entry.b2C i.entry = 7 ∧ n = 32 ∧ l = strapFields s.strap ∨ Entry.b2C i.entry = 8 ∧ n = 2112 ∧ l = t.ligaturePage) ∧ segmentsFit
        i.entry g = true)
    ∧ (∃ (s : State) (q : Nat) (g : List Nat) (f : Fetched) (t : State) (i : Item) (n : Nat) (l : List Field), s.Begins (.getLogPage q g) q f t i ∧ (Entry.b2C
        i.entry = 1 ∧ n = 16448 ∧ l = t.errorPage ∨ Entry.b2C i.entry = 2 ∧ n = 512 ∧ l = t.healthPage ∨ Entry.b2C i.entry = 3 ∧ n = 1088 ∧ l = t.blotterPage ∨
        Entry.b2C i.entry = 4 ∧ n = 64 ∧ l = [(0, 4, t.resetCause (s.wellOf q))] ∨ Entry.b2C i.entry = 5 ∧ n = 256 ∧ l = t.eventsPage ∨ Entry.b2C i.entry = 6 ∧ n =
        544 ∧ l = t.longOpsPage ∨ Entry.b2C i.entry = 7 ∧ n = 32 ∧ l = strapFields s.strap ∨ Entry.b2C i.entry = 8 ∧ n = 2112 ∧ l = t.ligaturePage) ∧ segmentsFit
        i.entry g = true)
    ∧ (∃ (s : State) (q : Nat) (g : List Nat) (f : Fetched) (t : State) (i : Item) (n : Nat) (l : List Field), s.Begins (.getLogPage q g) q f t i ∧ (Entry.b2C
        i.entry = 1 ∧ n = 16448 ∧ l = t.errorPage ∨ Entry.b2C i.entry = 2 ∧ n = 512 ∧ l = t.healthPage ∨ Entry.b2C i.entry = 3 ∧ n = 1088 ∧ l = t.blotterPage ∨
        Entry.b2C i.entry = 4 ∧ n = 64 ∧ l = [(0, 4, t.resetCause (s.wellOf q))] ∨ Entry.b2C i.entry = 5 ∧ n = 256 ∧ l = t.eventsPage ∨ Entry.b2C i.entry = 6 ∧ n =
        544 ∧ l = t.longOpsPage ∨ Entry.b2C i.entry = 7 ∧ n = 32 ∧ l = strapFields s.strap ∨ Entry.b2C i.entry = 8 ∧ n = 2112 ∧ l = t.ligaturePage) ∧ segmentsFit
        i.entry g = true)
    ∧ (∃ (s : State) (q : Nat) (g : List Nat) (f : Fetched) (t : State) (i : Item) (n : Nat) (l : List Field), s.Begins (.getLogPage q g) q f t i ∧ (Entry.b2C
        i.entry = 1 ∧ n = 16448 ∧ l = t.errorPage ∨ Entry.b2C i.entry = 2 ∧ n = 512 ∧ l = t.healthPage ∨ Entry.b2C i.entry = 3 ∧ n = 1088 ∧ l = t.blotterPage ∨
        Entry.b2C i.entry = 4 ∧ n = 64 ∧ l = [(0, 4, t.resetCause (s.wellOf q))] ∨ Entry.b2C i.entry = 5 ∧ n = 256 ∧ l = t.eventsPage ∨ Entry.b2C i.entry = 6 ∧ n =
        544 ∧ l = t.longOpsPage ∨ Entry.b2C i.entry = 7 ∧ n = 32 ∧ l = strapFields s.strap ∨ Entry.b2C i.entry = 8 ∧ n = 2112 ∧ l = t.ligaturePage) ∧ segmentsFit
        i.entry g = true)
    ∧ (∃ (s : State) (q : Nat) (g : List Nat) (f : Fetched) (t : State) (i : Item) (n : Nat) (l : List Field), s.Begins (.getLogPage q g) q f t i ∧ (Entry.b2C
        i.entry = 1 ∧ n = 16448 ∧ l = t.errorPage ∨ Entry.b2C i.entry = 2 ∧ n = 512 ∧ l = t.healthPage ∨ Entry.b2C i.entry = 3 ∧ n = 1088 ∧ l = t.blotterPage ∨
        Entry.b2C i.entry = 4 ∧ n = 64 ∧ l = [(0, 4, t.resetCause (s.wellOf q))] ∨ Entry.b2C i.entry = 5 ∧ n = 256 ∧ l = t.eventsPage ∨ Entry.b2C i.entry = 6 ∧ n =
        544 ∧ l = t.longOpsPage ∨ Entry.b2C i.entry = 7 ∧ n = 32 ∧ l = strapFields s.strap ∨ Entry.b2C i.entry = 8 ∧ n = 2112 ∧ l = t.ligaturePage) ∧ segmentsFit
        i.entry g = true)
    ∧ (∃ (s : State) (q : Nat) (g : List Nat) (f : Fetched) (t : State) (i : Item) (n : Nat) (l : List Field), s.Begins (.getLogPage q g) q f t i ∧ (Entry.b2C
        i.entry = 1 ∧ n = 16448 ∧ l = t.errorPage ∨ Entry.b2C i.entry = 2 ∧ n = 512 ∧ l = t.healthPage ∨ Entry.b2C i.entry = 3 ∧ n = 1088 ∧ l = t.blotterPage ∨
        Entry.b2C i.entry = 4 ∧ n = 64 ∧ l = [(0, 4, t.resetCause (s.wellOf q))] ∨ Entry.b2C i.entry = 5 ∧ n = 256 ∧ l = t.eventsPage ∨ Entry.b2C i.entry = 6 ∧ n =
        544 ∧ l = t.longOpsPage ∨ Entry.b2C i.entry = 7 ∧ n = 32 ∧ l = strapFields s.strap ∨ Entry.b2C i.entry = 8 ∧ n = 2112 ∧ l = t.ligaturePage) ∧ segmentsFit
        i.entry g = true)
    ∧ (∃ (s : State) (g : List Nat) (f : Fetched) (t : State) (i : Item), s.Begins (.attest g) 0 f t i ∧ segmentsFit i.entry g = true ∧ s.rst.calGood = true)
    ∧ (∃ (s : State) (g : List Nat) (f : Fetched) (t : State) (i : Item), s.Begins (.attest g) 0 f t i ∧ s.rst.calGood = false)
    ∧ (∃ (s : State) (c : Instr) (q : Nat) (g : List Nat) (f : Fetched) (t : State) (i : Item), (c = .identify q g ∨ c = .getLogPage q g ∨ c = .getLogPageClear q g ∨
        c = .getLogPageAcknowledge q g ∨ c = .attest g ∧ q = 0 ∧ s.rst.calGood = true) ∧ s.Begins c q f t i ∧ Entry.segmented i.entry = true ∧ g.sum ≠ Entry.length
        i.entry)
    ∧ (∃ (s : State) (c : Instr) (q : Nat) (g : List Nat) (f : Fetched) (t : State) (i : Item), (c = .identify q g ∨ c = .getLogPage q g ∨ c = .getLogPageClear q g ∨
        c = .getLogPageAcknowledge q g ∨ c = .attest g ∧ q = 0 ∧ s.rst.calGood = true) ∧ s.Begins c q f t i ∧ Entry.segmented i.entry = true ∧ g.sum ≠ Entry.length
        i.entry) :=
  ⟨⟨{up with nib.fetched := [fet 1 (cmd 0x88 0 [(0x10, 4, 4096)])]}, 1, [], (fet 1 (cmd 0x88 0 [(0x10, 4, 4096)])), _, _, 2048, (State.deviceFields ((tOf
      ({up with nib.fetched := [fet 1 (cmd 0x88 0 [(0x10, 4, 4096)])]}) (.identify 1 []) 1 (fet 1 (cmd 0x88 0 [(0x10, 4, 4096)]))))), begins_of (by decide +kernel),
      Or.inl ⟨by decide +kernel, rfl, rfl⟩, by decide +kernel⟩,
   ⟨{up with nib.fetched := [fet 1 (cmd 0x88 0 [(0x10, 4, 4096), (0x2C, 1, 2)])]}, 1, [], (fet 1 (cmd 0x88 0 [(0x10, 4, 4096), (0x2C, 1, 2)])), _, _, 576,
       (partListFields parts1), begins_of (by decide +kernel), Or.inr (Or.inl (⟨by decide +kernel, rfl, rfl⟩)), by decide +kernel⟩,
   ⟨{up with nib.fetched := [fet 1 (cmd 0x88 1 [(0x10, 4, 4096), (0x2C, 1, 1)])]}, 1, [], (fet 1 (cmd 0x88 1 [(0x10, 4, 4096), (0x2C, 1, 1)])), _, _, 256,
       (State.partFields ((tOf ({up with nib.fetched := [fet 1 (cmd 0x88 1 [(0x10, 4, 4096), (0x2C, 1, 1)])]}) (.identify 1 []) 1 (fet 1 (cmd 0x88 1 [(0x10, 4,
       4096), (0x2C, 1, 1)])))) part1), begins_of (by decide +kernel), Or.inr (Or.inr (⟨by decide +kernel, rfl, part1, by decide +kernel, rfl⟩)), by decide +kernel⟩,
   ⟨{up with nib.fetched := [fet 1 (cmd 0x89 0 [(0x10, 4, 4096), (0x2C, 1, 1)])]}, 1, [], (fet 1 (cmd 0x89 0 [(0x10, 4, 4096), (0x2C, 1, 1)])), _, _, 16448,
       (State.errorPage ((tOf ({up with nib.fetched := [fet 1 (cmd 0x89 0 [(0x10, 4, 4096), (0x2C, 1, 1)])]}) (.getLogPage 1 []) 1 (fet 1 (cmd 0x89 0 [(0x10, 4,
       4096), (0x2C, 1, 1)]))))), begins_of (by decide +kernel), Or.inl ⟨by decide +kernel, rfl, rfl⟩, by decide +kernel⟩,
   ⟨{up with nib.fetched := [fet 1 (cmd 0x89 0 [(0x10, 4, 4096), (0x2C, 1, 2)])]}, 1, [], (fet 1 (cmd 0x89 0 [(0x10, 4, 4096), (0x2C, 1, 2)])), _, _, 512,
       (State.healthPage ((tOf ({up with nib.fetched := [fet 1 (cmd 0x89 0 [(0x10, 4, 4096), (0x2C, 1, 2)])]}) (.getLogPage 1 []) 1 (fet 1 (cmd 0x89 0 [(0x10, 4,
       4096), (0x2C, 1, 2)]))))), begins_of (by decide +kernel), Or.inr (Or.inl (⟨by decide +kernel, rfl, rfl⟩)), by decide +kernel⟩,
   ⟨{up with nib.fetched := [fet 1 (cmd 0x89 0 [(0x10, 4, 4096), (0x2C, 1, 3)])]}, 1, [], (fet 1 (cmd 0x89 0 [(0x10, 4, 4096), (0x2C, 1, 3)])), _, _, 1088,
       (State.blotterPage ((tOf ({up with nib.fetched := [fet 1 (cmd 0x89 0 [(0x10, 4, 4096), (0x2C, 1, 3)])]}) (.getLogPage 1 []) 1 (fet 1 (cmd 0x89 0 [(0x10, 4,
       4096), (0x2C, 1, 3)]))))), begins_of (by decide +kernel), Or.inr (Or.inr (Or.inl (⟨by decide +kernel, rfl, rfl⟩))), by decide +kernel⟩,
   ⟨{up with nib.fetched := [fet 1 (cmd 0x89 0 [(0x10, 4, 4096), (0x2C, 1, 4)])]}, 1, [], (fet 1 (cmd 0x89 0 [(0x10, 4, 4096), (0x2C, 1, 4)])), _, _, 64, [(0, 4,
       State.resetCause ((tOf ({up with nib.fetched := [fet 1 (cmd 0x89 0 [(0x10, 4, 4096), (0x2C, 1, 4)])]}) (.getLogPage 1 []) 1 (fet 1 (cmd 0x89 0 [(0x10, 4,
       4096), (0x2C, 1, 4)])))) (State.wellOf ({up with nib.fetched := [fet 1 (cmd 0x89 0 [(0x10, 4, 4096), (0x2C, 1, 4)])]}) 1))], begins_of (by decide +kernel),
       Or.inr (Or.inr (Or.inr (Or.inl (⟨by decide +kernel, rfl, rfl⟩)))), by decide +kernel⟩,
   ⟨{up with nib.fetched := [fet 1 (cmd 0x89 0 [(0x10, 4, 4096), (0x2C, 1, 5)])]}, 1, [], (fet 1 (cmd 0x89 0 [(0x10, 4, 4096), (0x2C, 1, 5)])), _, _, 256,
       (State.eventsPage ((tOf ({up with nib.fetched := [fet 1 (cmd 0x89 0 [(0x10, 4, 4096), (0x2C, 1, 5)])]}) (.getLogPage 1 []) 1 (fet 1 (cmd 0x89 0 [(0x10, 4,
       4096), (0x2C, 1, 5)]))))), begins_of (by decide +kernel), Or.inr (Or.inr (Or.inr (Or.inr (Or.inl (⟨by decide +kernel, rfl, rfl⟩))))), by decide +kernel⟩,
   ⟨{up with nib.fetched := [fet 1 (cmd 0x89 0 [(0x10, 4, 4096), (0x2C, 1, 6)])]}, 1, [], (fet 1 (cmd 0x89 0 [(0x10, 4, 4096), (0x2C, 1, 6)])), _, _, 544,
       (State.longOpsPage ((tOf ({up with nib.fetched := [fet 1 (cmd 0x89 0 [(0x10, 4, 4096), (0x2C, 1, 6)])]}) (.getLogPage 1 []) 1 (fet 1 (cmd 0x89 0 [(0x10, 4,
       4096), (0x2C, 1, 6)]))))), begins_of (by decide +kernel), Or.inr (Or.inr (Or.inr (Or.inr (Or.inr (Or.inl (⟨by decide +kernel, rfl, rfl⟩)))))), by
       decide +kernel⟩,
   ⟨{up with nib.fetched := [fet 1 (cmd 0x89 0 [(0x10, 4, 4096), (0x2C, 1, 7)])]}, 1, [], (fet 1 (cmd 0x89 0 [(0x10, 4, 4096), (0x2C, 1, 7)])), _, _, 32,
       (strapFields up.strap), begins_of (by decide +kernel), Or.inr (Or.inr (Or.inr (Or.inr (Or.inr (Or.inr (Or.inl (⟨by decide +kernel, rfl, rfl⟩))))))), by
       decide +kernel⟩,
   ⟨{up with nib.fetched := [fet 1 (cmd 0x89 0 [(0x10, 4, 4096), (0x2C, 1, 8)])]}, 1, [], (fet 1 (cmd 0x89 0 [(0x10, 4, 4096), (0x2C, 1, 8)])), _, _, 2112,
       (State.ligaturePage ((tOf ({up with nib.fetched := [fet 1 (cmd 0x89 0 [(0x10, 4, 4096), (0x2C, 1, 8)])]}) (.getLogPage 1 []) 1 (fet 1 (cmd 0x89 0 [(0x10, 4,
       4096), (0x2C, 1, 8)]))))), begins_of (by decide +kernel), Or.inr (Or.inr (Or.inr (Or.inr (Or.inr (Or.inr (Or.inr (⟨by decide +kernel, rfl, rfl⟩))))))), by
       decide +kernel⟩,
   ⟨{up with nib.fetched := [fet 0 (cmd 0xA2 0 [(0x10, 4, 8192)])]}, [], (fet 0 (cmd 0xA2 0 [(0x10, 4, 8192)])), _, _, begins_of (by decide +kernel), by decide +kernel⟩,
   ⟨{up with rst.calGood := false, nib.fetched := [fet 0 (cmd 0xA2 0 [(0x10, 4, 8192)])]}, [], (fet 0 (cmd 0xA2 0 [(0x10, 4, 8192)])), _, _, begins_of (by
       decide +kernel), by decide +kernel⟩,
   ⟨{up with nib.fetched := [fet 1 (cmd 0x88 0 [(1, 1, 2), (0x10, 4, 4096), (0x14, 2, 1)])]}, (.identify 1 [1]), 1, [1], (fet 1 (cmd 0x88 0 [(1, 1, 2), (0x10, 4,
       4096), (0x14, 2, 1)])), _, _, Or.inl rfl, begins_of (by decide +kernel), by decide +kernel⟩,
   ⟨{up with nib.fetched := [fet 0 (cmd 0xA2 0 [(1, 1, 2), (0x10, 4, 8192), (0x14, 2, 1)])]}, (.attest [1]), 0, [1], (fet 0 (cmd 0xA2 0 [(1, 1, 2), (0x10, 4, 8192),
       (0x14, 2, 1)])), _, _, Or.inr (Or.inr (Or.inr (Or.inr ⟨rfl, rfl, rfl⟩))), begins_of (by decide +kernel), by decide +kernel⟩⟩

theorem test_meets_LogPagesClearAndAcknowledge :
    (∃ (s : State) (q : Nat) (g : List Nat) (f : Fetched) (t : State) (i : Item), s.Begins (.getLogPageClear q g) q f t i ∧ segmentsFit i.entry g = true ∧ Entry.b2C
        i.entry = 4)
    ∧ (∃ (s : State) (q : Nat) (g : List Nat) (f : Fetched) (t : State) (i : Item), s.Begins (.getLogPageClear q g) q f t i ∧ segmentsFit i.entry g = true ∧
        Entry.b2C i.entry = 5)
    ∧ (∃ (s : State) (q : Nat) (g : List Nat) (f : Fetched) (t : State) (i : Item) (u : Unack) (b : Blot), s.Begins (.getLogPageAcknowledge q g) q f t i ∧
        segmentsFit i.entry g = true ∧ Entry.b2C i.entry = 3 ∧ s.flt.unack = [u] ∧ u.level = 3 ∧ s.flt.blotter = [b] ∧ b.seq = u.seq ∧ b.kind = 1 ∧ Entry.w30 i.entry
        ≤ 0x40 + 32 * b.slot ∧ 0x40 + 32 * b.slot + 32 ≤ Entry.w30 i.entry + Entry.length i.entry ∧ s.flt.safe = [])
    ∧ (∃ (s : State) (q : Nat) (g : List Nat) (f : Fetched) (t : State) (i : Item), s.Begins (.getLogPageAcknowledge q g) q f t i ∧ segmentsFit i.entry g = true ∧
        Entry.b2C i.entry = 3 ∧ (∀ u ∈ s.flt.unack, u.level ≠ 3 ∧ u.level ≠ 4) ∧ s.flt.safe = []) :=
  ⟨⟨{up with nib.fetched := [fet 1 (cmd 0x89 0 [(0x10, 4, 64), (0x2C, 1, 4), (0x2D, 1, 1)])]}, 1, [], (fet 1 (cmd 0x89 0 [(0x10, 4, 64), (0x2C, 1, 4), (0x2D, 1,
      1)])), _, _, begins_of (by decide +kernel), by decide +kernel⟩,
   ⟨{up with nib.fetched := [fet 1 (cmd 0x89 0 [(0x10, 4, 256), (0x2C, 1, 5), (0x2D, 1, 1)])]}, 1, [], (fet 1 (cmd 0x89 0 [(0x10, 4, 256), (0x2C, 1, 5), (0x2D, 1,
       1)])), _, _, begins_of (by decide +kernel), by decide +kernel⟩,
   ⟨{up with flt.unack := [⟨10, 3, 1⟩], flt.blotter := [blotOf 1 10], nib.fetched := [fet 1 (cmd 0x89 0 [(0x10, 4, 1088), (0x2C, 1, 3), (0x2D, 1, 2)])]}, 1, [], (fet
       1 (cmd 0x89 0 [(0x10, 4, 1088), (0x2C, 1, 3), (0x2D, 1, 2)])), _, _, (⟨10, 3, 1⟩ : Unack), (blotOf 1 10), begins_of (by decide +kernel), by decide +kernel⟩,
   ⟨{up with nib.fetched := [fet 1 (cmd 0x89 0 [(0x10, 4, 1088), (0x2C, 1, 3), (0x2D, 1, 2)])]}, 1, [], (fet 1 (cmd 0x89 0 [(0x10, 4, 1088), (0x2C, 1, 3), (0x2D, 1,
       2)])), _, _, begins_of (by decide +kernel), by decide +kernel⟩⟩

theorem test_meets_EventsTimeAndHints :
    (∃ (s : State) (f : Fetched) (t : State) (i : Item), s.Begins .awaitEvent 0 f t i ∧ (∀ j ∈ s.nib.items, j.wait ≠ .event) ∧ (∀ k < 16, (s.flt.events.getD k
        Ev.none).pending = false))
    ∧ (∃ (s : State) (f : Fetched) (t : State) (i : Item) (k : Nat) (e : Ev), s.Begins .awaitEvent 0 f t i ∧ (∀ j ∈ s.nib.items, j.wait ≠ .event) ∧ k < 16 ∧ (∀ m <
        k, (s.flt.events.getD m Ev.none).pending = false) ∧ s.flt.events.getD k Ev.none = e ∧ e.pending = true)
    ∧ (∃ (s : State) (f : Fetched) (t : State) (i : Item), s.Begins .awaitEvent 0 f t i ∧ 4 ≤ (s.nib.items.filter (fun j => j.wait = .event)).length)
    ∧ (∃ (s : State) (f : Fetched) (t : State) (i : Item), s.Begins .setTime 0 f t i ∧ s.rec_.lastWall = 0)
    ∧ (∃ (s : State) (f : Fetched) (t : State) (i : Item), s.Begins .powerHint 0 f t i)
    ∧ (∃ (s : State), s.running = true) :=
  ⟨⟨{up with nib.fetched := [fet 0 (cmd 0x85 0 [])]}, (fet 0 (cmd 0x85 0 [])), _, _, begins_of (by decide +kernel), by decide +kernel⟩,
   ⟨{up with flt.events := List.replicate 15 Ev.none ++ [{Ev.none with pending := true}], nib.fetched := [fet 0 (cmd 0x85 0 [])]}, (fet 0 (cmd 0x85 0 [])), _, _, 15,
       {Ev.none with pending := true}, begins_of (by decide +kernel), by decide +kernel⟩,
⟨{up with nib.items := [itemOf 1 0 (cmd 0x85 0 []) .event, itemOf 2 0 (cmd 0x85 0 []) .event, itemOf 3 0 (cmd 0x85 0 []) .event, itemOf 4 0 (cmd 0x85 0 []) .event], nib.fetched := [fet 0 (cmd 0x85 0 [])]},
       (fet 0 (cmd 0x85 0 [])), _, _, begins_of (by decide +kernel), by decide +kernel⟩,
   ⟨{up with nib.fetched := [fet 0 (cmd 0x8A 0 [(0x2C, 8, 1)])]}, (fet 0 (cmd 0x8A 0 [(0x2C, 8, 1)])), _, _, begins_of (by decide +kernel), by decide +kernel⟩,
   ⟨{up with nib.fetched := [fet 0 (cmd 0x8B 0 [])]}, (fet 0 (cmd 0x8B 0 [])), _, _, begins_of (by decide +kernel)⟩,
   ⟨up, by decide +kernel⟩⟩

theorem test_meets_PartitionsAndProtectionAreRecorded :
    (∃ (s : State) (f : Fetched) (t : State) (i : Item) (base : Nat), s.Begins .createPartition 0 f t i ∧ s.nib.items = [] ∧ findGap t.logicalBlocks (Entry.d2C
        i.entry) 0 (byBase s.map.parts) = some base)
    ∧ (∃ (s : State) (f : Fetched) (t : State) (i : Item) (p : Part), s.Begins .deletePartition 0 f t i ∧ s.nib.items = [] ∧ s.map.part? (Entry.part i.entry) = some
        p ∧ (∀ x ∈ s.res.staged, x.block < p.base ∨ p.base + p.size ≤ x.block))
    ∧ (∃ (s : State) (c : Instr) (f : Fetched) (t : State) (i : Item) (j : Item), s.Begins c 0 f t i ∧ (c = .createPartition ∨ c = .deletePartition) ∧ s.nib.items =
        [j] ∧ (Entry.opcode j.entry = 0x90 ∨ Entry.opcode j.entry = 0x91) ∧ j.wait ≠ .persist)
    ∧ (∃ (s : State) (c : Instr) (f : Fetched) (t : State) (i : Item) (j : Item), s.Begins c 0 f t i ∧ (c = .createPartition ∨ c = .deletePartition) ∧ s.nib.items =
        [j] ∧ (Entry.opcode j.entry = 0x90 ∨ Entry.opcode j.entry = 0x91) ∧ j.wait ≠ .persist)
    ∧ (∃ (s : State) (c : Instr) (f : Fetched) (t : State) (i : Item) (m : MapState), s.Begins c 0 f t i ∧ (c = .cap ∧ Entry.part i.entry = 0 ∧ s.map.cardFix = false
        ∧ s.map.cardCap = false ∧ m = { s.map with cardCap := true } ∨ c = .uncap ∧ Entry.part i.entry = 0 ∧ s.map.cardCap = true ∧ m =
        { s.map with cardCap := false } ∨ c = .fix ∧ Entry.part i.entry = 0 ∧ s.map.cardFix = false ∧ m = { s.map with cardFix := true } ∨ (∃ p, s.map.part?
        (Entry.part i.entry) = some p ∧ Entry.part i.entry ≠ 0 ∧ (c = .cap ∧ s.map.cardFix = false ∧ p.fixed = false ∧ p.capped = false ∧ m = s.map.modPart
        (Entry.part i.entry) (fun p => { p with capped := true }) ∨ c = .uncap ∧ p.capped = true ∧ m = s.map.modPart (Entry.part i.entry) (fun p =>
        { p with capped := false }) ∨ c = .fix ∧ s.map.cardFix = false ∧ p.fixed = false ∧ m = s.map.modPart (Entry.part i.entry) (fun p => { p with fixed := true })
        ∨ c = .setAccess ∧ m = s.map.modPart (Entry.part i.entry) (fun p =>
        { p with rd := BitVec.ofNat 64 (Entry.d2C i.entry), wr := BitVec.ofNat 64 (Entry.d34 i.entry) })))) ∧ s.nib.items = [])
    ∧ (∃ (s : State) (c : Instr) (f : Fetched) (t : State) (i : Item) (m : MapState), s.Begins c 0 f t i ∧ (c = .cap ∧ Entry.part i.entry = 0 ∧ s.map.cardFix = false
        ∧ s.map.cardCap = false ∧ m = { s.map with cardCap := true } ∨ c = .uncap ∧ Entry.part i.entry = 0 ∧ s.map.cardCap = true ∧ m =
        { s.map with cardCap := false } ∨ c = .fix ∧ Entry.part i.entry = 0 ∧ s.map.cardFix = false ∧ m = { s.map with cardFix := true } ∨ (∃ p, s.map.part?
        (Entry.part i.entry) = some p ∧ Entry.part i.entry ≠ 0 ∧ (c = .cap ∧ s.map.cardFix = false ∧ p.fixed = false ∧ p.capped = false ∧ m = s.map.modPart
        (Entry.part i.entry) (fun p => { p with capped := true }) ∨ c = .uncap ∧ p.capped = true ∧ m = s.map.modPart (Entry.part i.entry) (fun p =>
        { p with capped := false }) ∨ c = .fix ∧ s.map.cardFix = false ∧ p.fixed = false ∧ m = s.map.modPart (Entry.part i.entry) (fun p => { p with fixed := true })
        ∨ c = .setAccess ∧ m = s.map.modPart (Entry.part i.entry) (fun p =>
        { p with rd := BitVec.ofNat 64 (Entry.d2C i.entry), wr := BitVec.ofNat 64 (Entry.d34 i.entry) })))) ∧ s.nib.items = [])
    ∧ (∃ (s : State) (c : Instr) (f : Fetched) (t : State) (i : Item) (m : MapState), s.Begins c 0 f t i ∧ (c = .cap ∧ Entry.part i.entry = 0 ∧ s.map.cardFix = false
        ∧ s.map.cardCap = false ∧ m = { s.map with cardCap := true } ∨ c = .uncap ∧ Entry.part i.entry = 0 ∧ s.map.cardCap = true ∧ m =
        { s.map with cardCap := false } ∨ c = .fix ∧ Entry.part i.entry = 0 ∧ s.map.cardFix = false ∧ m = { s.map with cardFix := true } ∨ (∃ p, s.map.part?
        (Entry.part i.entry) = some p ∧ Entry.part i.entry ≠ 0 ∧ (c = .cap ∧ s.map.cardFix = false ∧ p.fixed = false ∧ p.capped = false ∧ m = s.map.modPart
        (Entry.part i.entry) (fun p => { p with capped := true }) ∨ c = .uncap ∧ p.capped = true ∧ m = s.map.modPart (Entry.part i.entry) (fun p =>
        { p with capped := false }) ∨ c = .fix ∧ s.map.cardFix = false ∧ p.fixed = false ∧ m = s.map.modPart (Entry.part i.entry) (fun p => { p with fixed := true })
        ∨ c = .setAccess ∧ m = s.map.modPart (Entry.part i.entry) (fun p =>
        { p with rd := BitVec.ofNat 64 (Entry.d2C i.entry), wr := BitVec.ofNat 64 (Entry.d34 i.entry) })))) ∧ s.nib.items = [])
    ∧ (∃ (s : State) (c : Instr) (f : Fetched) (t : State) (i : Item) (m : MapState), s.Begins c 0 f t i ∧ (c = .cap ∧ Entry.part i.entry = 0 ∧ s.map.cardFix = false
        ∧ s.map.cardCap = false ∧ m = { s.map with cardCap := true } ∨ c = .uncap ∧ Entry.part i.entry = 0 ∧ s.map.cardCap = true ∧ m =
        { s.map with cardCap := false } ∨ c = .fix ∧ Entry.part i.entry = 0 ∧ s.map.cardFix = false ∧ m = { s.map with cardFix := true } ∨ (∃ p, s.map.part?
        (Entry.part i.entry) = some p ∧ Entry.part i.entry ≠ 0 ∧ (c = .cap ∧ s.map.cardFix = false ∧ p.fixed = false ∧ p.capped = false ∧ m = s.map.modPart
        (Entry.part i.entry) (fun p => { p with capped := true }) ∨ c = .uncap ∧ p.capped = true ∧ m = s.map.modPart (Entry.part i.entry) (fun p =>
        { p with capped := false }) ∨ c = .fix ∧ s.map.cardFix = false ∧ p.fixed = false ∧ m = s.map.modPart (Entry.part i.entry) (fun p => { p with fixed := true })
        ∨ c = .setAccess ∧ m = s.map.modPart (Entry.part i.entry) (fun p =>
        { p with rd := BitVec.ofNat 64 (Entry.d2C i.entry), wr := BitVec.ofNat 64 (Entry.d34 i.entry) })))) ∧ s.nib.items = [])
    ∧ (∃ (s : State) (c : Instr) (f : Fetched) (t : State) (i : Item) (m : MapState), s.Begins c 0 f t i ∧ (c = .cap ∧ Entry.part i.entry = 0 ∧ s.map.cardFix = false
        ∧ s.map.cardCap = false ∧ m = { s.map with cardCap := true } ∨ c = .uncap ∧ Entry.part i.entry = 0 ∧ s.map.cardCap = true ∧ m =
        { s.map with cardCap := false } ∨ c = .fix ∧ Entry.part i.entry = 0 ∧ s.map.cardFix = false ∧ m = { s.map with cardFix := true } ∨ (∃ p, s.map.part?
        (Entry.part i.entry) = some p ∧ Entry.part i.entry ≠ 0 ∧ (c = .cap ∧ s.map.cardFix = false ∧ p.fixed = false ∧ p.capped = false ∧ m = s.map.modPart
        (Entry.part i.entry) (fun p => { p with capped := true }) ∨ c = .uncap ∧ p.capped = true ∧ m = s.map.modPart (Entry.part i.entry) (fun p =>
        { p with capped := false }) ∨ c = .fix ∧ s.map.cardFix = false ∧ p.fixed = false ∧ m = s.map.modPart (Entry.part i.entry) (fun p => { p with fixed := true })
        ∨ c = .setAccess ∧ m = s.map.modPart (Entry.part i.entry) (fun p =>
        { p with rd := BitVec.ofNat 64 (Entry.d2C i.entry), wr := BitVec.ofNat 64 (Entry.d34 i.entry) })))) ∧ s.nib.items = [])
    ∧ (∃ (s : State) (c : Instr) (f : Fetched) (t : State) (i : Item) (m : MapState), s.Begins c 0 f t i ∧ (c = .cap ∧ Entry.part i.entry = 0 ∧ s.map.cardFix = false
        ∧ s.map.cardCap = false ∧ m = { s.map with cardCap := true } ∨ c = .uncap ∧ Entry.part i.entry = 0 ∧ s.map.cardCap = true ∧ m =
        { s.map with cardCap := false } ∨ c = .fix ∧ Entry.part i.entry = 0 ∧ s.map.cardFix = false ∧ m = { s.map with cardFix := true } ∨ (∃ p, s.map.part?
        (Entry.part i.entry) = some p ∧ Entry.part i.entry ≠ 0 ∧ (c = .cap ∧ s.map.cardFix = false ∧ p.fixed = false ∧ p.capped = false ∧ m = s.map.modPart
        (Entry.part i.entry) (fun p => { p with capped := true }) ∨ c = .uncap ∧ p.capped = true ∧ m = s.map.modPart (Entry.part i.entry) (fun p =>
        { p with capped := false }) ∨ c = .fix ∧ s.map.cardFix = false ∧ p.fixed = false ∧ m = s.map.modPart (Entry.part i.entry) (fun p => { p with fixed := true })
        ∨ c = .setAccess ∧ m = s.map.modPart (Entry.part i.entry) (fun p =>
        { p with rd := BitVec.ofNat 64 (Entry.d2C i.entry), wr := BitVec.ofNat 64 (Entry.d34 i.entry) })))) ∧ s.nib.items = [])
    ∧ (∃ (s : State) (c : Instr) (f : Fetched) (t : State) (i : Item), s.Begins c 0 f t i ∧ (Entry.part i.entry = 0 ∧ (c = .cap ∧ s.map.cardCap = true ∨ c = .uncap ∧
        s.map.cardCap = false) ∨ (c = .cap ∨ c = .fix) ∧ s.map.cardFix = true ∨ (∃ p, s.map.part? (Entry.part i.entry) = some p ∧ Entry.part i.entry ≠ 0 ∧ (c = .cap
        ∧ (p.capped = true ∨ p.fixed = true) ∨ c = .uncap ∧ p.capped = false ∨ c = .fix ∧ p.fixed = true))) ∧ s.nib.items = [])
    ∧ (∃ (s : State) (c : Instr) (f : Fetched) (t : State) (i : Item), s.Begins c 0 f t i ∧ (Entry.part i.entry = 0 ∧ (c = .cap ∧ s.map.cardCap = true ∨ c = .uncap ∧
        s.map.cardCap = false) ∨ (c = .cap ∨ c = .fix) ∧ s.map.cardFix = true ∨ (∃ p, s.map.part? (Entry.part i.entry) = some p ∧ Entry.part i.entry ≠ 0 ∧ (c = .cap
        ∧ (p.capped = true ∨ p.fixed = true) ∨ c = .uncap ∧ p.capped = false ∨ c = .fix ∧ p.fixed = true))) ∧ s.nib.items = [])
    ∧ (∃ (s : State) (c : Instr) (f : Fetched) (t : State) (i : Item), s.Begins c 0 f t i ∧ (Entry.part i.entry = 0 ∧ (c = .cap ∧ s.map.cardCap = true ∨ c = .uncap ∧
        s.map.cardCap = false) ∨ (c = .cap ∨ c = .fix) ∧ s.map.cardFix = true ∨ (∃ p, s.map.part? (Entry.part i.entry) = some p ∧ Entry.part i.entry ≠ 0 ∧ (c = .cap
        ∧ (p.capped = true ∨ p.fixed = true) ∨ c = .uncap ∧ p.capped = false ∨ c = .fix ∧ p.fixed = true))) ∧ s.nib.items = [])
    ∧ (∃ (s : State) (c : Instr) (f : Fetched) (t : State) (i : Item), s.Begins c 0 f t i ∧ (Entry.part i.entry = 0 ∧ (c = .cap ∧ s.map.cardCap = true ∨ c = .uncap ∧
        s.map.cardCap = false) ∨ (c = .cap ∨ c = .fix) ∧ s.map.cardFix = true ∨ (∃ p, s.map.part? (Entry.part i.entry) = some p ∧ Entry.part i.entry ≠ 0 ∧ (c = .cap
        ∧ (p.capped = true ∨ p.fixed = true) ∨ c = .uncap ∧ p.capped = false ∨ c = .fix ∧ p.fixed = true))) ∧ s.nib.items = []) :=
  ⟨⟨{up with nib.fetched := [fet 0 (cmd 0x90 2 [(0x2C, 8, 32)])]}, (fet 0 (cmd 0x90 2 [(0x2C, 8, 32)])), _, _, 64, begins_of (by decide +kernel), by decide +kernel⟩,
   ⟨{up with nib.fetched := [fet 0 (cmd 0x91 1 [])]}, (fet 0 (cmd 0x91 1 [])), _, _, part1, begins_of (by decide +kernel), by decide +kernel⟩,
   ⟨{up with nib.items := [itemOf 5 0 (cmd 0x90 3 [(0x2C, 8, 32)]) .turn], nib.fetched := [fet 0 (cmd 0x91 1 [])]}, .deletePartition, (fet 0 (cmd 0x91 1 [])), _, _,
       (itemOf 5 0 (cmd 0x90 3 [(0x2C, 8, 32)]) .turn), begins_of (by decide +kernel), by decide +kernel⟩,
   ⟨{up with nib.items := [itemOf 5 0 (cmd 0x90 3 [(0x2C, 8, 32)]) .turn], nib.fetched := [fet 0 (cmd 0x90 2 [(0x2C, 8, 32)])]}, .createPartition, (fet 0 (cmd 0x90 2
       [(0x2C, 8, 32)])), _, _, (itemOf 5 0 (cmd 0x90 3 [(0x2C, 8, 32)]) .turn), begins_of (by decide +kernel), by decide +kernel⟩,
   ⟨{up with nib.fetched := [fet 0 (cmd 0x92 0 [])]}, .cap, (fet 0 (cmd 0x92 0 [])), _, _, {up.map with cardCap := true}, begins_of (by decide +kernel), Or.inl
       (⟨rfl, by decide +kernel, rfl, rfl, rfl⟩), by decide +kernel⟩,
   ⟨{up with map.cardCap := true, nib.adm.cardCap := true, nib.fetched := [fet 0 (cmd 0x93 0 [])]}, .uncap, (fet 0 (cmd 0x93 0 [])), _, _,
       {up.map with cardCap := false}, begins_of (by decide +kernel), Or.inr (Or.inl (⟨rfl, by decide +kernel, rfl, rfl⟩)), by decide +kernel⟩,
   ⟨{up with nib.fetched := [fet 0 (cmd 0x94 0 [(0x2C, 2, 0xA55A)])]}, .fix, (fet 0 (cmd 0x94 0 [(0x2C, 2, 0xA55A)])), _, _, {up.map with cardFix := true}, begins_of
       (by decide +kernel), Or.inr (Or.inr (Or.inl (⟨rfl, by decide +kernel, rfl, rfl⟩))), by decide +kernel⟩,
   ⟨{up with nib.fetched := [fet 0 (cmd 0x95 1 [(0x2C, 8, 1), (0x34, 8, 1)])]}, .setAccess, (fet 0 (cmd 0x95 1 [(0x2C, 8, 1), (0x34, 8, 1)])), _, _,
       {up.map with parts := [{part1 with rd := 1, wr := 1}]}, begins_of (by decide +kernel), Or.inr (Or.inr (Or.inr (⟨part1, by decide +kernel, by decide +kernel,
       Or.inr (Or.inr (Or.inr ⟨rfl, by decide +kernel⟩))⟩))), by decide +kernel⟩,
   ⟨{up with nib.fetched := [fet 0 (cmd 0x92 1 [])]}, .cap, (fet 0 (cmd 0x92 1 [])), _, _, {up.map with parts := [{part1 with capped := true}]}, begins_of (by
       decide +kernel), Or.inr (Or.inr (Or.inr (⟨part1, by decide +kernel, by decide +kernel, Or.inl ⟨rfl, rfl, rfl, rfl, by decide +kernel⟩⟩))), by decide +kernel⟩,
   ⟨{up with nib.fetched := [fet 0 (cmd 0x94 1 [(0x2C, 2, 0xA55A)])]}, .fix, (fet 0 (cmd 0x94 1 [(0x2C, 2, 0xA55A)])), _, _,
       {up.map with parts := [{part1 with fixed := true}]}, begins_of (by decide +kernel), Or.inr (Or.inr (Or.inr (⟨part1, by decide +kernel, by decide +kernel,
       Or.inr (Or.inr (Or.inl ⟨rfl, rfl, rfl, by decide +kernel⟩))⟩))), by decide +kernel⟩,
   ⟨{up with map.cardCap := true, nib.adm.cardCap := true, nib.fetched := [fet 0 (cmd 0x92 0 [])]}, .cap, (fet 0 (cmd 0x92 0 [])), _, _, begins_of (by
       decide +kernel), Or.inl (by decide +kernel), by decide +kernel⟩,
   ⟨{up with nib.fetched := [fet 0 (cmd 0x93 0 [])]}, .uncap, (fet 0 (cmd 0x93 0 [])), _, _, begins_of (by decide +kernel), Or.inl (by decide +kernel), by
       decide +kernel⟩,
   ⟨{up with map.cardFix := true, nib.adm.cardFix := true, nib.fetched := [fet 0 (cmd 0x94 0 [(0x2C, 2, 0xA55A)])]}, .fix, (fet 0 (cmd 0x94 0 [(0x2C, 2, 0xA55A)])),
       _, _, begins_of (by decide +kernel), Or.inr (Or.inl (by decide +kernel)), by decide +kernel⟩,
   ⟨{up with nib.fetched := [fet 0 (cmd 0x93 1 [])]}, .uncap, (fet 0 (cmd 0x93 1 [])), _, _, begins_of (by decide +kernel), Or.inr (Or.inr ⟨part1, by decide +kernel,
       by decide +kernel, Or.inr (Or.inl ⟨rfl, rfl⟩)⟩), by decide +kernel⟩⟩

theorem test_meets_SanitizeErasesTheMedia :
    (∃ (s : State) (f : Fetched) (t : State) (i : Item), s.Begins .sanitizeDevice 0 f t i ∧ (s.lops.list.map (·.handle)).Nodup)
    ∧ (∃ (s : State) (r : Nat) (o : LongOp), s.running = true ∧ (s.rst.io = true ∨ s.mismatch = true) ∧ s.rec_.sanitize = some r ∧ s.lops.list = [o] ∧ o.typ = 1 ∧
        o.state = 1 ∧ (∀ c ∈ s.dies.chHeld, c ∈ s.rec_.failedChannels)) :=
  ⟨⟨{up with nib.fetched := [fet 0 (cmd 0x98 0 [(0x2C, 2, 0x5AA5)])]}, (fet 0 (cmd 0x98 0 [(0x2C, 2, 0x5AA5)])), _, _, begins_of (by decide +kernel), by decide +kernel⟩,
   ⟨{up with rec_.sanitize := some 5, lops.list := [lopOf 1 1 1]}, 5, (lopOf 1 1 1), by decide +kernel⟩⟩

theorem test_meets_TestsAndCalibrationRun :
    (∃ (s : State) (c : Instr) (f : Fetched) (t : State) (i : Item) (typ : Nat) (target : Nat), s.Begins c 0 f t i ∧ s.lops.list = [] ∧ s.rec_.sanitize = none ∧ (∀ j
        ∈ s.nib.items, Entry.opcode j.entry ≠ 0x98) ∧ (c = .selfTest ∧ typ = 1 + Entry.b2C i.entry ∧ target = 0xFFFF ∨ c = .calibrate ∧ typ = 4 ∧ target = (if
        Entry.b2C i.entry = 1 then s.nthDie (Entry.b2D i.entry) else 0xFFFF)))
    ∧ (∃ (s : State) (c : Instr) (f : Fetched) (t : State) (i : Item) (typ : Nat) (target : Nat), s.Begins c 0 f t i ∧ s.lops.list = [] ∧ s.rec_.sanitize = none ∧ (∀
        j ∈ s.nib.items, Entry.opcode j.entry ≠ 0x98) ∧ (c = .selfTest ∧ typ = 1 + Entry.b2C i.entry ∧ target = 0xFFFF ∨ c = .calibrate ∧ typ = 4 ∧ target = (if
        Entry.b2C i.entry = 1 then s.nthDie (Entry.b2D i.entry) else 0xFFFF)))
    ∧ (∃ (s : State) (c : Instr) (f : Fetched) (t : State) (i : Item), s.Begins c 0 f t i ∧ (c = .selfTest ∨ c = .calibrate) ∧ ((∃ o ∈ s.lops.list, o.state < 3 ∧ (c
        = .selfTest ∧ (o.typ = 2 ∨ o.typ = 3) ∧ (Entry.b2C i.entry = 1 ∨ Entry.b2C i.entry = 2) ∨ c = .calibrate ∧ o.typ = 4)) ∨ s.recovery = false ∧ s.rec_.sanitize
        ≠ none ∨ ∃ j ∈ s.nib.items, Entry.opcode j.entry = 0x98 ∧ j.verdict = 0))
    ∧ (∃ (s : State) (c : Instr) (f : Fetched) (t : State) (i : Item), s.Begins c 0 f t i ∧ (c = .selfTest ∨ c = .calibrate) ∧ ((∃ o ∈ s.lops.list, o.state < 3 ∧ (c
        = .selfTest ∧ (o.typ = 2 ∨ o.typ = 3) ∧ (Entry.b2C i.entry = 1 ∨ Entry.b2C i.entry = 2) ∨ c = .calibrate ∧ o.typ = 4)) ∨ s.recovery = false ∧ s.rec_.sanitize
        ≠ none ∨ ∃ j ∈ s.nib.items, Entry.opcode j.entry = 0x98 ∧ j.verdict = 0))
    ∧ (∃ (s : State) (c : Instr) (f : Fetched) (t : State) (i : Item), s.Begins c 0 f t i ∧ (c = .selfTest ∨ c = .calibrate) ∧ ((∃ o ∈ s.lops.list, o.state < 3 ∧ (c
        = .selfTest ∧ (o.typ = 2 ∨ o.typ = 3) ∧ (Entry.b2C i.entry = 1 ∨ Entry.b2C i.entry = 2) ∨ c = .calibrate ∧ o.typ = 4)) ∨ s.recovery = false ∧ s.rec_.sanitize
        ≠ none ∨ ∃ j ∈ s.nib.items, Entry.opcode j.entry = 0x98 ∧ j.verdict = 0))
    ∧ (∃ (s : State) (o : LongOp), s.lops.list = [o] ∧ (o.typ = 2 ∨ o.typ = 3) ∧ o.state = 1 ∧ o.begun = false ∧ o.segment ≠ 8)
    ∧ (∃ (s : State) (o : LongOp), s.lops.list = [o] ∧ (o.typ = 2 ∨ o.typ = 3) ∧ o.state = 1 ∧ o.begun = true ∧ o.found = true ∧ o.wants = [] ∧ s.testIdle = true)
    ∧ (∃ (s : State) (o : LongOp), s.lops.list = [o] ∧ (o.typ = 2 ∨ o.typ = 3) ∧ o.state = 1 ∧ o.begun = true ∧ o.found = false ∧ o.wants = [] ∧ s.testIdle = true ∧
        (o.segment = 3 ∨ o.segment = 4 ∨ 6 ≤ o.segment))
    ∧ (∃ (s : State) (o : LongOp), s.lops.list = [o] ∧ (o.typ = 2 ∨ o.typ = 3) ∧ o.state = 1 ∧ o.begun = true ∧ o.found = false ∧ o.wants = [] ∧ s.testIdle = true ∧
        (o.segment = 3 ∨ o.segment = 4 ∨ 6 ≤ o.segment))
    ∧ (∃ (s : State) (o : LongOp), s.running = true ∧ s.flt.stopping = false ∧ s.flt.unack = [] ∧ s.lops.list = [o] ∧ (o.typ = 2 ∨ o.typ = 3) ∧ o.state = 1 ∧ o.begun
        = true ∧ o.found = false ∧ o.wants = [] ∧ s.testIdle = true ∧ (o.segment = 1 ∨ o.segment = 2 ∨ o.segment = 5))
    ∧ (∃ (s : State) (o : LongOp), s.running = true ∧ s.flt.stopping = false ∧ s.flt.unack = [] ∧ s.lops.list = [o] ∧ (o.typ = 2 ∨ o.typ = 3) ∧ o.state = 1 ∧ o.begun
        = true ∧ o.found = false ∧ o.wants = [] ∧ s.testIdle = true ∧ (o.segment = 1 ∨ o.segment = 2 ∨ o.segment = 5))
    ∧ (∃ (s : State) (o : LongOp), s.running = true ∧ s.flt.stopping = false ∧ s.flt.unack = [] ∧ s.lops.list = [o] ∧ (o.typ = 2 ∨ o.typ = 3) ∧ o.state = 1 ∧ o.begun
        = true ∧ o.found = false ∧ o.wants = [] ∧ s.testIdle = true ∧ (o.segment = 1 ∨ o.segment = 2 ∨ o.segment = 5))
    ∧ (∃ (s : State) (o : LongOp), s.lops.list = [o] ∧ o.typ = 2 ∧ o.state = 1 ∧ o.begun = true ∧ o.found = false ∧ o.wants = [] ∧ s.testIdle = true ∧ o.segment < 5)
    ∧ (∃ (s : State) (o : LongOp), s.lops.list = [o] ∧ o.typ = 2 ∧ o.state = 1 ∧ o.begun = true ∧ o.found = false ∧ o.wants = [] ∧ s.testIdle = true ∧ o.segment < 5)
    ∧ (∃ (s : State) (o : LongOp), s.lops.list = [o] ∧ o.typ = 2 ∧ o.state = 1 ∧ o.begun = true ∧ o.found = false ∧ o.wants = [] ∧ s.testIdle = true ∧ o.segment < 5)
    ∧ (∃ (s : State) (o : LongOp), s.lops.list = [o] ∧ (o.typ = 2 ∧ 5 ≤ o.segment ∨ o.typ = 3 ∧ 8 ≤ o.segment) ∧ o.state = 1 ∧ o.begun = true ∧ o.found = false ∧
        o.wants = [] ∧ s.testIdle = true)
    ∧ (∃ (s : State) (o : LongOp), s.lops.list = [o] ∧ (o.typ = 2 ∧ 5 ≤ o.segment ∨ o.typ = 3 ∧ 8 ≤ o.segment) ∧ o.state = 1 ∧ o.begun = true ∧ o.found = false ∧
        o.wants = [] ∧ s.testIdle = true)
    ∧ (∃ (s : State) (o : LongOp) (d : DieTable), s.lops.list = [o] ∧ o.typ = 4 ∧ o.state = 1 ∧ o.wants = [] ∧ (∀ x ∈ s.scopeDies o, x ∈ o.doneDies) ∧ s.dieFits
        d.die = true ∧ (o.target = 0xFFFF ∨ o.target = d.die)) :=
  ⟨⟨{up with nib.fetched := [fet 0 (cmd 0x99 0 [(0x2C, 1, 2)])]}, .selfTest, (fet 0 (cmd 0x99 0 [(0x2C, 1, 2)])), _, _, 3, 0xFFFF, begins_of (by decide +kernel), by
      decide +kernel⟩,
   ⟨{up with nib.fetched := [fet 0 (cmd 0x9A 0 [(0x2C, 1, 1), (0x2D, 1, 63)])]}, .calibrate, (fet 0 (cmd 0x9A 0 [(0x2C, 1, 1), (0x2D, 1, 63)])), _, _, 4, 63,
       begins_of (by decide +kernel), by decide +kernel⟩,
   ⟨{up with lops.list := [lopOf 1 4 2], nib.fetched := [fet 0 (cmd 0x9A 0 [])]}, .calibrate, (fet 0 (cmd 0x9A 0 [])), _, _, begins_of (by decide +kernel), by
       decide +kernel⟩,
   ⟨{up with lops.list := [lopOf 1 3 2], nib.fetched := [fet 0 (cmd 0x99 0 [(0x2C, 1, 1)])]}, .selfTest, (fet 0 (cmd 0x99 0 [(0x2C, 1, 1)])), _, _, begins_of (by
       decide +kernel), by decide +kernel⟩,
   ⟨{up with rec_.sanitize := some 5, nib.items := [itemOf 5 0 (cmd 0x98 0 [(0x2C, 2, 0x5AA5)]) .sanitize], nib.fetched := [fet 0 (cmd 0x99 0 [(0x2C, 1, 1)])]},
       .selfTest, (fet 0 (cmd 0x99 0 [(0x2C, 1, 1)])), _, _, begins_of (by decide +kernel), by decide +kernel⟩,
   ⟨{up with lops.list := [lopOf 1 3 1]}, (lopOf 1 3 1), by decide +kernel⟩,
   ⟨{up with lops.list := [{lopOf 1 2 1 with progress := 0, begun := true, found := true}]}, {lopOf 1 2 1 with progress := 0, begun := true, found := true}, by
       decide +kernel⟩,
   ⟨{up with lops.list := [{lopOf 1 3 1 with progress := 9999, begun := true}]}, {lopOf 1 3 1 with progress := 9999, begun := true}, by decide +kernel⟩,
   ⟨{up with lops.list := [{lopOf 1 2 1 with progress := 4000, begun := true}]}, {lopOf 1 2 1 with progress := 4000, begun := true}, by decide +kernel⟩,
   ⟨{up with lops.list := [{lopOf 1 2 1 with progress := 0, begun := true}]}, {lopOf 1 2 1 with progress := 0, begun := true}, by decide +kernel⟩,
   ⟨{up with lops.list := [{lopOf 1 2 1 with progress := 2000, begun := true}]}, {lopOf 1 2 1 with progress := 2000, begun := true}, by decide +kernel⟩,
   ⟨{up with lops.list := [{lopOf 1 3 1 with progress := 5000, begun := true}]}, {lopOf 1 3 1 with progress := 5000, begun := true}, by decide +kernel⟩,
   ⟨{up with lops.list := [{lopOf 1 2 1 with progress := 0, begun := true}]}, {lopOf 1 2 1 with progress := 0, begun := true}, by decide +kernel⟩,
   ⟨{up with lops.list := [{lopOf 1 2 1 with progress := 4000, begun := true}]}, {lopOf 1 2 1 with progress := 4000, begun := true}, by decide +kernel⟩,
   ⟨{up with lops.list := [{lopOf 1 2 1 with progress := 6000, begun := true}]}, {lopOf 1 2 1 with progress := 6000, begun := true}, by decide +kernel⟩,
   ⟨{up with lops.list := [{lopOf 1 2 1 with progress := 9999, begun := true}]}, {lopOf 1 2 1 with progress := 9999, begun := true}, by decide +kernel⟩,
   ⟨{up with lops.list := [{lopOf 1 3 1 with progress := 9999, begun := true}]}, {lopOf 1 3 1 with progress := 9999, begun := true}, by decide +kernel⟩,
   ⟨{up with lops.list := [{lopOf 1 4 1 with doneDies := List.range 64}]}, {lopOf 1 4 1 with doneDies := List.range 64}, ⟨63, [], [], []⟩, by decide +kernel⟩⟩

theorem test_meets_LongOperationsAreControlled :
    (∃ (s : State) (c : Instr) (f : Fetched) (t : State) (i : Item) (o : LongOp) (w : Nat), s.Begins c 0 f t i ∧ s.lops.list = [o] ∧ o.handle = Entry.h2C i.entry ∧
        o.state = 1 ∧ o.wants = [] ∧ (o.typ = 2 ∨ o.typ = 3 ∨ o.typ = 4) ∧ Entry.b2E i.entry ≤ 3 ∧ Entry.b2E i.entry ≠ 0 ∧ (c = .operationSuspend ∧ w = 2 ∨ c =
        .operationCancel ∧ w = 5))
    ∧ (∃ (s : State) (c : Instr) (f : Fetched) (t : State) (i : Item) (o : LongOp) (w : Nat), s.Begins c 0 f t i ∧ s.lops.list = [o] ∧ o.handle = Entry.h2C i.entry ∧
        o.state = 1 ∧ o.wants = [] ∧ (o.typ = 2 ∨ o.typ = 3 ∨ o.typ = 4) ∧ Entry.b2E i.entry ≤ 3 ∧ Entry.b2E i.entry ≠ 0 ∧ (c = .operationSuspend ∧ w = 2 ∨ c =
        .operationCancel ∧ w = 5))
    ∧ (∃ (s : State) (f : Fetched) (t : State) (i : Item) (o : LongOp), s.Begins .operationResume 0 f t i ∧ s.lops.list = [o] ∧ o.handle = Entry.h2C i.entry ∧
        o.state = 2 ∧ o.wants = [] ∧ o.typ ≠ 1 ∧ (∀ j ∈ s.nib.items, j.wait ≠ .turn))
    ∧ (∃ (s : State) (f : Fetched) (t : State) (i : Item) (o : LongOp), s.Begins .operationResume 0 f t i ∧ s.lops.list = [o] ∧ o.handle = Entry.h2C i.entry ∧
        o.state = 2 ∧ o.wants = [] ∧ o.typ ≠ 1 ∧ (∀ j ∈ s.nib.items, j.wait ≠ .turn))
    ∧ (∃ (s : State) (c : Instr) (f : Fetched) (t : State) (i : Item), s.Begins c 0 f t i ∧ (c = .operationSuspend ∨ c = .operationResume ∨ c = .operationCancel) ∧
        (∀ o ∈ s.lops.list, o.handle ≠ Entry.h2C i.entry))
    ∧ (∃ (s : State) (c : Instr) (f : Fetched) (t : State) (i : Item), s.Begins c 0 f t i ∧ (c = .operationSuspend ∨ c = .operationResume ∨ c = .operationCancel) ∧
        (∀ o ∈ s.lops.list, o.handle ≠ Entry.h2C i.entry))
    ∧ (∃ (s : State) (c : Instr) (f : Fetched) (t : State) (i : Item), s.Begins c 0 f t i ∧ (c = .operationSuspend ∨ c = .operationResume ∨ c = .operationCancel) ∧
        (∀ o ∈ s.lops.list, o.handle ≠ Entry.h2C i.entry))
    ∧ (∃ (s : State) (c : Instr) (f : Fetched) (t : State) (i : Item) (o : LongOp), s.Begins c 0 f t i ∧ (c = .operationSuspend ∨ c = .operationResume ∨ c =
        .operationCancel) ∧ s.lops.list = [o] ∧ o.handle = Entry.h2C i.entry ∧ (o.typ = 1 ∨ 3 ≤ o.state))
    ∧ (∃ (s : State) (o : LongOp), s.lops.list = [o] ∧ s.nib.items = [] ∧ o.wants = [2] ∧ (isRebuild o.typ = true ∨ s.testStill = true))
    ∧ (∃ (s : State) (o : LongOp), s.lops.list = [o] ∧ s.nib.items = [] ∧ o.wants = [2] ∧ (isRebuild o.typ = true ∨ s.testStill = true))
    ∧ (∃ (s : State) (o : LongOp), s.lops.list = [o] ∧ s.nib.items = [] ∧ o.wants = [5] ∧ o.state < 3 ∧ isRebuild o.typ = false ∧ s.testStill = true)
    ∧ (∃ (s : State) (o : LongOp), s.lops.list = [o] ∧ s.lops.queued = [] ∧ (o.typ = 5 ∨ o.typ = 6) ∧ o.state = 1 ∧ o.lost = false ∧ s.ftl.bands = []) :=
  ⟨⟨{up with lops.list := [lopOf 1 2 1], nib.fetched := [fet 0 (cmd 0x9B 0 [(0x2C, 2, 1), (0x2E, 1, 1)])]}, .operationSuspend, (fet 0 (cmd 0x9B 0 [(0x2C, 2, 1),
      (0x2E, 1, 1)])), _, _, (lopOf 1 2 1), 2, begins_of (by decide +kernel), by decide +kernel⟩,
   ⟨{up with lops.list := [lopOf 1 4 1], nib.fetched := [fet 0 (cmd 0x9B 0 [(0x2C, 2, 1), (0x2E, 1, 3)])]}, .operationCancel, (fet 0 (cmd 0x9B 0 [(0x2C, 2, 1),
       (0x2E, 1, 3)])), _, _, (lopOf 1 4 1), 5, begins_of (by decide +kernel), by decide +kernel⟩,
   ⟨{up with lops.list := [lopOf 1 2 2], nib.fetched := [fet 0 (cmd 0x9B 0 [(0x2C, 2, 1), (0x2E, 1, 2)])]}, (fet 0 (cmd 0x9B 0 [(0x2C, 2, 1), (0x2E, 1, 2)])), _, _,
       (lopOf 1 2 2), begins_of (by decide +kernel), by decide +kernel⟩,
   ⟨{up with lops.list := [lopOf 1 5 2], nib.fetched := [fet 0 (cmd 0x9B 0 [(0x2C, 2, 1), (0x2E, 1, 2)])]}, (fet 0 (cmd 0x9B 0 [(0x2C, 2, 1), (0x2E, 1, 2)])), _, _,
       (lopOf 1 5 2), begins_of (by decide +kernel), by decide +kernel⟩,
   ⟨{up with lops.list := [lopOf 1 2 1], nib.fetched := [fet 0 (cmd 0x9B 0 [(0x2C, 2, 9), (0x2E, 1, 3)])]}, .operationCancel, (fet 0 (cmd 0x9B 0 [(0x2C, 2, 9),
       (0x2E, 1, 3)])), _, _, begins_of (by decide +kernel), by decide +kernel⟩,
   ⟨{up with nib.fetched := [fet 0 (cmd 0x9B 0 [(0x2C, 2, 9), (0x2E, 1, 1)])]}, .operationSuspend, (fet 0 (cmd 0x9B 0 [(0x2C, 2, 9), (0x2E, 1, 1)])), _, _, begins_of
       (by decide +kernel), by decide +kernel⟩,
   ⟨{up with nib.fetched := [fet 0 (cmd 0x9B 0 [(0x2C, 2, 9), (0x2E, 1, 2)])]}, .operationResume, (fet 0 (cmd 0x9B 0 [(0x2C, 2, 9), (0x2E, 1, 2)])), _, _, begins_of
       (by decide +kernel), by decide +kernel⟩,
   ⟨{up with lops.list := [lopOf 1 1 1], nib.fetched := [fet 0 (cmd 0x9B 0 [(0x2C, 2, 1), (0x2E, 1, 3)])]}, .operationCancel, (fet 0 (cmd 0x9B 0 [(0x2C, 2, 1),
       (0x2E, 1, 3)])), _, _, (lopOf 1 1 1), begins_of (by decide +kernel), by decide +kernel⟩,
   ⟨{up with lops.list := [{lopOf 1 2 1 with wants := [2]}]}, {lopOf 1 2 1 with wants := [2]}, by decide +kernel⟩,
   ⟨{up with lops.list := [{lopOf 1 5 1 with wants := [2]}]}, {lopOf 1 5 1 with wants := [2]}, by decide +kernel⟩,
   ⟨{up with lops.list := [{lopOf 1 2 2 with wants := [5]}]}, {lopOf 1 2 2 with wants := [5]}, by decide +kernel⟩,
   ⟨{up with lops.list := [lopOf 1 5 1]}, (lopOf 1 5 1), by decide +kernel⟩⟩

theorem test_meets_FirmwarePiecesAreTaken :
    (∃ (s : State) (data : Mem) (g : List Nat) (f : Fetched) (t : State) (i : Item), s.Begins (.firmwareDownload data g) 0 f t i ∧ segmentsFit i.entry g = true ∧
        s.updateAllowed = true ∧ (∀ j ∈ s.nib.items, isFirmware (Entry.opcode j.entry) = false) ∧ s.boot.swapWork = none ∧ (∀ x ∈ s.boot.held, x.1 ≠ s.nib.next) ∧
        Entry.w2C i.entry = 0)
    ∧ (∃ (s : State) (data : Mem) (g : List Nat) (f : Fetched) (t : State) (i : Item) (d : Download), s.Begins (.firmwareDownload data g) 0 f t i ∧ segmentsFit
        i.entry g = true ∧ s.updateAllowed = true ∧ (∀ j ∈ s.nib.items, isFirmware (Entry.opcode j.entry) = false) ∧ s.boot.swapWork = none ∧ (∀ x ∈ s.boot.held, x.1
        ≠ s.nib.next) ∧ s.boot.dl = some d ∧ Entry.w2C i.entry = d.next ∧ Entry.w2C i.entry ≠ 0)
    ∧ (∃ (s : State) (data : Mem) (g : List Nat) (f : Fetched) (t : State) (i : Item), s.Begins (.firmwareDownload data g) 0 f t i ∧ (∀ d, s.boot.dl = some d →
        Entry.w2C i.entry ≠ d.next) ∧ segmentsFit i.entry g = true ∧ s.updateAllowed = true ∧ (∀ j ∈ s.nib.items, isFirmware (Entry.opcode j.entry) = false) ∧
        s.boot.swapWork = none ∧ Entry.w2C i.entry ≠ 0)
    ∧ (∃ (s : State) (data : Mem) (g : List Nat) (f : Fetched) (t : State) (i : Item), s.Begins (.firmwareDownload data g) 0 f t i ∧ s.updateAllowed = false)
    ∧ (∃ (s : State) (data : Mem) (g : List Nat) (f : Fetched) (t : State) (i : Item) (j : Item), s.Begins (.firmwareDownload data g) 0 f t i ∧ segmentsFit i.entry g
        = true ∧ s.updateAllowed = true ∧ s.nib.items = [j] ∧ isFirmware (Entry.opcode j.entry) = true)
    ∧ (∃ (s : State) (data : Mem) (g : List Nat) (f : Fetched) (t : State) (i : Item) (w : SwapWork), s.Begins (.firmwareDownload data g) 0 f t i ∧ segmentsFit
        i.entry g = true ∧ s.updateAllowed = true ∧ s.nib.items = [] ∧ s.boot.swapWork = some w)
    ∧ (∃ (s : State) (data : Mem) (g : List Nat) (f : Fetched) (t : State) (i : Item), s.Begins (.firmwareDownload data g) 0 f t i ∧ s.updateAllowed = true ∧
        segmentsFit i.entry g = false) :=
  ⟨⟨{up with nib.fetched := [fet 0 (cmd 0xA0 0 [(0x10, 4, 4096), (0x2C, 4, 0)])]}, [], [], (fet 0 (cmd 0xA0 0 [(0x10, 4, 4096), (0x2C, 4, 0)])), _, _, begins_of (by
      decide +kernel), by decide +kernel⟩,
   ⟨{up with boot.dl := some (dlOf 0 0 0 4096 false), nib.fetched := [fet 0 (cmd 0xA0 0 [(0x10, 4, 4096), (0x2C, 4, 4096)])]}, [], [], (fet 0 (cmd 0xA0 0 [(0x10, 4,
       4096), (0x2C, 4, 4096)])), _, _, (dlOf 0 0 0 4096 false), begins_of (by decide +kernel), by decide +kernel⟩,
   ⟨{up with nib.fetched := [fet 0 (cmd 0xA0 0 [(0x10, 4, 4096), (0x2C, 4, 4096)])]}, [], [], (fet 0 (cmd 0xA0 0 [(0x10, 4, 4096), (0x2C, 4, 4096)])), _, _,
       begins_of (by decide +kernel), (fun d h => by cases h), by decide +kernel⟩,
   ⟨{up with strap.codes := [0, 0, 2, 0, 2, 3, 7, 7, 0], nib.fetched := [fet 0 (cmd 0xA0 0 [(0x10, 4, 4096), (0x2C, 4, 0)])]}, [], [], (fet 0 (cmd 0xA0 0 [(0x10, 4,
       4096), (0x2C, 4, 0)])), _, _, begins_of (by decide +kernel), by decide +kernel⟩,
   ⟨{up with nib.items := [itemOf 5 0 (cmd 0xA0 0 [(0x10, 4, 4096), (0x2C, 4, 0)]) .boot], nib.fetched := [fet 0 (cmd 0xA0 0 [(0x10, 4, 4096), (0x2C, 4, 0)])]}, [],
       [], (fet 0 (cmd 0xA0 0 [(0x10, 4, 4096), (0x2C, 4, 0)])), _, _, (itemOf 5 0 (cmd 0xA0 0 [(0x10, 4, 4096), (0x2C, 4, 0)]) .boot), begins_of (by
       decide +kernel), by decide +kernel⟩,
   ⟨{up with boot.swapWork := some ⟨{State.reset.boot.record with seq := 2}, 0, 99⟩, nib.fetched := [fet 0 (cmd 0xA0 0 [(0x10, 4, 4096), (0x2C, 4, 0)])]}, [], [],
       (fet 0 (cmd 0xA0 0 [(0x10, 4, 4096), (0x2C, 4, 0)])), _, _, ⟨{State.reset.boot.record with seq := 2}, 0, 99⟩, begins_of (by decide +kernel), by
       decide +kernel⟩,
   ⟨{up with nib.fetched := [fet 0 (cmd 0xA0 0 [(1, 1, 2), (0x10, 4, 4096), (0x14, 2, 1)])]}, [], [1], (fet 0 (cmd 0xA0 0 [(1, 1, 2), (0x10, 4, 4096), (0x14, 2,
       1)])), _, _, begins_of (by decide +kernel), by decide +kernel⟩⟩

theorem test_meets_BootFlashOperationsEnd :
    (∃ (s : State) (w : SwapWork), s.running = true ∧ s.flt.stopping = false ∧ s.boot.swapWork = some w ∧ s.boot.owed = false ∧ s.flt.unack = [] ∧ s.item? w.ruling =
        none)
    ∧ (∃ (s : State) (w : SwapWork), s.running = true ∧ s.flt.stopping = false ∧ s.boot.swapWork = some w ∧ s.boot.owed = true ∧ s.flt.unack = [] ∧ w.ruling = 0 ∧
        w.rec_.cause ≠ 3)
    ∧ (∃ (s : State) (w : SwapWork) (i : Item) (b : BankId), s.running = true ∧ s.flt.stopping = false ∧ s.boot.swapWork = some w ∧ s.boot.owed = false ∧ s.flt.unack
        = [] ∧ s.item? w.ruling = some i ∧ Entry.opcode i.entry = 0xA0 ∧ s.boot.busy = some b)
    ∧ (∃ (b : Boot) (r : SwapRec), b.record.seq < r.seq)
    ∧ (∃ (s : State) (d : Download) (b : BankId) (hi : Nat), s.running = true ∧ s.flt.stopping = false ∧ s.boot.swapWork = none ∧ s.boot.dl = some d ∧ s.boot.busy =
        some b ∧ s.flt.unack = [] ∧ hi = min (d.pieceOff + d.pieceLen) (sectorEnd (sectorOf d.at_)) ∧ hi < d.pieceOff + d.pieceLen)
    ∧ (∃ (s : State) (d : Download) (b : BankId) (hi : Nat), s.running = true ∧ s.flt.stopping = false ∧ s.boot.swapWork = none ∧ s.boot.dl = some d ∧ s.boot.busy =
        some b ∧ s.flt.unack = [] ∧ s.nib.items = [] ∧ hi = d.pieceOff + d.pieceLen ∧ hi ≤ sectorEnd (sectorOf d.at_))
    ∧ (∃ (s : State) (d : Download) (b : BankId), s.running = true ∧ s.flt.stopping = false ∧ s.boot.swapWork = none ∧ s.boot.dl = some d ∧ s.boot.busy = some b ∧
        s.flt.unack = [] ∧ s.nib.items = [] ∧ failsOf d.fails (sectorOf d.at_) = 0) :=
  ⟨⟨{up with boot.swapWork := some ⟨{State.reset.boot.record with seq := 2}, 0, 99⟩}, ⟨{State.reset.boot.record with seq := 2}, 0, 99⟩, by decide +kernel⟩,
   ⟨{up with boot := {up.boot with swapWork := some ⟨{State.reset.boot.record with seq := 2, cause := 2}, 0, 0⟩, owed := true}},
       ⟨{State.reset.boot.record with seq := 2, cause := 2}, 0, 0⟩, by decide +kernel⟩,
⟨{up with boot := {up.boot with swapWork := some ⟨{State.reset.boot.record with seq := 2}, 0, 5⟩, busy := some .b}, nib.items := [itemOf 5 0 (cmd 0xA0 0 [(0x10, 4, 4096), (0x2C, 4, 0)]) .boot]},
       ⟨{State.reset.boot.record with seq := 2}, 0, 5⟩, (itemOf 5 0 (cmd 0xA0 0 [(0x10, 4, 4096), (0x2C, 4, 0)]) .boot), .b, by decide +kernel⟩,
   ⟨Boot.init, {State.reset.boot.record with seq := 2}, by decide +kernel⟩,
   ⟨{up with boot.dl := some (dlOf 0 0 16384 0 false), boot.busy := some .b}, (dlOf 0 0 16384 0 false), .b, 0x2000, by decide +kernel⟩,
   ⟨{up with boot.dl := some (dlOf 0 0 8192 0 false), boot.busy := some .b}, (dlOf 0 0 8192 0 false), .b, 8192, by decide +kernel⟩,
   ⟨{up with boot.dl := some (dlOf 0 0 4096 0 false), boot.busy := some .b}, (dlOf 0 0 4096 0 false), .b, by decide +kernel⟩⟩

theorem test_meets_FirmwareIsActivated :
    (∃ (s : State) (c : Instr) (f : Fetched) (t : State) (i : Item) (r : SwapRec), s.Begins c 0 f t i ∧ (c = .firmwareActivateOtherBank ∨ ∃ d, s.boot.dl = some d ∧
        d.complete = true) ∧ (c = .firmwareActivateNextReset ∨ c = .firmwareActivateImmediate ∧ s.sanitizeRuns = false ∨ c = .firmwareActivateOtherBank) ∧
        s.updateAllowed = true ∧ (∀ j ∈ s.nib.items, isFirmware (Entry.opcode j.entry) = false) ∧ s.boot.swapWork = none ∧ s.imagePasses s.targetBank = true ∧ r =
        { s.boot.record with active := otherBank s.boot.record.active, trial := true, cause := 1, seq := s.boot.record.seq + 1 })
    ∧ (∃ (s : State) (c : Instr) (f : Fetched) (t : State) (i : Item) (r : SwapRec), (c = .firmwareActivateNextReset ∨ c = .firmwareActivateImmediate ∧
        s.sanitizeRuns = false ∨ c = .firmwareActivateOtherBank) ∧ s.Begins c 0 f t i ∧ (c = .firmwareActivateOtherBank ∨ ∃ d, s.boot.dl = some d ∧ d.complete =
        true) ∧ s.updateAllowed = true ∧ (∀ j ∈ s.nib.items, isFirmware (Entry.opcode j.entry) = false) ∧ s.boot.swapWork = none ∧ s.imagePasses s.targetBank = true
        ∧ r = { s.boot.record with active := otherBank s.boot.record.active, trial := true, cause := 1, seq := s.boot.record.seq + 1 })
    ∧ (∃ (s : State) (c : Instr) (f : Fetched) (t : State) (i : Item) (r : SwapRec), (c = .firmwareActivateNextReset ∨ c = .firmwareActivateImmediate ∧
        s.sanitizeRuns = false ∨ c = .firmwareActivateOtherBank) ∧ s.Begins c 0 f t i ∧ (c = .firmwareActivateOtherBank ∨ ∃ d, s.boot.dl = some d ∧ d.complete =
        true) ∧ s.updateAllowed = true ∧ (∀ j ∈ s.nib.items, isFirmware (Entry.opcode j.entry) = false) ∧ s.boot.swapWork = none ∧ s.imagePasses s.targetBank = true
        ∧ r = { s.boot.record with active := otherBank s.boot.record.active, trial := true, cause := 1, seq := s.boot.record.seq + 1 })
    ∧ (∃ (s : State) (c : Instr) (f : Fetched) (t : State) (i : Item), s.Begins c 0 f t i ∧ (c = .firmwareActivateNextReset ∨ c = .firmwareActivateImmediate ∧
        s.sanitizeRuns = false ∨ c = .firmwareActivateOtherBank) ∧ s.updateAllowed = true ∧ (∀ j ∈ s.nib.items, isFirmware (Entry.opcode j.entry) = false) ∧
        s.boot.swapWork = none ∧ (s.imagePasses s.targetBank = false ∨ c ≠ .firmwareActivateOtherBank ∧ s.boot.dl = none))
    ∧ (∃ (s : State) (c : Instr) (f : Fetched) (t : State) (i : Item), s.Begins c 0 f t i ∧ (c = .firmwareActivateNextReset ∨ c = .firmwareActivateImmediate ∧
        s.sanitizeRuns = false ∨ c = .firmwareActivateOtherBank) ∧ s.updateAllowed = true ∧ (∀ j ∈ s.nib.items, isFirmware (Entry.opcode j.entry) = false) ∧
        s.boot.swapWork = none ∧ (s.imagePasses s.targetBank = false ∨ c ≠ .firmwareActivateOtherBank ∧ s.boot.dl = none))
    ∧ (∃ (s : State) (f : Fetched) (t : State) (i : Item), s.Begins .firmwareActivateImmediate 0 f t i ∧ s.updateAllowed = true ∧ (s.recovery = false ∧
        s.rec_.sanitize ≠ none ∨ ∃ o ∈ s.lops.list, o.typ = 1 ∧ o.state < 3) ∧ (∀ j ∈ s.nib.items, isFirmware (Entry.opcode j.entry) = false) ∧ s.boot.swapWork =
        none)
    ∧ (∃ (s : State) (f : Fetched) (t : State) (i : Item), s.Begins .firmwareActivateImmediate 0 f t i ∧ s.updateAllowed = true ∧ (s.recovery = false ∧
        s.rec_.sanitize ≠ none ∨ ∃ o ∈ s.lops.list, o.typ = 1 ∧ o.state < 3) ∧ (∀ j ∈ s.nib.items, isFirmware (Entry.opcode j.entry) = false) ∧ s.boot.swapWork =
        none)
    ∧ (∃ (s : State) (w : SwapWork) (i : Item), s.running = true ∧ s.recovery = false ∧ s.flt.stopping = false ∧ s.boot.swapWork = some w ∧ s.boot.owed = false ∧
        s.flt.unack = [] ∧ s.item? w.ruling = some i ∧ Entry.opcode i.entry = 0xA1 ∧ Entry.b2C i.entry ≠ 1)
    ∧ (∃ (s : State) (w : SwapWork) (i : Item), s.running = true ∧ s.recovery = false ∧ s.flt.stopping = false ∧ s.boot.swapWork = some w ∧ s.boot.owed = false ∧
        s.flt.unack = [] ∧ s.item? w.ruling = some i ∧ Entry.opcode i.entry = 0xA1 ∧ Entry.b2C i.entry = 1)
    ∧ (∃ (s : State) (i : Item), s.running = true ∧ s.boot.activating = true ∧ s.nib.fetched = [] ∧ s.nib.items = [i] ∧ i.wait = .restart ∧ s.lops.list = [] ∧
        s.ftl.bands = [] ∧ s.recovery = false ∧ s.boot.swapWork = none ∧ s.boot.record.trial = true ∧ s.boot.rebuild = false) :=
  ⟨⟨{up with boot.bankB := up.boot.bankA, nib.fetched := [fet 0 (cmd 0xA1 0 [(0x2C, 1, 2)])]}, .firmwareActivateOtherBank, (fet 0 (cmd 0xA1 0 [(0x2C, 1, 2)])), _, _,
      {State.reset.boot.record with active := .b, trial := true, cause := 1, seq := 2}, begins_of (by decide +kernel), Or.inl rfl, by decide +kernel⟩,
   ⟨{up with boot := {up.boot with bankB := up.boot.bankA, dl := some (dlOf 0 0 0 4096 true)}, nib.fetched := [fet 0 (cmd 0xA1 0 [(0x2C, 1, 0)])]},
       .firmwareActivateNextReset, (fet 0 (cmd 0xA1 0 [(0x2C, 1, 0)])), _, _, {State.reset.boot.record with active := .b, trial := true, cause := 1, seq := 2}, by
       decide +kernel, begins_of (by decide +kernel), Or.inr ⟨dlOf 0 0 0 4096 true, rfl, rfl⟩, by decide +kernel⟩,
   ⟨{up with boot := {up.boot with bankB := up.boot.bankA, dl := some (dlOf 0 0 0 4096 true)}, nib.fetched := [fet 0 (cmd 0xA1 0 [(0x2C, 1, 1)])]},
       .firmwareActivateImmediate, (fet 0 (cmd 0xA1 0 [(0x2C, 1, 1)])), _, _, {State.reset.boot.record with active := .b, trial := true, cause := 1, seq := 2}, by
       decide +kernel, begins_of (by decide +kernel), Or.inr ⟨dlOf 0 0 0 4096 true, rfl, rfl⟩, by decide +kernel⟩,
   ⟨{up with nib.fetched := [fet 0 (cmd 0xA1 0 [(0x2C, 1, 2)])]}, .firmwareActivateOtherBank, (fet 0 (cmd 0xA1 0 [(0x2C, 1, 2)])), _, _, begins_of (by
       decide +kernel), by decide +kernel⟩,
   ⟨{up with boot.bankB := up.boot.bankA, nib.fetched := [fet 0 (cmd 0xA1 0 [(0x2C, 1, 0)])]}, .firmwareActivateNextReset, (fet 0 (cmd 0xA1 0 [(0x2C, 1, 0)])), _, _,
       begins_of (by decide +kernel), by decide +kernel⟩,
   ⟨{up with rec_.sanitize := some 5, nib.fetched := [fet 0 (cmd 0xA1 0 [(0x2C, 1, 1)])]}, (fet 0 (cmd 0xA1 0 [(0x2C, 1, 1)])), _, _, begins_of (by decide +kernel),
       by decide +kernel⟩,
   ⟨{up with lops.list := [lopOf 1 1 1], nib.fetched := [fet 0 (cmd 0xA1 0 [(0x2C, 1, 1)])]}, (fet 0 (cmd 0xA1 0 [(0x2C, 1, 1)])), _, _, begins_of (by
       decide +kernel), by decide +kernel⟩,
   ⟨{up with boot.swapWork := some ⟨{State.reset.boot.record with seq := 2}, 0, 5⟩, nib.items := [itemOf 5 0 (cmd 0xA1 0 [(0x2C, 1, 2)]) .boot]},
       ⟨{State.reset.boot.record with seq := 2}, 0, 5⟩, (itemOf 5 0 (cmd 0xA1 0 [(0x2C, 1, 2)]) .boot), by decide +kernel⟩,
   ⟨{up with boot.swapWork := some ⟨{State.reset.boot.record with seq := 2}, 0, 5⟩, nib.items := [itemOf 5 0 (cmd 0xA1 0 [(0x2C, 1, 1)]) .boot]},
       ⟨{State.reset.boot.record with seq := 2}, 0, 5⟩, (itemOf 5 0 (cmd 0xA1 0 [(0x2C, 1, 1)]) .boot), by decide +kernel⟩,
⟨{up with boot := {(State.reset.boot.put {State.reset.boot.record with seq := 2, trial := true}) with activating := true}, nib.items := [itemOf 5 0 (cmd 0xA1 0 [(0x2C, 1, 1)]) .restart]},
       (itemOf 5 0 (cmd 0xA1 0 [(0x2C, 1, 1)]) .restart), by decide +kernel⟩⟩

theorem test_meets_FramesCarryTheirChecks :
    (∃ (frame : BitVec 52), frame.getLsbD 51 = false ∧ frame.getLsbD 50 = true ∧ bits frame.toNat 48 2 = 2 ∧ bits frame.toNat 1 7 = crc 7 0x09 0 (msbFirst
        (frame.toNat / 256) 44) ∧ frame.getLsbD 0 = true)
    ∧ (∃ (frame : BitVec 52), frame.getLsbD 51 = false ∧ (frame.getLsbD 50 = false ∨ bits frame.toNat 48 2 ≠ 2 ∨ bits frame.toNat 1 7 ≠ crc 7 0x09 0 (msbFirst
        (frame.toNat / 256) 44) ∨ frame.getLsbD 0 = false))
    ∧ (∃ (index : BitVec 5), (index = 0 ∨ 0x0D ≤ index.toNat ∧ index ≠ 0x1F))
    ∧ (∃ (index : BitVec 5), (index = 0 ∨ 0x0D ≤ index.toNat ∧ index ≠ 0x1F))
    ∧ (∃ (index : Nat), index < 32)
    ∧ (∃ (f : LigFrame), f.source < 32 ∧ f.typ < 16) :=
  ⟨⟨(BitVec.ofNat 52 (2 ^ 50 + 2 ^ 49 + 2 * 2 ^ 40 + 2 * crc 7 9 0 (msbFirst ((2 ^ 50 + 2 ^ 49 + 2 * 2 ^ 40) / 256) 44) + 1)), by decide +kernel⟩,
   ⟨0, by decide +kernel⟩,
   ⟨0x1E, by decide +kernel⟩,
   ⟨0, by decide +kernel⟩,
   ⟨31, by decide +kernel⟩,
   ⟨⟨31, 15, 0⟩, by decide +kernel⟩⟩

theorem test_meets_SelectVersionGrantsAVersion :
    (∃ (s : State) (arg : BitVec 32) (v : Nat) (w : Bool), s.nbOn = true ∧ v = bits arg.toNat 0 4 ∧ w = bit arg.toNat 4 ∧ s.nb.version = 0 ∧ (v = 1 ∨ v = 2 ∨ v = 3 ∧
        s.strap.vccq18 = some true ∧ s.sa0 ≠ 4 ∧ s.sa0 ≠ 5))
    ∧ (∃ (s : State) (arg : BitVec 32) (v : Nat) (w : Bool), s.nbOn = true ∧ v = bits arg.toNat 0 4 ∧ w = bit arg.toNat 4 ∧ s.nb.version = 0 ∧ (v = 1 ∨ v = 2 ∨ v = 3
        ∧ s.strap.vccq18 = some true ∧ s.sa0 ≠ 4 ∧ s.sa0 ≠ 5))
    ∧ (∃ (s : State) (arg : BitVec 32) (v : Nat) (w : Bool), s.nbOn = true ∧ v = bits arg.toNat 0 4 ∧ w = bit arg.toNat 4 ∧ s.nb.version = 0 ∧ v = 3 ∧
        (s.strap.vccq18 ≠ some true ∨ s.sa0 = 4 ∨ s.sa0 = 5))
    ∧ (∃ (s : State) (arg : BitVec 32) (v : Nat) (w : Bool), s.nbOn = true ∧ v = bits arg.toNat 0 4 ∧ w = bit arg.toNat 4 ∧ (s.nb.version ≠ 0 ∨ v = 0 ∨ 3 < v))
    ∧ (∃ (s : State) (arg : BitVec 32) (v : Nat) (w : Bool), s.nbOn = true ∧ v = bits arg.toNat 0 4 ∧ w = bit arg.toNat 4 ∧ s.nb.grantedNext = some (v, w)) :=
  ⟨⟨{nar with nb.version := 0}, 0x13, 3, true, by decide +kernel⟩,
   ⟨{nar with nb.version := 0}, 1, 1, false, by decide +kernel⟩,
   ⟨{nar with nb.version := 0, strap.vccq18 := some false}, 3, 3, false, by decide +kernel⟩,
   ⟨nar, 1, 1, false, by decide +kernel⟩,
   ⟨{nar with nb.version := 0, nb.grantedNext := some (2, true)}, 0x12, 2, true, by decide +kernel⟩⟩

theorem test_meets_FramesOutOfPlaceHaveNoEffect :
    (∃ (s : State) (frame : BitVec 52), s.running = true ∧ s.rst.armedNarrow = true ∧ malformed frame = true ∧ s.flt.unack = [] ∧ s.flt.stopping = false ∧
        s.nib.items = [])
    ∧ (∃ (s : State) (index : BitVec 5), s.nbOn = true ∧ (index.toNat = 0 ∨ 0x0D ≤ index.toNat ∧ index.toNat ≤ 0x1E))
    ∧ (∃ (s : State) (index : BitVec 5), s.nbOn = true ∧ (index.toNat = 0 ∨ 0x0D ≤ index.toNat ∧ index.toNat ≤ 0x1E))
    ∧ (∃ (s : State) (tag : BitVec 3) (arg : BitVec 32) (c : Instr) (index : Nat), s.nbOn = true ∧ (s.nb.version = 0 ∨ ¬(s.nb.task = .idle ∨ s.nb.task = .done)) ∧ (c
        = .writeTaskRegister tag arg ∧ index = 3 ∨ c = .writeTaskBlock tag arg ∧ index = 5))
    ∧ (∃ (s : State) (tag : BitVec 3) (arg : BitVec 32) (c : Instr) (index : Nat), s.nbOn = true ∧ (s.nb.version = 0 ∨ ¬(s.nb.task = .idle ∨ s.nb.task = .done)) ∧ (c
        = .writeTaskRegister tag arg ∧ index = 3 ∨ c = .writeTaskBlock tag arg ∧ index = 5))
    ∧ (∃ (s : State), s.nbOn = true ∧ (s.nb.version = 0 ∨ ¬(s.nb.task = .idle ∨ s.nb.task = .done)))
    ∧ (∃ (s : State), s.nbOn = true ∧ (s.nb.version = 0 ∨ s.nb.task ≠ .dataIn))
    ∧ (∃ (s : State), s.nbOn = true ∧ (s.nb.version = 0 ∨ s.nb.task ≠ .dataOut)) :=
  ⟨⟨nar, 0, by decide +kernel⟩,
   ⟨nar, 0x1E, by decide +kernel⟩,
   ⟨nar, 0, by decide +kernel⟩,
   ⟨{nar with nb.version := 0}, 1, 0, (.writeTaskBlock 1 0), 5, by decide +kernel⟩,
   ⟨{nar with nb.task := .frozen}, 1, 0, (.writeTaskRegister 1 0), 3, by decide +kernel⟩,
   ⟨{nar with nb.task := .busy}, by decide +kernel⟩,
   ⟨nar, by decide +kernel⟩,
   ⟨nar, by decide +kernel⟩⟩

theorem test_meets_NarrowFramesAreAnswered :
    (∃ (s : State), s.nbOn = true)
    ∧ (∃ (s : State) (arg : BitVec 32) (off : Nat), s.nbOn = true ∧ s.nb.version ≠ 0 ∧ off = 2 * bits arg.toNat 0 8 ∧ (s.nb.task = .idle ∨ s.nb.task = .done) ∧ off <
        0x40)
    ∧ (∃ (s : State) (arg : BitVec 32) (off : Nat), s.nbOn = true ∧ s.nb.version ≠ 0 ∧ off = 2 * bits arg.toNat 0 8 ∧ (s.nb.task = .idle ∨ s.nb.task = .done) ∧ 0x40
        ≤ off)
    ∧ (∃ (s : State) (arg : BitVec 32) (off : Nat), s.nbOn = true ∧ s.nb.version ≠ 0 ∧ off = 2 * bits arg.toNat 0 8 ∧ off < 0x100)
    ∧ (∃ (s : State) (arg : BitVec 32) (off : Nat), s.nbOn = true ∧ s.nb.version ≠ 0 ∧ off = 2 * bits arg.toNat 0 8 ∧ 0x100 ≤ off)
    ∧ (∃ (s : State), s.nbOn = true ∧ s.nb.version ≠ 0 ∧ (s.nb.task = .idle ∨ s.nb.task = .done))
    ∧ (∃ (s : State), s.nbOn = true ∧ s.nb.version ≠ 0 ∧ s.nb.task ≠ .dataOut)
    ∧ (∃ (s : State), s.nbOn = true ∧ s.nb.version ≠ 0 ∧ s.nb.task ≠ .dataIn ∧ s.nb.task ≠ .dataOut)
    ∧ (∃ (s : State) (t : State), t = { s with out := [], nb := { s.nb with idNext := decide (s.nb.version ≠ 0), grantedNext := none, taskBlock := false } } ∧ s.nbOn
        = true ∧ (s.nb.task = .idle ∨ s.nb.task = .busy ∨ s.nb.task = .done ∨ s.nb.task = .frozen ∧ s.nb.contained = false) ∧ s.nb.idReady = true)
    ∧ (∃ (s : State) (t : State), t = { s with out := [], nb := { s.nb with idNext := decide (s.nb.version ≠ 0), grantedNext := none, taskBlock := false } } ∧ s.nbOn
        = true ∧ (s.nb.task = .idle ∨ s.nb.task = .busy ∨ s.nb.task = .done ∨ s.nb.task = .frozen ∧ s.nb.contained = false) ∧ s.nb.idReady = false)
    ∧ (∃ (s : State), s.nbOn = true ∧ s.nb.idNext = true)
    ∧ (∃ (s : State), s.running = true ∧ s.islandState .hostN = .released)
    ∧ (∃ (j : Nat) (k : Nat) (x : Nat), j < 32 ∧ k < 32 ∧ x < 65536) :=
  ⟨⟨nar, by decide +kernel⟩,
   ⟨nar, 0x1F, 0x3E, by decide +kernel⟩,
   ⟨nar, 0x20, 0x40, by decide +kernel⟩,
   ⟨nar, 0x7F, 0xFE, by decide +kernel⟩,
   ⟨nar, 0x80, 0x100, by decide +kernel⟩,
   ⟨nar, by decide +kernel⟩,
   ⟨nar, by decide +kernel⟩,
   ⟨nar, by decide +kernel⟩,
   ⟨nar, {nar with out := [], nb := {nar.nb with idNext := true, grantedNext := none, taskBlock := false}}, rfl, by decide +kernel⟩,
   ⟨{nar with nb.idReady := false}, {nar with out := [], nb := {nar.nb with idReady := false, idNext := true, grantedNext := none, taskBlock := false}}, rfl, by
       decide +kernel⟩,
   ⟨{nar with nb.idNext := true}, by decide +kernel⟩,
   ⟨nar, by decide +kernel⟩,
   ⟨31, 31, 65535, by decide +kernel⟩⟩

theorem test_meets_TasksRunAndEnd :
    (∃ (s : State), s.nbOn = true ∧ s.nb.version ≠ 0 ∧ (s.nb.task = .idle ∨ s.nb.task = .done))
    ∧ (∃ (s : State) (f : Fetched), s.nib.fetched = [f] ∧ f.narrow = true ∧ f.stalled = false ∧ s.taskReady f.entry = true ∧ s.mustStall f = false)
    ∧ (∃ (i : Item) (x : CmdInfo), i.narrow = true ∧ cmdInfo (Entry.opcode i.entry) = some x)
    ∧ (∃ (s : State) (arg : BitVec 32), s.nbOn = true ∧ s.nb.version ≠ 0 ∧ s.nb.task = .frozen ∧ s.nb.contained = false ∧ bit arg.toNat 0 = true)
    ∧ (∃ (s : State) (arg : BitVec 32), s.nbOn = true ∧ s.nb.version ≠ 0 ∧ s.nb.task = .frozen ∧ s.nb.contained = false ∧ bit arg.toNat 0 = false)
    ∧ (∃ (s : State) (f : Fetched), s.nbOn = true ∧ s.nb.version ≠ 0 ∧ s.nb.task = .admitting ∧ s.nib.fetched = [f] ∧ f.narrow = true)
    ∧ (∃ (s : State) (i : Item), s.nbOn = true ∧ s.nb.version ≠ 0 ∧ (s.nb.task = .dataIn ∨ s.nb.task = .dataOut) ∧ s.nib.fetched = [] ∧ s.nib.items = [i] ∧ i.narrow
        = true)
    ∧ (∃ (s : State) (i : Item), s.nbOn = true ∧ s.nb.version ≠ 0 ∧ s.nb.task = .busy ∧ s.nib.items = [i] ∧ i.narrow = true ∧ i.past = true) :=
  ⟨⟨nar, by decide +kernel⟩,
   ⟨{nar with nib.fetched := [{fet 0 (cmd 3 0 []) with narrow := true}]}, {fet 0 (cmd 3 0 []) with narrow := true}, by decide +kernel⟩,
   ⟨{itemOf 5 0 (cmd 3 0 []) .persist with narrow := true}, ⟨2, true, 0, 0, 0, 0⟩, by decide +kernel⟩,
   ⟨{nar with nb.task := .frozen}, 1, by decide +kernel⟩,
   ⟨{nar with nb.task := .frozen}, 0, by decide +kernel⟩,
   ⟨{nar with nb.task := .admitting, nib.fetched := [{fet 0 (cmd 3 0 []) with narrow := true}]}, {fet 0 (cmd 3 0 []) with narrow := true}, by decide +kernel⟩,
   ⟨{nar with nb.task := .dataIn, nib.items := [{itemOf 5 0 (cmd 1 1 [(0x10, 4, 4096), (0x28, 4, 1)]) .data with narrow := true}]},
       {itemOf 5 0 (cmd 1 1 [(0x10, 4, 4096), (0x28, 4, 1)]) .data with narrow := true}, by decide +kernel⟩,
   ⟨{nar with nb.task := .busy, nib.items := [{itemOf 5 0 (cmd 1 1 [(0x10, 4, 4096), (0x28, 4, 1)]) .persist with narrow := true, past := true}]},
       {itemOf 5 0 (cmd 1 1 [(0x10, 4, 4096), (0x28, 4, 1)]) .persist with narrow := true, past := true}, by decide +kernel⟩⟩

theorem test_meets_DataPhasesMoveBlocks :
    (∃ (s : State) (arg : BitVec 32) (n : Nat), s.nbOn = true ∧ s.nb.version ≠ 0 ∧ s.nb.task = .dataIn ∧ n = bits arg.toNat 0 13 ∧ 1 ≤ n ∧ n ≤ 4096)
    ∧ (∃ (s : State) (arg : BitVec 32) (n : Nat), s.nbOn = true ∧ s.nb.version ≠ 0 ∧ s.nb.task = .dataIn ∧ n = bits arg.toNat 0 13 ∧ (n = 0 ∨ 4096 < n))
    ∧ (∃ (s : State) (data : Mem) (crcs : List (BitVec 16)), s.nbOn = true ∧ s.nb.taskBlock = true ∧ crcs = blockChecks s.nb.wide 64 (Mem.norm 0 64 data))
    ∧ (∃ (s : State) (data : Mem) (crcs : List (BitVec 16)) (n : Nat), crcs = blockChecks s.nb.wide n (Mem.norm 0 n data) ∧ s.nbOn = true ∧ s.nb.taskBlock = false ∧
        s.nb.task = .dataIn ∧ 0 < s.nb.slots ∧ 1 < s.nb.remaining ∧ n = min 4096 (Entry.length s.nb.entry - s.nb.inLen))
    ∧ (∃ (s : State) (data : Mem) (crcs : List (BitVec 16)) (n : Nat), s.nbOn = true ∧ s.nb.taskBlock = false ∧ s.nb.task = .dataIn ∧ 0 < s.nb.slots ∧ n = min 4096
        (Entry.length s.nb.entry - s.nb.inLen) ∧ crcs ≠ blockChecks s.nb.wide n (Mem.norm 0 n data) ∧ s.flt.unack = [] ∧ s.flt.stopping = false ∧ s.nib.items = [])
    ∧ (∃ (s : State) (arg : BitVec 32) (n : Nat) (k : Nat) (p : Payload), s.nbOn = true ∧ s.nb.version ≠ 0 ∧ s.nb.task = .dataOut ∧ n = bits arg.toNat 0 13 ∧ 1 ≤ n ∧
        n ≤ 4096 ∧ bit arg.toNat 31 = false ∧ s.nb.remaining ≠ 0 ∧ s.nb.outData = some p ∧ k = min n (blocksOf p - s.nb.sent))
    ∧ (∃ (s : State) (arg : BitVec 32) (n : Nat) (k : Nat) (p : Payload), s.nbOn = true ∧ s.nb.version ≠ 0 ∧ s.nb.task = .dataOut ∧ n = bits arg.toNat 0 13 ∧ 1 ≤ n ∧
        n ≤ 4096 ∧ bit arg.toNat 31 = true ∧ s.nb.sent ≠ 0 ∧ s.nb.outData = some p ∧ k = min n (1 + (blocksOf p - s.nb.sent)))
    ∧ (∃ (s : State) (arg : BitVec 32) (i : Item), s.nbOn = true ∧ s.nb.version ≠ 0 ∧ s.nb.task = .dataOut ∧ bit arg.toNat 31 = false ∧ 1 ≤ bits arg.toNat 0 13 ∧
        bits arg.toNat 0 13 ≤ 4096 ∧ s.nb.remaining = 0 ∧ s.nib.items = [i] ∧ i.narrow = true ∧ i.wait = .data ∧ s.nb.outData ≠ none) :=
  ⟨⟨{nar with nb.task := .dataIn}, 4096, 4096, by decide +kernel⟩,
   ⟨{nar with nb.task := .dataIn}, 4097, 4097, by decide +kernel⟩,
   ⟨{nar with nb.taskBlock := true}, [], (blockChecks false 64 []), by decide +kernel⟩,
   ⟨{nar with nb.task := .dataIn, nb.slots := 1, nb.remaining := 2, nb.entry := cmd 1 1 [(0x10, 4, 8192), (0x28, 4, 2)]}, [], (blockChecks false 4096 []), 4096, rfl,
       by decide +kernel⟩,
   ⟨{nar with nb.task := .dataIn, nb.slots := 1, nb.remaining := 2, nb.entry := cmd 1 1 [(0x10, 4, 8192), (0x28, 4, 2)]}, [], [], 4096, by decide +kernel⟩,
   ⟨{nar with nb.task := .dataOut, nb.remaining := 2, nb.outData := some ⟨8192, []⟩}, 4096, 4096, 2, ⟨8192, []⟩, by decide +kernel⟩,
   ⟨{nar with nb.task := .dataOut, nb.remaining := 1, nb.sent := 1, nb.outData := some ⟨8192, []⟩}, 0x80000001, 1, 1, ⟨8192, []⟩, by decide +kernel⟩,
   ⟨{nar with nb.task := .dataOut, nb.outData := some ⟨4096, []⟩, nib.items := [{itemOf 5 0 (cmd 2 1 [(0x10, 4, 4096), (0x28, 4, 1)]) .data with narrow := true}]},
       1, {itemOf 5 0 (cmd 2 1 [(0x10, 4, 4096), (0x28, 4, 1)]) .data with narrow := true}, by decide +kernel⟩⟩

theorem test_meets_DiesAreServedByClass :
    (∃ (s : State) (c : Nat) (o : DieOp) (b : Bool), s.nextOp c = some (o, b))
    ∧ (∃ (s : State) (o : DieOp), s.canStart o = some true)
    ∧ (∃ (s : State) (o : DieOp) (a : DieOp), s.canStart o = some false ∧ (s.die o.die).active = some a)
    ∧ (∃ (s : State) (o : DieOp) (a : DieOp), s.canStart o = some false ∧ (s.die o.die).active = some a)
    ∧ (∃ (s : State) (o : DieOp), (s.dieDead o.die = true ∨ (s.die o.die).resetWait = true ∨ s.channelUp (dieChannel o.die) = false))
    ∧ (∃ (s : State) (o : DieOp) (q : DieOp), s.isTest o.kind = true ∧ q ∈ s.dies.queue ∧ dieChannel q.die = dieChannel o.die ∧ q.cls < 3)
    ∧ (∃ (o : DieOp), o.cls ≠ 3)
    ∧ (∃ (o : DieOp), o.cls = 3)
    ∧ (∃ (s : State) (c : Nat) (o : DieOp) (b : Bool), s.running = true ∧ s.nextOp c = some (o, b) ∧ o.die ∉ s.dies.cold ∧ s.gateFor o = none ∧ s.programAllowed o = true)
    ∧ (∃ (s : State) (c : Nat) (o : DieOp) (b : Bool), s.running = true ∧ s.nextOp c = some (o, b) ∧ o.die ∉ s.dies.cold ∧ s.gateFor o = none ∧ s.programAllowed o = true)
    ∧ (∃ (s : State) (c : Nat) (o : DieOp) (b : Bool), s.running = true ∧ s.nextOp c = some (o, b) ∧ o.die ∉ s.dies.cold ∧ s.gateFor o = none ∧ s.programAllowed o = true)
    ∧ (∃ (s : State) (c : Nat) (o : DieOp) (b : Bool), s.running = true ∧ s.nextOp c = some (o, b) ∧ o.die ∉ s.dies.cold ∧ s.gateFor o = none ∧ s.programAllowed o = true)
    ∧ (∃ (s : State) (c : Nat) (o : DieOp) (b : Bool), s.running = true ∧ s.nextOp c = some (o, b) ∧ o.die ∉ s.dies.cold ∧ s.gateFor o = none ∧ s.programAllowed o = true)
    ∧ (∃ (s : State) (c : Nat) (o : DieOp) (b : Bool), s.running = true ∧ s.nextOp c = some (o, b) ∧ o.die ∈ s.dies.cold)
    ∧ (∃ (s : State) (c : Nat) (n : Nat) (z : Nat) (m : Nat) (o : DieOp) (b : Bool) (r : Rd) (x : Band) (k : Blk) (y : ZoneTh), (r.tried = [] ∧ m = s.classOf x k z ∨
        ∃ l, r.tried = l ++ [m]) ∧ s.running = true ∧ s.nextOp c = some (o, b) ∧ o.die ∉ s.dies.cold ∧ s.gateFor o = none ∧ o.kind = .read n ∧ s.rd? n = some r ∧
        s.rdBlk r = some (x, k, z) ∧ k.zones.find? (fun y => y.zone = z) = some y ∧ (s.dieTemp r.die - y.temp).natAbs < 10)
    ∧ (∃ (s : State) (c : Nat) (o : DieOp) (b : Bool) (i : Item), s.running = true ∧ s.nextOp c = some (o, b) ∧ o.die ∉ s.dies.cold ∧ s.gateFor o = some i ∧
        s.flt.unack = [] ∧ s.flt.stopping = false)
    ∧ (∃ (s : State) (c : Nat) (pg : Nat) (o : DieOp) (b : Bool) (p : Prog), s.running = true ∧ s.nextOp c = some (o, b) ∧ o.die ∉ s.dies.cold ∧ s.programAllowed o =
        false ∧ o.kind = .program pg ∧ s.prog? pg = some p ∧ s.band? p.band ≠ none ∧ s.flt.unack = [] ∧ s.flt.stopping = false ∧ s.nib.items = [])
    ∧ (∃ (s : State) (d : Nat) (a : DieOp) (rest : List DieOp), s.running = true ∧ s.suspendPolicy = 2 ∧ (s.die d).active = none ∧ (s.die d).susp = a :: rest)
    ∧ (∃ (s : State) (d : Nat) (a : DieOp), s.running = true ∧ (s.die d).active = some a) :=
  ⟨⟨{up with dies := {up.dies with queue := [opOf 5 0 (.read 0)]}}, 1, (opOf 5 0 (.read 0)), false, by decide +kernel⟩,
   ⟨{up with dies.dies := [dieWith 5 (some (opOf 5 3 (.erase 20)))]}, (opOf 5 0 (.read 0)), by decide +kernel⟩,
⟨{up with dies := {up.dies with dies := [dieWith 5 (some (opOf 5 0 (.read 3)))], queue := [opOf 5 0 (.read 4)], reads := [{rdOf 3 5 0 with slot := 20 * bandSlots + 0}, {rdOf 4 5 0 with slot := 20 * bandSlots + 60}]}},
       (opOf 5 0 (.read 4)), (opOf 5 0 (.read 3)), by decide +kernel⟩,
⟨{up with dies := {up.dies with dies := [dieWith 5 (some (opOf 5 0 (.read 3)))], queue := [opOf 5 0 (.read 4)], reads := [{rdOf 3 5 0 with slot := 20 * bandSlots + 0}, {rdOf 4 5 0 with slot := 20 * bandSlots + 60}]}},
       (opOf 5 0 (.read 4)), (opOf 5 0 (.read 3)), by decide +kernel⟩,
   ⟨{up with dies.dies := [{Die.idle 5 with failed := true}]}, (opOf 5 0 (.read 0)), by decide +kernel⟩,
   ⟨{up with dies := {up.dies with queue := [opOf 6 2 (.read 0)], reads := [{rdOf 3 5 0 with use := 6}]}}, (opOf 5 3 (.read 3)), (opOf 6 2 (.read 0)), by decide +kernel⟩,
   ⟨(opOf 5 2 (.read 0)), by decide +kernel⟩,
   ⟨(opOf 5 3 (.read 0)), by decide +kernel⟩,
   ⟨{up with dies := {up.dies with queue := [opOf 5 0 (.read 0)]}}, 1, (opOf 5 0 (.read 0)), false, by decide +kernel⟩,
⟨{up with dies := {up.dies with dies := [dieWith 5 (some (opOf 5 0 (.read 3)))], queue := [opOf 5 0 (.read 4)], reads := [{rdOf 3 5 0 with slot := 20 * bandSlots + 0}, {rdOf 4 5 0 with slot := 20 * bandSlots + 60}]}},
       1, (opOf 5 0 (.read 4)), false, by decide +kernel⟩,
⟨{up with dies := {up.dies with queue := [opOf 5 2 (.program 1)]}, ftl := {up.ftl with progs := [progOf 1 20 0 [5]], bands := [{bandOf 20 .opened with blks := [blkOf 20 .opened]}]}},
       1, (opOf 5 2 (.program 1)), false, by decide +kernel⟩,
   ⟨{up with dies := {up.dies with queue := [opOf 5 3 (.erase 20)]}, ftl := {up.ftl with bands := [{bandOf 20 .erasing with blks := [blkOf 20 .closed]}]}}, 1, (opOf
       5 3 (.erase 20)), false, by decide +kernel⟩,
   ⟨{up with dies := {up.dies with queue := [opOf 5 0 (.read 0)], dies := [dieWith 5 (some (opOf 5 3 (.erase 20)))]}}, 1, (opOf 5 0 (.read 0)), true, by decide +kernel⟩,
   ⟨{up with dies := {up.dies with queue := [opOf 5 0 (.read 0)], cold := [5]}}, 1, (opOf 5 0 (.read 0)), false, by decide +kernel⟩,
⟨{up with dies := {up.dies with queue := [opOf 5 0 (.read 3)], reads := [{rdOf 3 5 0 with slot := 20 * bandSlots}]}, ftl.bands := [{bandOf 20 .closed with blks := [{blkOf 20 .closed with zones := [⟨0, 25, none⟩]}]}]},
       1, 3, 0, 0, (opOf 5 0 (.read 3)), false, {rdOf 3 5 0 with slot := 20 * bandSlots},
       {bandOf 20 .closed with blks := [{blkOf 20 .closed with zones := [⟨0, 25, none⟩]}]}, {blkOf 20 .closed with zones := [⟨0, 25, none⟩]}, ⟨0, 25, none⟩, Or.inl
       ⟨rfl, by decide +kernel⟩, by decide +kernel⟩,
⟨{up with dies := {up.dies with queue := [opOf 5 0 (.read 3)], reads := [rdOf 3 5 0]}, nib.items := [itemOf 5 1 (cmd 2 1 [(0x10, 4, 4096), (0x28, 4, 1)]) .data], nib.adm.parts := [{part1 with rd := 0}]},
       1, (opOf 5 0 (.read 3)), false, (itemOf 5 1 (cmd 2 1 [(0x10, 4, 4096), (0x28, 4, 1)]) .data), by decide +kernel⟩,
⟨{up with dies := {up.dies with queue := [opOf 5 2 (.program 1)]}, ftl := {up.ftl with progs := [progOf 1 20 7 [5]], bands := [{bandOf 20 .opened with blks := [blkOf 20 .opened]}]}},
       1, 1, (opOf 5 2 (.program 1)), false, (progOf 1 20 7 [5]), by decide +kernel⟩,
   ⟨{up with dies.dies := [{Die.idle 5 with susp := [opOf 5 3 (.erase 20)]}]}, 5, (opOf 5 3 (.erase 20)), [], by decide +kernel⟩,
   ⟨{up with dies.dies := [dieWith 5 (some (opOf 5 3 (.erase 20)))]}, 5, (opOf 5 3 (.erase 20)), by decide +kernel⟩⟩

theorem test_meets_ProgramsAndErasesEnd :
    (∃ (s : State) (d : Nat) (a : DieOp) (ov : Bool) (rb : Bool) (p : Prog), s.running = true ∧ (s.die d).active = some a ∧ a.kind = .program p.id ∧ s.prog? p.id =
        some p ∧ (rb = true ∨ s.readBackDue p ov = false) ∧ (∃ x ∈ p.wait, x ≠ d) ∧ s.lops.list = [])
    ∧ (∃ (s : State) (d : Nat) (a : DieOp) (ov : Bool) (rb : Bool) (p : Prog), s.running = true ∧ (s.die d).active = some a ∧ a.kind = .program p.id ∧ s.prog? p.id =
        some p ∧ (rb = true ∨ s.readBackDue p ov = false) ∧ p.wait = [d])
    ∧ (∃ (s : State) (d : Nat) (a : DieOp) (ov : Bool) (rb : Bool) (pass : Bool) (p : Prog), s.running = true ∧ (s.die d).active = some a ∧ a.kind = .program p.id ∧
        s.prog? p.id = some p ∧ (pass = false ∨ s.readBackDue p ov = true ∧ rb = false) ∧ s.isSystem p.band = false ∧ s.ftl.testBand = none ∧ s.res.staged = [] ∧
        s.ftl.moves = [] ∧ s.ftl.fill = [] ∧ s.dies.grown = [])
    ∧ (∃ (s : State) (d : Nat) (a : DieOp) (rb : Bool) (pass : Bool) (p : Prog) (g : LogPage), s.running = true ∧ (s.die d).active = some a ∧ a.kind = .program p.id
        ∧ s.prog? p.id = some p ∧ (pass = false ∨ rb = false) ∧ s.isSystem p.band = true ∧ s.dies.grown = [] ∧ s.log.inflight = [g] ∧ s.log.progs = [(g.seq, p.id)] ∧
        s.lops.list = [])
    ∧ (∃ (s : State) (d : Nat) (n : Nat) (a : DieOp) (b : Band), s.running = true ∧ (s.die d).active = some a ∧ a.kind = .erase n ∧ s.ftl.bands = [b] ∧ b.n = n ∧ d ∈
        b.eraseWait ∧ (∃ x ∈ b.eraseWait, x ≠ d) ∧ s.ftl.testBand = none ∧ s.dies.grown = [])
    ∧ (∃ (s : State) (d : Nat) (n : Nat) (a : DieOp) (b : Band), s.running = true ∧ (s.die d).active = some a ∧ a.kind = .erase n ∧ s.ftl.bands = [b] ∧ b.n = n ∧
        b.eraseWait = [d] ∧ b.st = .opened ∧ s.ftl.testBand = none ∧ s.dies.grown = [])
    ∧ (∃ (s : State) (d : Nat) (n : Nat) (a : DieOp) (b : Band), s.running = true ∧ (s.die d).active = some a ∧ a.kind = .erase n ∧ s.ftl.bands = [b] ∧ b.n = n ∧
        b.eraseWait = [d] ∧ b.st = .erasing ∧ b.retireAfter = [] ∧ b.soft = [] ∧ (∀ x ∈ b.blks, x.st ≠ .retired) ∧ s.ftl.testBand = none ∧ s.ftl.fill = [] ∧
        s.dies.grown = [] ∧ s.lops.list = [])
    ∧ (∃ (s : State) (d : Nat) (n : Nat) (a : DieOp) (b : Band), s.running = true ∧ (s.die d).active = some a ∧ a.kind = .erase n ∧ s.ftl.bands = [b] ∧ b.n = n ∧
        b.st = .erasing ∧ d ∈ b.eraseWait ∧ (∃ x ∈ b.eraseWait, x ≠ d) ∧ s.ftl.testBand = none ∧ s.dies.grown = [])
    ∧ (∃ (s : State) (n : Nat) (m : Nat) (b : Band), s.band? n = some b ∧ s.isSystem n = true ∧ s.lowestFree = some m) :=
  ⟨⟨{up with dies.dies := [dieWith 5 (some (opOf 5 4 (.program 1)))], ftl.progs := [progOf 1 20 1 [5, 6]]}, 5, (opOf 5 4 (.program 1)), false, false, (progOf 1 20 1
      [5, 6]), by decide +kernel⟩,
   ⟨{up with dies.dies := [dieWith 5 (some (opOf 5 4 (.program 1)))], ftl.progs := [progOf 1 20 1 [5]]}, 5, (opOf 5 4 (.program 1)), true, true, (progOf 1 20 1 [5]),
       by decide +kernel⟩,
   ⟨{up with dies.dies := [dieWith 5 (some (opOf 5 4 (.program 1)))], ftl.progs := [progOf 1 20 1 [5]]}, 5, (opOf 5 4 (.program 1)), true, false, true, (progOf 1 20
       1 [5]), by decide +kernel⟩,
⟨{up with dies := {up.dies with dies := [dieWith 5 (some (opOf 5 4 (.program 1)))]}, ftl := {up.ftl with progs := [progOf 1 (up.ftl.system.headD 0) 1 [5]]}, log := {up.log with inflight := [pageOf 1], progs := [(1, 1)]}},
       5, (opOf 5 4 (.program 1)), false, true, (progOf 1 (up.ftl.system.headD 0) 1 [5]), (pageOf 1), by decide +kernel⟩,
   ⟨{up with dies.dies := [dieWith 5 (some (opOf 5 3 (.erase 20)))], ftl.bands := [{bandOf 20 .erasing with eraseWait := [5, 6], blks := [blkOf 20 .erasing]}]}, 5,
       20, (opOf 5 3 (.erase 20)), {bandOf 20 .erasing with eraseWait := [5, 6], blks := [blkOf 20 .erasing]}, by decide +kernel⟩,
   ⟨{up with dies.dies := [dieWith 5 (some (opOf 5 3 (.erase 20)))], ftl.bands := [{bandOf 20 .opened with eraseWait := [5], blks := [blkOf 20 .erasing]}]}, 5, 20,
       (opOf 5 3 (.erase 20)), {bandOf 20 .opened with eraseWait := [5], blks := [blkOf 20 .erasing]}, by decide +kernel⟩,
   ⟨{up with dies.dies := [dieWith 5 (some (opOf 5 3 (.erase 20)))], ftl.bands := [{bandOf 20 .erasing with eraseWait := [5], blks := [blkOf 20 .erasing]}]}, 5, 20,
       (opOf 5 3 (.erase 20)), {bandOf 20 .erasing with eraseWait := [5], blks := [blkOf 20 .erasing]}, by decide +kernel⟩,
   ⟨{up with dies.dies := [dieWith 5 (some (opOf 5 3 (.erase 20)))], ftl.bands := [{bandOf 20 .erasing with eraseWait := [5, 6], blks := [blkOf 20 .erasing]}]}, 5,
       20, (opOf 5 3 (.erase 20)), {bandOf 20 .erasing with eraseWait := [5, 6], blks := [blkOf 20 .erasing]}, by decide +kernel⟩,
   ⟨{up with ftl.bands := [{bandOf (up.ftl.system.headD 0) .erasing with blks := [{blkOf 20 .retired with no := 1}, blkOf 21 .erased]}]}, (up.ftl.system.headD 0),
       16, {bandOf (up.ftl.system.headD 0) .erasing with blks := [{blkOf 20 .retired with no := 1}, blkOf 21 .erased]}, by decide +kernel⟩⟩

theorem test_meets_ReadsAreDecodedOrClimb :
    (∃ (s : State) (d : Nat) (id : Nat) (a : DieOp) (r : Rd), s.running = true ∧ (s.die d).active = some a ∧ a.kind = .read id ∧ s.rd? id = some r)
    ∧ (∃ (s : State) (d : Nat) (id : Nat) (x : Nat) (y : Nat) (a : DieOp) (p : Probe) (l : List Nat), s.running = true ∧ (s.die d).active = some a ∧ a.kind = .probe
        id ∧ s.dies.probes = [p] ∧ p.id = id ∧ p.todo = x :: y :: l)
    ∧ (∃ (s : State) (id : Nat) (dec : Nat) (n : Nat) (r : Rd), s.running = true ∧ dec ∈ s.dies.decoders ∧ s.rd? id = some r ∧ r.staged = true ∧ r.done = false ∧
        r.bad = false ∧ r.step = 0 ∧ r.falsely = none ∧ r.use = 0 ∧ n ≤ 132 ∧ r.tried.getLastD 0 < 56 ∧ s.flt.unack = [])
    ∧ (∃ (s : State) (id : Nat) (dec : Nat) (r : Rd), s.running = true ∧ dec ∈ s.dies.decoders ∧ s.rd? id = some r ∧ r.staged = true ∧ r.done = false ∧ r.step < 9 ∧
        r.use ≠ 4)
    ∧ (∃ (s : State) (id : Nat) (dec : Nat) (r : Rd), s.running = true ∧ dec ∈ s.dies.decoders ∧ s.rd? id = some r ∧ r.staged = true ∧ r.done = false ∧ r.step = 0 ∧
        r.use ≠ 4 ∧ s.dieAway r.die = false)
    ∧ (∃ (s : State) (id : Nat) (dec : Nat) (d : Nat) (r : Rd), s.running = true ∧ dec ∈ s.dies.decoders ∧ s.rd? id = some r ∧ r.staged = true ∧ r.done = false ∧
        r.step = 8 ∧ r.use ≠ 4 ∧ s.peersThere r.slot r.die = true ∧ d ∈ s.peerDies r.slot r.die)
    ∧ (∃ (s : State) (id : Nat) (dec : Nat) (r : Rd) (i : Item) (p : Part), s.running = true ∧ dec ∈ s.dies.decoders ∧ s.rd? id = some r ∧ r.staged = true ∧ r.done =
        false ∧ r.step = 9 ∧ s.nib.items = [i] ∧ i.ruling = r.ruling ∧ (r.use = 0 ∧ i.wait = .data ∨ r.use = 5 ∧ i.wait = .merge) ∧ s.partOf i = some p ∧ s.flt.unack
        = [] ∧ s.flt.stopping = false)
    ∧ (∃ (s : State) (id : Nat) (dec : Nat) (r : Rd) (i : Item) (p : Part), s.running = true ∧ dec ∈ s.dies.decoders ∧ s.rd? id = some r ∧ r.staged = true ∧ r.done =
        false ∧ r.step = 9 ∧ s.nib.items = [i] ∧ i.ruling = r.ruling ∧ (r.use = 0 ∧ i.wait = .data ∨ r.use = 5 ∧ i.wait = .merge) ∧ s.partOf i = some p ∧ s.flt.unack
        = [] ∧ s.flt.stopping = false)
    ∧ (∃ (s : State) (dec : Nat), s.running = true ∧ dec ∈ s.dies.decoders ∧ (∃ x ∈ s.dies.decoders, x ≠ dec) ∧ s.flt.unack = [] ∧ s.flt.stopping = false ∧
        s.nib.items = []) :=
  ⟨⟨{up with dies := {up.dies with dies := [dieWith 5 (some (opOf 5 0 (.read 3)))], reads := [rdOf 3 5 0]}}, 5, 3, (opOf 5 0 (.read 3)), (rdOf 3 5 0), by decide +kernel⟩,
   ⟨{up with dies := {up.dies with dies := [dieWith 5 (some (opOf 5 3 (.probe 3)))], probes := [probeOf 3 5 [63, 0]]}}, 5, 3, 63, 0, (opOf 5 3 (.probe 3)), (probeOf
       3 5 [63, 0]), [], by decide +kernel⟩,
   ⟨{up with dies.reads := [rdOf 3 5 0]}, 3, 7, 132, (rdOf 3 5 0), by decide +kernel⟩,
   ⟨{up with dies.reads := [rdOf 3 5 8]}, 3, 7, (rdOf 3 5 8), by decide +kernel⟩,
   ⟨{up with dies.reads := [rdOf 3 5 0]}, 3, 7, (rdOf 3 5 0), by decide +kernel⟩,
   ⟨{up with dies.reads := [{rdOf 3 5 8 with slot := 20 * bandSlots}], ftl.bands := [bandOf 20 .closed]}, 3, 7, 8, {rdOf 3 5 8 with slot := 20 * bandSlots}, by
       decide +kernel⟩,
   ⟨{up with dies.reads := [rdOf 3 5 9], nib.items := [itemOf 5 1 (cmd 2 1 [(0x10, 4, 4096), (0x28, 4, 1)]) .data]}, 3, 7, (rdOf 3 5 9), (itemOf 5 1 (cmd 2 1 [(0x10,
       4, 4096), (0x28, 4, 1)]) .data), part1, by decide +kernel⟩,
   ⟨{up with dies.reads := [{rdOf 3 5 9 with use := 5}], nib.items := [itemOf 5 1 (cmd 1 1 [(0x10, 4, 512), (0x28, 4, 1)]) .merge]}, 3, 7,
       {rdOf 3 5 9 with use := 5}, (itemOf 5 1 (cmd 1 1 [(0x10, 4, 512), (0x28, 4, 1)]) .merge), part1, by decide +kernel⟩,
   ⟨up, 7, by decide +kernel⟩⟩

theorem test_meets_FailingDiesAreTakenOut :
    (∃ (s : State) (d : Nat) (a : DieOp), s.running = true ∧ (s.die d).active = some a ∧ (s.die d).resetWait = false ∧ (s.die d).timeouts = 0)
    ∧ (∃ (s : State) (d : Nat) (a : DieOp), s.running = true ∧ (s.die d).active = some a ∧ (s.die d).resetWait = false ∧ (s.die d).timeouts ≠ 0 ∧ s.ftl.bands = [] ∧
        (∃ g < s.groups, dieOf (dieChannel d) g ≠ d ∧ (s.die (dieOf (dieChannel d) g)).holdback = false))
    ∧ (∃ (s : State) (d : Nat) (a : DieOp), s.running = true ∧ (s.die d).active = some a)
    ∧ (∃ (s : State) (d : Nat), s.running = true ∧ (s.die d).holdback = true ∧ s.recovery = false ∧ s.flt.unack = [] ∧ s.flt.stopping = false ∧ s.nib.items = [] ∧ (∃
        g < s.groups, (s.die (dieOf (dieChannel d) g)).holdback = false))
    ∧ (∃ (s : State) (c : Nat) (ids : List Nat), (∀ g < s.groups, ∀ x, ids[g]? = some x → x = s.unit.dieIds.getD (dieOf c g) 0) ∧ s.running = true ∧ c < 16 ∧
        s.channelUp c = true ∧ s.flt.unack = [])
    ∧ (∃ (s : State) (c : Nat) (ids : List Nat) (g : _) (x : _), (∀ k < s.groups, k ≠ g → ∀ y, ids[k]? = some y → y = s.unit.dieIds.getD (dieOf c k) 0) ∧ s.running =
        true ∧ c < 16 ∧ s.channelUp c = true ∧ s.flt.unack = [] ∧ g < s.groups ∧ ids[g]? = some x ∧ x ≠ s.unit.dieIds.getD (dieOf c g) 0 ∧ s.dieDead (dieOf c g) =
        false ∧ s.ftl.bands = [] ∧ s.flt.stopping = false)
    ∧ (∃ (s : State) (c : Nat), s.running = true ∧ c < 16 ∧ s.channelUp c = true ∧ s.flt.unack = [] ∧ c ∉ s.dies.trainFailed)
    ∧ (∃ (s : State) (c : Nat), s.running = true ∧ c < 16 ∧ s.channelUp c = true ∧ s.flt.unack = [] ∧ c ∈ s.dies.trainFailed ∧ s.recovery = false ∧ s.rst.recovered =
        true ∧ s.ftl.bands = [] ∧ s.flt.stopping = false ∧ s.nib.items = []) :=
  ⟨⟨{up with dies.dies := [dieWith 5 (some (opOf 5 3 (.erase 20)))]}, 5, (opOf 5 3 (.erase 20)), by decide +kernel⟩,
   ⟨{up with dies.dies := [{dieWith 5 (some (opOf 5 3 (.erase 20))) with timeouts := 1}]}, 5, (opOf 5 3 (.erase 20)), by decide +kernel⟩,
   ⟨{up with dies.dies := [dieWith 5 (some (opOf 5 3 (.erase 20)))]}, 5, (opOf 5 3 (.erase 20)), by decide +kernel⟩,
   ⟨{up with dies.dies := [{Die.idle 5 with holdback := true}]}, 5, by decide +kernel⟩,
   ⟨up, 15, [], (fun g _ x hx => by simp at hx), by decide +kernel⟩,
   ⟨up, 1, [up.unit.dieIds.getD 4 0 + 1], 0, (up.unit.dieIds.getD 4 0 + 1),
       (fun k hk hne y hy => by cases k with | zero => exact absurd rfl hne | succ k => simp at hy), by decide +kernel⟩,
   ⟨up, 15, by decide +kernel⟩,
   ⟨{up with dies.trainFailed := [15]}, 15, by decide +kernel⟩⟩

theorem test_meets_LogAndBandsMoveOn :
    (∃ (s : State), s.logOn = true ∧ s.log.needOpened = false ∧ (496 ≤ s.log.buf.length ∨ s.persistDue = true) ∧ s.pageWaits = false)
    ∧ (∃ (s : State), s.logOn = true ∧ s.log.needOpened = false ∧ (496 ≤ s.log.buf.length ∨ s.persistDue = true) ∧ s.pageWaits = false)
    ∧ (∃ (s : State), (s.log.buf.length < 496 ∧ s.persistDue = false ∨ s.pageWaits = true))
    ∧ (∃ (s : State) (p : LogPage) (rest : List LogPage), s.logOn = true ∧ s.log.inflight = p :: rest ∧ s.pageThere = true)
    ∧ (∃ (s : State), s.pageThere = false)
    ∧ (∃ (s : State), s.logOn = true ∧ s.log.needOpened = false ∧ s.log.cpWriting = none ∧ s.checkpointDue = true)
    ∧ (∃ (s : State), s.checkpointDue = false)
    ∧ (∃ (s : State) (b : Band), s.ownWork = true ∧ s.deferred = false ∧ (collectUpdate s).victim = some b ∧ (collectUpdate s).ftl.collecting = true)
    ∧ (∃ (s : State) (b : Band), s.ownWork = true ∧ s.hybrid = true ∧ s.deferred = false ∧ (s.cacheSize < s.cacheBands ∨ s.nib.lastWrite + 50 ≤ s.rst.timeMs) ∧
        s.ftl.bands = [b] ∧ b.cache = true ∧ b.st = .closed ∧ s.isHostBand b.n = true ∧ s.ftl.progs = [] ∧ s.ftl.emptying = [])
    ∧ (∃ (s : State) (b : Band), s.ownWork = true ∧ s.hybrid = true ∧ s.deferred = false ∧ (s.cacheSize < s.cacheBands ∨ s.nib.lastWrite + 50 ≤ s.rst.timeMs) ∧
        s.ftl.bands = [b] ∧ b.cache = true ∧ b.st = .closed ∧ s.isHostBand b.n = true ∧ s.ftl.progs = [] ∧ s.ftl.emptying = [])
    ∧ (∃ (s : State), s.cacheBands ≤ s.cacheSize ∧ s.rst.timeMs < s.nib.lastWrite + 50)
    ∧ (∃ (s : State) (a : Band) (b : Band), s.ownWork = true ∧ s.ftl.bands = [a, b] ∧ a.n ≠ b.n ∧ s.isHostBand a.n = true ∧ s.isHostBand b.n = true ∧ a.st = .closed
        ∧ b.st ≠ .dissolved ∧ s.ftl.progs = [] ∧ s.ftl.emptying = [] ∧ (s.hostBands ≤ 2 ∨ a.erases ≤ s.ftl.freshErases) ∧ a.erases + 1000 ≤ b.erases)
    ∧ (∃ (s : State) (e : Emptying), s.ownWork = true ∧ s.ftl.emptying = [e] ∧ e.logged = true ∧ e.waited = false ∧ s.durableTo e.logSeq = true ∧ s.settled < e.dueStale)
    ∧ (∃ (s : State) (k : Nat) (x : Stroke), s.ownWork = true ∧ s.strokeOnly = false ∧ s.deferred = false ∧ s.map.stroke? k = some x ∧ 2 ≤ x.kind ∧ (24 ≤
        s.map.hairCount k ∨ s.touchedAt k + 600000 ≤ s.health.powerOnMs ∧ s.nib.items = [] ∧ s.nib.fetched = []) ∧ (∃ i < 32, s.map.lookup (32 * k + i) ≠ none) ∧
        s.ftl.moves = [])
    ∧ (∃ (s : State) (k : Nat) (x : Stroke), s.ownWork = true ∧ s.strokeOnly = false ∧ s.deferred = false ∧ s.map.stroke? k = some x ∧ 2 ≤ x.kind ∧ (24 ≤
        s.map.hairCount k ∨ s.touchedAt k + 600000 ≤ s.health.powerOnMs ∧ s.nib.items = [] ∧ s.nib.fetched = []) ∧ (∃ i < 32, s.map.lookup (32 * k + i) ≠ none) ∧
        s.ftl.moves = [])
    ∧ (∃ (s : State) (n : Nat) (b : Band), s.ownWork = true ∧ s.band? n = some b ∧ (s.liveSlots n ≠ [] ∨ s.isSystem n = true))
    ∧ (∃ (s : State) (n : Nat) (b : Band), s.ownWork = true ∧ s.band? n = some b ∧ (s.liveSlots n ≠ [] ∨ s.isSystem n = true))
    ∧ (∃ (s : State), s.running = true)
    ∧ (∃ (s : State), s.running = true) :=
  ⟨⟨{up with log := {up.log with needOpened := false, buf := List.replicate 496 (mkRec 0 7 0 .none)}}, by decide +kernel⟩,
   ⟨{up with log := {up.log with needOpened := false, closing := true}}, by decide +kernel⟩,
   ⟨{up with nib.ceiling := 0x100000000}, by decide +kernel⟩,
   ⟨{up with log := {up.log with inflight := [pageOf 1], progs := [(1, 9)]}}, (pageOf 1), [], by decide +kernel⟩,
   ⟨up, by decide +kernel⟩,
   ⟨{up with log := {up.log with needOpened := false, nextSeq := 16777216}}, by decide +kernel⟩,
   ⟨{up with log.nextSeq := 16777215}, by decide +kernel⟩,
   ⟨{up with unit.groupBands := [5, 5, 5, 5], ftl.bands := [bandOf 1864 .closed, bandOf 1865 .closed, bandOf 1866 .closed]}, (bandOf 1864 .closed), by decide +kernel⟩,
   ⟨{up with ftl.bands := [{bandOf 16 .closed with cache := true}], rst.timeMs := 50}, {bandOf 16 .closed with cache := true}, by decide +kernel⟩,
   ⟨{up with ftl := {up.ftl with bands := [{bandOf 16 .closed with cache := true}], cacheHeld := some 0}, nib.lastWrite := 9},
       {bandOf 16 .closed with cache := true}, by decide +kernel⟩,
   ⟨{up with nib.lastWrite := 9}, by decide +kernel⟩,
   ⟨{up with ftl := {up.ftl with bands := [bandOf 16 .closed, {bandOf 17 .free with erases := 1001}], freshErases := 1}}, (bandOf 16 .closed),
       {bandOf 17 .free with erases := 1001}, by decide +kernel⟩,
   ⟨{up with ftl.emptying := [emptyingOf 20 0]}, (emptyingOf 20 0), by decide +kernel⟩,
   ⟨{up with health.powerOnMs := 600000, map.strokes := [⟨0, 2, 5000000⟩], map.hair := [⟨31, some 6000000⟩]}, 0, ⟨0, 2, 5000000⟩, by decide +kernel⟩,
   ⟨{up with map.strokes := [⟨0, 2, 5000000⟩], map.hair := (List.range 24).map (fun i => ⟨i, some (6000000 + i)⟩)}, 0, ⟨0, 2, 5000000⟩, by decide +kernel⟩,
⟨{up with map.strokes := [⟨0, 3, 0⟩], map.hair := [⟨0, some 5000000⟩], ftl := {up.ftl with slots := [⟨5000000, cwOf 0⟩], bands := [bandOf (bandOfSlot 5000000) .closed]}},
       (bandOfSlot 5000000), (bandOf (bandOfSlot 5000000) .closed), by decide +kernel⟩,
   ⟨{up with ftl := {up.ftl with bands := [{bandOf (up.ftl.system.headD 0) .opened with nextWl := 1}]}}, (up.ftl.system.headD 0),
       {bandOf (up.ftl.system.headD 0) .opened with nextWl := 1}, by decide +kernel⟩,
   ⟨up, by decide +kernel⟩,
   ⟨up, by decide +kernel⟩⟩

theorem test_meets_FaultsTakeTheirReactions :
    (∃ (s : State) (cls : Nat), (∀ u ∈ s.flt.unack, sameClass u.cls cls = true → u.level = 0))
    ∧ (∃ (s : State) (cls : Nat) (u : _), u ∈ s.flt.unack ∧ sameClass u.cls cls = true ∧ 0 < u.level)
    ∧ (∃ (s : State) (source : Nat), s.collects = true ∧ s.sampled source = true ∧ s.flt.unack = [] ∧ s.flt.stopping = false ∧ (∀ i ∈ s.nib.items, i.wait ≠ .event))
    ∧ (∃ (s : State) (source : Nat), s.running = true ∧ s.rst.faultReleased = true ∧ s.sampled source = true ∧ s.flt.unack = [] ∧ s.flt.stopping = false ∧ (∀ i ∈
        s.nib.items, i.wait ≠ .event))
    ∧ (∃ (s : State) (x : Nat), s.running = true ∧ s.rst.faultReleased = true ∧ x ∈ s.dies.decoders ∧ (∃ y ∈ s.dies.decoders, y ≠ x) ∧ x < 8 ∧ s.sampled (0x30 + x) =
        true ∧ s.flt.unack = [] ∧ s.flt.stopping = false ∧ (∀ i ∈ s.nib.items, i.wait ≠ .event))
    ∧ (∃ (s : State) (source : Nat) (i : Island), s.running = true ∧ s.rst.faultReleased = true ∧ s.sampled source = true ∧ sourceIsland source = some i ∧ (∀ n, i ≠
        .ch n) ∧ source ≠ 1 ∧ (i, .released) ∈ s.rst.islands ∧ s.flt.unack = [] ∧ s.flt.stopping = false ∧ (∀ j ∈ s.nib.items, j.wait ≠ .event))
    ∧ (∃ (s : State) (c : Instr) (cls : Nat) (cause : Nat), s.running = true ∧ s.rst.faultReleased = true ∧ s.flt.stopping = false ∧ (c = .lockstepDisagreement ∧ cls
        = 10 ∧ cause = 2 ∨ c = .deviceWatchdogExpiry ∧ s.ordersDone 2 = true ∧ cls = 15 ∧ cause = 1) ∧ s.flt.counts.length = 16)
    ∧ (∃ (s : State) (c : Instr) (cls : Nat) (cause : Nat), s.running = true ∧ s.rst.faultReleased = true ∧ s.flt.stopping = false ∧ (c = .lockstepDisagreement ∧ cls
        = 10 ∧ cause = 2 ∨ c = .deviceWatchdogExpiry ∧ s.ordersDone 2 = true ∧ cls = 15 ∧ cause = 1) ∧ s.flt.counts.length = 16)
    ∧ (∃ (s : State) (core : Nat), s.running = true ∧ s.rst.faultReleased = true ∧ core ∈ s.flt.cores ∧ s.flt.unack = [] ∧ s.flt.stopping = false ∧ (∀ i ∈
        s.nib.items, i.wait ≠ .event) ∧ s.flt.coreResets = [])
    ∧ (∃ (s : State) (core : Nat) (t1 : Nat) (t2 : Nat), s.running = true ∧ s.rst.faultReleased = true ∧ core ∈ s.flt.cores ∧ s.flt.unack = [] ∧ s.flt.stopping =
        false ∧ (∀ i ∈ s.nib.items, i.wait ≠ .event) ∧ s.flt.coreResets = [(core, t1), (core, t2)] ∧ s.health.powerOnMs < t1 + 3600000 ∧ s.health.powerOnMs < t2 +
        3600000 ∧ 2 ≤ (s.flt.cores.filter (fun x => x ≠ core)).length)
    ∧ (∃ (s : State) (c : Instr) (rail : Nat) (mv : Nat), s.running = true ∧ (c = .brownOut mv ∧ s.sup.brownArmed = true ∧ rail = 0 ∨ c = .vccqOutOfRange mv ∧
        vccqInRange s.strap.vccq18 mv = false ∧ rail = 1) ∧ s.flt.unack = [] ∧ s.flt.stopping = false ∧ (∀ i ∈ s.nib.items, i.wait ≠ .event))
    ∧ (∃ (s : State) (c : Instr) (rail : Nat) (mv : Nat), s.running = true ∧ (c = .brownOut mv ∧ s.sup.brownArmed = true ∧ rail = 0 ∨ c = .vccqOutOfRange mv ∧
        vccqInRange s.strap.vccq18 mv = false ∧ rail = 1) ∧ s.flt.unack = [] ∧ s.flt.stopping = false ∧ (∀ i ∈ s.nib.items, i.wait ≠ .event))
    ∧ (∃ (s : State), s.running = true ∧ .supply ∈ s.flt.safe ∧ (∀ u ∈ s.flt.unack, ¬ (u.cls = 12 ∧ u.level = 4)))
    ∧ (∃ (s : State), s.running = true ∧ s.flt.unack = [] ∧ s.flt.stopping = false ∧ (∀ i ∈ s.nib.items, i.wait ≠ .event))
    ∧ (∃ (s : State) (dram : Bool) (a : Nat) (n : Nat) (r : Nat), s.running = true ∧ 2 ≤ n ∧ (dram = true ∨ 0x200000 ≤ a) ∧ s.flt.unack = [] ∧ s.flt.stopping = false
        ∧ (∀ i ∈ s.nib.items, i.wait ≠ .event) ∧ s.item? r = none)
    ∧ (∃ (s : State) (a : Nat) (n : Nat), s.running = true ∧ 2 ≤ n ∧ a < 0x200000 ∧ s.flt.stopping = false)
    ∧ (∃ (s : State), s.lands.alive ≠ .low)
    ∧ (∃ (s : State), s.lands.act = true ∧ s.running = true ∧ s.recovery = false ∧ s.busy = false)
    ∧ (∃ (s : State), s.lands.act = true ∧ s.running = true ∧ s.recovery = false ∧ s.busy = true) :=
  ⟨⟨up, 10, by decide +kernel⟩,
   ⟨{up with flt.unack := [⟨10, 3, 1⟩]}, 10, (⟨10, 3, 1⟩ : Unack), by decide +kernel⟩,
   ⟨up, 0x40, by decide +kernel⟩,
   ⟨up, 0x06, by decide +kernel⟩,
   ⟨up, 7, by decide +kernel⟩,
   ⟨up, 0x06, .res, by decide +kernel⟩,
   ⟨up, .lockstepDisagreement, 10, 2, by decide +kernel⟩,
   ⟨up, .deviceWatchdogExpiry, 15, 1, by decide +kernel⟩,
   ⟨up, 9, by decide +kernel⟩,
   ⟨{up with flt.coreResets := [(9, 0), (9, 0)]}, 9, 0, 0, by decide +kernel⟩,
   ⟨up, (.vccqOutOfRange 1951), 1, 1951, by decide +kernel⟩,
   ⟨up, (.brownOut 2699), 0, 2699, by decide +kernel⟩,
   ⟨{up with flt.safe := [.supply]}, by decide +kernel⟩,
   ⟨up, by decide +kernel⟩,
   ⟨up, true, 64, 2, 99, by decide +kernel⟩,
   ⟨up, 4096, 2, by decide +kernel⟩,
   ⟨up, by decide +kernel⟩,
   ⟨{up with lands.act := true}, by decide +kernel⟩,
   ⟨{up with lands.act := true, nib.items := [itemOf 5 1 (cmd 2 1 [(0x10, 4, 4096), (0x28, 4, 1)]) .data]}, by decide +kernel⟩⟩

theorem test_meets_LandsBankAndDebugPort :
    (∃ (s : State), s.running = true ∧ s.ejectUsed = true ∧ s.sup.ejectArmed = true ∧ s.sup.warning = none ∧ s.canRule = true)
    ∧ (∃ (s : State), s.running = true ∧ s.ejectUsed = true)
    ∧ (∃ (s : State) (low : Bool), s.running = true ∧ s.sup.wpswLow ≠ low ∧ s.canRule = true)
    ∧ (∃ (s : State) (low : Bool), s.sup.wpswLow = low)
    ∧ (∃ (s : State) (mv : Nat), s.running = true ∧ s.holdupFitted = true ∧ s.recovery = false ∧ 4800 ≤ mv)
    ∧ (∃ (s : State) (mv : Nat), s.running = true ∧ s.holdupFitted = true ∧ s.recovery = false ∧ mv < 4700)
    ∧ (∃ (s : State) (mv : Nat), s.running = true ∧ s.holdupFitted = true ∧ s.recovery = false ∧ mv < 4550 ∧ s.sup.bank = .ready)
    ∧ (∃ (s : State) (mv : Nat), s.running = true ∧ s.holdupFitted = true ∧ s.recovery = false ∧ 4650 ≤ mv)
    ∧ (∃ (s : State) (mv : Nat), s.running = true ∧ s.holdupFitted = true ∧ s.recovery = false ∧ 4650 ≤ mv)
    ∧ (∃ (s : State), s.running = true ∧ s.holdupFitted = true ∧ s.recovery = false ∧ s.sup.bank ≠ .ready)
    ∧ (∃ (s : State), s.portOn = true)
    ∧ (∃ (s : State) (x : BitVec 33), s.portOn = true ∧ x.getLsbD 32 = false ∧ s.mayRead (regionOf s.dbg.addr) = true ∧ (regionOf s.dbg.addr = .bootFlash →
        s.flashBusy (s.dbg.addr - 0x10000000) = false))
    ∧ (∃ (s : State) (x : BitVec 33), s.portOn = true ∧ x.getLsbD 32 = true ∧ s.mayWrite (regionOf s.dbg.addr) = true)
    ∧ (∃ (s : State) (x : BitVec 33), s.portOn = true ∧ (x.getLsbD 32 = false ∧ s.mayRead (regionOf s.dbg.addr) = false ∨ x.getLsbD 32 = true ∧ s.mayWrite (regionOf
        s.dbg.addr) = false) ∧ s.flt.unack = [] ∧ s.flt.stopping = false ∧ (∀ i ∈ s.nib.items, i.wait ≠ .event))
    ∧ (∃ (s : State), s.portOn = true)
    ∧ (∃ (s : State), s.portOn = true ∧ s.dbg.refused = false ∧ s.dbg.fails < 3 ∧ s.dbg.challenge ≠ none)
    ∧ (∃ (s : State) (v : Bool), s.portOn = true ∧ s.dbg.refused = false ∧ s.dbg.fails < 3 ∧ (v = false ∨ s.dbg.challenge = none) ∧ s.flt.unack = [] ∧ s.flt.stopping
        = false ∧ (∀ i ∈ s.nib.items, i.wait ≠ .event))
    ∧ (∃ (s : State), (3 ≤ s.dbg.fails ∨ s.dbg.refused = true))
    ∧ (∃ (s : State), s.portOn = true ∧ s.dbg.unlocked = true ∧ s.dbg.scope.getLsbD 1 = true)
    ∧ (∃ (s : State), (s.portOn = false ∨ s.dbg.unlocked = false ∨ s.dbg.scope.getLsbD 1 = false)) :=
  ⟨⟨{up with sup.ejectArmed := true}, by decide +kernel⟩,
   ⟨up, by decide +kernel⟩,
   ⟨up, true, by decide +kernel⟩,
   ⟨up, false, by decide +kernel⟩,
   ⟨up, 4800, by decide +kernel⟩,
   ⟨up, 4699, by decide +kernel⟩,
   ⟨{up with sup.bank := .ready}, 4549, by decide +kernel⟩,
   ⟨{up with sup.bank := .ready}, 4650, by decide +kernel⟩,
   ⟨up, 4650, by decide +kernel⟩,
   ⟨up, by decide +kernel⟩,
   ⟨up, by decide +kernel⟩,
   ⟨{up with dbg.addr := 0x20000000}, 0, by decide +kernel⟩,
   ⟨{up with dbg.unlocked := true, dbg.scope := 2}, 0x100000001, by decide +kernel⟩,
   ⟨up, 0x100000000, by decide +kernel⟩,
   ⟨up, by decide +kernel⟩,
   ⟨{up with dbg.challenge := some 1, dbg.fails := 2}, by decide +kernel⟩,
   ⟨up, false, by decide +kernel⟩,
   ⟨{up with dbg.fails := 3}, by decide +kernel⟩,
   ⟨{up with dbg.unlocked := true, dbg.scope := 2}, by decide +kernel⟩,
   ⟨up, by decide +kernel⟩⟩

theorem test_meets_PowerStatesAndTemperature :
    (∃ (s : State), s.sinks = true ∧ s.awake = true)
    ∧ (∃ (s : State), s.sinks = true ∧ s.recovery = false ∧ (s.pwr.ps = 2 ∨ s.awake = true ∧ s.pwr.hint = 2))
    ∧ (∃ (s : State), s.sinks = true ∧ s.pwr.ps = 3 ∧ s.recovery = false ∧ s.mismatch = false ∧ s.ftl.fill = [])
    ∧ (∃ (s : State), s.running = true ∧ s.pwr.entering4 = true ∧ s.quiet 0 = true ∧ s.rst.io = true)
    ∧ (∃ (s : State), s.running = true ∧ s.pcie.d3hot = false ∧ (s.awake = false ∨ s.pwr.entering4 = true) ∧ s.nib.fetched = [])
    ∧ (∃ (s : State) (j : Int) (n : Int), s.running = true ∧ (2 ≤ s.pwr.step ∨ entryStep j n < 2) ∧ (j < 1100 ∨ s.pwr.thermalSafe = true))
    ∧ (∃ (s : State) (j : Int) (n : Int), s.running = true ∧ s.pwr.step < 2 ∧ 2 ≤ entryStep j n ∧ j < 1100 ∧ s.flt.unack = [] ∧ s.flt.stopping = false ∧ (∀ i ∈
        s.nib.items, i.wait ≠ .event))
    ∧ (∃ (s : State) (j : Int), s.running = true ∧ 2 ≤ s.pwr.step ∧ 1100 ≤ j ∧ s.pwr.thermalSafe = false ∧ s.flt.unack = [] ∧ s.flt.stopping = false ∧ (∀ i ∈
        s.nib.items, i.wait ≠ .event))
    ∧ (∃ (s : State), s.running = true ∧ 0 < s.pwr.step ∧ belowLeave s.pwr.step s.pwr.junction s.pwr.nand = true)
    ∧ (∃ (s : State), s.running = true ∧ s.pwr.thermalSafe = true ∧ s.pwr.junction < 1000) :=
  ⟨⟨up, by decide +kernel⟩,
   ⟨{up with pwr.ps := 2}, by decide +kernel⟩,
   ⟨{up with pwr.ps := 3}, by decide +kernel⟩,
   ⟨{up with pwr.entering4 := true}, by decide +kernel⟩,
   ⟨{up with pwr.ps := 4}, by decide +kernel⟩,
   ⟨up, 999, 929, by decide +kernel⟩,
   ⟨up, 1000, 929, by decide +kernel⟩,
   ⟨{up with pwr.step := 2}, 1100, by decide +kernel⟩,
   ⟨{up with pwr.step := 1, pwr.junction := 919, pwr.nand := 869}, by decide +kernel⟩,
   ⟨{up with pwr.thermalSafe := true, pwr.junction := 999}, by decide +kernel⟩⟩

theorem test_meets_BadLigatureFramesAreCounted :
    (∃ (s : State) (frame : BitVec 48), s.running = true ∧ s.ligOn = true ∧ (ligCheck frame.toNat ≠ bits frame.toNat 1 8 ∨ frame.getLsbD 0 = false ∨ 0xC ≤ bits
        frame.toNat 38 4))
    ∧ (∃ (f : LigFrame), f.source < 32 ∧ f.typ < 12) :=
  ⟨⟨lug, 0, by decide +kernel⟩,
   ⟨⟨31, 11, 0⟩, by decide +kernel⟩⟩

theorem test_meets_MembersJoinAndLeave :
    (∃ (s : State), s.running = true ∧ s.ligOn = true ∧ s.leader = true ∧ s.lig.drivesLck = false)
    ∧ (∃ (s : State), s.running = true ∧ s.ligOn = true ∧ s.leader = true ∧ s.lig.drivesLck = false ∧ s.lig.initiating = none)
    ∧ (∃ (s : State), s.leads = true)
    ∧ (∃ (s : State) (src : Nat), s.running = true ∧ s.ligOn = true ∧ src ≠ s.own)
    ∧ (∃ (s : State) (src : Nat), s.running = true ∧ s.ligOn = true ∧ src ≠ s.own ∧ s.leader = false)
    ∧ (∃ (s : State) (src : Nat), s.running = true ∧ s.ligOn = true ∧ src ≠ s.own ∧ s.leader = true ∧ src < 24)
    ∧ (∃ (s : State) (src : Nat) (v : BitVec 29), s.running = true ∧ s.ligOn = true ∧ src ≠ s.own ∧ (BitVec.ofNat 24 (bits v.toNat 0 24)).getLsbD s.own = true ∧
        s.inDoubt = false ∧ s.nib.items = [])
    ∧ (∃ (s : State) (src : Nat) (v : BitVec 29), s.running = true ∧ s.ligOn = true ∧ src ≠ s.own ∧ (BitVec.ofNat 24 (bits v.toNat 0 24)).getLsbD s.own = false ∧
        s.lig.state = 2 ∧ s.nib.items = [])
    ∧ (∃ (s : State), s.running = true ∧ s.ligOn = true ∧ s.nib.items = []) :=
  ⟨⟨lead, by decide +kernel⟩,
   ⟨lead, by decide +kernel⟩,
   ⟨{lead with lig.drivesLck := true}, by decide +kernel⟩,
   ⟨lug, 0, by decide +kernel⟩,
   ⟨lug, 23, by decide +kernel⟩,
   ⟨lead, 23, by decide +kernel⟩,
   ⟨lug, 0, 8, by decide +kernel⟩,
   ⟨lug, 0, 7, by decide +kernel⟩,
   ⟨lug, by decide +kernel⟩⟩

theorem test_meets_FramesAreSentUnderArbitration :
    (∃ (s : State) (f : LigFrame) (rest : List LigFrame), s.running = true ∧ s.ligOn = true ∧ s.lig.sendQ = f :: rest)
    ∧ (∃ (s : State) (f : LigFrame) (rest : List LigFrame) (b : Nat), s.running = true ∧ s.ligOn = true ∧ s.lig.sendQ = f :: rest ∧ b < 38 ∧ s.lig.initiating = none
        ∧ s.nib.items = [])
    ∧ (∃ (s : State) (f : LigFrame) (rest : List LigFrame) (b : Nat), s.running = true ∧ s.ligOn = true ∧ s.lig.sendQ = f :: rest ∧ 38 ≤ b ∧ f.typ ≠ 4)
    ∧ (∃ (s : State) (f : LigFrame) (rest : List LigFrame) (b : Nat), s.running = true ∧ s.ligOn = true ∧ s.lig.sendQ = f :: rest ∧ 38 ≤ b ∧ f.typ = 4 ∧ s.nib.items = [])
    ∧ (∃ (typ : Nat), typ ≠ 4) :=
  ⟨⟨{lug with lig.sendQ := [⟨3, 0, 0⟩]}, ⟨3, 0, 0⟩, [], by decide +kernel⟩,
   ⟨{lug with lig.sendQ := [⟨3, 4, 0⟩]}, ⟨3, 4, 0⟩, [], 37, by decide +kernel⟩,
   ⟨{lug with lig.sendQ := [⟨3, 0, 0⟩]}, ⟨3, 0, 0⟩, [], 38, by decide +kernel⟩,
   ⟨{lug with lig.sendQ := [⟨3, 4, 0⟩]}, ⟨3, 4, 0⟩, [], 47, by decide +kernel⟩,
   ⟨8, by decide +kernel⟩⟩

theorem test_meets_EpochCommandsActThroughTheLigature :
    (∃ (s : State) (c : Instr) (f : Fetched) (t : State) (i : Item), s.Begins c 0 f t i ∧ (c = .epochCommit ∨ c = .epochResolve) ∧ s.lig.state ≠ 2)
    ∧ (∃ (s : State) (c : Instr) (f : Fetched) (t : State) (i : Item), s.Begins c 0 f t i ∧ (c = .epochCommit ∨ c = .epochResolve) ∧ s.lig.state ≠ 2)
    ∧ (∃ (s : State) (f : Fetched) (t : State) (i : Item) (m : BitVec 24), s.Begins .epochCommit 0 f t i ∧ s.lig.state = 2 ∧ m = BitVec.ofNat 24 (Entry.w30 i.entry)
        ∧ s.epoch? (Entry.w2C i.entry) = none ∧ m &&& s.lig.joined = m ∧ s.lig.lrdyHigh = true ∧ s.lig.open_ = none ∧ s.lig.initiating = none)
    ∧ (∃ (s : State) (f : Fetched) (t : State) (i : Item) (m : BitVec 24), s.Begins .epochCommit 0 f t i ∧ s.lig.state = 2 ∧ m = BitVec.ofNat 24 (Entry.w30 i.entry)
        ∧ m &&& s.lig.joined ≠ m ∧ s.lig.lrdyHigh = true ∧ s.lig.open_ = none)
    ∧ (∃ (s : State) (f : Fetched) (t : State) (i : Item) (m : BitVec 24), s.Begins .epochCommit 0 f t i ∧ s.lig.state = 2 ∧ m = BitVec.ofNat 24 (Entry.w30 i.entry)
        ∧ (s.lig.lrdyHigh = false ∨ s.lig.open_ ≠ none ∨ (s.epoch? (Entry.w2C i.entry) = none ∧ m &&& s.lig.joined = m ∧ s.lig.initiating ≠ none)))
    ∧ (∃ (s : State) (f : Fetched) (t : State) (i : Item) (e : Epoch), s.Begins .epochResolve 0 f t i ∧ s.lig.state = 2 ∧ s.openEpoch? (Entry.w2C i.entry) = some e ∧
        e.state = 4 ∧ s.res.staged = [])
    ∧ (∃ (s : State) (f : Fetched) (t : State) (i : Item), s.Begins .epochResolve 0 f t i ∧ (∀ e, s.openEpoch? (Entry.w2C i.entry) = some e → e.state ≠ 4) ∧
        s.lig.state = 2) :=
  ⟨⟨{lug with lig.state := 1, nib.fetched := [fet 0 (cmd 0xA8 0 [(0x2C, 4, 5), (0x30, 4, 8)])]}, .epochCommit, (fet 0 (cmd 0xA8 0 [(0x2C, 4, 5), (0x30, 4, 8)])), _,
      _, begins_of (by decide +kernel), by decide +kernel⟩,
   ⟨{lug with lig.state := 1, nib.fetched := [fet 0 (cmd 0xA9 0 [(0x2C, 4, 5), (0x30, 1, 2)])]}, .epochResolve, (fet 0 (cmd 0xA9 0 [(0x2C, 4, 5), (0x30, 1, 2)])), _,
       _, begins_of (by decide +kernel), by decide +kernel⟩,
   ⟨{lug with nib.fetched := [fet 0 (cmd 0xA8 0 [(0x2C, 4, 5), (0x30, 4, 8)])]}, (fet 0 (cmd 0xA8 0 [(0x2C, 4, 5), (0x30, 4, 8)])), _, _, 8, begins_of (by
       decide +kernel), by decide +kernel⟩,
   ⟨{lug with nib.fetched := [fet 0 (cmd 0xA8 0 [(0x2C, 4, 5), (0x30, 4, 24)])]}, (fet 0 (cmd 0xA8 0 [(0x2C, 4, 5), (0x30, 4, 24)])), _, _, 24, begins_of (by
       decide +kernel), by decide +kernel⟩,
   ⟨{lug with lig.lrdyHigh := false, nib.fetched := [fet 0 (cmd 0xA8 0 [(0x2C, 4, 5), (0x30, 4, 8)])]}, (fet 0 (cmd 0xA8 0 [(0x2C, 4, 5), (0x30, 4, 8)])), _, _, 8,
       begins_of (by decide +kernel), by decide +kernel⟩,
   ⟨{lug with rec_.epochs := [epOf 5 4], nib.fetched := [fet 0 (cmd 0xA9 0 [(0x2C, 4, 5), (0x30, 1, 2)])]}, (fet 0 (cmd 0xA9 0 [(0x2C, 4, 5), (0x30, 1, 2)])), _, _,
       (epOf 5 4), begins_of (by decide +kernel), by decide +kernel⟩,
   ⟨{lug with nib.fetched := [fet 0 (cmd 0xA9 0 [(0x2C, 4, 5), (0x30, 1, 2)])]}, (fet 0 (cmd 0xA9 0 [(0x2C, 4, 5), (0x30, 1, 2)])), _, _, begins_of (by
       decide +kernel), (fun e h => by cases h), by decide +kernel⟩⟩

theorem test_meets_CommitFramesAreRuled :
    (∃ (s : State) (src : Nat) (n : Nat) (v : BitVec 29), s.running = true ∧ s.ligOn = true ∧ src ≠ s.own ∧ s.lig.state = 2 ∧ n = bits v.toNat 0 24)
    ∧ (∃ (s : State) (src : Nat) (n : Nat) (v : BitVec 29) (e : Nat), s.running = true ∧ s.ligOn = true ∧ src ≠ s.own ∧ s.lig.state = 2 ∧ n = bits v.toNat 0 24 ∧
        s.lig.held = some (src, e) ∧ s.canRule = true ∧ s.awake = true ∧ (BitVec.ofNat 24 n).getLsbD s.own = true ∧ s.openEpoch? e = none ∧ (∀ f ∈ s.lig.sendQ, f.typ
        ≠ 4) ∧ s.mismatch = false ∧ s.rst.io = true ∧ s.safe = false ∧ s.pwr.thermalSafe = false)
    ∧ (∃ (s : State) (src : Nat) (n : Nat) (v : BitVec 29) (e : Nat), s.running = true ∧ s.ligOn = true ∧ src ≠ s.own ∧ s.lig.state = 2 ∧ n = bits v.toNat 0 24 ∧
        s.lig.held = some (src, e) ∧ s.canRule = true ∧ s.awake = true ∧ (BitVec.ofNat 24 n).getLsbD s.own = true ∧ s.openEpoch? e = none ∧ (∀ f ∈ s.lig.sendQ, f.typ
        ≠ 4) ∧ s.mismatch = true)
    ∧ (∃ (s : State) (src : Nat) (n : Nat) (v : BitVec 29) (e : Nat), s.running = true ∧ s.ligOn = true ∧ src ≠ s.own ∧ s.lig.state = 2 ∧ n = bits v.toNat 0 24 ∧
        s.lig.held = some (src, e) ∧ (BitVec.ofNat 24 n).getLsbD s.own = false ∧ (∃ f ∈ s.lig.sendQ, f.typ = 4) ∧ s.nib.items = [] ∧ n ≠ 0 ∧ s.awake = true)
    ∧ (∃ (s : State) (src : Nat) (n : Nat) (v : BitVec 29) (o : Nat), s.running = true ∧ s.ligOn = true ∧ src ≠ s.own ∧ s.lig.state = 2 ∧ n = bits v.toNat 0 24 ∧
        s.lig.open_ = some (o, n) ∧ src < 24)
    ∧ (∃ (s : State) (src : Nat) (n : Nat) (v : BitVec 29) (o : Nat), s.running = true ∧ s.ligOn = true ∧ src ≠ s.own ∧ s.lig.state = 2 ∧ n = bits v.toNat 0 24 ∧
        s.lig.open_ = some (o, n))
    ∧ (∃ (s : State) (src : Nat) (n : Nat) (v : BitVec 29) (e : Epoch), (∀ x, s.lig.open_ = some x → x.2 = n) ∧ s.running = true ∧ s.ligOn = true ∧ src ≠ s.own ∧
        s.lig.state = 2 ∧ n = bits v.toNat 0 24 ∧ s.canRule = true ∧ s.awake = true ∧ s.mismatch = false ∧ s.openEpoch? n = some e ∧ 2 ≤ e.state ∧ s.nib.items = [] ∧
        s.res.staged = [])
    ∧ (∃ (s : State) (src : Nat) (n : Nat) (v : BitVec 29) (e : Epoch), (∀ x, s.lig.open_ = some x → x.2 = n) ∧ (∀ x, s.lig.initiating = some x → x.1 ≠ n) ∧
        s.running = true ∧ s.ligOn = true ∧ src ≠ s.own ∧ s.lig.state = 2 ∧ n = bits v.toNat 0 24 ∧ s.canRule = true ∧ s.awake = true ∧ s.mismatch = false ∧
        s.openEpoch? n = some e ∧ 2 ≤ e.state ∧ s.nib.items = [])
    ∧ (∃ (s : State) (src : Nat) (n : Nat) (v : BitVec 29), (∀ x, s.lig.initiating = some x → x.1 ≠ n) ∧ s.running = true ∧ s.ligOn = true ∧ src ≠ s.own ∧
        s.lig.state = 2 ∧ n = bits v.toNat 0 24 ∧ s.canRule = true ∧ s.awake = true ∧ (s.openEpoch? n = none ∨ s.mismatch = true) ∧ s.nib.items = [])
    ∧ (∃ (s : State) (src : Nat) (n : Nat) (v : BitVec 29), (∀ x, s.lig.initiating = some x → x.1 ≠ n) ∧ s.running = true ∧ s.ligOn = true ∧ src ≠ s.own ∧
        s.lig.state = 2 ∧ n = bits v.toNat 0 24 ∧ s.canRule = true ∧ s.awake = true ∧ (s.openEpoch? n = none ∨ s.mismatch = true) ∧ s.nib.items = [])
    ∧ (∃ (s : State) (src : Nat) (n : Nat) (v : BitVec 29) (e : Epoch), s.running = true ∧ s.ligOn = true ∧ src ≠ s.own ∧ s.lig.state = 2 ∧ n = bits v.toNat 0 24 ∧
        s.epoch? n = some e)
    ∧ (∃ (s : State) (src : Nat) (n : Nat) (v : BitVec 29) (e : Epoch), (∀ x, s.lig.initiating = some x → x.1 ≠ n) ∧ s.running = true ∧ s.ligOn = true ∧ src ≠ s.own
        ∧ s.lig.state = 2 ∧ n = bits v.toNat 0 24 ∧ s.canRule = true ∧ s.awake = true ∧ s.mismatch = false ∧ s.openEpoch? n = some e ∧ e.state = 3 ∧ bits v.toNat 24
        3 = 3 ∧ s.nib.items = [])
    ∧ (∃ (s : State) (src : Nat) (n : Nat) (v : BitVec 29) (e : Epoch), s.running = true ∧ s.ligOn = true ∧ src ≠ s.own ∧ s.lig.state = 2 ∧ n = bits v.toNat 0 24 ∧
        s.openEpoch? n = some e ∧ e.state = 3 ∧ bits v.toNat 24 3 < 2) :=
  ⟨⟨lug, 1, 8, 8, by decide +kernel⟩,
   ⟨{lug with lig.held := some (1, 5)}, 1, 8, 8, 5, by decide +kernel⟩,
   ⟨{lug with lig.held := some (1, 5), strap.state := 2}, 1, 8, 8, 5, by decide +kernel⟩,
   ⟨{lug with lig.held := some (1, 5), lig.sendQ := [⟨3, 4, 0⟩, ⟨3, 5, 0⟩]}, 1, 1, 1, 5, by decide +kernel⟩,
   ⟨{lug with lig.open_ := some (1, 8)}, 23, 8, 8, 1, by decide +kernel⟩,
   ⟨{lug with lig.open_ := some (1, 8)}, 1, 8, 8, 1, by decide +kernel⟩,
   ⟨{lug with rec_.epochs := [epOf 8 2]}, 1, 8, 8, (epOf 8 2), (fun x h => by cases h), by decide +kernel⟩,
   ⟨{lug with rec_.epochs := [epOf 8 4]}, 1, 8, 8, (epOf 8 4), (fun x h => by cases h), (fun x h => by cases h), by decide +kernel⟩,
   ⟨lug, 1, 8, 8, (fun x h => by cases h), by decide +kernel⟩,
   ⟨{lug with strap.state := 2, rec_.epochs := [epOf 8 4]}, 1, 8, 8, (fun x h => by cases h), by decide +kernel⟩,
   ⟨{lug with rec_.epochs := [epOf 8 5]}, 1, 8, 8, (epOf 8 5), by decide +kernel⟩,
   ⟨{lug with rec_.epochs := [epOf 8 3]}, 1, 8, 0x3000008, (epOf 8 3), (fun x h => by cases h), by decide +kernel⟩,
   ⟨{lug with rec_.epochs := [epOf 8 3]}, 1, 8, 0x1000008, (epOf 8 3), by decide +kernel⟩⟩

theorem test_meets_CommitStepsAreTimed :
    (∃ (s : State) (e : Epoch), s.running = true ∧ s.ligOn = true ∧ s.preparing = some e ∧ s.nib.unsettled = [])
    ∧ (∃ (s : State), s.running = true ∧ s.ligOn = true ∧ s.lig.pulls = true ∧ s.lig.open_ = none ∧ s.nib.items = [] ∧ s.nib.unsettled = [])
    ∧ (∃ (s : State) (n : Nat), s.running = true ∧ s.ligOn = true ∧ s.lig.pulls = false ∧ s.lig.initiating = some (n, 0) ∧ s.lig.open_ = some (s.own, n))
    ∧ (∃ (s : State) (n : Nat) (i : Item), s.running = true ∧ s.ligOn = true ∧ s.lig.pulls = false ∧ s.lig.initiating = some (n, 6) ∧ s.nib.items = [i] ∧
        Entry.opcode i.entry = 0xA8 ∧ i.wait = .ligature ∧ Entry.w2C i.entry = n)
    ∧ (∃ (s : State) (n : Nat), s.running = true ∧ s.ligOn = true ∧ s.lig.initiating = some (n, 0) ∧ s.lig.open_ = some (s.own, n))
    ∧ (∃ (s : State) (n : Nat) (i : Item) (e : Epoch), s.running = true ∧ s.lig.initiating = some (n, 6) ∧ s.nib.items = [i] ∧ Entry.opcode i.entry = 0xA8 ∧ i.wait =
        .ligature ∧ Entry.w2C i.entry = n ∧ s.rec_.epochs = [e] ∧ e.n = n)
    ∧ (∃ (s : State) (i : Nat) (n : Nat), s.leads = true ∧ s.lig.open_ = some (i, n) ∧ i ≠ s.own ∧ s.lig.leaderAsked = false)
    ∧ (∃ (s : State) (i : Nat) (n : Nat), s.leads = true ∧ s.lig.open_ = some (i, n) ∧ i ≠ s.own ∧ s.lig.leaderAsked = true)
    ∧ (∃ (s : State) (e : Epoch), s.running = true ∧ s.lig.state = 2 ∧ s.lig.lrdyHigh = true ∧ s.nib.items = [] ∧ s.rec_.epochs.find? (fun e => e.state = 3) = some e)
    ∧ (∃ (s : State) (n : Nat) (e : Epoch), s.running = true ∧ s.lig.state = 2 ∧ s.lig.querying = some n ∧ s.openEpoch? n = some e ∧ s.canRule = true ∧ s.awake =
        true ∧ s.mismatch = false ∧ s.rec_.epochs = [e] ∧ e.state = 4 ∧ s.doubtDecision e true = some false)
    ∧ (∃ (s : State) (n : Nat) (e : Epoch), s.running = true ∧ s.lig.state = 2 ∧ s.lig.querying = some n ∧ s.openEpoch? n = some e ∧ s.rec_.epochs = [e] ∧
        s.doubtDecision e true = none) :=
  ⟨⟨{lug with lig.open_ := some (1, 8), lig.pulls := true, rec_.epochs := [epOf 8 2]}, (epOf 8 2), by decide +kernel⟩,
   ⟨{lug with lig.pulls := true}, by decide +kernel⟩,
   ⟨{lug with lig.initiating := some (8, 0), lig.open_ := some (3, 8)}, 8, by decide +kernel⟩,
   ⟨{lug with lig.initiating := some (8, 6), nib.items := [itemOf 5 0 (cmd 0xA8 0 [(0x2C, 4, 8), (0x30, 4, 8)]) .ligature]}, 8, (itemOf 5 0 (cmd 0xA8 0 [(0x2C, 4,
       8), (0x30, 4, 8)]) .ligature), by decide +kernel⟩,
   ⟨{lug with lig.initiating := some (8, 0), lig.open_ := some (3, 8)}, 8, by decide +kernel⟩,
   ⟨{lug with lig.initiating := some (8, 6), nib.items := [itemOf 5 0 (cmd 0xA8 0 [(0x2C, 4, 8), (0x30, 4, 8)]) .ligature], rec_.epochs := [epOf 8 5]}, 8, (itemOf 5
       0 (cmd 0xA8 0 [(0x2C, 4, 8), (0x30, 4, 8)]) .ligature), (epOf 8 5), by decide +kernel⟩,
   ⟨{lead with lig.drivesLck := true, lig.open_ := some (1, 8)}, 1, 8, by decide +kernel⟩,
   ⟨{lead with lig.drivesLck := true, lig.leaderAsked := true, lig.open_ := some (1, 8)}, 1, 8, by decide +kernel⟩,
   ⟨{lug with rec_.epochs := [epOf 8 3]}, (epOf 8 3), by decide +kernel⟩,
   ⟨{lug with lig.querying := some 8, rec_.epochs := [epOf 8 4]}, 8, (epOf 8 4), by decide +kernel⟩,
   ⟨{lug with lig.querying := some 8, rec_.epochs := [{epOf 8 4 with members := 31}], lig.answers := [(0, 1), (1, 1), (2, 1)]}, 8, {epOf 8 4 with members := 31}, by
       decide +kernel⟩⟩

end Sys2Proof.Tests
end

section
/-! SUPPORT. How a block command begins (chapter 08): the blocks that a read gathers, one by one, and what the gathering leaves alone. -/

namespace Sys2Proof.Proofs

open Sys2Proof Sys2Proof.Machine Sys2Proof.Laws

/-- One block of a read: at hand, or read from its slot (R24, R240, R245). -/
def gatherBlock (i : Item) (s : State) (b : Nat) : State :=
  if s.atHand i b then (if (s.staged? b).isSome then s else useCached b s)
  else match s.map.lookup b with
    | some sl => startRd i.ruling b sl 0 0 s
    | none => s

theorem startRead_eq {i : Item} {s : State} {p : Part} (h : s.partOf i = some p) :
    startRead i s = readsDone i.ruling ((s.blocksRead i p).foldl (gatherBlock i) (setItem { i with wait := .data } s)) := by
  unfold startRead
  rw [h]
  rfl

/-- What the gathering of blocks makes of a state: die reads and operations of theirs are added, and the cache changes its order alone. -/
structure Gathered (a u : State) : Prop where
  eq : ∃ (l : List Nat) (rs : List Rd) (qs : List DieOp) (n : Nat) (h : List (Nat × Nat)),
    u = { a with ftl := { a.ftl with cache := l }
                 dies := { a.dies with reads := a.dies.reads ++ rs, queue := a.dies.queue ++ qs, nextRd := n, hostAt := h } }
      ∧ ∀ b, b ∈ l ↔ b ∈ a.ftl.cache

theorem Gathered.refl (a : State) : Gathered a a := ⟨a.ftl.cache, [], [], a.dies.nextRd, a.dies.hostAt, by simp, fun _ => Iff.rfl⟩

theorem Gathered.trans {a b c : State} (h : Gathered a b) (k : Gathered b c) : Gathered a c := by
  obtain ⟨l, rs, qs, n, g, rfl, hl⟩ := h
  obtain ⟨l', rs', qs', n', g', rfl, hl'⟩ := k
  exact ⟨l', rs ++ rs', qs ++ qs', n', g', by simp, fun b => (hl' b).trans (hl b)⟩

section
variable {a u : State} (h : Gathered a u)
include h

theorem Gathered.staged? (b : Nat) : u.staged? b = a.staged? b := by obtain ⟨_, _, _, _, _, rfl, _⟩ := h; rfl
theorem Gathered.map : u.map = a.map := by obtain ⟨_, _, _, _, _, rfl, _⟩ := h; rfl
theorem Gathered.nib : u.nib = a.nib := by obtain ⟨_, _, _, _, _, rfl, _⟩ := h; rfl
theorem Gathered.rst : u.rst = a.rst := by obtain ⟨_, _, _, _, _, rfl, _⟩ := h; rfl
theorem Gathered.cached (b : Nat) : b ∈ u.ftl.cache ↔ b ∈ a.ftl.cache := by obtain ⟨_, _, _, _, _, rfl, hl⟩ := h; exact hl b
theorem Gathered.dieOfSlot (n : Nat) : u.dieOfSlot n = a.dieOfSlot n := by obtain ⟨_, _, _, _, _, rfl, _⟩ := h; rfl
theorem Gathered.dieDead (d : Nat) : u.dieDead d = a.dieDead d := by obtain ⟨_, _, _, _, _, rfl, _⟩ := h; rfl
theorem Gathered.dies : u.dies.dies = a.dies.dies := by obtain ⟨_, _, _, _, _, rfl, _⟩ := h; rfl

theorem Gathered.reads {r : Rd} (m : r ∈ a.dies.reads) : r ∈ u.dies.reads := by
  obtain ⟨_, _, _, _, _, rfl, _⟩ := h; exact List.mem_append_left _ m

theorem Gathered.queue {o : DieOp} (m : o ∈ a.dies.queue) : o ∈ u.dies.queue := by
  obtain ⟨_, _, _, _, _, rfl, _⟩ := h; exact List.mem_append_left _ m

theorem Gathered.atHand (i : Item) (b : Nat) : u.atHand i b = a.atHand i b := by
  unfold State.atHand
  rw [h.staged?, decide_eq_decide.2 (h.cached b)]
end

theorem useCached_gathered (b : Nat) (s : State) : Gathered s (useCached b s) := by
  unfold useCached
  split
  · next hb =>
    refine ⟨b :: without b s.ftl.cache, [], [], s.dies.nextRd, s.dies.hostAt, by simp, fun x => ?_⟩
    by_cases e : x = b <;> simp [without, e, hb]
  · exact .refl s

theorem enqueue_gathered (ops : List DieOp) (s : State) : Gathered s (enqueue ops s) :=
  ⟨s.ftl.cache, [], ops.map (fun o => { o with since := s.rst.timeMs }), s.dies.nextRd, _, by simp only [List.append_nil]; rfl, fun _ => Iff.rfl⟩

/-- Die reads are listed, and their operations queued. -/
theorem listed_gathered (rs : List Rd) (n : Nat) (s : State) :
    Gathered s { s with dies := { s.dies with reads := s.dies.reads ++ rs, nextRd := n } } :=
  ⟨s.ftl.cache, rs, [], n, s.dies.hostAt, by simp, fun _ => Iff.rfl⟩

theorem startPeers_gathered (r : Rd) (s : State) : Gathered s (startPeers r s) :=
  (listed_gathered _ _ s).trans (enqueue_gathered _ _)

theorem startRd_gathered (ruling block slot cls use : Nat) (s : State) : Gathered s (startRd ruling block slot cls use s) := by
  unfold startRd startRdOn
  dsimp only
  split
  · exact (listed_gathered _ _ s).trans (enqueue_gathered _ _)
  · split
    · exact (listed_gathered _ _ s).trans (startPeers_gathered _ _)
    · exact listed_gathered _ _ s

theorem gatherBlock_gathered (i : Item) (s : State) (b : Nat) : Gathered s (gatherBlock i s b) := by
  unfold gatherBlock
  split
  · split
    · exact .refl s
    · exact useCached_gathered b s
  · split
    · exact startRd_gathered _ _ _ _ _ s
    · exact .refl s

theorem foldl_gatherBlock_gathered (i : Item) (l : List Nat) (s : State) : Gathered s (l.foldl (gatherBlock i) s) := by
  induction l generalizing s with
  | nil => exact .refl s
  | cons b bs ih => exact (gatherBlock_gathered i s b).trans (ih _)

/-- A block at hand or never written needs no die: at most the cache's order changes. -/
theorem gatherBlock_noDie {i : Item} {s : State} {b : Nat} (h : s.atHand i b = true ∨ s.map.lookup b = none) :
    ∃ l, gatherBlock i s b = { s with ftl := { s.ftl with cache := l } } ∧ (Entry.opcode i.entry = 0x05 → l = s.ftl.cache) := by
  unfold gatherBlock
  split
  · next ha =>
    split
    · exact ⟨s.ftl.cache, rfl, fun _ => rfl⟩
    · next hs =>
      refine ⟨_, (by unfold useCached; split <;> rfl : useCached b s = { s with ftl := { s.ftl with cache := (useCached b s).ftl.cache } }), fun hv => ?_⟩
      simp [State.atHand, hs, hv] at ha
  · next ha =>
    rw [h.resolve_left ha]
    exact ⟨s.ftl.cache, rfl, fun _ => rfl⟩

/-- Where no block needs a die, none is read. -/
theorem foldl_gatherBlock_noDie {i : Item} {l : List Nat} {s : State} (h : ∀ b ∈ l, s.atHand i b = true ∨ s.map.lookup b = none) :
    ∃ c, l.foldl (gatherBlock i) s = { s with ftl := { s.ftl with cache := c } } ∧ (∀ b, b ∈ c ↔ b ∈ s.ftl.cache)
      ∧ (Entry.opcode i.entry = 0x05 → c = s.ftl.cache) := by
  induction l generalizing s with
  | nil => exact ⟨s.ftl.cache, rfl, fun _ => Iff.rfl, fun _ => rfl⟩
  | cons b bs ih =>
    have g := gatherBlock_gathered i s b
    obtain ⟨c, hc, hv⟩ := gatherBlock_noDie (h b List.mem_cons_self)
    obtain ⟨c', hc', hm, hv'⟩ := ih (s := gatherBlock i s b) (fun x hx => by rw [g.atHand, g.map]; exact h x (List.mem_cons_of_mem _ hx))
    refine ⟨c', ?_, fun x => (hm x).trans (g.cached x), fun o => ?_⟩
    · rw [List.foldl_cons, hc', hc]
    · rw [hv' o, hc]; exact hv o

/-- A slot on a die that is in service and not slow is read once, by that die. -/
theorem startRd_reads {ruling block slot cls use : Nat} {s : State} (hd : s.dieDead (s.dieOfSlot slot) = false) (hs : ∀ x ∈ s.dies.dies, x.slow = false) :
    startRd ruling block slot cls use s
      = enqueue [{ die := s.dieOfSlot slot, cls := cls, kind := .read s.dies.nextRd, minRun := false }]
          { s with dies := { s.dies with reads := s.dies.reads ++ [newRd s.dies.nextRd ruling block slot (s.dieOfSlot slot) cls use s.nib.epoch], nextRd := s.dies.nextRd + 1 } } := by
  have slow : s.dies.dies.any (fun x => x.n = s.dieOfSlot slot && x.slow) = false := by
    rw [List.any_eq_false]; intro x hx; simp [hs x hx]
  unfold startRd startRdOn
  simp [hd, slow]

/-- The die read of a block, and its operation in the queue. -/
def ReadsBlock (i : Item) (b sl d now : Nat) (u : State) : Prop :=
  ∃ r ∈ u.dies.reads, r.ruling = i.ruling ∧ r.block = b ∧ r.slot = sl ∧ r.cls = 0 ∧ r.use = 0 ∧ r.done = false
    ∧ { die := d, cls := 0, kind := .read r.id, minRun := false, since := now } ∈ u.dies.queue

theorem ReadsBlock.gathered {i : Item} {b sl d now : Nat} {a u : State} (h : ReadsBlock i b sl d now a) (g : Gathered a u) : ReadsBlock i b sl d now u := by
  obtain ⟨r, hr, e1, e2, e3, e4, e5, e6, hq⟩ := h
  exact ⟨r, g.reads hr, e1, e2, e3, e4, e5, e6, g.queue hq⟩

/-- A block that is not at hand, with its slot on a die in service, is read from that die in class 0. -/
theorem foldl_gatherBlock_reads {i : Item} {l : List Nat} {s : State} {b sl : Nat} (hb : b ∈ l) (ha : s.atHand i b = false) (hm : s.map.lookup b = some sl)
    (hd : s.dieDead (s.dieOfSlot sl) = false) (hs : ∀ x ∈ s.dies.dies, x.slow = false) :
    ReadsBlock i b sl (s.dieOfSlot sl) s.rst.timeMs (l.foldl (gatherBlock i) s) := by
  induction l generalizing s with
  | nil => cases hb
  | cons x xs ih =>
    rcases List.mem_cons.1 hb with rfl | hx
    · refine ReadsBlock.gathered ?_ (foldl_gatherBlock_gathered i xs _)
      simp only [gatherBlock, ha, hm, Bool.false_eq_true, ↓reduceIte]
      rw [startRd_reads hd hs]
      exact ⟨newRd s.dies.nextRd i.ruling b sl (s.dieOfSlot sl) 0 0 s.nib.epoch, List.mem_append_right _ (List.mem_singleton.2 rfl), rfl, rfl, rfl, rfl, rfl, rfl,
        List.mem_append_right _ (List.mem_singleton.2 rfl)⟩
    · have g := gatherBlock_gathered i s x
      have := ih (s := gatherBlock i s x) hx (by rw [g.atHand]; exact ha) (by rw [g.map]; exact hm) (by rw [g.dieOfSlot, g.dieDead]; exact hd)
        (by rw [g.dies]; exact hs)
      rwa [g.dieOfSlot, g.rst] at this

end Sys2Proof.Proofs
end

section
/-! SUPPORT. How a block command begins (chapter 08): its item waits for its data, a read gathers its blocks, and what needs no die ends at once. -/

namespace Sys2Proof.Proofs

open Sys2Proof Sys2Proof.Machine Sys2Proof.Laws

/-! ## The opcodes -/

/-- The opcodes of the commands that read blocks. -/
def isReadOp (op : Nat) : Prop := op = 0x02 ∨ op = 0x05 ∨ op = 0x06 ∨ op = 0x07

/-- The blocks that such a command reads lie under a range lock. -/
theorem isReadOp.lock {op : Nat} (h : isReadOp op) : ∃ x, cmdInfo op = some x ∧ x.lock = 1 := by
  rcases h with rfl | rfl | rfl | rfl <;> exact ⟨_, rfl, rfl⟩

theorem isReadOp.ne_sanitize {op : Nat} (h : isReadOp op) : op ≠ 0x98 := by rcases h with rfl | rfl | rfl | rfl <;> decide

theorem isReadOp.begin {g : Given} {q : Nat} {s t : State} {f : Fetched} {i : Item} (h : isReadOp (Entry.opcode i.entry)) (a : s.Admits q f g t i) :
    begin i t = startRead i t := by
  rw [begin_admits a]
  rcases h with e | e | e | e <;> simp only [e]

theorem takes_write {q : Nat} {s : State} {f : Fetched} (h : s.Takes (.write q) q f) : Entry.opcode f.entry = 0x01 := by
  obtain ⟨k, hk, hf⟩ := h
  obtain ⟨-, rfl⟩ := by simpa [State.hostRow] using hk
  simpa [isOp] using hf

theorem takes_verify {q : Nat} {s : State} {f : Fetched} (h : s.Takes (.verify q) q f) : Entry.opcode f.entry = 0x05 := by
  obtain ⟨k, hk, hf⟩ := h
  obtain ⟨-, rfl⟩ := by simpa [State.hostRow] using hk
  simpa [isOp] using hf

/-- The rows that return blocks to the host. -/
theorem takes_read {c : Instr} {q : Nat} {s : State} {f : Fetched} (hc : c = .read q ∨ c = .planeRead q ∨ c = .precisionRead q) (h : s.Takes c q f) :
    isReadOp (Entry.opcode f.entry) ∧ Entry.opcode f.entry ≠ 0x05 := by
  obtain ⟨k, hk, hf⟩ := h
  rcases hc with rfl | rfl | rfl <;>
  · obtain ⟨-, rfl⟩ := by simpa [State.hostRow] using hk
    have op := of_decide_eq_true hf
    simp [op, isReadOp]

/-! ## The item of a command that begins -/

/-- The item of a command that begins, and what its admission has left alone. -/
structure Begun (s : State) (q : Nat) (f : Fetched) (t : State) (i : Item) : Prop where
  entry : i.entry = f.entry
  pair : i.q = q
  narrow : i.narrow = false
  out : t.out = []
  items : t.nib.items = s.nib.items ++ [i]
  fresh : ∀ j ∈ s.nib.items, j.ruling < i.ruling
  dies : t.dies = s.dies
  map : t.map = s.map
  rst : t.rst = s.rst

theorem begun_of_begins {c : Instr} {q : Nat} {s t : State} {f : Fetched} {i : Item} (h : s.Begins c q f t i) (ne : Entry.opcode f.entry ≠ 0x98) :
    Begun s q f t i := by
  obtain ⟨v, e, hd, a, w, p, x, y, z, rfl, he, hr, hn, hq, -, -, -, -, -, -, -, -, -, -, -, -, hj, -⟩ := begins_eq h ne
  exact ⟨he, hq, hn, rfl, rfl, hr ▸ hj, rfl, rfl, rfl⟩

/-- The state in which a command that has begun waits for its data, the blocks of the cache in some order. -/
def waitsForData (s t : State) (i : Item) (cache : List Nat) : State :=
  { t with nib := { t.nib with items := s.nib.items ++ [{ i with wait := .data }] }, ftl := { t.ftl with cache := cache } }

section
variable {s t : State} {q : Nat} {f : Fetched} {i : Item} (r : Begun s q f t i)
include r

theorem Begun.setItem : Machine.setItem { i with wait := .data } t = waitsForData s t i t.ftl.cache := by
  unfold Machine.setItem waitsForData
  rw [r.items]
  simp only [mapIf_append_ruling (i := i) (j := { i with wait := .data }) r.fresh rfl]

theorem Begun.item? (cache : List Nat) : (waitsForData s t i cache).item? i.ruling = some { i with wait := .data } :=
  find?_append_ruling (i := { i with wait := .data }) r.fresh rfl

theorem Begun.startWrite : Machine.startWrite i t = waitsForData s t i t.ftl.cache := by
  unfold Machine.startWrite
  simp only [r.narrow, Bool.false_and, Bool.false_eq_true, ↓reduceIte]
  exact r.narrow ▸ r.setItem

end

/-! ## The end of the gathering -/

/-- A die read of the command is still under way: nothing is done yet. -/
theorem readsDone_open {i : Item} {s : State} {b sl d now : Nat} (h : ReadsBlock i b sl d now s) : readsDone i.ruling s = s := by
  obtain ⟨r, hr, hi, -, -, -, hu, hd, -⟩ := h
  have : s.readsOpen i.ruling = true := List.any_eq_true.2 ⟨r, hr, by simp [hi, hu, hd]⟩
  unfold readsDone
  split
  · rfl
  · simp [this]

/-- No die read of the command under way: a poisoned block fails it, Verify succeeds, and any other waits for delivery. -/
theorem readsDone_eq {i : Item} {s : State} {p : Part} (hi : s.item? i.ruling = some i) (o : isReadOp (Entry.opcode i.entry)) (hw : i.wait = .data)
    (hn : i.narrow = false) (hp : s.partOf i = some p) (hr : s.readsOpen i.ruling = false) :
    readsDone i.ruling s = match s.poisonedRead i p with
      | some b => failData i { Fail.of 0x0C with block := some b } s
      | none => if Entry.opcode i.entry = 0x05 then succeed i (s.recovered i.ruling) s else s := by
  obtain ⟨x, hx, hl⟩ := o.lock
  unfold readsDone
  cases hb : s.poisonedRead i p <;> simp [hi, hw, hr, hx, hl, hp, hn, hb]

/-- Verify returns no data: its failure leaves no buffer undefined (R211). -/
theorem failData_verify {i : Item} (h : Entry.opcode i.entry = 0x05) (f : Fail) (s : State) : failData i f s = finish i f 0 s := by
  unfold failData undefineBuffer
  rw [h]; rfl

/-- The other commands that read blocks return them (R211). -/
theorem failData_read {i : Item} (o : isReadOp (Entry.opcode i.entry)) (hv : Entry.opcode i.entry ≠ 0x05) (hn : i.narrow = false) (f : Fail) (s : State) :
    failData i f s = finish i f 0 (emit (.undefinedBuffer i.q (Entry.cid i.entry)) s) := by
  unfold failData undefineBuffer
  rw [hn]
  rcases o with e | e | e | e
  · rw [e]; rfl
  · exact absurd e hv
  · rw [e]; rfl
  · rw [e]; rfl

section
variable {s t : State} {q : Nat} {f : Fetched} {i : Item} {p : Part} (r : Begun s q f t i) (hp : t.partOf i = some p)
include r hp

/-- Where no block needs a die, the read has all of them at hand at once. -/
theorem Begun.startRead_noDie (h : ∀ b ∈ t.blocksRead i p, t.atHand i b = true ∨ t.map.lookup b = none) :
    ∃ l, startRead i t = readsDone i.ruling (waitsForData s t i l) ∧ (∀ b, b ∈ l ↔ b ∈ t.ftl.cache) ∧ (Entry.opcode i.entry = 0x05 → l = t.ftl.cache) := by
  obtain ⟨l, e, hm, hv⟩ := foldl_gatherBlock_noDie (i := i) (l := t.blocksRead i p) (s := waitsForData s t i t.ftl.cache) h
  exact ⟨l, by rw [startRead_eq hp, r.setItem, e]; rfl, hm, hv⟩

/-- Every block in hand, no die read under way. -/
theorem Begun.readsDone (o : isReadOp (Entry.opcode i.entry)) (hr : s.dies.reads = []) (l : List Nat) :
    readsDone i.ruling (waitsForData s t i l) = match t.poisonedRead i p with
      | some b => failData { i with wait := .data } { Fail.of 0x0C with block := some b } (waitsForData s t i l)
      | none => if Entry.opcode i.entry = 0x05 then succeed { i with wait := .data } 0 (waitsForData s t i l) else waitsForData s t i l := by
  have noReads : (waitsForData s t i l).dies.reads = [] := by rw [← hr, ← r.dies]; rfl
  have closed : (waitsForData s t i l).readsOpen i.ruling = false := by unfold State.readsOpen; rw [noReads]; rfl
  have counted : (waitsForData s t i l).recovered i.ruling = 0 := by unfold State.recovered; rw [noReads]; rfl
  have done := readsDone_eq (i := { i with wait := .data }) (s := waitsForData s t i l) (r.item? l) o rfl r.narrow hp closed
  rw [counted] at done
  exact done

/-- A block not at hand, with its slot on a die in service, is read from that die; the command waits for it. -/
theorem Begun.startRead_reads {b sl : Nat} (hb : b ∈ t.blocksRead i p) (ha : t.atHand i b = false) (hm : t.map.lookup b = some sl)
    (hd : t.dieDead (t.dieOfSlot sl) = false) (hs : ∀ x ∈ t.dies.dies, x.slow = false) :
    ReadsBlock i b sl (t.dieOfSlot sl) s.rst.timeMs (startRead i t) ∧ (startRead i t).item? i.ruling = some { i with wait := .data }
      ∧ (startRead i t).map = s.map := by
  have rd := foldl_gatherBlock_reads (i := i) (s := waitsForData s t i t.ftl.cache) hb ha hm hd hs
  have g := foldl_gatherBlock_gathered i (t.blocksRead i p) (waitsForData s t i t.ftl.cache)
  have e : startRead i t = (t.blocksRead i p).foldl (gatherBlock i) (waitsForData s t i t.ftl.cache) := by
    rw [startRead_eq hp, r.setItem]; exact readsDone_open rd
  rw [e]
  refine ⟨r.rst ▸ rd, ?_, g.map.trans r.map⟩
  rw [← r.item? t.ftl.cache]; unfold State.item?; rw [g.nib]

end

theorem atHand_of_read {t : State} {i : Item} {b : Nat} (hv : Entry.opcode i.entry ≠ 0x05) (h : (t.staged? b).isSome = true ∨ b ∈ t.ftl.cache ∨ t.map.lookup b = none) :
    t.atHand i b = true ∨ t.map.lookup b = none := by
  rcases h with h | h | h
  · exact .inl (by simp [State.atHand, h])
  · exact .inl (by simp [State.atHand, h, hv])
  · exact .inr h

theorem atHand_of_staged {t : State} {i : Item} {b : Nat} (h : (t.staged? b).isSome = true ∨ t.map.lookup b = none) :
    t.atHand i b = true ∨ t.map.lookup b = none := h.imp_left fun h => by simp [State.atHand, h]

/-! ## The rows -/

/-- A Write waits for its data under its lock (R186). -/
theorem exec_write_begins {s t : State} {q : Nat} {f : Fetched} {i : Item} (h : s.Begins (.write q) q f t i) :
    exec (.write q) s = .next (settleUp (waitsForData s t i t.ftl.cache)) := by
  have op := takes_write h.2.1
  have r := begun_of_begins h (by rw [op]; decide)
  rw [exec_of_begins h, begin_admits h.2.2, ← r.startWrite]
  simp only [r.entry, op]

section
variable {s t : State} {c : Instr} {q : Nat} {f : Fetched} {i : Item} {p : Part} (h : s.Begins c q f t i) (o : isReadOp (Entry.opcode f.entry))
include h o

theorem exec_eq_startRead : exec c s = .next (settleUp (startRead i t)) := by
  rw [exec_of_begins h, isReadOp.begin ((begun_of_begins h o.ne_sanitize).entry ▸ o) h.2.2]

/-- A row that reads blocks none of which needs a die is at its outcome at once. -/
theorem exec_read_noDie (hp : t.partOf i = some p) (hr : s.dies.reads = []) (ha : ∀ b ∈ t.blocksRead i p, t.atHand i b = true ∨ t.map.lookup b = none) :
    ∃ l, (∀ b, b ∈ l ↔ b ∈ t.ftl.cache) ∧ (Entry.opcode i.entry = 0x05 → l = t.ftl.cache)
      ∧ (t.poisonedRead i p = none → Entry.opcode i.entry ≠ 0x05 → exec c s = .next (settleUp (waitsForData s t i l)))
      ∧ (t.poisonedRead i p = none → Entry.opcode i.entry = 0x05 →
        exec c s = .next (settleUp (succeed { i with wait := .data } 0 (waitsForData s t i l))))
      ∧ ∀ b, t.poisonedRead i p = some b →
        exec c s = .next (settleUp (failData { i with wait := .data } { Fail.of 0x0C with block := some b } (waitsForData s t i l))) := by
  have r := begun_of_begins h o.ne_sanitize
  obtain ⟨l, hl, hm, hv⟩ := r.startRead_noDie hp ha
  have e := exec_eq_startRead h o
  rw [hl, r.readsDone hp (r.entry ▸ o) hr] at e
  refine ⟨l, hm, hv, fun hb ne => ?_, fun hb eq => ?_, fun b hb => ?_⟩
  · rw [e, hb]; simp only [if_neg ne]
  · rw [e, hb]; simp only [if_pos eq]
  · rw [e, hb]

end

/-- Settles O26: Write takes its item to the wait for data; a read gathers its blocks one by one, and either no die is needed or the block's slot is read. -/
theorem blockCommandsBegin : Obligations.BlockCommandsBegin := by
  refine ⟨fun s q f t i h => exec_write_begins h, ?_, ?_, ?_, ?_, ?_⟩
  case refine_1 =>
    intro s c q f t i p hc h hp hr hb ha
    obtain ⟨o, hv⟩ := takes_read hc h.2.1
    have r := begun_of_begins h o.ne_sanitize
    rw [← r.entry] at hv
    obtain ⟨l, hm, -, wait, -⟩ := exec_read_noDie h o hp hr (fun b m => atHand_of_read hv (ha b m))
    exact ⟨l, wait hb hv, hm⟩
  case refine_2 =>
    intro s q f t i p h hp hr hb ha
    have op := takes_verify h.2.1
    have r := begun_of_begins h (by rw [op]; decide)
    obtain ⟨l, -, hl, -, done, -⟩ := exec_read_noDie h (.inr (.inl op)) hp hr (fun b m => atHand_of_staged (ha b m))
    rw [← r.entry] at op
    rw [done hb op, hl op]
    rfl
  case refine_3 =>
    intro s c q f t i p b sl hc h hp hb hst hca hm hd hs
    have o : isReadOp (Entry.opcode f.entry) := by
      rcases hc with rfl | rfl | hc
      · exact (takes_read (.inl rfl) h.2.1).1
      · exact .inr (.inl (takes_verify h.2.1))
      · exact (takes_read (.inr hc) h.2.1).1
    have r := begun_of_begins h o.ne_sanitize
    have ha : t.atHand i b = false := by
      rcases hca with hca | rfl
      · simp [State.atHand, hst, hca]
      · simp [State.atHand, hst, r.entry, takes_verify h.2.1]
    obtain ⟨⟨x, hx, e1, e2, e3, e4, -, e5, hq⟩, hi, hmap⟩ := r.startRead_reads hp hb ha hm hd hs
    exact ⟨startRead i t, x, exec_eq_startRead h o, hi, hx, e1, e2, e3, e4, e5, hq, hmap⟩
  case refine_4 =>
    intro s q f t i p b h hp hr hb ha
    have op := takes_verify h.2.1
    have r := begun_of_begins h (by rw [op]; decide)
    obtain ⟨l, -, hl, -, -, failed⟩ := exec_read_noDie h (.inr (.inl op)) hp hr (fun b m => atHand_of_staged (ha b m))
    rw [← r.entry] at op
    rw [failed b hb, failData_verify (i := { i with wait := .data }) op, hl op]
    rfl
  case refine_5 =>
    intro s c q f t i p b hc h hp hr hb ha
    obtain ⟨o, hv⟩ := takes_read hc h.2.1
    have r := begun_of_begins h o.ne_sanitize
    rw [← r.entry] at hv
    obtain ⟨l, hm, -, -, -, failed⟩ := exec_read_noDie h o hp hr (fun b m => atHand_of_read hv (ha b m))
    refine ⟨l, ?_, hm⟩
    rw [failed b hb, failData_read (i := { i with wait := .data }) (r.entry ▸ o) hv r.narrow]
    unfold emit waitsForData
    rw [← r.pair, r.out]
    rfl

end Sys2Proof.Proofs
end

section
/-! SUPPORT. What the fault collector's statement says of a stall between islands of which one is in local reset. -/

namespace Sys2Proof.Proofs

open Sys2Proof Sys2Proof.Machine Sys2Proof.Laws

/-- The settling work of a step leaves alone all that `Steady` names. -/
theorem settleUp_st {a s : State} (h : Steady a s) : Steady a (settleUp s) := by
  unfold settleUp
  split
  · exact ltrUpdate_st (actUpdate_st (endDrain_st (settleD3_st (endClear_st (poolUpdate_st
      (pruneVersions_st (progress_st (completePersistent_st (progress_st h)))))))))
  · exact h

theorem settleUp_flt (s : State) : (settleUp s).flt = s.flt := by
  have h := (settleUp_st (Steady.refl s)).eq
  simp only [outer, Prod.mk.injEq] at h
  obtain ⟨⟨-, -, -, -, flt, -⟩, -⟩ := h
  exact flt

/-- A stall whose requester is in local reset has no effect: the reset has ended the crossing and its timer (R20). -/
theorem exec_islandStall_of_held {s : State} {source requester : Nat} (h : s.islandUp requester = false) :
    exec (.islandStall source requester) s = .next (settleUp { s with out := [] }) := by
  change execIslandStall source requester s = _
  simp [execIslandStall, work, answer, onlyIf, h]

/-- In operation, every island released but that of the PCIe face, which a retry holds in local reset. -/
def hostRetried : State :=
  { State.reset with rst := { Rst.init with phase := .run, faultReleased := true
                                            islands := allIslands.map (fun j => (j, if j = .hostP then .retried else .released)) } }

/-- Refutes O52: an island stall against RES (06h) whose requester is the PCIe face's island (02h), in local reset, records nothing, since the crossing ended
with that reset (R20); the clause on island stalls asks nothing of the requester. -/
theorem not_faultsTakeTheirReactions : ¬ Obligations.FaultsTakeTheirReactions := by
  intro h
  obtain ⟨-, -, -, -, stall, -⟩ := h
  obtain ⟨u, b, rest, he, hb, -⟩ := stall hostRetried 0x06 0x02 .res (by decide) (by decide) (by decide) (by decide) (by simp) (by decide) (by decide)
    rfl rfl (by simp [hostRetried, State.reset, Nib.init])
  rw [exec_islandStall_of_held (by decide)] at he
  injection he with he
  have flt : hostRetried.flt = u.flt := by rw [← settleUp_flt u, ← he, settleUp_flt]
  rw [← flt] at hb
  exact absurd hb (by simp [hostRetried, State.reset, Flt.init])

end Sys2Proof.Proofs
end

section
/-! SUPPORT. Which operation a channel serves next, and what may start on a die (R26, R27, Table 10-7). -/

namespace Sys2Proof.Proofs

open Sys2Proof Sys2Proof.Machine Sys2Proof.Laws

/-- The operations of a channel's dies that can start, each with whether it suspends what runs. -/
def able (s : State) (c : Nat) : List (DieOp × Bool) :=
  s.dies.queue.filterMap (fun o => if dieChannel o.die = c then (s.canStart o).map (fun b => (o, b)) else none)

theorem mem_able {s : State} {c : Nat} {o : DieOp} {b : Bool} : (o, b) ∈ able s c ↔ o ∈ s.dies.queue ∧ dieChannel o.die = c ∧ s.canStart o = some b := by
  unfold able
  rw [List.mem_filterMap]
  constructor
  · rintro ⟨x, hx, e⟩
    split at e
    · next hc =>
      obtain ⟨y, hy, e⟩ := Option.map_eq_some_iff.1 e
      obtain ⟨rfl, rfl⟩ := Prod.mk.inj e
      exact ⟨hx, hc, hy⟩
    · cases e
  · rintro ⟨ho, hc, hb⟩
    exact ⟨o, ho, by simp [hc, hb]⟩

/-- The channel serves the first of the lowest class (R26, R27). -/
theorem nextOp_eq_argmin (s : State) (c : Nat) : s.nextOp c = (able s c).argmin (fun x => s.effClass x.1) := by
  unfold State.nextOp List.argmin
  change List.foldl _ none (able s c) = List.foldl _ none (able s c)
  congr 1
  funext acc x
  cases acc <;> rfl

theorem nextOp_least {s : State} {c : Nat} {o : DieOp} {b : Bool} (h : s.nextOp c = some (o, b)) :
    o ∈ s.dies.queue ∧ dieChannel o.die = c ∧ s.canStart o = some b
      ∧ ∀ x ∈ s.dies.queue, dieChannel x.die = c → s.canStart x ≠ none → s.effClass o ≤ s.effClass x := by
  rw [nextOp_eq_argmin] at h
  obtain ⟨hq, hc, hb⟩ := mem_able.1 (List.argmin_mem h)
  refine ⟨hq, hc, hb, fun x hx hxc hs => ?_⟩
  obtain ⟨y, hy⟩ := Option.ne_none_iff_exists'.1 hs
  exact List.le_of_mem_argmin (f := fun x : DieOp × Bool => s.effClass x.1) (mem_able.2 ⟨hx, hxc, hy⟩) h

/-- What an operation that starts finds on its die (Table 10-7): nothing running; or, for a read, reads of other planes, which it joins; or what its policy
suspends (R271, R283). -/
theorem canStart_cases {s : State} {o : DieOp} {b : Bool} (h : s.canStart o = some b) :
    (s.dieDead o.die = false ∧ (s.die o.die).resetWait = false ∧ s.channelUp (dieChannel o.die) = true ∧ s.holdsBack o = false)
      ∧ ((s.die o.die).active = none ∧ b = false
        ∨ ∃ a, (s.die o.die).active = some a
          ∧ (b = false ∧ o.kind.isRead = true ∧ a.kind.isRead = true ∧ (∀ q ∈ a :: (s.die o.die).more, s.opPlane q.kind ≠ s.opPlane o.kind)
            ∨ b = true ∧ s.suspendPolicy ≠ 0 ∧ (s.die o.die).susp.length < 2 ∧ s.suspendable a.kind = true)) := by
  unfold State.canStart at h
  dsimp only at h
  rw [Option.ite_none_left_eq_some, Option.ite_none_left_eq_some] at h
  obtain ⟨free, -, h⟩ := h
  refine ⟨by simp at free; tauto, ?_⟩
  cases active : (s.die o.die).active with
  | none =>
    rw [active] at h
    exact .inl ⟨rfl, by simpa using (Option.ite_none_right_eq_some.1 h).2.symm⟩
  | some a =>
    refine .inr ⟨a, rfl, ?_⟩
    rw [active] at h
    dsimp only at h
    by_cases reads : (o.kind.isRead && a.kind.isRead) = true
    · rw [if_pos reads, Option.ite_none_right_eq_some] at h
      obtain ⟨beside, h⟩ := h
      simp at reads beside h
      exact .inl ⟨h, reads.1, reads.2, by simpa using beside.2⟩
    · rw [if_neg reads] at h
      right
      split_ifs at h with unlimited nested erases
      · simp at unlimited h
        simp_all
      · simp at nested h
        simp_all
      · simp at erases h
        obtain ⟨⟨⟨⟨⟨⟨policy, -⟩, -⟩, -⟩, erase⟩, -⟩, susp⟩ := erases
        refine ⟨h, by simp [policy], by simp [susp], ?_⟩
        unfold State.suspendable
        cases kind : a.kind <;> simp [kind] at erase ⊢

/-- A test's operation holds back while host work is queued for its channel (R300). -/
theorem holdsBack_of_host {s : State} {o q : DieOp} (ht : s.isTest o.kind = true) (hq : q ∈ s.dies.queue) (hc : dieChannel q.die = dieChannel o.die)
    (h3 : q.cls < 3) : s.holdsBack o = true := by
  have : s.dies.queue.any (fun q => dieChannel q.die = dieChannel o.die && q.cls < 3) = true := List.any_eq_true.2 ⟨q, hq, by simp [hc, h3]⟩
  simp [State.holdsBack, ht, this]

/-- The class that an operation is served at (R27, R255, R312). -/
theorem effClass_eq (s : State) (o : DieOp) : (o.cls ≠ 3 → s.effClass o = o.cls) ∧ (o.cls = 3 → s.effClass o =
    if s.freeBands < s.reserveFloor ∧ s.empties forCollection o = true ∨ s.cacheSize + 8 ≤ s.cacheBands ∧ s.empties (· = 1) o = true
      ∨ s.raises (dieChannel o.die) = true ∧ s.empties forRebuild o = true then 2 else 3) := by
  unfold State.effClass State.foldUrgent
  refine ⟨fun h => if_pos h, fun h => ?_⟩
  rw [if_neg (not_not_intro h)]
  simp [or_assoc]

end Sys2Proof.Proofs
end

section
/-! SUPPORT. Dies and what is issued to them (R26, R271, R275, R283, R289). -/

namespace Sys2Proof.Proofs

open Sys2Proof Sys2Proof.Machine Sys2Proof.Laws

/-! ## Dies -/

@[simp] theorem die_n (s : State) (d : Nat) : (s.die d).n = d := by
  unfold State.die
  cases h : s.dies.dies.find? (fun x => x.n = d) with
  | none => rfl
  | some x => simpa using List.find?_some h

@[simp] theorem die_setDie (x : Die) (s : State) : (setDie x s).die x.n = x := by
  unfold setDie State.die
  dsimp only
  split
  · next idle =>
    rw [List.find?_eq_none.2 (by simp)]
    exact idle.symm
  · rw [List.find?_append, List.find?_eq_none.2 (by simp)]
    simp

/-- The die that has been set, where its number is written otherwise. -/
theorem die_setDie_of_n {x : Die} {d : Nat} (h : x.n = d) (s : State) : (setDie x s).die d = x := h ▸ die_setDie x s

@[simp] theorem setDie_cold (x : Die) (s : State) : (setDie x s).dies.cold = s.dies.cold := rfl

@[simp] theorem setDie_rd? (x : Die) (s : State) (n : Nat) : (setDie x s).rd? n = s.rd? n := rfl

@[simp] theorem die_modDie {d : Nat} {f : Die → Die} {s : State} (h : (f (s.die d)).n = d) : (modDie d f s).die d = f (s.die d) :=
  die_setDie_of_n h s

/-! ## The block state table (R275) -/

/-- A change of the member with some key, which leaves the keys alone, is a change of what is found under that key. -/
theorem find?_mapIf {α : Type} {key : α → Nat} {f : α → α} (hf : ∀ x, key (f x) = key x) (n : Nat) (l : List α) :
    (mapIf (fun x => key x = n) f l).find? (fun x => key x = n) = (l.find? (fun x => key x = n)).map f := by
  unfold mapIf
  rw [List.find?_map]
  have kept : ((fun x => decide (key x = n)) ∘ fun x => if decide (key x = n) = true then f x else x) = fun x => decide (key x = n) := by
    funext x
    by_cases e : key x = n <;> simp [e, hf]
  rw [kept]
  cases h : l.find? (fun x => key x = n) with
  | none => rfl
  | some x => simp [show key x = n by simpa using List.find?_some h]

theorem band?_modBlks (n : Nat) (p : Blk → Bool) (f : Blk → Blk) (s : State) :
    (modBlks n p f s).band? n = (s.band? n).map (fun b => { b with blks := mapIf p f b.blks }) :=
  find?_mapIf (key := Band.n) (f := fun b => { b with blks := mapIf p f b.blks }) (fun _ => rfl) n s.ftl.bands

/-- Every block of a band that a change picks out has the property that the change gives. -/
theorem modBlks_all {n : Nat} {p : Blk → Bool} {f : Blk → Blk} {s : State} {P : Blk → Prop} (yes : ∀ k, p k = true → P (f k)) (no : ∀ k, p k = false → P k) :
    ∀ x ∈ (modBlks n p f s).ftl.bands, x.n = n → ∀ k ∈ x.blks, P k := by
  intro x hx hn k hk
  simp only [modBlks, modBand, mapIf, List.mem_map] at hx
  obtain ⟨y, -, rfl⟩ := hx
  by_cases hy : y.n = n
  · rw [if_pos (decide_eq_true hy)] at hk
    obtain ⟨z, -, rfl⟩ := List.mem_map.1 hk
    split
    · next h => exact yes z h
    · next h => exact no z (by simpa using h)
  · rw [if_neg (by simpa using hy)] at hn
    exact absurd hn hy

/-- What a change of the block state table and of the programs may touch: the blocks and stamps, the programs, and a record of the log. -/
structure Marked (s t : State) : Prop where
  eq : ∃ (bands : List Band) (progs : List Prog) (l : MapLog), t = { s with ftl := { s.ftl with bands := bands, progs := progs }, log := l }

theorem Marked.refl (s : State) : Marked s s := ⟨s.ftl.bands, s.ftl.progs, s.log, rfl⟩

theorem Marked.trans {a b c : State} (h : Marked a b) (k : Marked b c) : Marked a c := by
  obtain ⟨x, y, z, rfl⟩ := h
  obtain ⟨x', y', z', rfl⟩ := k
  exact ⟨x', y', z', rfl⟩

theorem modBand_marked (n : Nat) (f : Band → Band) (s : State) : Marked s (modBand n f s) := ⟨_, s.ftl.progs, s.log, rfl⟩
theorem modProgs_marked (p : Prog → Bool) (f : Prog → Prog) (s : State) : Marked s (modProgs p f s) := ⟨s.ftl.bands, _, s.log, rfl⟩

@[simp] theorem noteBand_ftl (n : Nat) (s : State) : (noteBand n s).ftl = s.ftl := by
  unfold noteBand
  split <;> rfl

theorem noteBand_marked (n : Nat) (s : State) : Marked s (noteBand n s) := by
  unfold noteBand
  split
  · exact ⟨s.ftl.bands, s.ftl.progs, _, rfl⟩
  · exact .refl s

theorem beginProgram_marked (p : Prog) (d : Nat) (s : State) : Marked s (beginProgram p d s) := by
  unfold beginProgram
  split
  · dsimp only
    refine Marked.trans ?_ ((((modProgs_marked _ _ _).trans (modBand_marked _ _ _)).trans (modBand_marked _ _ _)))
    split
    · exact .refl s
    · exact (modProgs_marked _ _ _).trans (modBand_marked _ _ _)
  · exact .refl s

/-- The blocks of a band on a die that an erase puts in the state erasing. -/
def markErasing (n d : Nat) (s : State) : State := modBlks n (fun x => x.key / 4 = d && x.st ≠ .retired) (fun x => { x with st := .erasing }) s

/-- An erase marks its blocks; the band's first has the band state recorded (R275). -/
theorem markIssued_of_erase {o : DieOp} {n : Nat} (hk : o.kind = .erase n) (s : State) :
    markIssued o s = markErasing n o.die s ∨ markIssued o s = noteBand n (markErasing n o.die s) := by
  unfold markIssued
  rw [hk]
  dsimp only
  split
  · split
    · exact .inr rfl
    · exact .inl rfl
  · exact .inl rfl

theorem markIssued_marked (o : DieOp) (s : State) : Marked s (markIssued o s) := by
  cases k : o.kind with
  | erase n =>
    rcases markIssued_of_erase k s with e | e
    · rw [e]; exact modBand_marked _ _ s
    · rw [e]; exact (modBand_marked _ _ s).trans (noteBand_marked _ _)
  | program pg =>
    unfold markIssued
    rw [k]
    dsimp only
    split
    · exact beginProgram_marked _ _ s
    · exact .refl s
  | read n => unfold markIssued; rw [k]; exact .refl s
  | probe n => unfold markIssued; rw [k]; exact .refl s

theorem markIssued_read {o : DieOp} (h : o.kind.isRead = true) (s : State) : markIssued o s = s := by
  unfold markIssued
  cases k : o.kind <;> first | rfl | simp [k, OpKind.isRead, OpKind.readNo] at h

/-- The program of a data wordline leaves its die's blocks open at the wordline after it. -/
theorem markIssued_program {o : DieOp} {s : State} {pg : Nat} {p : Prog} (hk : o.kind = .program pg) (hp : s.prog? pg = some p) (hw : p.wl < 768) :
    ∀ x ∈ (markIssued o s).ftl.bands, x.n = p.band → ∀ k ∈ x.blks, k.key / 4 = o.die → k.st = .opened ∧ k.nextWl = p.wl + 1 := by
  unfold markIssued
  rw [hk]
  simp only [hp, beginProgram, if_pos hw]
  exact modBlks_all (P := fun k => k.key / 4 = o.die → k.st = .opened ∧ k.nextWl = p.wl + 1) (fun _ _ _ => ⟨rfl, rfl⟩) (fun k h e => by simp [e] at h)

/-- An erase leaves every block of its band on its die in the state erasing, or retired. -/
theorem markIssued_erase {o : DieOp} {s : State} {n : Nat} (hk : o.kind = .erase n) :
    ∀ x ∈ (markIssued o s).ftl.bands, x.n = n → ∀ k ∈ x.blks, k.key / 4 = o.die → k.st = .erasing ∨ k.st = .retired := by
  have all := modBlks_all (n := n) (s := s) (p := fun x => x.key / 4 = o.die && x.st ≠ .retired) (f := fun x => { x with st := .erasing })
    (P := fun k => k.key / 4 = o.die → k.st = .erasing ∨ k.st = .retired) (fun _ _ _ => .inl rfl) (fun k h e => .inr (by simpa [e] using h))
  rcases markIssued_of_erase hk s with e | e
  · rw [e]; exact all
  · rw [e, noteBand_ftl]; exact all

/-! ## Thresholds (R288, R289) -/

/-- The loading of thresholds touches the die reads alone. -/
theorem loadThresholds_eq (n : Nat) (s : State) : ∃ l, loadThresholds n s = { s with dies := { s.dies with reads := l } } := by
  unfold loadThresholds
  split
  · exact ⟨s.dies.reads, rfl⟩
  · exact ⟨_, rfl⟩

theorem rd?_modRd {f : Rd → Rd} (hf : ∀ x : Rd, (f x).id = x.id) (n : Nat) (s : State) : (modRd n f s).rd? n = (s.rd? n).map f :=
  find?_mapIf (key := Rd.id) hf n s.dies.reads

/-- At a temperature near the one that its zone was programmed at, a read has the offsets of its class for each of its senses, at the thresholds of its page;
the class it begins with is the computed or learned one. -/
theorem loadThresholds_near {s : State} {n z m : Nat} {r : Rd} {x : Band} {k : Blk} {y : ZoneTh} (hr : s.rd? n = some r) (hb : s.rdBlk r = some (x, k, z))
    (hy : k.zones.find? (fun y => y.zone = z) = some y) (near : (s.dieTemp r.die - y.temp).natAbs < 10)
    (hm : r.tried = [] ∧ m = s.classOf x k z ∨ ∃ l, r.tried = l ++ [m]) :
    ∃ w, (loadThresholds n s).rd? n = some w ∧ w.tried.getLast? = some m
      ∧ w.thr = (stepSenses r.step).map (fun d => (pageThresholds x.tlc (r.slot % bandSlots)).map (fun i =>
          (if x.tlc = true then (s.tableOf r.die).tlc.getD m [] else [(s.tableOf r.die).slc.getD m 0]).getD i 0 + d)) := by
  have tried : ∃ l, (if r.tried = [] then [s.startClass r] else r.tried) = l ++ [m] := by
    rcases hm with ⟨e, rfl⟩ | ⟨l, e⟩
    · exact ⟨[], by simp [e, State.startClass, hb]⟩
    · exact ⟨l, by simp [e]⟩
  obtain ⟨l, tried⟩ := tried
  have offsets : s.offsets x.tlc r.die m y.temp = if x.tlc = true then (s.tableOf r.die).tlc.getD m [] else [(s.tableOf r.die).slc.getD m 0] := by
    unfold State.offsets
    exact if_neg (by omega)
  unfold loadThresholds
  rw [hr]
  dsimp only
  rw [tried, hb]
  simp only [hy]
  rw [rd?_modRd (by intro; rfl), hr]
  refine ⟨_, rfl, by simp, ?_⟩
  simp only [List.getLastD_eq_getLast?, List.getLast?_concat, Option.getD_some, offsets, List.map_map]
  rfl

/-! ## Issue -/

/-- An operation on its die: it takes the place of what it suspends, joins the reads that run, or runs alone. -/
def issuedDie (x : Die) (o : DieOp) (suspends : Bool) (owed : List Nat) : Die :=
  match x.active, suspends with
  | some a, true => { x with active := some o, susp := a :: x.susp, owed := owed }
  | some _, false => { x with more := x.more ++ [o] }
  | none, _ => { x with active := some o }

section
variable (x : Die) (o : DieOp) (b : Bool) (owed : List Nat)

@[simp] theorem issuedDie_n : (issuedDie x o b owed).n = x.n := by unfold issuedDie; split <;> rfl

/-- The operation runs alone, or in the place of the one it suspends. -/
theorem issuedDie_alone (h : x.active = none ∨ b = true) : (issuedDie x o b owed).active = some o ∧ (issuedDie x o b owed).more = x.more := by
  unfold issuedDie
  rcases h with h | rfl
  · rw [h]; exact ⟨rfl, rfl⟩
  · cases x.active <;> exact ⟨rfl, rfl⟩

/-- The operation joins what runs. -/
theorem issuedDie_beside {a : DieOp} (h : x.active = some a) : (issuedDie x o false owed).active = some a ∧ (issuedDie x o false owed).more = x.more ++ [o] := by
  unfold issuedDie
  simp [h]

/-- What is suspended waits on the die. -/
theorem issuedDie_susp : (issuedDie x o b owed).susp = match b, x.active with | true, some a => a :: x.susp | _, _ => x.susp := by
  unfold issuedDie
  cases x.active <;> cases b <;> rfl

end

/-- The state beside the die when an operation is issued: it has left the queue, the block state table knows it, and a read has its thresholds. -/
def taken (o : DieOp) (s : State) : State :=
  let s := markIssued o { s with dies := { s.dies with queue := s.dies.queue.erase o } }
  match o.kind with | .read r => loadThresholds r (if o.cls = 0 then countReadData s else s) | _ => s

/-- The class 0 reads of a die that wait as an operation is issued to it (Table 10-7). -/
def waitingReads (s : State) (d : Nat) : List Nat := s.dies.queue.filterMap (fun q => if q.die = d && q.cls = 0 then q.kind.readNo else none)

/-- An operation is issued. -/
theorem issue_eq (o : DieOp) (b : Bool) (s : State) :
    ∃ y, issue o b s = setDie (issuedDie (s.die o.die) { o with raised := y } b (waitingReads s o.die)) (taken o s) := by
  refine ⟨(taken o s).effClass o < o.cls && (taken o s).empties forRebuild o, ?_⟩
  unfold issue issuedDie
  dsimp only
  cases (s.die o.die).active <;> cases b <;> rfl

/-- The thresholds of a read change no more than the die reads and what the power state counts. -/
theorem taken_eq (o : DieOp) (s : State) : ∃ bands progs log reads pwr,
    (markIssued o { s with dies := { s.dies with queue := s.dies.queue.erase o } }).ftl = { s.ftl with bands := bands, progs := progs }
      ∧ taken o s = { s with ftl := { s.ftl with bands := bands, progs := progs }, log := log
                             dies := { s.dies with queue := s.dies.queue.erase o, reads := reads }, pwr := pwr } := by
  obtain ⟨bands, progs, log, e⟩ := markIssued_marked o { s with dies := { s.dies with queue := s.dies.queue.erase o } }
  refine ⟨bands, progs, log, ?_⟩
  unfold taken
  rw [e]
  cases o.kind with
  | read n =>
    dsimp only
    generalize hu : (if o.cls = 0 then countReadData _ else _) = u
    obtain ⟨l, h⟩ := loadThresholds_eq n u
    rw [h, ← hu]
    split
    · exact ⟨l, _, rfl, rfl⟩
    · exact ⟨l, s.pwr, rfl, rfl⟩
  | _ => exact ⟨s.dies.reads, s.pwr, rfl, rfl⟩

/-- A read that is issued has its thresholds loaded, in a state that its own leaving of the queue, and the count of its data, have not made another one
for the flash. -/
theorem taken_read {o : DieOp} {n : Nat} (hk : o.kind = .read n) (s : State) : ∃ pwr,
    taken o s = loadThresholds n { s with dies := { s.dies with queue := s.dies.queue.erase o }, pwr := pwr } := by
  unfold taken
  rw [markIssued_read (by rw [hk]; rfl), hk]
  dsimp only
  split
  · exact ⟨_, rfl⟩
  · exact ⟨s.pwr, rfl⟩

/-- What the issue of an operation does to its die. -/
theorem die_issue (o : DieOp) (b : Bool) (s : State) :
    ∃ y, (issue o b s).die o.die = issuedDie (s.die o.die) { o with raised := y } b (waitingReads s o.die) := by
  obtain ⟨y, h⟩ := issue_eq o b s
  exact ⟨y, by rw [h]; exact die_setDie_of_n (by simp) _⟩

/-- What it leaves alone besides. -/
theorem issue_frame (o : DieOp) (b : Bool) (s : State) :
    (issue o b s).dies.queue = s.dies.queue.erase o ∧ (issue o b s).map = s.map ∧ (issue o b s).nib = s.nib ∧ (issue o b s).ftl.slots = s.ftl.slots := by
  obtain ⟨y, h⟩ := issue_eq o b s
  obtain ⟨_, _, _, _, _, -, e⟩ := taken_eq o s
  rw [h, e]
  exact ⟨rfl, rfl, rfl, rfl⟩

/-- The block state table after the issue. -/
theorem issue_ftl (o : DieOp) (b : Bool) (s : State) :
    (issue o b s).ftl = (markIssued o { s with dies := { s.dies with queue := s.dies.queue.erase o } }).ftl := by
  obtain ⟨y, h⟩ := issue_eq o b s
  obtain ⟨_, _, _, _, _, f, e⟩ := taken_eq o s
  rw [h, e, f]
  rfl

/-- The issue of a read or probe changes no more of the media's state than the die reads. -/
theorem issue_read {o : DieOp} (h : o.kind.isRead = true) (b : Bool) (s : State) : (issue o b s).ftl = s.ftl ∧ (issue o b s).log = s.log := by
  obtain ⟨y, e⟩ := issue_eq o b s
  have read : ∃ l pwr, taken o s = { s with dies := { s.dies with queue := s.dies.queue.erase o, reads := l }, pwr := pwr } := by
    cases k : o.kind with
    | read n =>
      obtain ⟨pwr, e⟩ := taken_read k s
      obtain ⟨l, f⟩ := loadThresholds_eq n { s with dies := { s.dies with queue := s.dies.queue.erase o }, pwr := pwr }
      exact ⟨l, pwr, e.trans f⟩
    | probe n =>
      refine ⟨s.dies.reads, s.pwr, ?_⟩
      unfold taken
      rw [markIssued_read h, k]
    | _ => simp [k, OpKind.isRead, OpKind.readNo] at h
  obtain ⟨l, pwr, f⟩ := read
  rw [e, f]
  exact ⟨rfl, rfl⟩

end Sys2Proof.Proofs
end

section
/-! SUPPORT. What the recording of a fault leaves alone, below the safe level (chapter 15): the media, the die operations, and the other blotter entries. -/

namespace Sys2Proof.Proofs

open Sys2Proof Sys2Proof.Machine Sys2Proof.Laws

/-! ## Completions -/

/-- What a completion leaves alone of the flash and of the fault collector. -/
def flash (s : State) := (s.map, s.ftl, s.rst, s.flt, s.dies)

theorem flash_post (o : Out) (s : State) : flash (post o s) = flash s := by unfold post; split <;> rfl
theorem flash_modPair (q : Nat) (f : Pair → Pair) (s : State) : flash (modPair q f s) = flash s := rfl

theorem flash_completeTask (e : Ending) (status result : Nat) (s : State) : flash (completeTask e status result s) = flash s := by
  have narrow : ∀ nb : Narrow, flash { s with nb := nb } = flash s := fun _ => rfl
  exact narrow _

theorem flash_sendMsix (v : Nat) (s : State) : flash (sendMsix v s) = flash s := by
  unfold sendMsix
  split
  · rfl
  split
  · rfl
  split
  · rfl
  · exact flash_post _ s

theorem flash_postCompletion (q cid result ruling status : Nat) (s : State) : flash (postCompletion q cid result ruling status s) = flash s := by
  unfold postCompletion
  split
  · rfl
  · exact (flash_sendMsix _ _).trans ((flash_modPair _ _ _).trans (flash_post _ s))

theorem flash_actUpdate (s : State) : flash (actUpdate s) = flash s := by
  unfold actUpdate
  split
  · rfl
  split
  · rfl
  split <;> rfl

theorem flash_complete (e : Ending) (f : Fail) (result : Nat) (s : State) : flash (complete e f result s) = flash s := by
  have logged : flash (if f.status = 0 then s else logError (e.err f) s) = flash s := by split <;> rfl
  unfold complete
  rw [flash_actUpdate]
  split
  · rw [flash_completeTask]; exact logged
  · rw [flash_postCompletion]
    split
    · exact (flash_modPair _ _ _).trans logged
    · exact logged

/-! ## The end of a command -/

/-- What the end of a command leaves alone; die reads may go, and none comes. -/
structure Quiet (a t : State) : Prop where
  map : t.map = a.map
  ftl : t.ftl = a.ftl
  rst : t.rst = a.rst
  blotter : t.flt.blotter = a.flt.blotter
  unack : t.flt.unack = a.flt.unack
  queue : t.dies.queue = a.dies.queue
  reads : ∀ r ∈ t.dies.reads, r ∈ a.dies.reads

theorem Quiet.refl (a : State) : Quiet a a := ⟨rfl, rfl, rfl, rfl, rfl, rfl, fun _ h => h⟩

theorem Quiet.trans {a b c : State} (h : Quiet a b) (k : Quiet b c) : Quiet a c :=
  ⟨k.map.trans h.map, k.ftl.trans h.ftl, k.rst.trans h.rst, k.blotter.trans h.blotter, k.unack.trans h.unack, k.queue.trans h.queue,
    fun r hr => h.reads r (k.reads r hr)⟩

theorem quiet_of_flash {a t : State} (h : flash t = flash a) : Quiet a t := by
  simp only [flash, Prod.mk.injEq] at h
  obtain ⟨map, ftl, rst, flt, dies⟩ := h
  exact ⟨map, ftl, rst, by rw [flt], by rw [flt], by rw [dies], by rw [dies]; exact fun _ hr => hr⟩

theorem removeItem_quiet (i : Item) (failed : Bool) (s : State) : Quiet s (removeItem i failed s) := by
  unfold removeItem
  dsimp only
  split <;> exact ⟨rfl, rfl, rfl, rfl, rfl, rfl, fun _ hr => (List.mem_filter.1 hr).1⟩

theorem finish_quiet (i : Item) (f : Fail) (result : Nat) (s : State) : Quiet s (finish i f result s) :=
  (removeItem_quiet i _ s).trans (quiet_of_flash (flash_complete _ _ _ _))

theorem failData_quiet (i : Item) (f : Fail) (s : State) : Quiet s (failData i f s) := by
  have undefined : flash (undefineBuffer i s) = flash s := by
    unfold undefineBuffer
    rw [apply_ite flash]
    exact ite_self _
  exact (quiet_of_flash undefined).trans (finish_quiet i f 0 _)

/-! ## Faults below the safe level -/

/-- Events are no business of what `Quiet` names. -/
theorem quiet_events (events : List Ev) (s : State) : Quiet s { s with flt := { s.flt with events := events } } :=
  ⟨rfl, rfl, rfl, rfl, rfl, rfl, fun _ h => h⟩

theorem deliverEvent_quiet (s : State) : Quiet s (deliverEvent s) := by
  unfold deliverEvent
  split
  · exact .refl s
  split
  · exact .refl s
  · exact (quiet_events _ s).trans (finish_quiet _ _ _ _)

theorem raiseEvent_quiet (cls level seq : Nat) (s : State) : Quiet s (raiseEvent cls level seq s) := by
  unfold raiseEvent
  exact (quiet_events _ s).trans (deliverEvent_quiet _)

/-- Copies that reach the AON tail touch AON alone. -/
theorem aonDrain_eq (s : State) : ∃ aon, aonDrain s = { s with aon := aon } := by
  unfold aonDrain
  split
  · exact ⟨_, rfl⟩
  · exact ⟨s.aon, rfl⟩

theorem addBlot_eq (kind cls level : Nat) (escalated : Bool) (source : Nat) (detail : BitVec 64) (s : State) :
    ∃ (b : Blot) (n : Nat) (aon : Aon), addBlot kind cls level escalated source detail false s
        = { s with flt := { s.flt with blotter := (b :: s.flt.blotter).take 32, nextSlot := n }, aon := aon }
      ∧ b.cls = cls ∧ b.level = level ∧ b.source = source := by
  unfold addBlot
  simp only [Bool.false_eq_true, ↓reduceIte]
  obtain ⟨aon, h⟩ := aonDrain_eq { s with
    flt := { s.flt with blotter := (_ :: s.flt.blotter).take 32, nextSlot := (s.flt.nextSlot + 1) % 32 }
    aon := { s.aon with nextSeq := (s.aon.nextSeq + 1) % 2 ^ 32, queue := aonEnqueue _ s.aon.queue } }
  exact ⟨_, _, _, h, rfl, rfl, rfl⟩

/-- The state of a fault recorded below the safe level: a blotter entry of its class, level and source, and all that `Quiet` names but the blotter. -/
structure Recorded (cls level source : Nat) (a t : State) : Prop where
  map : t.map = a.map
  ftl : t.ftl = a.ftl
  rst : t.rst = a.rst
  entry : ∃ f ∈ t.flt.blotter, f.cls = cls ∧ f.level = level ∧ f.source = source
  queue : t.dies.queue = a.dies.queue
  reads : ∀ r ∈ t.dies.reads, r ∈ a.dies.reads

theorem Recorded.quiet {cls level source : Nat} {a b c : State} (h : Recorded cls level source a b) (k : Quiet b c) : Recorded cls level source a c :=
  ⟨k.map.trans h.map, k.ftl.trans h.ftl, k.rst.trans h.rst, by rw [k.blotter]; exact h.entry, k.queue.trans h.queue, fun r hr => h.reads r (k.reads r hr)⟩

theorem Recorded.running {cls level source : Nat} {a t : State} (h : Recorded cls level source a t) : t.running = a.running := by
  unfold State.running; rw [h.rst]

theorem recordLevel_recorded {cls base level source cause : Nat} {detail : BitVec 64} {s : State} (stop : s.flt.stopping = false) (low : level < 4) :
    Recorded cls level source s (recordLevel cls base level source detail cause s) := by
  unfold recordLevel
  dsimp only
  obtain ⟨b, n, aon, e, cls', level', source'⟩ := addBlot_eq 0x01 cls level (level ≠ base) source detail
    { s with flt := { s.flt with counts := s.flt.counts.set cls (sat 32 (s.flt.counts.getD cls 0 + 1)) }
             health := { s.health with faults := s.health.faults.set cls (sat 32 (s.health.faults.getD cls 0 + 1)) } }
  rw [e]
  simp only [stop, Bool.false_eq_true, ↓reduceIte, if_neg (show ¬ level = 5 by omega), if_neg (show ¬ level = 4 by omega)]
  refine Recorded.quiet ?_ (raiseEvent_quiet _ _ _ _)
  exact ⟨rfl, rfl, rfl, ⟨b, by simp, cls', level', source'⟩, rfl, fun _ h => h⟩

/-- An acknowledgement leaves the entry in the blotter, its class, level and source as they were. -/
theorem acknowledge_recorded {cls level source : Nat} {a s : State} (host : Bool) (seq : Nat) (h : Recorded cls level source a s) :
    Recorded cls level source a (acknowledge host seq s) := by
  obtain ⟨f, hf, hc, hl, hs⟩ := h.entry
  refine ⟨h.map, h.ftl, h.rst, ⟨_, List.mem_map_of_mem hf, ?_⟩, h.queue, h.reads⟩
  split <;> exact ⟨hc, hl, hs⟩

theorem ackReaction_recorded {cls level source : Nat} {a s : State} (c src : Nat) (h : Recorded cls level source a s) :
    Recorded cls level source a (ackReaction c src s) := by
  unfold ackReaction
  exact List.foldlRecOn _ _ h (fun _ k u _ => acknowledge_recorded false u.seq k)

/-- With no fault unacknowledged a fault has the level of its class (R401). -/
theorem levelFor_of_unack_nil {s : State} (h : s.flt.unack = []) (cls base : Nat) : s.levelFor cls base = base := by
  unfold State.levelFor; rw [h]; rfl

end Sys2Proof.Proofs
end

section
/-! SUPPORT. What a channel's dispatch does (R26, R276, R282, R381): it resets a cold die, issues the next operation, or meets a refusal. -/

namespace Sys2Proof.Proofs

open Sys2Proof Sys2Proof.Machine Sys2Proof.Laws

/-! ## The row -/

theorem exec_channelDispatch {s : State} (h : s.running = true) (c : Nat) : exec (.channelDispatch c) s = .next (dispatch c { s with out := [] }) := by
  change execChannelDispatch c s = _
  simp [execChannelDispatch, answer, onlyIf, h]

/-- The Opened page touches the map log and the ceiling alone (R329, R332). -/
theorem openMedia_eq (s : State) : ∃ log ceiling, openMedia s = { s with log := log, nib := { s.nib with ceiling := ceiling } } := by
  unfold openMedia
  split
  · exact ⟨_, _, rfl⟩
  · exact ⟨s.log, s.nib.ceiling, rfl⟩

/-- The state in which an operation is issued: a program or an erase changes the media, and has the Opened page before it. -/
def opened (o : DieOp) (s : State) : State := if o.kind.isRead then s else openMedia s

theorem opened_read {o : DieOp} (h : o.kind.isRead = true) (s : State) : opened o s = s := if_pos h

/-- What the Opened page leaves alone. -/
theorem opened_frame (o : DieOp) (s : State) :
    (opened o s).dies = s.dies ∧ (opened o s).ftl = s.ftl ∧ (opened o s).map = s.map ∧ (opened o s).nib.items = s.nib.items := by
  obtain ⟨log, ceiling, e⟩ := openMedia_eq s
  unfold opened
  split
  · exact ⟨rfl, rfl, rfl, rfl⟩
  · rw [e]; exact ⟨rfl, rfl, rfl, rfl⟩

section
variable {s : State} {c : Nat} {o : DieOp} {b : Bool} (h : s.nextOp c = some (o, b))
include h

theorem dispatch_cold (hc : o.die ∈ s.dies.cold) :
    dispatch c s = modDie o.die (fun x => { x with resetWait := true }) { s with dies := { s.dies with cold := without o.die s.dies.cold } } := by
  unfold dispatch
  simp only [h, if_pos hc]

variable (hc : o.die ∉ s.dies.cold)
include hc

theorem dispatch_issue (hg : s.gateFor o = none) (hp : s.programAllowed o = true) : dispatch c s = issue o b (opened o s) := by
  unfold dispatch
  simp only [h, if_neg hc, hg, if_pos hp]
  rfl

theorem dispatch_gate {i : Item} (hg : s.gateFor o = some i) : dispatch c s = refuseRead i s := by
  unfold dispatch
  simp only [h, if_neg hc, hg]

theorem dispatch_refused (hg : s.gateFor o = none) (hp : s.programAllowed o = false) : dispatch c s = refuseProgram c o s := by
  unfold dispatch
  simp [h, if_neg hc, hg, hp]

end

/-! ## A read that the gate refuses (R383) -/

theorem gateFault_recorded {source partition well ruling : Nat} {s : State} (hr : s.running = true) (hu : s.flt.unack = []) (stop : s.flt.stopping = false) :
    Recorded 14 1 source s (gateFault source partition well ruling s) := by
  have level := levelFor_of_unack_nil hu 14 1
  have noted := recordLevel_recorded (cls := 14) (base := 1) (level := 1) (source := source) (cause := 2)
    (detail := BitVec.ofNat 64 (partition % 256 + 256 * (well % 256))) stop (by decide)
  have run := noted.running.trans hr
  have acked := ackReaction_recorded 14 source noted
  unfold gateFault recordFault
  simp only [level, run, Bool.not_true, Bool.false_eq_true, ↓reduceIte, Nat.reduceLeDiff]
  split
  · exact acked.quiet (failData_quiet _ _ _)
  · exact acked

/-- The refusal is FC14, and none of the command's die reads is left. -/
theorem refuseRead_recorded {i : Item} {s : State} (hr : s.running = true) (hu : s.flt.unack = []) (stop : s.flt.stopping = false) :
    (∃ f ∈ (refuseRead i s).flt.blotter, f.cls = 14 ∧ f.level = 1 ∧ f.source = if i.fast = true then 0x1B else 0x07)
      ∧ (∀ r ∈ (refuseRead i s).dies.reads, ¬ (r.use = 0 ∧ r.ruling = i.ruling)) ∧ (refuseRead i s).ftl = s.ftl ∧ (refuseRead i s).map = s.map := by
  have noted : Recorded 14 1 (if i.fast = true then 0x1B else 0x07) _ (refuseRead i s) := gateFault_recorded hr hu stop
  refine ⟨noted.entry, fun r hr => ?_, noted.ftl, noted.map⟩
  have kept := noted.reads r hr
  simp only [List.mem_filter, decide_eq_true_eq, Bool.and_eq_true] at kept
  exact fun mine => kept.2 ⟨kept.1, mine⟩

/-! ## A program that the block state table refuses (R276) -/

theorem programAllowed_of_ftl {s t : State} (h : t.ftl = s.ftl) (o : DieOp) : t.programAllowed o = s.programAllowed o := by
  unfold State.programAllowed State.prog? State.band?
  rw [h]

/-- The loading again of a band's entries changes the blocks of the band alone. -/
theorem reloadBlks_eq (o : DieOp) (s : State) : ∃ bands, reloadBlks o s = { s with ftl := { s.ftl with bands := bands } } := by
  unfold reloadBlks
  split
  · exact ⟨s.ftl.bands, rfl⟩
  · exact ⟨_, rfl⟩

/-- The state in which a refused program is back at the queue's end, with the entries of its band loaded again. -/
def reloaded (o : DieOp) (s : State) : State := reloadBlks o { s with dies := { s.dies with queue := s.dies.queue.erase o ++ [o] } }

/-- The refusal is FC10 against the channel. -/
theorem refuseProgram_recorded {c : Nat} {o : DieOp} {s : State} (hr : s.running = true) (hu : s.flt.unack = []) (stop : s.flt.stopping = false) :
    Recorded 10 2 (0x20 + c) (reloaded o s) (refuseProgram c o s) := by
  obtain ⟨bands, e⟩ := reloadBlks_eq o { s with dies := { s.dies with queue := s.dies.queue.erase o ++ [o] } }
  have flt : (reloaded o s).flt = s.flt := by unfold reloaded; rw [e]
  have rst : (reloaded o s).rst = s.rst := by unfold reloaded; rw [e]
  have level := levelFor_of_unack_nil hu 10 2
  have level' := levelFor_of_unack_nil (s := reloaded o s) (by rw [flt, hu]) 10 2
  have noted := recordLevel_recorded (s := reloaded o s) (cls := 10) (base := 2) (level := 2) (source := 0x20 + c) (cause := 2)
    (detail := BitVec.ofNat 64 (0x20 + c)) (by rw [flt, stop]) (by decide)
  have stall : recordStall 10 2 (0x20 + c) (0x20 + c) (reloaded o s) = recordLevel 10 2 2 (0x20 + c) (BitVec.ofNat 64 (0x20 + c)) 2 (reloaded o s) := by
    unfold recordStall
    simp [level']
  have run : (recordLevel 10 2 2 (0x20 + c) (BitVec.ofNat 64 (0x20 + c)) 2 (reloaded o s)).running = true := by
    rw [noted.running]; unfold State.running; rw [rst]; exact hr
  have refused : refuseProgram c o s = ackReaction 10 (0x20 + c) (recordLevel 10 2 2 (0x20 + c) (BitVec.ofNat 64 (0x20 + c)) 2 (reloaded o s)) := by
    change (let t := recordStall 10 2 (0x20 + c) (0x20 + c) (reloaded o s)
      if !t.running then t else if 3 ≤ s.levelFor 10 2 then failChannel c t else ackReaction 10 (0x20 + c) t) = _
    rw [stall, level]
    simp [run]
  rw [refused]
  exact ackReaction_recorded 10 (0x20 + c) noted

section
variable {o : DieOp} {s : State} {pg : Nat} {p : Prog} {x : Band} (hk : o.kind = .program pg) (hp : s.prog? pg = some p) (hx : s.band? p.band = some x)
  (noRec : s.bandRec p.band = none)
include hk hp hx noRec

/-- With no record of the band in the log, state and mode stay, and the wordlines are those at which the band's programs stand. -/
theorem reloadBlks_noRec :
    reloadBlks o s = modBlks p.band (fun k => k.st ≠ .retired) (fun k => { k with nextWl := s.wordlineOn x (k.key / 4) }) s := by
  have hn : x.n = p.band := by simpa using List.find?_some hx
  unfold reloadBlks
  rw [hk]
  simp only [hp, Option.bind_some, hx, hn, noRec]
  rfl

/-- Where besides the band has one program, that waits for the die, and the die's blocks are erased or open in its mode, the program then passes. -/
theorem reloadBlks_allows (only : s.ftl.progs = [p]) (hw : o.die ∈ p.wait)
    (blocks : ∀ k ∈ x.on o.die, (k.st = .erased ∨ k.st = .opened) ∧ k.tlc = p.tlc) : (reloadBlks o s).programAllowed o = true := by
  have hn : x.n = p.band := by simpa using List.find?_some hx
  have place : s.wordlineOn x o.die = p.place := by
    unfold State.wordlineOn
    rw [only]
    simp [hn, hw]
  rw [reloadBlks_noRec hk hp hx noRec]
  have prog : (modBlks p.band (fun k => k.st ≠ .retired) (fun k => { k with nextWl := s.wordlineOn x (k.key / 4) }) s).prog? pg = some p := hp
  unfold State.programAllowed
  simp only [hk, prog, band?_modBlks, hx, Option.map_some, List.all_eq_true]
  intro k mem
  obtain ⟨mem, die⟩ := List.mem_filter.1 mem
  obtain ⟨y, hy, rfl⟩ := List.mem_map.1 mem
  have key : y.key / 4 = o.die := by
    split at die <;> exact of_decide_eq_true die
  obtain ⟨st, tlc⟩ := blocks y (List.mem_filter.2 ⟨hy, decide_eq_true key⟩)
  have live : y.st ≠ .retired := by rcases st with e | e <;> simp [e]
  simp [live, st, tlc, key, place]

end

end Sys2Proof.Proofs
end

section
/-! SUPPORT. The statement on how channels serve their dies (O47), clause by clause. -/

namespace Sys2Proof.Proofs

open Sys2Proof Sys2Proof.Machine Sys2Proof.Laws

/-! ## Suspended operations (R283) -/

/-- Under the nested policy a die that runs nothing and is owed no read resumes its innermost suspended operation, for a minimum run. -/
theorem resumeDie_nested {s : State} {d : Nat} {a : DieOp} {rest : List DieOp} (hp : s.suspendPolicy = 2) (ha : (s.die d).active = none)
    (hs : (s.die d).susp = a :: rest) (ho : (s.die d).owed = []) :
    (resumeDie d s).die d = { s.die d with active := some { a with minRun := true }, susp := rest } ∧ (resumeDie d s).dies.queue = s.dies.queue
      ∧ (resumeDie d s).ftl = s.ftl := by
  have resumed : resumeDie d s = setDie { s.die d with active := some { a with minRun := true }, susp := rest } s := by
    unfold resumeDie
    simp [ha, hs, ho, hp]
  rw [resumed]
  exact ⟨die_setDie_of_n (by exact die_n s d) s, rfl, rfl⟩

/-- The limit of the nested policy, on a die that runs nothing: no read is owed any more. -/
theorem resumeDie_atLimit {s : State} {d : Nat} {a : DieOp} {rest : List DieOp} (hp : s.suspendPolicy = 2) (ha : (s.die d).active = none)
    (hs : (s.die d).susp = a :: rest) :
    ((resumeDie d (modDie d (fun x => { x with owed := [] }) s)).die d).active = some { a with minRun := true }
      ∧ ((resumeDie d (modDie d (fun x => { x with owed := [] }) s)).die d).susp = rest
      ∧ (resumeDie d (modDie d (fun x => { x with owed := [] }) s)).dies.queue = s.dies.queue
      ∧ (resumeDie d (modDie d (fun x => { x with owed := [] }) s)).ftl = s.ftl := by
  have die := die_modDie (f := fun x => { x with owed := [] }) (die_n s d)
  obtain ⟨resumed, queue, ftl⟩ := resumeDie_nested (s := modDie d (fun x => { x with owed := [] }) s) hp (by rw [die]; exact ha) (by rw [die]; exact hs)
    (by rw [die])
  exact ⟨by rw [resumed], by rw [resumed], queue, ftl⟩

/-- The end of a minimum run. -/
theorem modDie_minRun {s : State} {d : Nat} {a : DieOp} (ha : (s.die d).active = some a) :
    ((modDie d (fun x => { x with active := x.active.map (fun (o : DieOp) => { o with minRun := false }) }) s).die d).active = some { a with minRun := false } := by
  rw [die_modDie (die_n s d), ha]
  rfl

theorem exec_nestedSuspendLimit {s : State} (hr : s.running = true) (hp : s.suspendPolicy = 2) (d : Nat) :
    exec (.nestedSuspendLimit d) s = .next (resumeDie d (modDie d (fun x => { x with owed := [] }) { s with out := [] })) := by
  change execNestedSuspendLimit d s = _
  unfold execNestedSuspendLimit answer onlyIf
  rw [if_pos (by simp [State.mediaOn, hr, hp])]

theorem exec_minimumRunAfterResumeExpiry {s : State} (hr : s.running = true) (d : Nat) :
    exec (.minimumRunAfterResumeExpiry d) s
      = .next (modDie d (fun x => { x with active := x.active.map (fun (o : DieOp) => { o with minRun := false }) }) { s with out := [] }) := by
  change execMinimumRunAfterResumeExpiry d s = _
  unfold execMinimumRunAfterResumeExpiry answer onlyIf
  rw [if_pos (by simp [State.mediaOn, hr])]

/-! ## What is dispatched -/

section
variable {s : State} {c : Nat} {o : DieOp} {b : Bool}

/-- An operation that nothing refuses is issued: its die, the queue, and what stays. -/
theorem dispatch_issues (h : s.nextOp c = some (o, b)) (hc : o.die ∉ s.dies.cold) (hg : s.gateFor o = none) (hp : s.programAllowed o = true) :
    (dispatch c s).dies.queue = s.dies.queue.erase o
      ∧ (∃ y, (dispatch c s).die o.die = issuedDie (s.die o.die) { o with raised := y } b (waitingReads s o.die))
      ∧ (dispatch c s).map = s.map ∧ (dispatch c s).nib.items = s.nib.items ∧ (dispatch c s).ftl.slots = s.ftl.slots
      ∧ (o.kind.isRead = true → (dispatch c s).ftl = s.ftl ∧ (dispatch c s).log = s.log)
      ∧ (∀ pg p, o.kind = .program pg → s.prog? pg = some p → p.wl < 768 → ∀ x ∈ (dispatch c s).ftl.bands, x.n = p.band → ∀ k ∈ x.blks,
        k.key / 4 = o.die → k.st = .opened ∧ k.nextWl = p.wl + 1)
      ∧ (∀ n, o.kind = .erase n → ∀ x ∈ (dispatch c s).ftl.bands, x.n = n → ∀ k ∈ x.blks, k.key / 4 = o.die → k.st = .erasing ∨ k.st = .retired) := by
  rw [dispatch_issue h hc hg hp]
  obtain ⟨dies, ftl, map, items⟩ := opened_frame o s
  obtain ⟨queue, map', nib, slots⟩ := issue_frame o b (opened o s)
  have die : (opened o s).die o.die = s.die o.die := by unfold State.die; rw [dies]
  have waiting : waitingReads (opened o s) o.die = waitingReads s o.die := by unfold waitingReads; rw [dies]
  refine ⟨by rw [queue, dies], ?_, by rw [map', map], by rw [nib, items], by rw [slots, ftl], fun hr => ?_, fun pg p hk hq => ?_, fun n hk => ?_⟩
  · obtain ⟨y, e⟩ := die_issue o b (opened o s)
    exact ⟨y, by rw [e, die, waiting]⟩
  · rw [opened_read hr]; exact issue_read hr b s
  · rw [issue_ftl]
    have prog : (opened o s).prog? pg = some p := by rw [← hq]; unfold State.prog?; rw [ftl]
    exact markIssued_program hk prog
  · rw [issue_ftl]; exact markIssued_erase hk

/-- A read that is issued has its thresholds (R289). -/
theorem dispatch_read {n z m : Nat} {r : Rd} {x : Band} {k : Blk} {y : ZoneTh} (h : s.nextOp c = some (o, b)) (hc : o.die ∉ s.dies.cold)
    (hg : s.gateFor o = none) (hk : o.kind = .read n) (hr : s.rd? n = some r) (hb : s.rdBlk r = some (x, k, z))
    (hy : k.zones.find? (fun y => y.zone = z) = some y) (near : (s.dieTemp r.die - y.temp).natAbs < 10)
    (hm : r.tried = [] ∧ m = s.classOf x k z ∨ ∃ l, r.tried = l ++ [m]) :
    ∃ w, (dispatch c s).rd? n = some w ∧ w.tried.getLast? = some m
      ∧ w.thr = (stepSenses r.step).map (fun d => (pageThresholds x.tlc (r.slot % bandSlots)).map (fun i =>
          (if x.tlc = true then (s.tableOf r.die).tlc.getD m [] else [(s.tableOf r.die).slc.getD m 0]).getD i 0 + d)) := by
  have pass : s.programAllowed o = true := by unfold State.programAllowed; rw [hk]
  obtain ⟨raised, e⟩ := issue_eq o b s
  obtain ⟨pwr, f⟩ := taken_read hk s
  rw [dispatch_issue h hc hg pass, opened_read (by rw [hk]; rfl), e, setDie_rd?, f]
  exact loadThresholds_near (s := { s with dies := { s.dies with queue := s.dies.queue.erase o }, pwr := pwr }) hr hb hy near hm

/-- A die that has not been reset since the start is reset before its first operation (R282). -/
theorem dispatch_resets (h : s.nextOp c = some (o, b)) (hc : o.die ∈ s.dies.cold) :
    ((dispatch c s).die o.die).resetWait = true ∧ o.die ∉ (dispatch c s).dies.cold ∧ (dispatch c s).dies.queue = s.dies.queue
      ∧ ((dispatch c s).die o.die).active = (s.die o.die).active ∧ (dispatch c s).ftl = s.ftl := by
  have die := die_modDie (d := o.die) (f := fun x => { x with resetWait := true })
    (s := { s with dies := { s.dies with cold := without o.die s.dies.cold } }) (die_n s o.die)
  rw [dispatch_cold h hc]
  refine ⟨by rw [die], ?_, rfl, by rw [die]; rfl, rfl⟩
  simp [modDie, without]

/-- A program that the block state table refuses is dispatched again, with FC10 (R276). -/
theorem dispatch_refuses {pg : Nat} {p : Prog} (h : s.nextOp c = some (o, b)) (hc : o.die ∉ s.dies.cold) (hr : s.running = true)
    (hp : s.programAllowed o = false) (hk : o.kind = .program pg) (hq : s.prog? pg = some p) (hb : s.band? p.band ≠ none) (hu : s.flt.unack = [])
    (stop : s.flt.stopping = false) :
    ∃ f, (dispatch c s).dies.queue = s.dies.queue.erase o ++ [o] ∧ f ∈ (dispatch c s).flt.blotter ∧ f.cls = 10 ∧ f.level = 2 ∧ f.source = 0x20 + c
      ∧ (dispatch c s).map = s.map ∧ (dispatch c s).ftl.progs = s.ftl.progs
      ∧ (s.bandRec p.band = none → s.ftl.progs = [p] → o.die ∈ p.wait → (∀ x, s.band? p.band = some x → ∀ k ∈ x.on o.die,
          (k.st = .erased ∨ k.st = .opened) ∧ k.tlc = p.tlc) → (dispatch c s).programAllowed o = true) := by
  have gate : s.gateFor o = none := by unfold State.gateFor; rw [hk]
  rw [dispatch_refused h hc gate hp]
  obtain ⟨x, hx⟩ := Option.ne_none_iff_exists'.1 hb
  have noted := refuseProgram_recorded (c := c) (o := o) hr hu stop
  obtain ⟨bands, e⟩ := reloadBlks_eq o { s with dies := { s.dies with queue := s.dies.queue.erase o ++ [o] } }
  have loaded : reloaded o s = _ := e
  obtain ⟨f, hf, cls, level, source⟩ := noted.entry
  refine ⟨f, by rw [noted.queue, loaded], hf, cls, level, source, by rw [noted.map, loaded], by rw [noted.ftl, loaded], fun noRec only hw blocks => ?_⟩
  rw [programAllowed_of_ftl noted.ftl]
  exact reloadBlks_allows (s := { s with dies := { s.dies with queue := s.dies.queue.erase o ++ [o] } }) hk hq hx noRec only hw (blocks x hx)

end

/-- Settles O47: the order of service by `nextOp`'s least class and the cases of `canStart`, and the dispatch by what it meets: a cold die, the gate's or the
block state table's refusal, or the issue. -/
theorem diesAreServedByClass : Obligations.DiesAreServedByClass := by
  refine ⟨fun s c o b h => nextOp_least h, ?_, ?_, ?_, ?_, effClass_eq, ?_, ?_, ?_, ?_, ?_, ?_, ?_⟩
  case refine_1 =>
    intro s o h
    obtain ⟨-, ⟨-, e⟩ | ⟨a, ha, ⟨e, -⟩ | ⟨-, policy, susp, hs⟩⟩⟩ := canStart_cases h
    · cases e
    · cases e
    · exact ⟨policy, susp, a, ha, hs⟩
  case refine_2 =>
    intro s o a h ha
    obtain ⟨-, ⟨e, -⟩ | ⟨x, hx, ⟨-, ho, hr, planes⟩ | ⟨e, -⟩⟩⟩ := canStart_cases h
    · simp [e] at ha
    · obtain rfl := Option.some.inj (hx.symm.trans ha)
      exact ⟨ho, hr, planes⟩
    · cases e
  case refine_3 =>
    intro s o h
    by_contra hs
    obtain ⟨x, hx⟩ := Option.ne_none_iff_exists'.1 hs
    obtain ⟨⟨dead, reset, up, -⟩, -⟩ := canStart_cases hx
    simp [dead, reset, up] at h
  case refine_4 =>
    intro s o q ht hq hc h3
    by_contra hs
    obtain ⟨x, hx⟩ := Option.ne_none_iff_exists'.1 hs
    obtain ⟨⟨-, -, -, free⟩, -⟩ := canStart_cases hx
    simp [holdsBack_of_host ht hq hc h3] at free
  case refine_5 =>
    intro s c o b hr h hc hg hp
    obtain ⟨queue, ⟨y, die⟩, map, items, slots, read, program, erase⟩ := dispatch_issues (s := { s with out := [] }) h hc hg hp
    refine ⟨dispatch c { s with out := [] }, y, exec_channelDispatch hr c, queue, fun alone => ?_, fun a ha beside => ?_, ?_, map, items, slots, read, program,
      erase⟩
    · rw [die]; exact issuedDie_alone _ _ _ _ alone
    · subst beside; rw [die]; exact issuedDie_beside _ _ _ ha
    · rw [die]; exact issuedDie_susp _ _ _ _
  case refine_6 =>
    intro s c o b hr h hc
    exact ⟨_, exec_channelDispatch hr c, dispatch_resets (s := { s with out := [] }) h hc⟩
  case refine_7 =>
    intro s c n z m o b r x k y hr h hc hg hk hrd hb hy near hm
    obtain ⟨w, hw⟩ := dispatch_read (s := { s with out := [] }) h hc hg hk hrd hb hy near hm
    exact ⟨_, w, exec_channelDispatch hr c, hw⟩
  case refine_8 =>
    intro s c o b i hr h hc hg hu stop
    obtain ⟨⟨f, hf, cls, level, source⟩, reads, ftl, map⟩ := refuseRead_recorded (i := i) (s := { s with out := [] }) hr hu stop
    rw [← dispatch_gate (s := { s with out := [] }) h hc hg] at hf reads ftl map
    exact ⟨_, f, exec_channelDispatch hr c, hf, cls, level, source, reads, ftl, map⟩
  case refine_9 =>
    intro s c pg o b p hr h hc hp hk hq hb hu stop _
    obtain ⟨f, hf⟩ := dispatch_refuses (s := { s with out := [] }) h hc hr hp hk hq hb hu stop
    exact ⟨_, f, exec_channelDispatch hr c, hf⟩
  case refine_10 =>
    intro s d a rest hr hp ha hs
    exact ⟨_, exec_nestedSuspendLimit hr hp d, resumeDie_atLimit (s := { s with out := [] }) hp ha hs⟩
  case refine_11 =>
    intro s d a hr ha
    exact ⟨_, exec_minimumRunAfterResumeExpiry hr d, modDie_minRun (s := { s with out := [] }) ha, rfl, rfl⟩

end Sys2Proof.Proofs
end

section
/-! SUPPORT. The statement on the settling work of a step (O7): what it keeps, and that it changes nothing where nothing is outstanding and nothing is due. -/

namespace Sys2Proof.Proofs

open Sys2Proof Sys2Proof.Machine Sys2Proof.Laws

section
variable {s : State}

theorem progress_of_noItems (h : s.nib.items = []) : progress s = s := by
  unfold progress; rw [h]; rfl

theorem completePersistent_of_noItems (h : s.nib.items = []) : completePersistent s = s := by
  unfold completePersistent; rw [h]; rfl

theorem pruneVersions_of_noVersions (h : s.nib.versions = []) : pruneVersions s = s := by
  unfold pruneVersions; rw [h, List.dropWhile_nil, ← h]

theorem endClear_of_notClearing (h : s.pcie.clearing = false) : endClear s = s := by
  simp [endClear, h]

theorem settleD3_of_notAsked (h : s.pcie.d3Next = false) : settleD3 s = s := by
  simp [settleD3, h]

theorem endDrain_of_notDraining (h : s.sup.draining = false) : endDrain s = s := by
  unfold endDrain
  split
  · rfl
  · rw [← h]

theorem ltrUpdate_of_row (h : s.pwr.ltr = s.ltrRow) : ltrUpdate s = s := by
  simp [ltrUpdate, h]

/-- With nothing outstanding and nothing due, each part of the settling work in its turn leaves the state as it is. -/
theorem settleUp_of_nothingDue (items : s.nib.items = []) (clear : s.pcie.clearing = false) (d3 : s.pcie.d3Next = false) (versions : s.nib.versions = [])
    (drain : s.sup.draining = false) (pool : poolUpdate s = s) (act : actUpdate s = s) (ltr : s.pwr.ltr = s.ltrRow) : settleUp s = s := by
  unfold settleUp
  rw [progress_of_noItems items, completePersistent_of_noItems items, progress_of_noItems items, pruneVersions_of_noVersions versions, pool,
    endClear_of_notClearing clear, settleD3_of_notAsked d3, endDrain_of_notDraining drain, act, ltrUpdate_of_row ltr, ite_self]

end

/-- Settles O7: what it keeps is what `Steady` names, which each part of the work keeps; the second half part by part. -/
theorem whatSettlingKeeps : Obligations.WhatSettlingKeeps := by
  refine ⟨fun s => ?_, fun s items clear d3 _ versions drain pool act ltr => settleUp_of_nothingDue items clear d3 versions drain pool act ltr⟩
  have kept := (settleUp_st (Steady.refl s)).eq
  simp only [outer, Prod.mk.injEq] at kept
  obtain ⟨⟨unit, rst, strap, aon, flt, lops⟩, dbg, wall, pending, next, drawn⟩ := kept
  exact ⟨unit, rst, strap, aon, flt, lops, dbg, wall, next, drawn, pending⟩

end Sys2Proof.Proofs
end

section
/-! SUPPORT. The answer of a row whose event has a guard: its effect where the event can happen, and nothing where it cannot (log entry 1). -/

namespace Sys2Proof.Proofs

open Sys2Proof Sys2Proof.Machine Sys2Proof.Laws

section
variable {c : Bool} {f : State → State} {s : State}

theorem answer_onlyIf_true (h : c = true) : answer s (onlyIf c f) = .next (f { s with out := [] }) := by rw [h]; rfl

theorem answer_onlyIf_false (h : c = false) : answer s (onlyIf c f) = .next { s with out := [] } := by rw [h]; rfl

theorem work_onlyIf_true (h : c = true) : work (onlyIf c f) s = .next (settleUp (f { s with out := [] })) := by rw [h]; rfl

theorem work_onlyIf_false (h : c = false) : work (onlyIf c f) s = .next (settleUp { s with out := [] }) := by rw [h]; rfl

end

end Sys2Proof.Proofs
end

section
/-! SUPPORT. The decision of the straps (R61, R68, R71): the code of a land, its bit in the map of strap faults, and the setting of a land in fault. -/

namespace Sys2Proof.Proofs

open Sys2Proof Sys2Proof.Machine Sys2Proof.Laws

/-! ## A map of bits -/

/-- The map of the numbers below `k` for which `p` holds. -/
def bitmap (p : Nat → Bool) (k : Nat) : Nat := (List.range k).foldl (fun acc n => acc + flag (p n) n) 0

theorem bitmap_succ (p : Nat → Bool) (k : Nat) : bitmap p (k + 1) = bitmap p k + flag (p k) k := by
  simp [bitmap, List.range_succ]

theorem bitmap_lt (p : Nat → Bool) (k : Nat) : bitmap p k < 2 ^ k := by
  induction k with
  | zero => exact Nat.one_pos
  | succ k ih =>
    rw [bitmap_succ, Nat.pow_succ]
    unfold flag
    split <;> omega

theorem testBit_bitmap (p : Nat → Bool) {k n : Nat} (h : n < k) : (bitmap p k).testBit n = p n := by
  induction k with
  | zero => omega
  | succ k ih =>
    rw [bitmap_succ]
    unfold flag
    have below := bitmap_lt p k
    rcases Nat.lt_succ_iff_lt_or_eq.1 h with lower | rfl
    · split
      · rw [Nat.add_comm, Nat.testBit_two_pow_add_gt lower, ih lower]
      · exact ih lower
    · split
      · next set => rw [Nat.add_comm, Nat.testBit_two_pow_add_eq, Nat.testBit_lt_two_pow below, set]; rfl
      · next clear => simpa [Nat.testBit_lt_two_pow below] using clear

/-! ## One land -/

/-- The lands' codes by themselves, before SA6 and SA7 are looked at together. -/
def ownCode (x : List (List Nat)) (n : Nat) : Option Nat := strapCode n (landReadings x n)

/-- A land in fault: by itself, or as one of the pair (R61, R68). -/
def landFault (x : List (List Nat)) (n : Nat) : Bool := (ownCode x n).isNone || (pairFault (ownCode x 6) (ownCode x 7) && (n = 6 || n = 7))

/-- The straps as decided, land by land (R61, R68, R71). -/
theorem decideStraps_eq (x : List (List Nat)) : decideStraps x = { Strap.init with
    codes := (List.range 9).map (fun n => if landFault x n then faultCode n else (ownCode x n).getD 0)
    faults := BitVec.ofNat 16 (bitmap (landFault x) 9), state := if bitmap (landFault x) 9 = 0 then 0 else 1
    readings := (List.range 9).map (fun n => strapReading (landReadings x n)) } := rfl

section
variable {x : List (List Nat)} {n : Nat} (h : n < 9)
include h

theorem decideStraps_code : (decideStraps x).codes.getD n 0 = if landFault x n then faultCode n else (ownCode x n).getD 0 := by
  rw [decideStraps_eq]
  simp [List.getD, h]

theorem decideStraps_fault : (decideStraps x).faults.getLsbD n = landFault x n := by
  rw [decideStraps_eq, BitVec.getLsbD_ofNat, testBit_bitmap _ h, decide_eq_true (show n < 16 by omega), Bool.true_and]

/-- One land in fault makes a strap fault of the record. -/
theorem decideStraps_state (bad : landFault x n = true) : (decideStraps x).state = 1 := by
  have nonzero : bitmap (landFault x) 9 ≠ 0 := fun e => by
    have bit := testBit_bitmap (landFault x) h
    rw [e, bad, Nat.zero_testBit] at bit
    cases bit
  rw [decideStraps_eq]
  exact if_neg nonzero

end

/-! ## The code of a land by itself -/

/-- The readings of a land have the code of the band that they all lie in, where it is not reserved there. -/
theorem strapCode_eq_some {n : Nat} {l : List Nat} {c : Nat} :
    strapCode n l = some c ↔ l ≠ [] ∧ (∀ r ∈ l, strapBand r = some c) ∧ strapReserved n c = false := by
  cases l with
  | nil => simp [strapCode]
  | cons r rs =>
    cases band : strapBand r with
    | none => simp [strapCode, band]
    | some d =>
      by_cases e : d = c
      · subst e; simp [strapCode, band]
      · simp [strapCode, band, e]

theorem ownCode_eq_some {x : List (List Nat)} {n c : Nat} :
    ownCode x n = some c ↔ x ≠ [] ∧ (∀ r ∈ x, strapBand (r.getD n 0) = some c) ∧ strapReserved n c = false := by
  unfold ownCode landReadings
  rw [strapCode_eq_some]
  simp

/-- A land whose readings lie in no one band, or in one whose code is reserved there, has no code. -/
theorem ownCode_eq_none {x : List (List Nat)} {n : Nat} (ne : x ≠ [])
    (h : (∀ c, ¬ ∀ r ∈ x, strapBand (r.getD n 0) = some c) ∨ ∃ c, strapReserved n c = true ∧ ∀ r ∈ x, strapBand (r.getD n 0) = some c) :
    ownCode x n = none := by
  rw [Option.eq_none_iff_forall_ne_some]
  intro c own
  obtain ⟨-, band, free⟩ := ownCode_eq_some.1 own
  rcases h with spread | ⟨d, reserved, band'⟩
  · exact spread c band
  · obtain ⟨r, rs, rfl⟩ := List.exists_cons_of_ne_nil ne
    obtain rfl : c = d := Option.some.inj ((band r List.mem_cons_self).symm.trans (band' r List.mem_cons_self))
    rw [reserved] at free
    cases free

theorem landFault_of_none {x : List (List Nat)} {n : Nat} (h : ownCode x n = none) : landFault x n = true := by
  unfold landFault; rw [h]; rfl

theorem landFault_of_some {x : List (List Nat)} {n c : Nat} (h : ownCode x n = some c)
    (pair : n = 6 ∨ n = 7 → pairFault (ownCode x 6) (ownCode x 7) = false) : landFault x n = false := by
  unfold landFault
  by_cases member : n = 6 ∨ n = 7
  · simp [h, pair member]
  · simp [h, not_or.1 member]

end Sys2Proof.Proofs
end

section
/-! SUPPORT. The statement on the events of the reset stretch (O10), event by event. -/

namespace Sys2Proof.Proofs

open Sys2Proof Sys2Proof.Machine Sys2Proof.Laws

section
variable {s : State}

/-- The readings of a sample in ohms (R59, R60). -/
theorem exec_strapSample (hp : s.rst.phase = .stretch) (hr : s.rst.rowsRead = true) (hs : s.rst.samples.length < 8) (l : List Nat) :
    exec (.strapSample l) s = .next { s with
      out := [], rst := { s.rst with samples := s.rst.samples ++ [(List.range 9).map (fun n => l.getD n 0 * 1000 / s.senseCurrent)] }
      strap := if (s.rst.samples ++ [(List.range 9).map (fun n => l.getD n 0 * 1000 / s.senseCurrent)]).length = 8
        then decideStraps (s.rst.samples ++ [(List.range 9).map (fun n => l.getD n 0 * 1000 / s.senseCurrent)]) else s.strap } := by
  change answer s (onlyIf _ _) = _
  rw [answer_onlyIf_true (by simp [hp, hr, hs])]
  rfl

/-- At the end of the stretch and at VCCQ's settling after it, with VCCQ up, the straps' settings apply (R37). -/
theorem exec_endsStretch {c : Instr} {mv : Nat} (up : 1650 ≤ mv)
    (h : c = .resetStretchEnd mv ∧ s.rst.phase = .stretch ∧ s.rst.samples.length = 8 ∨ c = .vccqSettled mv ∧ s.rst.phase = .extended) :
    exec c s = .next (endStretch mv { s with out := [] }) := by
  rcases h with ⟨rfl, hp, hs⟩ | ⟨rfl, hp⟩
  · change answer s (onlyIf _ _) = _
    rw [answer_onlyIf_true (by simp [hp, hs]), if_neg (Nat.not_lt.2 up)]
  · change answer s (onlyIf _ _) = _
    rw [answer_onlyIf_true (by simp [hp, up])]

/-- The mode that the straps set: minimal recovery on a strap fault (R69). -/
theorem mode_of_faults (t : State) : (if t.strapFault then Mode.recStrap else .normal) = if t.strap.faults = 0 then .normal else .recStrap := by
  unfold State.strapFault
  by_cases h : t.strap.faults = 0 <;> simp [h]

end

/-- The setting of a land in fault (Table 03-7). -/
theorem faultCode_eq (n : Nat) : faultCode n = if n ≤ 2 then 7 else 0 := rfl

/-- Settles O10: the events each by its guard, and the decision by the code that a land has by itself. -/
theorem stretchEventsBuildTheStart : Obligations.StretchEventsBuildTheStart := by
  refine ⟨fun s good hp hr => ?_, fun s l hp hr hs => ?_, fun s l hp hr hs => ?_, fun s hp => ?_, fun s mv hp hs low => ?_, fun s mv c up out h => ?_,
    fun s mv c lo hi h => ?_, fun x n hn ne => ⟨fun c band free pair => ?_, fun bad => ?_⟩⟩
  case refine_1 =>
    change answer s (onlyIf _ _) = _
    rw [answer_onlyIf_true (by simp [hp, hr])]
  case refine_2 =>
    rw [exec_strapSample hp hr (by omega), if_neg (by rw [List.length_append, List.length_singleton]; omega)]
  case refine_3 =>
    rw [exec_strapSample hp hr (by omega), if_pos (by rw [List.length_append, List.length_singleton]; omega)]
  case refine_4 =>
    change answer s (onlyIf _ _) = _
    rw [answer_onlyIf_true (by simp [hp])]
  case refine_5 =>
    change answer s (onlyIf _ _) = _
    rw [answer_onlyIf_true (by simp [hp, hs]), if_pos low]
  case refine_6 =>
    have fixed : (2300 ≤ mv && mv ≤ 2500 : Bool) = false := by simp; omega
    rw [exec_endsStretch up h]
    simp only [endStretch, classify, fixed, mode_of_faults, Bool.false_eq_true, ↓reduceIte]
  case refine_7 =>
    have free : (2300 ≤ mv && mv ≤ 2500 : Bool) = true := by simp [lo, hi]
    refine ⟨Config.freeBool s.drawn, ?_⟩
    rw [exec_endsStretch (by omega) h]
    simp only [endStretch, classify, free, mode_of_faults, ↓reduceIte]
    rfl
  case refine_8 =>
    have own : ownCode x n = some c := ownCode_eq_some.2 ⟨ne, band, free⟩
    have sound := landFault_of_some own pair
    rw [decideStraps_code hn, decideStraps_fault hn, sound, own]
    exact ⟨rfl, rfl⟩
  case refine_9 =>
    have fault := landFault_of_none (ownCode_eq_none ne bad)
    rw [decideStraps_code hn, decideStraps_fault hn, decideStraps_state hn fault, fault, if_pos rfl, faultCode_eq]
    exact ⟨rfl, rfl, rfl⟩

end Sys2Proof.Proofs
end

section
/-! SUPPORT. What a completion and the end of a command before its cancel point touch (R189, R345). -/

namespace Sys2Proof.Proofs

open Sys2Proof Sys2Proof.Machine Sys2Proof.Laws

/-! ## Completions -/

/-- What a completion touches: ACT, the face and its rings, the error log, the counters, and what the module sends. -/
structure Answered (a t : State) : Prop where
  eq : ∃ (lands : Lands) (pcie : Pcie) (nb : Narrow) (pairs : List Pair) (elog : ErrLog) (health : Health) (out : List Out),
    t = { a with lands := lands, pcie := pcie, nb := nb, nib := { a.nib with pairs := pairs }, elog := elog, health := health, out := out }

theorem Answered.refl (a : State) : Answered a a := ⟨a.lands, a.pcie, a.nb, a.nib.pairs, a.elog, a.health, a.out, rfl⟩

theorem Answered.trans {a b c : State} (h : Answered a b) (k : Answered b c) : Answered a c := by
  obtain ⟨_, _, _, _, _, _, _, rfl⟩ := h
  obtain ⟨_, _, _, _, _, _, _, rfl⟩ := k
  exact ⟨_, _, _, _, _, _, _, rfl⟩

theorem Answered.ite {c : Prop} [Decidable c] {a t u : State} (h : Answered a t) (k : Answered a u) : Answered a (if c then t else u) := by
  split
  · exact h
  · exact k

theorem emit_answered (o : Out) (s : State) : Answered s (emit o s) := ⟨s.lands, s.pcie, s.nb, s.nib.pairs, s.elog, s.health, _, rfl⟩

theorem tx_answered (pcie : Pcie) (s : State) : Answered s { s with pcie := pcie } := ⟨s.lands, _, s.nb, s.nib.pairs, s.elog, s.health, s.out, rfl⟩

theorem act_answered (lands : Lands) (s : State) : Answered s { s with lands := lands } := ⟨_, s.pcie, s.nb, s.nib.pairs, s.elog, s.health, s.out, rfl⟩

theorem counted_answered (health : Health) (s : State) : Answered s { s with health := health } := ⟨s.lands, s.pcie, s.nb, s.nib.pairs, s.elog, _, s.out, rfl⟩

theorem modPair_answered (q : Nat) (f : Pair → Pair) (s : State) : Answered s (modPair q f s) := ⟨s.lands, s.pcie, s.nb, _, s.elog, s.health, s.out, rfl⟩

theorem logError_answered (e : ErrEntry) (s : State) : Answered s (logError e s) := ⟨s.lands, s.pcie, s.nb, s.nib.pairs, _, s.health, s.out, rfl⟩

theorem completeTask_answered (e : Ending) (status result : Nat) (s : State) : Answered s (completeTask e status result s) :=
  ⟨s.lands, s.pcie, _, s.nib.pairs, s.elog, s.health, s.out, rfl⟩

theorem post_answered (o : Out) (s : State) : Answered s (post o s) := by
  unfold post
  exact .ite (emit_answered o s) (tx_answered _ s)

theorem sendMsix_answered (v : Nat) (s : State) : Answered s (sendMsix v s) := by
  unfold sendMsix
  exact .ite (.refl s) (.ite (tx_answered _ s) (.ite (.refl s) (post_answered _ s)))

theorem postCompletion_answered (q cid result ruling status : Nat) (s : State) : Answered s (postCompletion q cid result ruling status s) := by
  unfold postCompletion
  split
  · exact .refl s
  · exact ((post_answered _ s).trans (modPair_answered _ _ _)).trans (sendMsix_answered _ _)

theorem actUpdate_answered (s : State) : Answered s (actUpdate s) := by
  unfold actUpdate
  exact .ite (act_answered _ s) (.ite (act_answered _ s) (.ite (act_answered _ s) (.refl s)))

theorem complete_answered (e : Ending) (f : Fail) (result : Nat) (s : State) : Answered s (complete e f result s) := by
  have logged : Answered s (if f.status = 0 then s else logError (e.err f) s) := .ite (.refl s) (logError_answered _ s)
  unfold complete
  refine Answered.trans ?_ (actUpdate_answered _)
  have counted : ∀ health : Health, Answered s { (if f.status = 0 then s else logError (e.err f) s) with health := health } :=
    fun health => logged.trans (counted_answered health _)
  refine .ite ((counted _).trans (completeTask_answered _ _ _ _)) (Answered.trans ?_ (postCompletion_answered _ _ _ _ _ _))
  exact .ite ((counted _).trans (modPair_answered _ _ _)) (counted _)

/-! ## Aborted commands -/

/-- `t` is `a` without the commands `l`, in all that a ruling of the lands is about: the map, the supplies and lands' inputs, power, and the nib's
commands. -/
structure Without (l : List Item) (a t : State) : Prop where
  map : t.map = a.map
  sup : t.sup = a.sup
  pwr : t.pwr = a.pwr
  next : t.nib.next = a.nib.next
  items : ∀ j, j ∈ t.nib.items ↔ j ∈ a.nib.items ∧ ∀ i ∈ l, j.ruling ≠ i.ruling

theorem Without.nil (a : State) : Without [] a a := ⟨rfl, rfl, rfl, rfl, by simp⟩

theorem Without.append {l m : List Item} {a b c : State} (h : Without l a b) (k : Without m b c) : Without (l ++ m) a c := by
  refine ⟨k.map.trans h.map, k.sup.trans h.sup, k.pwr.trans h.pwr, k.next.trans h.next, fun j => ?_⟩
  rw [k.items, h.items, and_assoc, List.forall_mem_append]

theorem Without.answered {l : List Item} {a b c : State} (h : Without l a b) (k : Answered b c) : Without l a c := by
  obtain ⟨_, _, _, _, _, _, _, rfl⟩ := k
  exact ⟨h.map, h.sup, h.pwr, h.next, h.items⟩

theorem undefineBuffer_answered (i : Item) (s : State) : Answered s (undefineBuffer i s) := by
  unfold undefineBuffer
  exact .ite (emit_answered _ s) (.refl s)

theorem removeItem_without (i : Item) (failed : Bool) (s : State) : Without [i] s (removeItem i failed s) := by
  unfold removeItem
  dsimp only
  split <;> exact ⟨rfl, rfl, rfl, rfl, fun j => by simp [settle, dropStaged, dropItem]⟩

theorem abortItem_without (i : Item) (freezes : Bool) (s : State) : Without [i] s (abortItem i freezes s) :=
  (((Without.nil s).answered (undefineBuffer_answered i s)).append (removeItem_without i true _)).answered (complete_answered _ _ _ _)

theorem foldl_abortItem_without (l : List Item) (freezes : Bool) (s : State) : Without l s (l.foldl (fun s i => abortItem i freezes s) s) := by
  induction l generalizing s with
  | nil => exact .nil s
  | cons i l ih => exact (abortItem_without i freezes s).append (ih _)

end Sys2Proof.Proofs
end

section
/-! SUPPORT. What the placement of data in bands touches: the bands and write points, the map log's buffer, the dies' queues, and the reservoir (R250, R251). -/

namespace Sys2Proof.Proofs

open Sys2Proof Sys2Proof.Machine Sys2Proof.Laws

/-- What the placement of data touches. -/
structure Stored (a t : State) : Prop where
  eq : ∃ (ftl : Ftl) (log : MapLog) (dies : Dies) (res : Res), t = { a with ftl := ftl, log := log, dies := dies, res := res }

theorem Stored.refl (a : State) : Stored a a := ⟨a.ftl, a.log, a.dies, a.res, rfl⟩

theorem Stored.trans {a b c : State} (h : Stored a b) (k : Stored b c) : Stored a c := by
  obtain ⟨_, _, _, _, rfl⟩ := h
  obtain ⟨_, _, _, _, rfl⟩ := k
  exact ⟨_, _, _, _, rfl⟩

theorem Stored.ite {c : Prop} [Decidable c] {a t u : State} (h : Stored a t) (k : Stored a u) : Stored a (if c then t else u) := by
  split
  · exact h
  · exact k

theorem Stored.foldl {α : Type} {f : State → α → State} (h : ∀ s x, Stored s (f s x)) (l : List α) (s : State) : Stored s (l.foldl f s) := by
  induction l generalizing s with
  | nil => exact .refl s
  | cons x l ih => exact (h s x).trans (ih _)

section
variable (s : State)

theorem ftl_stored (ftl : Ftl) : Stored s { s with ftl := ftl } := ⟨_, s.log, s.dies, s.res, rfl⟩

theorem addRec_stored (r : MapRec) : Stored s (addRec r s) := ⟨s.ftl, _, s.dies, s.res, rfl⟩

theorem enqueue_stored (ops : List DieOp) : Stored s (enqueue ops s) := ⟨s.ftl, s.log, _, s.res, rfl⟩

theorem markPlaced_stored (r b slot : Nat) : Stored s (markPlaced r b slot s) := ⟨s.ftl, s.log, s.dies, _, rfl⟩

theorem modBand_stored (n : Nat) (f : Band → Band) : Stored s (modBand n f s) := ftl_stored s _

theorem setWp_stored (w : WritePoint) : Stored s (setWp w s) := ftl_stored s _

theorem addFill_stored (slot : Nat) (c : Codeword) : Stored s (addFill slot c s) := ftl_stored s _

theorem formBand_stored (n : Nat) (tlc cache : Bool) : Stored s (formBand n tlc cache s) := (ftl_stored s _).trans (ftl_stored _ _)

theorem noteBand_stored (n : Nat) : Stored s (noteBand n s) := by
  unfold noteBand
  split
  · exact addRec_stored s _
  · exact .refl s

theorem queueErase_stored (n cls : Nat) (dies : List Nat) : Stored s (queueErase n cls dies s) := (modBand_stored s _ _).trans (enqueue_stored _ _)

theorem launch_stored (n wl cls : Nat) (slots : List Slot) : Stored s (launch n wl cls slots s) := by
  unfold launch
  split
  · exact .refl s
  · exact (ftl_stored s _).trans (enqueue_stored _ _)

theorem openBand_stored (n : Nat) (tlc cache : Bool) (cls : Nat) : Stored s (openBand n tlc cache cls s) := by
  unfold openBand
  refine (((formBand_stored s n tlc cache).trans (noteBand_stored _ n)).trans ?_).trans (launch_stored _ _ _ _ _)
  split
  · exact .ite (queueErase_stored _ _ _ _) (.refl _)
  · exact .refl _

theorem padTo_stored (n lo hi : Nat) : Stored s (padTo n lo hi s) := by
  unfold padTo
  split
  · exact .refl s
  · exact Stored.foldl (fun t i => .ite (addFill_stored t _ _) (.refl t)) _ s

theorem programWordline_stored (n wl cls : Nat) : Stored s (programWordline n wl cls s) := by
  unfold programWordline
  split
  · exact .refl s
  · exact ((ftl_stored s _).trans (modBand_stored _ _ _)).trans (launch_stored _ _ _ _ _)

theorem programComplete_stored (n cls fuel : Nat) : Stored s (programComplete n cls fuel s) := by
  induction fuel generalizing s with
  | zero => exact .refl s
  | succ fuel ih =>
    unfold programComplete
    split
    · exact .refl s
    · exact .ite ((programWordline_stored s _ _ _).trans (ih _)) (.refl s)

theorem closeBandStripes_stored (n cls : Nat) : Stored s (closeBandStripes n cls s) := by
  unfold closeBandStripes
  split
  · exact .refl s
  · exact .ite ((padTo_stored s _ _ _).trans (programWordline_stored _ _ _ _)) (.refl s)

theorem closeStripesOf_stored (p : Slot → Bool) : Stored s (closeStripesOf p s) := Stored.foldl (fun t n => closeBandStripes_stored t n 2) _ s

theorem bindWp_stored (kind stream : Nat) : Stored s (bindWp kind stream s) := by
  unfold bindWp
  split
  · refine Stored.trans (Stored.trans ?_ (ftl_stored _ _)) (setWp_stored _ _)
    exact Stored.foldl (fun t x => closeBandStripes_stored t _ _) _ s
  · exact setWp_stored s _

theorem newBand_stored (w : WritePoint) (tlc cache : Bool) (cls : Nat) (whole : Bool) : Stored s (newBand w tlc cache cls whole s).1 := by
  unfold newBand
  split
  · exact .refl s
  · exact (openBand_stored s _ _ _ _).trans (setWp_stored _ _)

theorem withRoom_stored (kind stream cls : Nat) (whole : Bool) : Stored s (withRoom kind stream cls whole s).1 := by
  unfold withRoom
  dsimp only
  split
  · exact .refl s
  split
  · exact newBand_stored s _ _ _ _ _
  split
  · exact .refl s
  · exact newBand_stored s _ _ _ _ _

theorem append_stored (kind stream cls : Nat) (cws : List Codeword) : Stored s (append kind stream cls cws s).1 := by
  have room := withRoom_stored s kind stream cls (cws.length = 32)
  unfold append
  dsimp only
  split
  · exact room
  split
  · exact room
  · next n pos _ _ b _ =>
    have filled := Stored.foldl (fun t i => addFill_stored t (n * bandSlots + (pos + i)) (cws.getD i padCodeword)) (List.range cws.length)
      (padTo n b.nextPos pos (withRoom kind stream cls (cws.length = 32) s).1)
    have written := ((room.trans (padTo_stored _ n b.nextPos pos)).trans filled).trans (modBand_stored _ n (fun b => { b with nextPos := pos + cws.length }))
    refine Stored.trans ?_ (programComplete_stored _ _ _ _)
    exact .ite (written.trans (setWp_stored _ _)) written

theorem placeBlocks_stored (r kind stream fuel : Nat) (l : List Staged) : Stored s (placeBlocks r kind stream fuel l s) := by
  induction fuel generalizing l s with
  | zero => exact .refl s
  | succ fuel ih =>
    cases l with
    | nil => exact .refl s
    | cons x xs =>
      unfold placeBlocks
      dsimp only
      split
      · have placed := append_stored s kind stream 2 (((x :: xs).take 32).map (·.cw))
        split
        · exact (placed.trans (Stored.foldl (fun t i => markPlaced_stored t _ _ _) _ _)).trans (ih _ _)
        · exact placed
      · have placed := append_stored s kind stream 2 [x.cw]
        split
        · exact (placed.trans (markPlaced_stored _ _ _ _)).trans (ih _ _)
        · exact placed

/-- A drain places what waits in the fill, and closes the stripes. -/
theorem drainFill_stored : Stored s (drainFill s) := by
  unfold drainFill
  refine Stored.trans (Stored.trans ?_ (Stored.foldl (fun t r => ?_) _ _)) (closeStripesOf_stored _ _)
  · exact ⟨_, s.log, s.dies, _, rfl⟩
  · exact (bindWp_stored t 4 0).trans (placeBlocks_stored _ _ _ _ _ _)

end

end Sys2Proof.Proofs
end

section
/-! SUPPORT. The ejection warning (R345): a ruling of its own, no write left before its cancel point, and the drain of the reservoir. -/

namespace Sys2Proof.Proofs

open Sys2Proof Sys2Proof.Machine Sys2Proof.Laws

/-- The module as a warning finds it: awake, with no idleness entered (R447, R449). -/
def roused (s : State) : State := if s.awake then touch s else wake s

theorem roused_frame (s : State) :
    (roused s).nib = s.nib ∧ (roused s).rst = s.rst ∧ (roused s).sup = s.sup ∧ (roused s).map = s.map ∧ (roused s).pwr.ps < 2 := by
  unfold roused
  split
  · next awake => exact ⟨rfl, rfl, rfl, rfl, of_decide_eq_true awake⟩
  · refine ⟨rfl, rfl, rfl, rfl, ?_⟩
    unfold wake
    dsimp only
    split <;> decide

theorem canRule_roused (s : State) : (roused s).canRule = s.canRule := by
  obtain ⟨nib, rst, -⟩ := roused_frame s
  unfold State.canRule State.running State.recovery
  rw [nib, rst]

/-- An event of a land takes the next ruling where the nib rules (R178). -/
theorem ruleEvent_of_canRule {s : State} (h : s.canRule = true) :
    ruleEvent s = ({ s with nib := { s.nib with next := s.nib.next + 1 } }, s.nib.next) := if_pos h

/-- The state in which a warning has its ruling. -/
def warned (s : State) : State :=
  { roused s with nib := { s.nib with next := s.nib.next + 1 }, sup := { s.sup with warning := some s.nib.next, draining := true } }

theorem warn_eq {s : State} (h : s.canRule = true) :
    warn s = drainFill ((s.nib.items.filter unreached).foldl (fun s i => abortItem i true s) (warned s)) := by
  obtain ⟨nib, -, sup, -⟩ := roused_frame s
  have ruled := ruleEvent_of_canRule (s := roused s) (by rw [canRule_roused, h])
  rw [nib] at ruled
  unfold warn warned
  change drainFill (((ruleEvent (roused s)).1.nib.items.filter unreached).foldl _
    { (ruleEvent (roused s)).1 with sup := { (ruleEvent (roused s)).1.sup with warning := some (ruleEvent (roused s)).2, draining := true } }) = _
  rw [ruled]
  dsimp only
  rw [sup]

theorem warn_frame {s : State} (h : s.canRule = true) :
    (warn s).sup = { s.sup with warning := some s.nib.next, draining := true } ∧ (warn s).nib.next = s.nib.next + 1 ∧ (warn s).pwr.ps < 2
      ∧ (∀ i ∈ (warn s).nib.items, i ∈ s.nib.items ∧ unreached i = false) ∧ (warn s).map = s.map := by
  obtain ⟨-, -, -, map, ps⟩ := roused_frame s
  have aborted := foldl_abortItem_without (s.nib.items.filter unreached) true (warned s)
  obtain ⟨ftl, log, dies, res, drained⟩ := drainFill_stored ((s.nib.items.filter unreached).foldl (fun s i => abortItem i true s) (warned s))
  rw [warn_eq h, drained]
  refine ⟨aborted.sup, aborted.next, by rw [aborted.pwr]; exact ps, fun i hi => ?_, aborted.map.trans map⟩
  obtain ⟨listed, others⟩ := (aborted.items i).1 hi
  refine ⟨listed, ?_⟩
  by_contra early
  exact others i (List.mem_filter.2 ⟨listed, by simpa using early⟩) rfl

end Sys2Proof.Proofs
end

section
/-! SUPPORT. The newest entry of the blotter: what a note and a fault without escalation leave in front (R395, R401), with no Await Event to answer. -/

namespace Sys2Proof.Proofs

open Sys2Proof Sys2Proof.Machine Sys2Proof.Laws

/-- The entry that the collector makes of what it is given (Table 15-6). -/
def blotOf (kind cls level : Nat) (escalated : Bool) (source : Nat) (detail : BitVec 64) (s : State) : Blot :=
  { slot := s.flt.nextSlot, seq := s.aon.nextSeq, resetNo := s.aon.resetNo, kind := kind, cls := cls, level := level, escalated := escalated
    acked := false, hostAcked := false, earlier := false, source := source, count := sat 16 (s.flt.counts.getD cls 0), time := s.rst.timeMs
    detail := detail }

theorem addBlot_front (kind cls level : Nat) (escalated : Bool) (source : Nat) (detail : BitVec 64) (s : State) :
    ∃ aon, addBlot kind cls level escalated source detail false s = { s with
      flt := { s.flt with blotter := blotOf kind cls level escalated source detail s :: s.flt.blotter.take 31, nextSlot := (s.flt.nextSlot + 1) % 32 }
      aon := aon } := by
  obtain ⟨aon, e⟩ := aonDrain_eq { s with
    flt := { s.flt with blotter := blotOf kind cls level escalated source detail s :: s.flt.blotter.take 31, nextSlot := (s.flt.nextSlot + 1) % 32 }
    aon := { s.aon with nextSeq := (s.aon.nextSeq + 1) % 2 ^ 32, queue := aonEnqueue (blotOf kind cls level escalated source detail s) s.aon.queue } }
  exact ⟨aon, e⟩

/-- With no Await Event outstanding an event waits in the collector. -/
theorem raiseEvent_of_noAwait {s : State} (h : ∀ i ∈ s.nib.items, i.wait ≠ .event) (cls level seq : Nat) :
    ∃ events, raiseEvent cls level seq s = { s with flt := { s.flt with events := events } } := by
  have noneWaits : s.nib.items.find? (fun i => i.wait = .event) = none := List.find?_eq_none.2 (fun i hi => by simpa using h i hi)
  unfold raiseEvent deliverEvent
  simp only [noneWaits]
  exact ⟨_, rfl⟩

/-- `t` is `a` but for the collector, AON and the counters, and the blotter's newest entry is of a fault with these. -/
structure Heads (cls level source : Nat) (detail : BitVec 64) (a t : State) : Prop where
  eq : ∃ (flt : Flt) (aon : Aon) (health : Health), t = { a with flt := flt, aon := aon, health := health }
    ∧ ∃ (b : Blot) (rest : List Blot), flt.blotter = b :: rest ∧ b.cls = cls ∧ b.level = level ∧ b.source = source ∧ b.detail = detail

section
variable {cls level source : Nat} {detail : BitVec 64} {a t : State} (h : Heads cls level source detail a t)
include h

theorem Heads.running : t.running = a.running := by
  obtain ⟨_, _, _, rfl, -⟩ := h; rfl

/-- An acknowledgement marks entries, and leaves each in its place with its class, level, source and detail. -/
theorem Heads.acknowledge (host : Bool) (seq : Nat) : Heads cls level source detail a (acknowledge host seq t) := by
  obtain ⟨flt, aon, health, rfl, b, rest, blotter, fields⟩ := h
  refine ⟨_, aon, health, rfl, _, _, congrArg (mapIf _ _) blotter, ?_⟩
  dsimp only
  split <;> exact fields

theorem Heads.ackReaction (c src : Nat) : Heads cls level source detail a (ackReaction c src t) := by
  unfold Machine.ackReaction
  exact List.foldlRecOn _ _ h (fun _ k u _ => k.acknowledge false u.seq)

theorem Heads.raiseEvent (noAwait : ∀ i ∈ a.nib.items, i.wait ≠ .event) (c l seq : Nat) : Heads cls level source detail a (raiseEvent c l seq t) := by
  obtain ⟨flt, aon, health, rfl, front⟩ := h
  obtain ⟨events, e⟩ := raiseEvent_of_noAwait (s := { a with flt := flt, aon := aon, health := health }) noAwait c l seq
  exact ⟨_, aon, health, e, front⟩

end

/-- A fault below the safe level, outside the stop sequence. -/
theorem recordLevel_heads {cls base level source cause : Nat} {detail : BitVec 64} {s : State} (stop : s.flt.stopping = false) (low : level < 4)
    (noAwait : ∀ i ∈ s.nib.items, i.wait ≠ .event) : Heads cls level source detail s (recordLevel cls base level source detail cause s) := by
  unfold recordLevel
  dsimp only
  obtain ⟨aon, e⟩ := addBlot_front 0x01 cls level (level ≠ base) source detail
    { s with flt := { s.flt with counts := s.flt.counts.set cls (sat 32 (s.flt.counts.getD cls 0 + 1)) }
             health := { s.health with faults := s.health.faults.set cls (sat 32 (s.health.faults.getD cls 0 + 1)) } }
  rw [e]
  simp only [stop, Bool.false_eq_true, ↓reduceIte, if_neg (show ¬ level = 5 by omega), if_neg (show ¬ level = 4 by omega)]
  refine Heads.raiseEvent ?_ noAwait _ _ _
  exact ⟨_, aon, _, rfl, _, _, rfl, rfl, rfl, rfl, rfl⟩

/-- A note leaves the faults that wait for acknowledgement as they are. -/
theorem addNote_front (kind : Nat) (detail : BitVec 64) (s : State) : ∃ aon n b rest,
    addNote kind detail s = { s with flt := { s.flt with blotter := b :: rest, nextSlot := n }, aon := aon } ∧ b.kind = kind := by
  obtain ⟨aon, e⟩ := addBlot_front kind 0xFF 0 false 0xFF detail s
  exact ⟨aon, _, _, _, e, rfl⟩

/-- FC14 of the debug port with no fault unacknowledged: a notice, acknowledged at once (R392, R402). -/
theorem debugFault_heads {s : State} (detail : BitVec 64) (run : s.running = true) (unack : s.flt.unack = []) (stop : s.flt.stopping = false)
    (noAwait : ∀ i ∈ s.nib.items, i.wait ≠ .event) : Heads 14 1 0x0F detail s (debugFault detail s) := by
  have level := levelFor_of_unack_nil unack 14 1
  have noted : Heads 14 1 0x0F detail s (recordLevel 14 1 1 0x0F detail 2 s) := recordLevel_heads stop (by decide) noAwait
  unfold debugFault recordFault
  simp only [level, noted.running, run, Bool.not_true, Bool.false_eq_true, ↓reduceIte, Nat.reduceLeDiff]
  exact noted.ackReaction 14 0x0F

end Sys2Proof.Proofs
end

section
/-! SUPPORT. The statement on the input lands, the hold-up bank and the debug port (O53), row by row. -/

namespace Sys2Proof.Proofs

open Sys2Proof Sys2Proof.Machine Sys2Proof.Laws

/-! ## The lands and the bank -/

section
variable {s : State}

theorem exec_ejectionWarning (run : s.running = true) (used : s.ejectUsed = true) (armed : s.sup.ejectArmed = true) (first : s.sup.warning = none) :
    exec .ejectionWarning s = .next (settleUp (warn { s with out := [] })) := by
  change work (onlyIf _ _) s = _
  rw [work_onlyIf_true (by simp [run, used, armed, first])]

theorem exec_ejectnRise (run : s.running = true) (used : s.ejectUsed = true) :
    exec .ejectnRise s = .next { s with out := [], sup := { s.sup with ejectArmed := true } } := by
  change answer s (onlyIf _ _) = _
  rw [answer_onlyIf_true (by simp [run, used])]

theorem exec_wpswPinEvent_change {low : Bool} (run : s.running = true) (differs : s.sup.wpswLow ≠ low) (rules : s.canRule = true) :
    exec (.wpswPinEvent low) s = .next { s with
      out := [], nib := { s.nib with next := s.nib.next + 1 }, sup := { s.sup with wpswLow := low } } := by
  change answer s (onlyIf _ _) = _
  rw [answer_onlyIf_true (by simp [run, differs]), ruleEvent_of_canRule (s := { s with out := [] }) rules]

theorem exec_wpswPinEvent_same {low : Bool} (same : s.sup.wpswLow = low) : exec (.wpswPinEvent low) s = .next { s with out := [] } := by
  change answer s (onlyIf _ _) = _
  rw [answer_onlyIf_false (by simp [same])]

/-- VHU above a threshold for certain, and below it for certain (Table 19-9). -/
theorem above_of_most {least most mv : Nat} (h : most ≤ mv) : s.above least most mv = true := by simp [State.above, h]

theorem above_of_least {least most mv : Nat} (h : mv < least) (le : least ≤ most) : s.above least most mv = false := by
  simp [State.above, Nat.not_le.2 h, Nat.not_le.2 (Nat.lt_of_lt_of_le h le)]

theorem exec_bankReady (used : s.bankUsed = true) (mv : Nat) : exec (.bankReady mv) s = .next (draw
    (if s.above 4700 4800 mv then { s with out := [], sup := { s.sup with bank := .ready, vhuMv := mv } } else { s with out := [] })) := by
  change answer s (onlyIf _ _) = _
  rw [answer_onlyIf_true used]
  rfl

theorem exec_bankReadyLost (used : s.bankUsed = true) (ready : s.sup.bank = .ready) (mv : Nat) : exec (.bankReadyLost mv) s = .next (draw
    (if s.above 4550 4650 mv then { s with out := [] } else { s with out := [], sup := { s.sup with bank := .charging, vhuMv := mv } })) := by
  change answer s (onlyIf _ _) = _
  rw [answer_onlyIf_true (by simp [used, ready])]
  rfl

theorem exec_bankReadyLost_notReady (charging : s.sup.bank ≠ .ready) (mv : Nat) : exec (.bankReadyLost mv) s = .next { s with out := [] } := by
  change answer s (onlyIf _ _) = _
  rw [answer_onlyIf_false (by simp [charging])]

theorem exec_bankFaultTimeout (used : s.bankUsed = true) (charging : s.sup.bank ≠ .ready) (mv : Nat) :
    exec (.bankFaultTimeout mv) s = .next { s with out := [], sup := { s.sup with bank := .fault, vhuMv := mv } } := by
  change answer s (onlyIf _ _) = _
  rw [answer_onlyIf_true (by simp [used, charging])]

/-- The bank follows its events (R50, R487). -/
theorem bank_follows (mv : Nat) (used : s.bankUsed = true) :
    (4800 ≤ mv → exec (.bankReady mv) s = .next { s with out := [], drawn := s.drawn + 1, sup := { s.sup with bank := .ready, vhuMv := mv } })
    ∧ (mv < 4700 → exec (.bankReady mv) s = .next { s with out := [], drawn := s.drawn + 1 })
    ∧ (mv < 4550 → s.sup.bank = .ready → exec (.bankReadyLost mv) s
        = .next { s with out := [], drawn := s.drawn + 1, sup := { s.sup with bank := .charging, vhuMv := mv } })
    ∧ (4650 ≤ mv → exec (.bankReadyLost mv) s = .next { s with out := [], drawn := s.drawn + (if s.sup.bank = .ready then 1 else 0) })
    ∧ (s.sup.bank ≠ .ready → exec (.bankFaultTimeout mv) s = .next { s with out := [], sup := { s.sup with bank := .fault, vhuMv := mv } }) := by
  refine ⟨fun h => ?_, fun h => ?_, fun h ready => ?_, fun h => ?_, fun charging => exec_bankFaultTimeout used charging mv⟩
  · rw [exec_bankReady used, above_of_most h]; rfl
  · rw [exec_bankReady used, above_of_least h (by decide)]; rfl
  · rw [exec_bankReadyLost used ready, above_of_least h (by decide)]; rfl
  · by_cases ready : s.sup.bank = .ready
    · rw [exec_bankReadyLost used ready, above_of_most h, if_pos ready]; rfl
    · rw [exec_bankReadyLost_notReady ready, if_neg ready]; rfl

end

/-! ## The debug port -/

section
variable {s : State}

theorem exec_dbgaddr (on : s.portOn = true) (x : BitVec 36) :
    exec (.dbgaddr x) s = .next { s with out := [], dbg := { s.dbg with addr := x.toNat / 4 * 4 } } := by
  change answer s (onlyIf _ _) = _
  rw [answer_onlyIf_true on]

theorem running_of_portOn (on : s.portOn = true) : s.running = true := (Bool.and_eq_true_iff.1 on).1

/-- The address register after an access (R391). -/
def advance (s : State) : State := { s with dbg := { s.dbg with addr := (s.dbg.addr + 4) % 2 ^ 36 } }

section
variable {x : BitVec 33} {u : State} (on : s.portOn = true)
include on

/-- A read that leaves the module running advances the address. -/
theorem exec_dbgdata_reads (read : x.getLsbD 32 = false) (access : debugRead { s with out := [] } = u) (run : u.running = true) :
    exec (.dbgdata x) s = .next (settleUp (advance u)) := by
  change work (onlyIf _ _) s = _
  rw [work_onlyIf_true on]
  simp only [read, Bool.false_eq_true, ↓reduceIte, access, run]
  rfl

/-- So does a write. -/
theorem exec_dbgdata_writes (write : x.getLsbD 32 = true) (access : debugWrite (x.setWidth 32) { s with out := [] } = u)
    (run : u.running = true) : exec (.dbgdata x) s = .next (settleUp (advance u)) := by
  change work (onlyIf _ _) s = _
  rw [work_onlyIf_true on]
  simp only [write, ↓reduceIte, access, run]
  rfl

end

theorem debugRead_permitted (may : s.mayRead (regionOf s.dbg.addr) = true)
    (idle : regionOf s.dbg.addr = .bootFlash → s.flashBusy (s.dbg.addr - 0x10000000) = false) :
    debugRead s = draw (emit (.tdo (s.debugWord s.dbg.addr)) s) := by
  have free : (decide (regionOf s.dbg.addr = .bootFlash) && s.flashBusy (s.dbg.addr - 0x10000000)) = false := by
    by_cases flash : regionOf s.dbg.addr = .bootFlash <;> simp [flash, idle]
  simp [debugRead, may, free]

theorem debugRead_locked (may : s.mayRead (regionOf s.dbg.addr) = false) : debugRead s = emit (.tdo 0) (metLock s) := by
  simp [debugRead, may]

theorem debugWrite_locked (may : s.mayWrite (regionOf s.dbg.addr) = false) (data : BitVec 32) : debugWrite data s = metLock s := by
  simp [debugWrite, may]

/-- The state after a permitted write: the word stands as written. -/
theorem debugWrite_permitted (may : s.mayWrite (regionOf s.dbg.addr) = true) (data : BitVec 32) : debugWrite data s = { s with
    dbg := { s.dbg with written := (s.dbg.addr, data) :: s.dbg.written.filter (fun (x : Nat × BitVec 32) => x.1 ≠ s.dbg.addr), dirty := true } } :=
  if_pos may

/-- Outside the boot flash a word that the port has written reads as written. -/
theorem debugWord_written {a : Nat} {data : BitVec 32} {l : List (Nat × BitVec 32)} (region : regionOf a ≠ .bootFlash) (h : s.dbg.written = (a, data) :: l) :
    s.debugWord a = data.toNat := by
  unfold State.debugWord
  cases r : regionOf a with
  | bootFlash => exact absurd r region
  | _ => simp [h]

theorem region_of_mayWrite {r : Region} (may : s.mayWrite r = true) : r = .memory := by
  simp only [State.mayWrite, Bool.and_eq_true, decide_eq_true_eq] at may
  obtain ⟨⟨memory, -⟩, -⟩ := may
  exact memory

/-- The lock met is FC14 with the address, and marks DBGSTAT (R392). -/
theorem metLock_heads (run : s.running = true) (unack : s.flt.unack = []) (stop : s.flt.stopping = false) (noAwait : ∀ i ∈ s.nib.items, i.wait ≠ .event) :
    Heads 14 1 0x0F (BitVec.ofNat 64 s.dbg.addr) { s with dbg := { s.dbg with met := true } } (metLock s) :=
  debugFault_heads _ run unack stop noAwait

/-- A permitted read (R391). -/
theorem exec_dbgdata_read {x : BitVec 33} (on : s.portOn = true) (read : x.getLsbD 32 = false) (may : s.mayRead (regionOf s.dbg.addr) = true)
    (idle : regionOf s.dbg.addr = .bootFlash → s.flashBusy (s.dbg.addr - 0x10000000) = false) :
    exec (.dbgdata x) s = .next (settleUp { s with
      out := [.tdo (s.debugWord s.dbg.addr)], drawn := s.drawn + 1, dbg := { s.dbg with addr := (s.dbg.addr + 4) % 2 ^ 36 } }) := by
  have access := debugRead_permitted (s := { s with out := [] }) may idle
  rw [exec_dbgdata_reads on read access (running_of_portOn on)]
  rfl

/-- A permitted write. -/
theorem exec_dbgdata_write {x : BitVec 33} (on : s.portOn = true) (write : x.getLsbD 32 = true) (may : s.mayWrite (regionOf s.dbg.addr) = true) :
    ∃ u, exec (.dbgdata x) s = .next (settleUp u) ∧ (s.dbg.addr, x.setWidth 32) ∈ u.dbg.written ∧ u.debugWord s.dbg.addr = x.toNat % 2 ^ 32
      ∧ u.dbg.addr = (s.dbg.addr + 4) % 2 ^ 36 ∧ u.dbg.dirty = true ∧ u.map = s.map ∧ u.nib = s.nib ∧ u.res = s.res := by
  have region : regionOf s.dbg.addr ≠ .bootFlash := by rw [region_of_mayWrite may]; decide
  have access := debugWrite_permitted (s := { s with out := [] }) may (x.setWidth 32)
  refine ⟨_, exec_dbgdata_writes on write access (running_of_portOn on), List.mem_cons_self, ?_, rfl, rfl, rfl, rfl, rfl⟩
  rw [debugWord_written region rfl, BitVec.toNat_setWidth]

/-- An access that meets a lock: a read shifts out 0, and either is FC14. -/
theorem exec_dbgdata_locked {x : BitVec 33} (on : s.portOn = true) (locked : x.getLsbD 32 = false ∧ s.mayRead (regionOf s.dbg.addr) = false
      ∨ x.getLsbD 32 = true ∧ s.mayWrite (regionOf s.dbg.addr) = false) (unack : s.flt.unack = []) (stop : s.flt.stopping = false)
    (noAwait : ∀ i ∈ s.nib.items, i.wait ≠ .event) :
    ∃ u b rest, exec (.dbgdata x) s = .next (settleUp u) ∧ u.dbg.met = true ∧ u.dbg.written = s.dbg.written ∧ u.dbg.addr = (s.dbg.addr + 4) % 2 ^ 36
      ∧ u.flt.blotter = b :: rest ∧ b.cls = 14 ∧ b.level = 1 ∧ b.source = 0x0F ∧ b.detail = BitVec.ofNat 64 s.dbg.addr
      ∧ (x.getLsbD 32 = false → .tdo 0 ∈ u.out) := by
  have run := running_of_portOn on
  obtain ⟨flt, aon, health, met, b, rest, blotter, cls, level, source, detail⟩ := metLock_heads (s := { s with out := [] }) run unack stop noAwait
  rcases locked with ⟨read, may⟩ | ⟨write, may⟩
  · have access := debugRead_locked (s := { s with out := [] }) may
    rw [met] at access
    exact ⟨_, b, rest, exec_dbgdata_reads on read access run, rfl, rfl, rfl, blotter, cls, level, source, detail, fun _ => List.mem_singleton_self _⟩
  · have access := debugWrite_locked (s := { s with out := [] }) may (x.setWidth 32)
    rw [met] at access
    exact ⟨_, b, rest, exec_dbgdata_writes on write access run, rfl, rfl, rfl, blotter, cls, level, source, detail, fun read => nomatch write.symm.trans read⟩

theorem exec_dbgchal (on : s.portOn = true) : exec .dbgchal s = .next { s with
    out := [.tdo ((Config.freeChallenge s.drawn).toNat + s.serial12 * 2 ^ 256)], drawn := s.drawn + 1
    dbg := { s.dbg with challenge := some (Config.freeChallenge s.drawn) } } := by
  change answer s (onlyIf _ _) = _
  rw [answer_onlyIf_true on]
  rfl

/-- DBGUNLK is offered until three failures and while no fault has it refused (R393). -/
theorem testOffered_dbgunlk : s.testOffered .dbgunlk = true ↔ s.dbg.refused = false ∧ s.dbg.fails < 3 := by
  simp [State.testOffered]

theorem exec_dbgunlk_verified (on : s.portOn = true) (offered : s.testOffered .dbgunlk = true) (challenged : s.dbg.challenge ≠ none) (scope : BitVec 8) :
    exec (.dbgunlk scope true) s = .next (settleUp (addNote 0x04 0 { s with
      out := [], dbg := { s.dbg with challenge := none, unlocked := true, scope := scope.setWidth 2, everUnlocked := true } })) := by
  change work (onlyIf _ _) s = _
  rw [work_onlyIf_true (by rw [on, offered]; rfl)]
  simp [Option.isSome_iff_ne_none.2 challenged]

theorem exec_dbgunlk_failed {v : Bool} (on : s.portOn = true) (offered : s.testOffered .dbgunlk = true) (bad : v = false ∨ s.dbg.challenge = none)
    (scope : BitVec 8) : exec (.dbgunlk scope v) s = .next (settleUp (debugFault ((Config.freeWord s.drawn).setWidth 64) { s with
      out := [], drawn := s.drawn + 1, dbg := { s.dbg with challenge := none, fails := s.dbg.fails + 1 } })) := by
  have good : (v && s.dbg.challenge.isSome) = false := by
    rcases bad with rfl | unasked
    · rfl
    · rw [unasked]; exact Bool.and_false v
  change work (onlyIf _ _) s = _
  rw [work_onlyIf_true (by rw [on, offered]; rfl)]
  simp only [good, Bool.false_eq_true, ↓reduceIte]
  rfl

theorem exec_dbgunlk_refused (refused : 3 ≤ s.dbg.fails ∨ s.dbg.refused = true) (scope : BitVec 8) (v : Bool) :
    exec (.dbgunlk scope v) s = .next (settleUp { s with out := [] }) := by
  have withheld : ¬ s.testOffered .dbgunlk = true := by
    rw [testOffered_dbgunlk]
    rintro ⟨free, few⟩
    rcases refused with many | set
    · omega
    · rw [free] at set; cases set
  change work (onlyIf _ _) s = _
  rw [work_onlyIf_false (by simp [withheld])]

/-- EXTEST drives the lands after an unlock with scope bit 1, and acts as BYPASS before it (R390). -/
theorem exec_extest (l : List (Nat × Bool)) :
    (s.portOn = true ∧ s.dbg.unlocked = true ∧ s.dbg.scope.getLsbD 1 = true →
      exec (.extest l) s = .next { s with out := [], lands := { s.lands with extest := some l } })
    ∧ (s.portOn = false ∨ s.dbg.unlocked = false ∨ s.dbg.scope.getLsbD 1 = false → exec (.extest l) s = .next { s with out := [] }) := by
  change (_ → answer s (onlyIf _ _) = _) ∧ (_ → answer s (onlyIf _ _) = _)
  refine ⟨fun ⟨on, unlocked, scope⟩ => ?_, fun closed => ?_⟩
  · rw [answer_onlyIf_true (by simp only [State.testOffered, on, unlocked, scope, Bool.and_self])]
  · rw [answer_onlyIf_false (by simpa only [State.testOffered, Bool.and_eq_false_iff] using closed)]

end

/-- Settles O53: the warning by what its abort and its drain touch; the switch, the bank and the port by the guard of each row and what it then does. -/
theorem landsBankAndDebugPort : Obligations.LandsBankAndDebugPort := by
  refine ⟨fun s run used armed first rules => ?_, fun s run used => exec_ejectnRise run used,
    fun s low run differs rules => exec_wpswPinEvent_change run differs rules, fun s low same => exec_wpswPinEvent_same same,
    fun s mv run fitted normal => bank_follows mv (by simp [State.bankUsed, run, fitted, normal]), fun s x on => exec_dbgaddr on x,
    fun s x on read may idle => exec_dbgdata_read on read may idle, fun s x on write may => exec_dbgdata_write on write may,
    fun s x on locked unack stop noAwait => exec_dbgdata_locked on locked unack stop noAwait, fun s on => ⟨_, exec_dbgchal on⟩,
    fun s scope on free few challenged => ?_, fun s scope v on free few bad unack stop noAwait => ?_,
    fun s scope v refused => exec_dbgunlk_refused refused scope v, fun s l => exec_extest l⟩
  case refine_1 =>
    obtain ⟨sup, next, ps, items, map⟩ := warn_frame (s := { s with out := [] }) rules
    exact ⟨_, exec_ejectionWarning run used armed first, by rw [sup], next, by rw [sup], ps, items, map⟩
  case refine_2 =>
    obtain ⟨aon, n, b, rest, note, kind⟩ := addNote_front 0x04 0 { s with
      out := [], dbg := { s.dbg with challenge := none, unlocked := true, scope := scope.setWidth 2, everUnlocked := true } }
    have row := exec_dbgunlk_verified on (testOffered_dbgunlk.2 ⟨free, few⟩) challenged scope
    rw [note] at row
    exact ⟨_, b, rest, row, rfl, rfl, kind⟩
  case refine_3 =>
    obtain ⟨flt, aon, health, fault, b, rest, blotter, cls, level, -⟩ := debugFault_heads ((Config.freeWord s.drawn).setWidth 64) (s := { s with
      out := [], drawn := s.drawn + 1, dbg := { s.dbg with challenge := none, fails := s.dbg.fails + 1 } }) (running_of_portOn on) unack stop noAwait
    have row := exec_dbgunlk_failed on (testOffered_dbgunlk.2 ⟨free, few⟩) bad scope
    rw [fault] at row
    exact ⟨_, b, rest, row, rfl, blotter, cls, level⟩

end Sys2Proof.Proofs
end

section
/-! SUPPORT. How long operations end and enter the page (R227, R230): what that touches, and that an operation in a final state stays in it. -/

namespace Sys2Proof.Proofs

open Sys2Proof Sys2Proof.Machine Sys2Proof.Laws

/-! ## The page and ACT -/

/-- What the end or the entry of a long operation touches: the page, and ACT. -/
structure Paged (a t : State) : Prop where
  eq : ∃ (lands : Lands) (lops : LongOps), t = { a with lands := lands, lops := lops }

theorem Paged.refl (a : State) : Paged a a := ⟨a.lands, a.lops, rfl⟩

theorem Paged.trans {a b c : State} (h : Paged a b) (k : Paged b c) : Paged a c := by
  obtain ⟨_, _, rfl⟩ := h
  obtain ⟨_, _, rfl⟩ := k
  exact ⟨_, _, rfl⟩

theorem Paged.foldl {α : Type} {f : State → α → State} (h : ∀ s x, Paged s (f s x)) (l : List α) (s : State) : Paged s (l.foldl f s) := by
  induction l generalizing s with
  | nil => exact .refl s
  | cons x l ih => exact (h s x).trans (ih _)

theorem lops_paged (lops : LongOps) (s : State) : Paged s { s with lops := lops } := ⟨s.lands, lops, rfl⟩

theorem actUpdate_eq (s : State) : ∃ lands, actUpdate s = { s with lands := lands } := by
  unfold actUpdate
  split
  · exact ⟨_, rfl⟩
  split
  · exact ⟨_, rfl⟩
  split
  · exact ⟨_, rfl⟩
  · exact ⟨s.lands, rfl⟩

theorem actUpdate_paged (s : State) : Paged s (actUpdate s) := by
  obtain ⟨lands, e⟩ := actUpdate_eq s
  exact ⟨lands, s.lops, e⟩

theorem startQueued_paged (typ : Nat) (s : State) : Paged s (startQueued typ s) := by
  unfold startQueued
  split
  · exact .refl s
  split
  · exact lops_paged _ s
  · exact .refl s

theorem fillRebuilds_paged (fuel : Nat) (s : State) : Paged s (fillRebuilds fuel s) := by
  induction fuel generalizing s with
  | zero => exact .refl s
  | succ fuel ih =>
    unfold fillRebuilds
    split
    · exact .refl s
    split
    · exact (lops_paged _ s).trans (ih _)
    · exact .refl s

theorem endOp_paged (h state outcome detail : Nat) (s : State) : Paged s (endOp h state outcome detail s) := by
  unfold endOp
  split
  · exact .refl s
  split
  · exact .refl s
  · refine Paged.trans ?_ (actUpdate_paged _)
    split
    · exact ((lops_paged _ s).trans (startQueued_paged _ _)).trans (fillRebuilds_paged _ _)
    · exact lops_paged _ s

theorem cancelOps_paged (p : Nat → Bool) (s : State) : Paged s (cancelOps p s) := Paged.foldl (fun _ _ => endOp_paged _ _ _ _ _) _ s

/-! ## Operations that end -/

/-- The page `m` lists the operations of `l`, and each that is outside a final state was so in `l`. -/
structure Closing (l m : List LongOp) : Prop where
  handles : m.map (·.handle) = l.map (·.handle)
  stillOpen : ∀ x ∈ m, x.final = false → ∃ y ∈ l, y.handle = x.handle ∧ y.typ = x.typ ∧ y.final = false

theorem Closing.refl (l : List LongOp) : Closing l l := ⟨rfl, fun x hx open_ => ⟨x, hx, rfl, rfl, open_⟩⟩

theorem Closing.trans {l m n : List LongOp} (h : Closing l m) (k : Closing m n) : Closing l n := by
  refine ⟨k.handles.trans h.handles, fun x hx open_ => ?_⟩
  obtain ⟨y, hy, handle, typ, open_⟩ := k.stillOpen x hx open_
  obtain ⟨z, hz, handle', typ', open_⟩ := h.stillOpen y hy open_
  exact ⟨z, hz, handle'.trans handle, typ'.trans typ, open_⟩

theorem Closing.nodup {l m : List LongOp} (h : Closing l m) (unique : (l.map (·.handle)).Nodup) : (m.map (·.handle)).Nodup := h.handles ▸ unique

/-- Where all operations of some types were over, they still are. -/
theorem Closing.final {l m : List LongOp} (h : Closing l m) {p : Nat → Prop} (done : ∀ x ∈ l, p x.typ → x.final = true) (x : LongOp) (hx : x ∈ m)
    (hp : p x.typ) : x.final = true := by
  by_contra open_
  obtain ⟨y, hy, -, typ, open_⟩ := h.stillOpen x hx (by simpa using open_)
  simp [done y hy (typ ▸ hp)] at open_

/-- A change of the operations under one handle that takes none of them out of a final state. -/
theorem closing_mapIf {l : List LongOp} {h : Nat} {f : LongOp → LongOp} (handle : ∀ o, (f o).handle = o.handle) (typ : ∀ o, (f o).typ = o.typ)
    (open_ : ∀ o ∈ l, o.handle = h → (f o).final = false → o.final = false) : Closing l (mapIf (fun o => o.handle = h) f l) := by
  refine ⟨?_, fun x hx ho => ?_⟩
  · unfold mapIf
    rw [List.map_map]
    refine List.map_congr_left fun o _ => ?_
    simp only [Function.comp]
    split
    · exact handle o
    · rfl
  · obtain ⟨o, mem, rfl⟩ := List.mem_map.1 hx
    split at ho
    · next e => rw [if_pos e]; exact ⟨o, mem, (handle o).symm, (typ o).symm, open_ o mem (of_decide_eq_true e) ho⟩
    · next e => rw [if_neg e]; exact ⟨o, mem, rfl, rfl, ho⟩

theorem eq_of_handle {l : List LongOp} (unique : (l.map (·.handle)).Nodup) {x y : LongOp} (hx : x ∈ l) (hy : y ∈ l) (e : x.handle = y.handle) : x = y :=
  List.inj_on_of_nodup_map unique hx hy e

theorem op?_some {s : State} {h : Nat} {o : LongOp} (e : s.op? h = some o) : o ∈ s.lops.list ∧ o.handle = h :=
  ⟨List.mem_of_find?_eq_some e, by simpa using List.find?_some e⟩

/-- A queued operation that begins was in no final state (Table 08-10). -/
theorem startQueued_closing {typ : Nat} {s : State} (unique : (s.lops.list.map (·.handle)).Nodup) :
    Closing s.lops.list (startQueued typ s).lops.list := by
  unfold startQueued
  split
  · exact .refl _
  split
  · next o found =>
    obtain ⟨-, queued⟩ : o.typ = typ ∧ o.state = 0 := by simpa using List.find?_some found
    refine closing_mapIf (fun _ => rfl) (fun _ => rfl) fun x hx e _ => ?_
    rw [eq_of_handle unique hx (List.mem_of_find?_eq_some found) e]
    simp [LongOp.final, queued]
  · exact .refl _

theorem startQueued_queued (typ : Nat) (s : State) : (startQueued typ s).lops.queued = s.lops.queued := by
  unfold startQueued
  split
  · rfl
  split <;> rfl

theorem fillRebuilds_of_noneQueued {fuel : Nat} {s : State} (h : s.lops.queued = []) : fillRebuilds fuel s = s := by
  cases fuel with
  | zero => rfl
  | succ fuel => unfold fillRebuilds; rw [h]

theorem actUpdate_lops (s : State) : (actUpdate s).lops = s.lops := by
  obtain ⟨_, e⟩ := actUpdate_eq s
  rw [e]

/-- Every operation under the handle is in a final state. -/
def EndedAt (h : Nat) (l : List LongOp) : Prop := ∀ x ∈ l, x.handle = h → x.final = true

theorem EndedAt.closing {h : Nat} {l m : List LongOp} (e : EndedAt h l) (k : Closing l m) : EndedAt h m := by
  intro x hx handle
  by_contra open_
  obtain ⟨y, hy, handle', -, open_⟩ := k.stillOpen x hx (by simpa using open_)
  simp [e y hy (handle'.trans handle)] at open_

theorem endedAt_mapIf {l : List LongOp} {h : Nat} {f : LongOp → LongOp} (final : ∀ o, (f o).final = true) :
    EndedAt h (mapIf (fun o => o.handle = h) f l) := by
  intro x hx e
  obtain ⟨o, -, rfl⟩ := List.mem_map.1 hx
  split at e
  · next c => rw [if_pos c]; exact final o
  · next c => simp [e] at c

/-- An operation as its end leaves it in the page (Table 08-10). -/
def endedOp (state outcome detail : Nat) (s : State) (o : LongOp) : LongOp :=
  { o with state := state, outcome := outcome, detail := detail, wants := [], progress := if state = 3 then 10000 else s.progressOf o }

theorem endedOp_final {state outcome detail : Nat} (h : 3 ≤ state) (s : State) (o : LongOp) : (endedOp state outcome detail s o).final = true := decide_eq_true h

theorem endOp_of_open {h state outcome detail : Nat} {s : State} {o : LongOp} (found : s.op? h = some o) (open_ : o.final = false) :
    endOp h state outcome detail s = actUpdate (if isRebuild o.typ
      then fillRebuilds 14 (startQueued o.typ (modOp h (endedOp state outcome detail s) s)) else modOp h (endedOp state outcome detail s) s) := by
  unfold endOp
  simp only [found, open_]
  rfl

/-- The end of an operation where no rebuild waits for an entry. -/
theorem endOp_ends {h state outcome detail : Nat} {s : State} (final : 3 ≤ state) (unique : (s.lops.list.map (·.handle)).Nodup) (empty : s.lops.queued = []) :
    Closing s.lops.list (endOp h state outcome detail s).lops.list ∧ (endOp h state outcome detail s).lops.queued = []
      ∧ EndedAt h (endOp h state outcome detail s).lops.list := by
  rcases found : s.op? h with _ | o
  · have absent : EndedAt h s.lops.list := fun x hx e => absurd e (by simpa using List.find?_eq_none.1 found x hx)
    simp only [endOp, found]
    exact ⟨.refl _, empty, absent⟩
  obtain ⟨listed, handle⟩ := op?_some found
  rcases open_ : o.final with _ | _
  · have closed : Closing s.lops.list (modOp h (endedOp state outcome detail s) s).lops.list :=
      closing_mapIf (fun _ => rfl) (fun _ => rfl) fun o _ _ open_ => absurd (endedOp_final final s o) (Bool.eq_false_iff.1 open_)
    have atEnd : EndedAt h (modOp h (endedOp state outcome detail s) s).lops.list :=
      endedAt_mapIf (endedOp_final final s)
    rw [endOp_of_open found open_, actUpdate_lops]
    split
    · have begun := startQueued_closing (typ := o.typ) (closed.nodup unique)
      have empty : (startQueued o.typ (modOp h (endedOp state outcome detail s) s)).lops.queued = [] := (startQueued_queued _ _).trans empty
      rw [fillRebuilds_of_noneQueued empty]
      exact ⟨closed.trans begun, empty, atEnd.closing begun⟩
    · exact ⟨closed, empty, atEnd⟩
  · simp only [endOp, found, open_, ↓reduceIte]
    exact ⟨.refl _, empty, fun x hx e => eq_of_handle unique hx listed (e.trans handle.symm) ▸ open_⟩

/-- The ends of operations one by one leave each of them ended. -/
theorem foldl_endOp_ends {l : List LongOp} {s : State} (unique : (s.lops.list.map (·.handle)).Nodup) (empty : s.lops.queued = []) :
    Closing s.lops.list (l.foldl (fun s o => endOp o.handle 5 7 0 s) s).lops.list
      ∧ ∀ o ∈ l, EndedAt o.handle (l.foldl (fun s o => endOp o.handle 5 7 0 s) s).lops.list := by
  induction l generalizing s with
  | nil => exact ⟨.refl _, by simp⟩
  | cons o l ih =>
    obtain ⟨closed, empty, atEnd⟩ := endOp_ends (h := o.handle) (outcome := 7) (detail := 0) (show 3 ≤ 5 by decide) unique empty
    obtain ⟨rest, others⟩ := ih (closed.nodup unique) empty
    exact ⟨closed.trans rest, List.forall_mem_cons.2 ⟨atEnd.closing rest, others⟩⟩

/-- Cancelling types of operations ends each of them (R230). -/
theorem cancelOps_ends {p : Nat → Bool} {s : State} (unique : (s.lops.list.map (·.handle)).Nodup) (empty : s.lops.queued = []) :
    Closing s.lops.list (cancelOps p s).lops.list ∧ ∀ x ∈ (cancelOps p s).lops.list, p x.typ = true → x.final = true := by
  obtain ⟨closed, atEnd⟩ := foldl_endOp_ends (l := s.lops.list.filter (fun o => p o.typ && !o.final)) unique empty
  refine ⟨closed, fun x hx hp => ?_⟩
  by_contra open_
  obtain ⟨y, hy, handle, typ, open_'⟩ := closed.stillOpen x hx (by simpa using open_)
  exact open_ (atEnd y (List.mem_filter.2 ⟨hy, by simp [typ, hp, open_']⟩) x hx handle.symm)

/-! ## A new operation -/

theorem mem_of_mem_roomIn {l : List LongOp} {x : LongOp} (h : x ∈ roomIn l) : x ∈ l := by
  unfold roomIn at h
  split at h
  · exact h
  split at h
  · exact (List.mem_filter.1 h).1
  · exact h

/-- A new operation stands at the end of the page, under the handle that is answered (R227). -/
theorem createOp_enters (typ target ruling state : Nat) (s : State) : ∃ o next_,
    createOp typ target ruling state s = ({ s with lops := { s.lops with list := roomIn s.lops.list ++ [o], next := next_ } }, o.handle)
      ∧ o.typ = typ ∧ o.target = target ∧ o.ruling = ruling ∧ o.state = state :=
  ⟨_, _, rfl, rfl, rfl, rfl, rfl⟩

end Sys2Proof.Proofs
end

section
/-! SUPPORT. Sanitize Device as it begins (R73, R230, R323): its ruling ends the other operations, and its record and its operation stand at its lock. -/

namespace Sys2Proof.Proofs

open Sys2Proof Sys2Proof.Machine Sys2Proof.Laws

theorem takes_sanitizeDevice {q : Nat} {s : State} {f : Fetched} (h : s.Takes .sanitizeDevice q f) : Entry.opcode f.entry = 0x98 := by
  obtain ⟨k, hk, hf⟩ := h
  obtain ⟨-, rfl⟩ := by simpa [State.hostRow] using hk
  simpa [isOp] using hf

/-- The ruling of a Sanitize Device ends every operation of another type, unless something known at the ruling stops it (R181, R230). -/
def sanitizeRuled (i : Item) (s : State) : State :=
  if i.verdict = 0 then cancelOps (fun t => t ≠ 1) { s with lops := { s.lops with queued := [] } } else s

theorem sanitizeRuled_paged (i : Item) (s : State) : Paged s (sanitizeRuled i s) := by
  unfold sanitizeRuled
  split
  · exact (lops_paged _ s).trans (cancelOps_paged _ _)
  · exact .refl s

/-- Handles stay distinct, and the operations of other types are over where nothing stops the command. -/
theorem sanitizeRuled_ends {i : Item} {s : State} (unique : (s.lops.list.map (·.handle)).Nodup) :
    ((sanitizeRuled i s).lops.list.map (·.handle)).Nodup
      ∧ (i.verdict = 0 → ∀ x ∈ (sanitizeRuled i s).lops.list, x.typ ≠ 1 → x.final = true) := by
  unfold sanitizeRuled
  split
  · obtain ⟨closed, ended⟩ := cancelOps_ends (p := fun t => t ≠ 1) (s := { s with lops := { s.lops with queued := [] } }) unique rfl
    exact ⟨closed.nodup unique, fun _ x hx typ => ended x hx (decide_eq_true typ)⟩
  · next verdict => exact ⟨unique, fun h => absurd h verdict⟩

theorem ruledEffects_sanitize {i : Item} (op : Entry.opcode i.entry = 0x98) (s : State) :
    ∃ adm, ruledEffects i s = sanitizeRuled i { s with nib := { s.nib with adm := adm } } := by
  unfold ruledEffects dropCached sanitizeRuled
  simp only [op]
  refine ⟨applyChanges (if i.verdict = 0 then changesOf s.logicalBlocks s.profile i.ruling s.nib.adm i.entry else []) s.nib.adm, ?_⟩
  by_cases verdict : i.verdict = 0 <;> simp [verdict]

/-- The admission of a Sanitize Device, whose item is the newest. -/
theorem admitted_sanitize {i : Item} {s : State} {l : List Item} (op : Entry.opcode i.entry = 0x98) (narrow : i.narrow = false)
    (items : s.nib.items = l ++ [i]) (newest : ∀ j ∈ l, j.ruling < i.ruling) : ∃ w, admitted i s = sanitizeRuled (s.claimItem i) w
      ∧ w.nib.items = l ++ [s.claimItem i] ∧ w.nib.next = s.nib.next ∧ w.map = s.map ∧ w.ftl = s.ftl ∧ w.lops = s.lops := by
  obtain ⟨adm, e⟩ := ruledEffects_sanitize (i := s.claimItem i) op
    (setItem (s.claimItem i) { s with res := { s.res with claimed := s.res.claimed + (s.claimItem i).resClaim } })
  have narrow' : (s.claimItem i).narrow = false := narrow
  have noWrite : Entry.opcode i.entry ≠ 1 := by rw [op]; decide
  refine ⟨_, Eq.trans ?_ e, (congrArg (mapIf _ _) items).trans (mapIf_append_ruling newest rfl), rfl, rfl, rfl, rfl⟩
  unfold admitted taskAdmitted
  simp only [noWrite, narrow', Bool.false_eq_true, ↓reduceIte]

/-- The state in which a command is evaluated lists its item behind the others. -/
theorem listed_frame (s : State) (q : Nat) (f : Fetched) (g : Given) :
    (s.listed q f g).nib.items = s.nib.items ++ [s.listedItem q f g] ∧ (s.listed q f g).nib.next = s.nib.next + 1 ∧ (s.listed q f g).map = s.map
      ∧ (s.listed q f g).ftl = s.ftl ∧ (s.listed q f g).lops = s.lops := by
  obtain ⟨_, _, _, e, -⟩ := listed_eq s q f g
  rw [e]
  exact ⟨rfl, rfl, rfl, rfl, rfl⟩

/-- The state in which a Sanitize Device begins, and its item. -/
structure SanitizeBegun (s t : State) (i : Item) : Prop where
  opcode : Entry.opcode i.entry = 0x98
  ruling : i.ruling = s.nib.next
  next : t.nib.next = s.nib.next + 1
  map : t.map = s.map
  ftl : t.ftl = s.ftl
  handles : (t.lops.list.map (·.handle)).Nodup
  ended : ∀ x ∈ t.lops.list, x.typ ≠ 1 → x.final = true

theorem sanitizeBegun_of_begins {s t : State} {f : Fetched} {i : Item} (h : s.Begins .sanitizeDevice 0 f t i) (unique : (s.lops.list.map (·.handle)).Nodup) :
    SanitizeBegun s t i := by
  obtain ⟨sound, takes, admits⟩ := h
  have op := takes_sanitizeDevice takes
  obtain ⟨items, next, map, ftl, lops⟩ := listed_frame s 0 f (rowGiven .sanitizeDevice)
  obtain ⟨w, state, items', next', map', ftl', lops'⟩ := admitted_sanitize (i := s.listedItem 0 f (rowGiven .sanitizeDevice)) op rfl items sound.rulings
  rw [← admits.state] at state
  obtain ⟨_, _, paged⟩ := sanitizeRuled_paged ((s.listed 0 f (rowGiven .sanitizeDevice)).claimItem (s.listedItem 0 f (rowGiven .sanitizeDevice))) w
  rw [← state] at paged
  have item : i = (s.listed 0 f (rowGiven .sanitizeDevice)).claimItem (s.listedItem 0 f (rowGiven .sanitizeDevice)) := by
    have found := admits.item
    rw [State.item?, paged, items', find?_append_ruling sound.rulings rfl] at found
    exact (Option.some.inj found).symm
  obtain ⟨handles, ended⟩ := sanitizeRuled_ends (i := i) (s := w) (by rw [lops', lops]; exact unique)
  rw [← item] at state
  rw [← state] at handles ended
  exact ⟨item ▸ op, item ▸ rfl, by rw [paged]; exact next'.trans next, by rw [paged]; exact map'.trans map, by rw [paged]; exact ftl'.trans ftl, handles,
    ended admits.verdict⟩

/-! ## At its lock -/

theorem dropMark_eq (s : State) : ∃ log ceiling, dropMark s = { s with log := log, nib := { s.nib with ceiling := ceiling } } := by
  unfold dropMark
  split
  · split
    · exact ⟨_, _, rfl⟩
    · exact ⟨s.log, s.nib.ceiling, rfl⟩
  · exact ⟨s.log, s.nib.ceiling, rfl⟩

theorem item?_setItem {s : State} {i j : Item} (h : s.item? i.ruling = some j) : (setItem i s).item? i.ruling = some i := by
  have same : ((fun x : Item => decide (x.ruling = i.ruling)) ∘ fun x => if decide (x.ruling = i.ruling) = true then i else x)
      = fun x => decide (x.ruling = i.ruling) := by
    funext x
    by_cases e : x.ruling = i.ruling <;> simp [e]
  have ruling : decide (j.ruling = i.ruling) = true := List.find?_some (p := fun x : Item => decide (x.ruling = i.ruling)) h
  have found : s.nib.items.find? (fun x => decide (x.ruling = i.ruling)) = some j := h
  unfold State.item? setItem mapIf
  rw [List.find?_map, same, found, Option.map_some, if_pos ruling]

/-- The first change of the media: the mark of a clean shutdown goes, or the Opened page comes (R73, R332). -/
theorem firstChange_eq (c : Bool) (s : State) : ∃ log ceiling,
    (if c then dropMark s else openMedia s) = { s with log := log, nib := { s.nib with ceiling := ceiling } } := by
  split
  · exact dropMark_eq s
  · exact openMedia_eq s

/-- The operation of a Sanitize at its lock (R230): the new state, and the handle. -/
def sanitizeEntered (i : Item) (s : State) : State × Nat := createOp 1 0xFFFF i.ruling 1 (cancelOps (· = 1) { s with lops := { s.lops with queued := [] } })

/-- Its record, and its item that waits (R230, R323). -/
def sanitizeMarked (i : Item) (h : Nat) (s : State) : State :=
  setItem { i with wait := .sanitize, result := h } { s with rec_ := { s.rec_ with sanitize := some i.ruling } }

theorem runSanitize_eq (i : Item) (s : State) : ∃ log ceiling, runSanitize i s = sanitizeMarked i (sanitizeEntered i s).2
    { (sanitizeEntered i s).1 with log := log, nib := { (sanitizeEntered i s).1.nib with ceiling := ceiling } } := by
  obtain ⟨log, ceiling, changed⟩ := firstChange_eq (cancelOps (· = 1) { s with lops := { s.lops with queued := [] } }).mismatch (sanitizeEntered i s).1
  exact ⟨log, ceiling, congrArg (sanitizeMarked i (sanitizeEntered i s).2) changed⟩

/-- With the other types over, the new operation is the only one that is not. -/
theorem sanitizeEntered_eq {i : Item} {s : State} (unique : (s.lops.list.map (·.handle)).Nodup) (ended : ∀ x ∈ s.lops.list, x.typ ≠ 1 → x.final = true) :
    ∃ o m lands lops, sanitizeEntered i s = ({ s with lands := lands, lops := lops }, o.handle) ∧ lops.list = m ++ [o]
      ∧ (∀ x ∈ m, x.typ ≠ 1 → x.final = true) ∧ o.typ = 1 ∧ o.target = 0xFFFF ∧ o.ruling = i.ruling ∧ o.state = 1 := by
  obtain ⟨lands, lops, paged⟩ := cancelOps_paged (· = 1) { s with lops := { s.lops with queued := [] } }
  obtain ⟨closed, -⟩ := cancelOps_ends (p := (· = 1)) (s := { s with lops := { s.lops with queued := [] } }) unique rfl
  obtain ⟨o, next_, created, kind⟩ := createOp_enters 1 0xFFFF i.ruling 1 (cancelOps (· = 1) { s with lops := { s.lops with queued := [] } })
  have others := closed.final (p := (· ≠ 1)) ended
  rw [paged] at created others
  exact ⟨o, roomIn lops.list, lands, { lops with list := roomIn lops.list ++ [o], next := next_ }, (congrArg _ paged).trans created, rfl,
    fun x hx => others x (mem_of_mem_roomIn hx), kind⟩

theorem exec_sanitizeDevice {s t : State} {f : Fetched} {i : Item} (h : s.Begins .sanitizeDevice 0 f t i) (op : Entry.opcode i.entry = 0x98) :
    exec .sanitizeDevice s = .next (settleUp (runSanitize i t)) := by
  rw [exec_of_begins h, begin_admits h.2.2]
  simp only [op]

/-- Sanitize Device is recorded, its operation is the one that runs, and its command waits for the format. -/
theorem sanitizeDevice_begins {s t : State} {f : Fetched} {i : Item} (h : s.Begins .sanitizeDevice 0 f t i) (unique : (s.lops.list.map (·.handle)).Nodup) :
    ∃ u o, exec .sanitizeDevice s = .next (settleUp u)
      ∧ u.rec_.sanitize = some s.nib.next ∧ o ∈ u.lops.list ∧ o.typ = 1 ∧ o.state = 1 ∧ o.target = 0xFFFF ∧ o.ruling = s.nib.next
      ∧ (∀ x ∈ u.lops.list, x.typ ≠ 1 → 3 ≤ x.state) ∧ (∃ j, u.item? s.nib.next = some j ∧ j.wait = .sanitize ∧ j.result = o.handle)
      ∧ u.nib.next = s.nib.next + 1 ∧ u.map = s.map ∧ u.ftl.slots = s.ftl.slots := by
  obtain ⟨op, ruling, next, map, ftl, handles, ended⟩ := sanitizeBegun_of_begins h unique
  obtain ⟨o, m, lands, lops, entered, list, others, typ, target, ruling', state⟩ := sanitizeEntered_eq (i := i) handles ended
  obtain ⟨log, ceiling, runs⟩ := runSanitize_eq i t
  rw [entered] at runs
  have listed : t.item? i.ruling = some i := ruling ▸ h.2.2.item
  have waits := item?_setItem (i := { i with wait := .sanitize, result := o.handle }) (s := { t with
    lands := lands, lops := lops, log := log, nib := { t.nib with ceiling := ceiling }, rec_ := { t.rec_ with sanitize := some i.ruling } }) listed
  refine ⟨_, o, exec_sanitizeDevice h op, ?_⟩
  rw [runs, ← ruling]
  refine ⟨rfl, ?_, typ, state, target, ruling', fun x hx ne => ?_, ⟨_, waits, rfl, rfl⟩, ruling ▸ next, map, congrArg Ftl.slots ftl⟩
  · change o ∈ lops.list
    simp [list]
  · rcases List.mem_append.1 (list ▸ hx : x ∈ m ++ [o]) with old | new
    · exact of_decide_eq_true (others x old ne)
    · exact absurd (List.mem_singleton.1 new ▸ typ) ne

end Sys2Proof.Proofs
end

section
/-! SUPPORT. The mending of bands at a format (R230, R249): retired blocks, spares and dissolved bands, where no wordline is partly filled. -/

namespace Sys2Proof.Proofs

open Sys2Proof Sys2Proof.Machine Sys2Proof.Laws

/-- What the mending of bands touches: the bands, the log's records of them, the grown bad blocks, and the mark of a worn module with its note. -/
structure Mended (a t : State) : Prop where
  eq : ∃ (ftl : Ftl) (buf : List MapRec) (seq : Nat) (grown : List (Nat × Nat)) (worn : Bool) (flt : Flt) (aon : Aon) (lands : Lands),
    t = { a with
        ftl := ftl, log := { a.log with buf := buf, nextSeq := seq }, dies := { a.dies with grown := grown }, rec_ := { a.rec_ with worn := worn }
        flt := flt, aon := aon, lands := lands }
      ∧ ftl.slots = a.ftl.slots ∧ ftl.fill = a.ftl.fill ∧ ∀ x ∈ buf, x ∈ a.log.buf ∨ x.typ = 0x0A

/-- The bands change; no slot does. -/
theorem ftl_mended {s : State} {ftl : Ftl} (slots : ftl.slots = s.ftl.slots) (fill : ftl.fill = s.ftl.fill) : Mended s { s with ftl := ftl } :=
  ⟨ftl, s.log.buf, s.log.nextSeq, s.dies.grown, s.rec_.worn, s.flt, s.aon, s.lands, rfl, slots, fill, fun _ h => .inl h⟩

theorem Mended.refl (a : State) : Mended a a := ftl_mended rfl rfl

theorem Mended.trans {a b c : State} (h : Mended a b) (k : Mended b c) : Mended a c := by
  obtain ⟨_, _, _, _, _, _, _, _, rfl, slots, fill, recs⟩ := h
  obtain ⟨_, _, _, _, _, _, _, _, rfl, slots', fill', recs'⟩ := k
  exact ⟨_, _, _, _, _, _, _, _, rfl, slots'.trans slots, fill'.trans fill, fun x hx => (recs' x hx).elim (recs x) .inr⟩

theorem Mended.fill {a t : State} (h : Mended a t) : t.ftl.fill = a.ftl.fill := by
  obtain ⟨_, _, _, _, _, _, _, _, rfl, -, fill, -⟩ := h
  exact fill

/-- One change after another, with no wordline partly filled. -/
theorem Mended.foldl {α : Type} {f : State → α → State} (h : ∀ s x, s.ftl.fill = [] → Mended s (f s x)) (l : List α) {s : State} (empty : s.ftl.fill = []) :
    Mended s (l.foldl f s) := by
  induction l generalizing s with
  | nil => exact .refl s
  | cons x l ih =>
    have first := h s x empty
    exact first.trans (ih (first.fill.trans empty))

/-- With no wordline partly filled no stripe is open. -/
theorem closeStripes_of_noFill {s : State} (h : s.ftl.fill = []) : closeStripes s = s := by
  unfold closeStripes closeStripesOf
  rw [h]
  rfl

section
variable (s : State)

theorem noteBand_mended (n : Nat) : Mended s (noteBand n s) := by
  unfold noteBand
  split
  · refine ⟨s.ftl, _, _, s.dies.grown, s.rec_.worn, s.flt, s.aon, s.lands, rfl, rfl, rfl, fun x hx => ?_⟩
    refine (List.mem_append.1 hx).imp_right fun new => ?_
    rw [List.mem_singleton.1 new]
    rfl
  · exact .refl s

theorem modBand_mended (n : Nat) (f : Band → Band) : Mended s (modBand n f s) := ftl_mended rfl rfl

theorem retireBlock_mended (n key : Nat) : Mended s (retireBlock n key s) := by
  unfold retireBlock
  refine Mended.trans ⟨_, s.log.buf, s.log.nextSeq, _, s.rec_.worn, s.flt, s.aon, s.lands, rfl, ?_, ?_, fun _ h => .inl h⟩
    ((modBand_mended _ n _).trans (noteBand_mended _ n)) <;> rfl

theorem moveSystem_mended (n : Nat) : Mended s (moveSystem n s) := by
  unfold moveSystem
  split
  · split
    · exact ftl_mended rfl rfl
    · exact .refl s
  · exact .refl s

theorem spares_mended (spares : List Blk) : Mended s { s with ftl := { s.ftl with spares := spares } } := ftl_mended rfl rfl

theorem resizeCache_mended : Mended s (resizeCache s) := ftl_mended rfl rfl

end

/-- Worn read-only is marked and noted (R324). -/
theorem checkWorn_mended {s : State} (empty : s.ftl.fill = []) : Mended s (checkWorn s) := by
  unfold checkWorn
  split
  · obtain ⟨aon, n, b, rest, note, -⟩ := addNote_front 0x05 0 { s with rec_ := { s.rec_ with worn := true } }
    rw [note]
    unfold programAll
    rw [closeStripes_of_noFill (by exact empty)]
    exact ⟨s.ftl, s.log.buf, s.log.nextSeq, s.dies.grown, true, _, aon, _, rfl, rfl, rfl, fun _ h => .inl h⟩
  · exact .refl s

theorem dissolve_mended {s : State} (n : Nat) (empty : s.ftl.fill = []) : Mended s (dissolve n s) := by
  unfold dissolve
  split
  · exact .refl s
  · next b _ =>
    have emptied : Mended s (moveSystem n (resizeCache (noteBand n (modBand n (fun b => { b with st := .dissolved, blks := [] })
        { s with ftl := { s.ftl with spares := s.ftl.spares ++ b.blks.filter (fun x => x.st ≠ .retired) } })))) :=
      ((((spares_mended s _).trans (modBand_mended _ n _)).trans (noteBand_mended _ n)).trans (resizeCache_mended _)).trans (moveSystem_mended _ n)
    exact emptied.trans (checkWorn_mended (emptied.fill.trans empty))

theorem mendBand_mended {s : State} (n : Nat) (empty : s.ftl.fill = []) : Mended s (mendBand n s) := by
  unfold mendBand
  split
  · exact .refl s
  split
  · exact .refl s
  split
  · exact (spares_mended s _).trans (modBand_mended _ n _)
  · exact dissolve_mended n empty

/-- The format after the wipe is a mending of the bands, and one Opened page without a record. -/
theorem formatMedia_eq (r : Nat) (s : State) : ∃ w p, Mended (wipeMedia r s) w ∧ formatMedia r s = addPage p { w with log := { w.log with pages := [] } }
    ∧ p.opened = true ∧ p.recs = [] := by
  have retired : Mended (wipeMedia r s) ((wipeMedia r s).ftl.bands.foldl (fun s b => b.retireAfter.foldl (fun s k => retireBlock b.n k s) s) (wipeMedia r s)) :=
    Mended.foldl (fun s b empty => Mended.foldl (fun s k _ => retireBlock_mended s b.n k) _ empty) _ rfl
  have mended : ∀ t : State, t.ftl.fill = [] → Mended t (resizeCache (t.ftl.bands.foldl (fun s b => mendBand b.n s) t)) := fun t empty =>
    (Mended.foldl (fun s b empty => mendBand_mended b.n empty) _ empty).trans (resizeCache_mended _)
  refine ⟨_, _, (retired.trans (ftl_mended ?_ ?_)).trans (mended _ ?_), rfl, rfl, rfl⟩
  · rfl
  · rfl
  · exact retired.fill

end Sys2Proof.Proofs
end

section
/-! SUPPORT. The statement on Sanitize (O35): how it begins, and the media, the operation and the mismatch at the end of its format. -/

namespace Sys2Proof.Proofs

open Sys2Proof Sys2Proof.Machine Sys2Proof.Laws

/-! ## The format -/

/-- What the media hold, with the epochs, the staged data and the next ruling. -/
def media (s : State) := (s.map, s.ftl.slots, s.log, s.rec_, s.res.staged, s.nib.next)

/-- `t` has the media of `s` after the format of the Sanitize ruled `r` (R230, R323, R439). -/
structure Cleared (r : Nat) (s t : State) : Prop where
  map : t.map = MapState.empty
  slots : t.ftl.slots = []
  page : ∃ p, t.log.pages = [p] ∧ p.opened = true ∧ p.recs = []
  checkpoints : t.log.cps = []
  records : ∀ x ∈ t.log.buf, x.typ = 0x0A
  sanitize : t.rec_.sanitize = none
  epochs : t.rec_.epochs = (s.rec_.epochs.filter (s.epochAfter r)).map (fun (e : Epoch) => { e with pend := [] })
  profile : t.rec_.profile = s.profile
  failedDies : t.rec_.failedDies = s.rec_.failedDies
  staged : t.res.staged = s.res.staged.filter (fun x => r < x.ruling)
  next : t.nib.next = s.nib.next

theorem Cleared.same {r : Nat} {s t u : State} (h : Cleared r s t) (e : media u = media t) : Cleared r s u := by
  simp only [media, Prod.mk.injEq] at e
  obtain ⟨map, slots, log, records, staged, next⟩ := e
  exact ⟨map ▸ h.map, slots ▸ h.slots, log ▸ h.page, log ▸ h.checkpoints, log ▸ h.records, records ▸ h.sanitize, records ▸ h.epochs, records ▸ h.profile,
    records ▸ h.failedDies, staged ▸ h.staged, next ▸ h.next⟩

theorem formatMedia_cleared (r : Nat) (s : State) : Cleared r s (formatMedia r s) := by
  obtain ⟨_, p, ⟨_, _, _, _, _, _, _, _, rfl, slots, -, recs⟩, e, opened, none_⟩ := formatMedia_eq r s
  rw [e]
  exact ⟨rfl, slots, ⟨p, rfl, opened, none_⟩, rfl, fun x hx => (recs x hx).resolve_left (List.not_mem_nil), rfl, rfl, rfl, rfl, rfl, rfl⟩

/-- The format is no business of the reset state, the straps, the operations, and the channels that have failed. -/
theorem formatMedia_frame (r : Nat) (s : State) : (formatMedia r s).rst = s.rst ∧ (formatMedia r s).strap = s.strap ∧ (formatMedia r s).lops = s.lops
    ∧ (formatMedia r s).dies.chHeld = s.dies.chHeld
    ∧ (formatMedia r s).rec_.failedChannels = s.rec_.failedChannels := by
  obtain ⟨_, _, ⟨_, _, _, _, _, _, _, _, rfl, -⟩, e, -⟩ := formatMedia_eq r s
  rw [e]
  exact ⟨rfl, rfl, rfl, rfl, rfl⟩

/-! ## The mismatch, failures found, and the operation -/

/-- A mismatch ends, and I/O is accepted (R74). -/
theorem endMismatch_eq (s : State) : ∃ strap rst, endMismatch s = { s with strap := strap, rst := rst } ∧ strap.state ≠ 2
    ∧ (s.rst.io = true ∨ s.mismatch = true → rst.io = true) := by
  unfold endMismatch
  split
  · exact ⟨_, _, rfl, by simp, fun _ => rfl⟩
  · next none_ => exact ⟨s.strap, s.rst, rfl, fun e => none_ (decide_eq_true e), fun h => h.resolve_right none_⟩

/-- With no failed channel left to enter, and no die named by the log, nothing is adopted. -/
theorem adoptHeld_of_none {s : State} (held : ∀ c ∈ s.dies.chHeld, c ∈ s.rec_.failedChannels) (named : s.namedDies = []) : adoptHeld s = s := by
  have entered : s.dies.chHeld.filter (· ∉ s.rec_.failedChannels) = [] := by
    rw [List.filter_eq_nil_iff]
    intro c hc
    simpa using held c hc
  unfold adoptHeld
  rw [entered, List.foldl_nil]
  dsimp only
  rw [named, List.foldl_nil]

/-- A log whose pages hold no record names no die. -/
theorem namedDies_of_noRecs {s : State} {p : LogPage} (page : s.log.pages = [p]) (empty : p.recs = []) : s.namedDies = [] := by
  unfold State.namedDies
  rw [page, List.flatMap_singleton, empty]
  rfl

/-- The end of the only operation, which is no rebuild. -/
theorem endOp_only {s : State} {o : LongOp} (only : s.lops.list = [o]) (noRebuild : isRebuild o.typ = false) (open_ : o.final = false) :
    ∃ lands, endOp o.handle 3 0 0 s = { s with lands := lands, lops := { s.lops with list := [endedOp 3 0 0 s o] } } := by
  have found : s.op? o.handle = some o := by simp [State.op?, only]
  obtain ⟨lands, act⟩ := actUpdate_eq (modOp o.handle (endedOp 3 0 0 s) s)
  refine ⟨lands, ?_⟩
  rw [endOp_of_open found open_, noRebuild, if_neg Bool.false_ne_true, act]
  unfold modOp mapIf
  rw [only]
  simp

/-! ## Commands that complete -/

/-- What the completion of commands that wait touches: the commands and what they hold, the rings, ACT, the counters, and the pacing of the pool. -/
structure Concluded (a t : State) : Prop where
  eq : ∃ (lands : Lands) (pcie : Pcie) (nb : Narrow) (pairs : List Pair) (items : List Item) (elog : ErrLog) (health : Health) (out : List Out)
      (claimed : Nat) (reads : List Rd) (collecting : Bool) (pacing : Option Nat),
    t = { a with
        lands := lands, pcie := pcie, nb := nb, nib := { a.nib with pairs := pairs, items := items }, elog := elog, health := health, out := out
        res := { a.res with claimed := claimed }, dies := { a.dies with reads := reads }
        ftl := { a.ftl with collecting := collecting, pacing := pacing } }
      ∧ ∀ j ∈ items, j ∈ a.nib.items

theorem Concluded.refl (a : State) : Concluded a a :=
  ⟨a.lands, a.pcie, a.nb, a.nib.pairs, a.nib.items, a.elog, a.health, a.out, a.res.claimed, a.dies.reads, a.ftl.collecting, a.ftl.pacing, rfl, fun _ h => h⟩

theorem Concluded.trans {a b c : State} (h : Concluded a b) (k : Concluded b c) : Concluded a c := by
  obtain ⟨_, _, _, _, _, _, _, _, _, _, _, _, rfl, items⟩ := h
  obtain ⟨_, _, _, _, _, _, _, _, _, _, _, _, rfl, items'⟩ := k
  exact ⟨_, _, _, _, _, _, _, _, _, _, _, _, rfl, fun j hj => items j (items' j hj)⟩

theorem Concluded.foldl {α : Type} {f : State → α → State} (h : ∀ s x, Concluded s (f s x)) (l : List α) (s : State) : Concluded s (l.foldl f s) := by
  induction l generalizing s with
  | nil => exact .refl s
  | cons x l ih => exact (h s x).trans (ih _)

theorem Answered.concluded {a t : State} (h : Answered a t) : Concluded a t := by
  obtain ⟨lands, pcie, nb, pairs, elog, health, out, rfl⟩ := h
  exact ⟨lands, pcie, nb, pairs, a.nib.items, elog, health, out, a.res.claimed, a.dies.reads, a.ftl.collecting, a.ftl.pacing, rfl, fun _ h => h⟩

theorem removeItem_concluded (i : Item) (s : State) : Concluded s (removeItem i false s) :=
  ⟨s.lands, s.pcie, s.nb, s.nib.pairs, _, s.elog, s.health, s.out, _, _, s.ftl.collecting, s.ftl.pacing, rfl, fun _ h => (List.mem_filter.1 h).1⟩

theorem succeed_concluded (i : Item) (result : Nat) (s : State) : Concluded s (succeed i result s) :=
  (removeItem_concluded i s).trans (complete_answered _ _ _ _).concluded

theorem pool_concluded (collecting : Bool) (pacing : Option Nat) (s : State) :
    Concluded s { s with ftl := { s.ftl with collecting := collecting, pacing := pacing } } :=
  ⟨s.lands, s.pcie, s.nb, s.nib.pairs, s.nib.items, s.elog, s.health, s.out, s.res.claimed, s.dies.reads, collecting, pacing, rfl, fun _ h => h⟩

theorem poolUpdate_concluded (s : State) : Concluded s (poolUpdate s) := by
  have collected : Concluded s (collectUpdate s) := pool_concluded _ s.ftl.pacing s
  unfold poolUpdate
  dsimp only
  split <;> split
  · exact collected.trans (pool_concluded _ _ _)
  · exact collected
  · exact collected.trans (pool_concluded _ _ _)
  · exact collected

theorem completePersistent_concluded (s : State) : Concluded s (completePersistent s) := by
  unfold completePersistent
  refine Concluded.foldl (fun t i => ?_) _ s
  dsimp only
  split
  · exact succeed_concluded _ _ t
  · exact .refl t

section
variable {a t : State} (h : Concluded a t)
include h

theorem Concluded.media : media t = media a := by obtain ⟨_, _, _, _, _, _, _, _, _, _, _, _, rfl, -⟩ := h; rfl
theorem Concluded.rst : t.rst = a.rst := by obtain ⟨_, _, _, _, _, _, _, _, _, _, _, _, rfl, -⟩ := h; rfl
theorem Concluded.strap : t.strap = a.strap := by obtain ⟨_, _, _, _, _, _, _, _, _, _, _, _, rfl, -⟩ := h; rfl
theorem Concluded.lops : t.lops = a.lops := by obtain ⟨_, _, _, _, _, _, _, _, _, _, _, _, rfl, -⟩ := h; rfl
theorem Concluded.items : ∀ j ∈ t.nib.items, j ∈ a.nib.items := by obtain ⟨_, _, _, _, _, _, _, _, _, _, _, _, rfl, items⟩ := h; exact items

end

/-- The command ruled `r`, where it is outstanding, completes. -/
def concludeRuling (r : Nat) (s : State) : State := match s.item? r with | some i => succeed i i.result s | none => s

theorem concludeRuling_concluded (r : Nat) (s : State) : Concluded s (concludeRuling r s) := by
  unfold concludeRuling
  split
  · exact succeed_concluded _ _ s
  · exact .refl s

theorem ruling_of_item? {s : State} {r : Nat} {i : Item} (h : s.item? r = some i) : i.ruling = r := by
  simpa using List.find?_some h

theorem concludeRuling_items {r : Nat} {s : State} {j : Item} (h : j ∈ (concludeRuling r s).nib.items) : j.ruling ≠ r := by
  unfold concludeRuling at h
  split at h
  · next i found =>
    have gone := ((removeItem_without i false s).answered (complete_answered _ _ _ _)).items j |>.1 h
    exact ruling_of_item? found ▸ gone.2 i (List.mem_singleton.2 rfl)
  · next absent => simpa using List.find?_eq_none.1 absent j h

/-! ## The row -/

/-- The format with the mismatch and the operation at their end, before the command completes. -/
def sanitizeEnded (r : Nat) (o : LongOp) (s : State) : State := endOp o.handle 3 0 0 (adoptHeld (endMismatch (formatMedia r s)))

theorem sanitizeEnded_spec {r : Nat} {o : LongOp} {s : State} (only : s.lops.list = [o]) (typ : o.typ = 1) (runs : o.state = 1)
    (held : ∀ c ∈ s.dies.chHeld, c ∈ s.rec_.failedChannels) (serves : s.rst.io = true ∨ s.mismatch = true) :
    Cleared r s (sanitizeEnded r o s) ∧ (sanitizeEnded r o s).rst.io = true ∧ (sanitizeEnded r o s).mismatch = false
      ∧ (sanitizeEnded r o s).lops.list = [{ o with state := 3, outcome := 0, detail := 0, wants := [], progress := 10000 }] := by
  have cleared := formatMedia_cleared r s
  obtain ⟨rst, strap, lops, chHeld, channels⟩ := formatMedia_frame r s
  obtain ⟨strap', rst', ended, noMismatch, io⟩ := endMismatch_eq (formatMedia r s)
  obtain ⟨p, page, -, empty⟩ := cleared.page
  have adopted : adoptHeld (endMismatch (formatMedia r s)) = endMismatch (formatMedia r s) := by
    rw [ended]
    exact adoptHeld_of_none (by rw [chHeld, channels]; exact held) (namedDies_of_noRecs (by exact page) empty)
  obtain ⟨lands, closed⟩ := endOp_only (s := endMismatch (formatMedia r s)) (o := o) (by rw [ended, lops]; exact only) (by rw [typ]; rfl)
    (by simp [LongOp.final, runs])
  unfold sanitizeEnded
  rw [adopted, closed, ended]
  refine ⟨cleared.same rfl, io ?_, decide_eq_false noMismatch, rfl⟩
  rw [rst, State.mismatch, strap]
  exact serves

theorem exec_sanitizeComplete {s : State} {r : Nat} {o : LongOp} (run : s.running = true) (serves : s.rst.io = true ∨ s.mismatch = true)
    (recorded : s.rec_.sanitize = some r) (only : s.lops.list = [o]) (typ : o.typ = 1) (runs : o.state = 1) : exec .sanitizeComplete s
      = .next (settleUp (completePersistent (poolUpdate (concludeRuling r (sanitizeEnded r o { s with out := [] }))))) := by
  have found : State.runningOp { s with out := [] } (· = 1) = some o := by simp [State.runningOp, only, typ, runs]
  have accepts : (s.rst.io || s.mismatch) = true := by simpa using serves
  change execSanitizeComplete s = _
  unfold execSanitizeComplete work answer
  simp only [recorded, found, running_out, run, mismatch_out, accepts, Bool.and_self, ↓reduceIte]
  unfold sanitizeEnded concludeRuling
  generalize endOp o.handle 3 0 0 _ = w
  cases w.item? r <;> rfl

/-- Settles O35: the beginning by the end of the other operations and the new one; the end by the wipe, what the mending of bands leaves alone, and the
completion of commands. -/
theorem sanitizeErasesTheMedia : Obligations.SanitizeErasesTheMedia := by
  refine ⟨fun s f t i begins unique => sanitizeDevice_begins begins unique, fun s r o run serves recorded only typ runs held => ?_⟩
  obtain ⟨cleared, io, noMismatch, list⟩ := sanitizeEnded_spec (r := r) (s := { s with out := [] }) only typ runs held serves
  have rest : Concluded _ (completePersistent (poolUpdate (concludeRuling r (sanitizeEnded r o { s with out := [] })))) :=
    (poolUpdate_concluded _).trans (completePersistent_concluded _)
  have whole := (concludeRuling_concluded r (sanitizeEnded r o { s with out := [] })).trans rest
  obtain ⟨map, slots, ⟨p, page, opened, -⟩, checkpoints, records, sanitize, epochs, profile, failedDies, staged, next⟩ := cleared.same whole.media
  refine ⟨_, p, exec_sanitizeComplete run serves recorded only typ runs, map, slots, page, opened, checkpoints, records, sanitize, ?pending, ?none_,
    profile, failedDies, ?staged, by rw [whole.rst]; exact io, ?mismatch, fun j hj => concludeRuling_items (rest.items j hj), by rw [whole.lops]; exact list, next⟩
  case pending =>
    rw [epochs]
    exact List.forall_mem_map.2 fun _ _ => rfl
  case none_ =>
    intro noItems
    rw [epochs]
    simp [State.epochAfter, noItems]
  case staged =>
    rw [staged]
    exact fun x hx => of_decide_eq_true (List.mem_filter.1 hx).2
  case mismatch =>
    rw [State.mismatch, whole.strap]
    exact noMismatch

end Sys2Proof.Proofs
end

section
/-! SUPPORT. What every row keeps (`Ok`): each row by the effect that it answers. -/

namespace Sys2Proof.Proofs

open Sys2Proof Sys2Proof.Machine Sys2Proof.Laws

/-- The state that an outcome answers is one that work begun in `a` may reach. -/
def Reaches (a : State) (o : Host.Outcome State Fault Refusal) : Prop := ∀ t, o = .next t → Ok a t

section
variable {a s t u : State}

/-! ## The shapes of a row -/

theorem ite_ok {p : Prop} [Decidable p] (h : Ok a t) (k : Ok a u) : Ok a (if p then t else u) := by
  split
  · exact h
  · exact k

/-- An event that leads on from `t`, where it happens. -/
theorem thenGo_ok {p : Prop} [Decidable p] (h : Ok a t) (k : Ok a t → Ok a u) : Ok a (if p then u else t) := ite_ok (k h) h

/-- An event that leads on from `t`, where nothing keeps it from it. -/
theorem elseGo_ok {p : Prop} [Decidable p] (h : Ok a t) (k : Ok a t → Ok a u) : Ok a (if p then t else u) := ite_ok h (k h)

theorem out_ok (out : List Out) (h : Ok a s) : Ok a { s with out := out } := h.upd rfl

/-- A phase in which the module does not run can be entered from every state. -/
theorem phase_ok (p : Phase) (n : p ≠ .run) (h : Ok a s) : Ok a { s with rst := { s.rst with phase := p } } :=
  ⟨h.unit, h.worn, h.dies, h.channels, fun e => absurd e n, fun x => { h.sound x with }⟩

theorem answer_ok {f : State → State} (h : Ok a s) (k : ∀ x, Ok a x → Ok a (f x)) : Reaches a (answer s f) := by
  intro t e
  cases e
  exact k _ (out_ok _ h)

theorem event_ok {c : Bool} {f : State → State} (h : Ok a s) (k : ∀ x, Ok a x → Ok a (f x)) : Reaches a (answer s (onlyIf c f)) :=
  answer_ok h fun x hx => onlyIf_ok hx (k x hx)

theorem work_ok {f : State → State} (h : Ok a s) (k : ∀ x, Ok a x → Ok a (f x)) : Reaches a (work f s) :=
  answer_ok h fun x hx => settleUp_ok (k x hx)

theorem due_ok {c : Bool} {f : State → State} (h : Ok a s) (k : ∀ x, Ok a x → Ok a (f x)) : Reaches a (work (onlyIf c f) s) :=
  work_ok h fun x hx => onlyIf_ok hx (k x hx)

/-- A row of Table 08-1. -/
theorem front_ok {q : Nat} {kind : Entry → Bool} {g : Given} (h : Ok a s) : Reaches a (answer s (ruleFront q kind g)) :=
  answer_ok h fun _ k => ruleFront_ok _ _ _ k

theorem bar_ok {posted : Bool} {f : State → State} (h : Ok a s) (k : ∀ x, Ok a x → Ok a (f x)) : Reaches a (answer s (barAccess posted f)) :=
  answer_ok h fun x hx => barAccess_ok _ _ hx (k x hx)

theorem barDue_ok {posted : Bool} {f : State → State} (h : Ok a s) (k : ∀ x, Ok a x → Ok a (f x)) : Reaches a (work (barAccess posted f) s) :=
  work_ok h fun x hx => barAccess_ok _ _ hx (k x hx)

theorem frame_ok {tag : BitVec 3} {index : Nat} {states : Machine.Task → Bool} {f : State → State} (h : Ok a s) (k : ∀ x, Ok a x → Ok a (f x)) :
    Reaches a (answer s (taskFrame tag index states f)) :=
  answer_ok h fun x hx => taskFrame_ok _ _ _ _ (k x hx) hx

theorem frameDue_ok {tag : BitVec 3} {index : Nat} {states : Machine.Task → Bool} {f : State → State} (h : Ok a s) (k : ∀ x, Ok a x → Ok a (f x)) :
    Reaches a (work (taskFrame tag index states f) s) :=
  work_ok h fun x hx => taskFrame_ok _ _ _ _ (k x hx) hx

theorem receive_ok (typ src : Nat) (value : BitVec 29) (h : Ok a s) : Reaches a (receive typ src value s) :=
  due_ok h fun _ k => takeFrame_ok _ _ _ (k.same rfl)

/-! ## Resets and the start (chapter 04) -/

theorem dumpComplete_ok (ranOut vcc3 good : Bool) (h : Ok a s) : Reaches a (execDumpComplete ranOut vcc3 good s) :=
  event_ok h fun _ k => ite_ok (enterReset_ok _ (out_ok _ (ite_ok (dumpWhole_ok k) k))) (powerOff_ok (out_ok _ (ite_ok (dumpWhole_ok k) k)))

theorem islandRelease_ok (i : Island) (low : Bool) (h : Ok a s) : Reaches a (execIslandRelease i low s) :=
  event_ok h fun _ k => thenGo_ok (armFace_ok _ (setIsland_ok _ _ (thenGo_ok k (ackReaction_ok _ _)))) fun k => k.same rfl

theorem islandClockTimeout_ok (i : Island) (h : Ok a s) : Reaches a (execIslandClockTimeout i s) := by
  refine event_ok h fun x k => ite_ok (recordStall_ok _ _ _ _ (setIsland_ok _ _ k)) ?_
  split
  · exact thenGo_ok (recordStall_ok _ _ _ _ (setIsland_ok _ _ k)) (failChannel_ok _)
  · exact thenGo_ok (recordStall_ok _ _ _ _ k) (selfReset_ok _)

theorem imageCheck_ok (h : Ok a s) : Reaches a (execImageCheck s) :=
  event_ok h fun _ k => ite_ok (runImage_ok _ (k.same rfl)) (thenGo_ok (recordFault_ok _ _ _ _ _ k) (selfReset_ok _))

theorem adminReady_ok (h : Ok a s) : Reaches a (execAdminReady s) :=
  due_ok h fun _ k => ruleTask_ok (ite_ok (k.same rfl) (thenGo_ok (ceilingPage_ok (compareProfile_ok (k.same rfl))) fun k =>
    reachReady_ok (resumeSanitize_ok (journalEpochs_ok k))))

theorem ioReady_ok (h : Ok a s) : Reaches a (execIoReady s) :=
  due_ok h fun _ k => elseGo_ok (adoptHeld_ok (reachReady_ok (k.same rfl))) fun k =>
    queryDoubt_ok (ruleTask_ok (admitMedia_ok (checkWorn_ok (resumeWork_ok (relocateDump_ok (startSweep_ok k))))))

/-! ## The PCI Express face (chapter 06) -/

theorem msixByte_ok (n : Nat) (b : Byte) (h : Ok a s) : Ok a { s with pcie := { s.pcie with msixTable := setMsixByte n b s.pcie.msixTable } } :=
  h.sameBut rfl fun z => { z with msix := setMsixByte_wf _ _ _ z.msix }

/-- A retried request of the module's own, or the local action of FC8. -/
theorem linkAction_ok {f : State → State} (aer : BitVec 32) (h : Ok a s) (k : ∀ x, Ok a x → Ok a (f x)) : Ok a (linkFault aer f s) :=
  linkFault_ok _ _ k h

theorem linkError_ok (e : LinkErr) (aer : BitVec 32) (header : BitVec 128) (h : Ok a s) : Reaches a (execLinkError e aer header s) := by
  refine due_ok h fun x k => ?_
  cases e with
  | corrected => exact reportCorrectable_ok _ (k.same rfl)
  | replay => exact linkAction_ok _ (reportCorrectable_ok _ k) fun _ k => emit_ok _ k
  | surpriseDown => exact linkLost_ok _ (ite_ok (linkAction_ok _ k fun _ k => emit_ok _ k) (emit_ok _ k))
  | fatal down => exact linkLost_ok _ (linkAction_ok _ (reportUncorrectable_ok _ _ _ k) fun _ k => emit_ok _ k)
  | poisonedRequest posted =>
    exact elseGo_ok (setStatus_ok _ (reportUncorrectable_ok _ _ _ k)) (emit_ok _)
  | unsupported posted => exact refuseRequest_ok _ _ k

theorem moduleRequestFailure_ok (ruling q : Nat) (aer : BitVec 32) (h : Ok a s) : Reaches a (execModuleRequestFailure ruling q aer s) := by
  unfold execModuleRequestFailure
  refine work_ok h fun x k => ite_ok (onlyIf_ok k (ringReadFailed_ok q (reportUncorrectable_ok aer 0 false k))) ?_
  split
  · exact k
  · exact ite_ok k (ite_ok (linkAction_ok _ (reportUncorrectable_ok _ _ _ k) fun _ k => emit_ok _ (setItem_ok _ k))
      (linkAction_ok _ (failData_ok _ _ (reportUncorrectable_ok _ _ _ k)) fun _ k => k))

/-! ## Fetching and data (chapter 07) -/

theorem fetchTurn_ok (entries : List Entry) (h : Ok a s) : Reaches a (execFetchTurn entries s) := by
  refine event_ok h fun x k => ?_
  split
  · exact k
  · exact actUpdate_ok (.foldl (noteTurn_ok _ (emit_ok _ (modPair_ok _ _ k))) fun _ _ k => fetchOne_ok _ _ k)

theorem rangeLockGranted_ok (ruling : Nat) (h : Ok a s) : Reaches a (execRangeLockGranted ruling s) := by
  unfold execRangeLockGranted
  refine work_ok h fun x k => ?_
  split
  · exact ite_ok (enterLock_ok _ k) k
  · exact k

theorem writeDataReceived_ok (ruling : Nat) (data : Mem) (segments : List Nat) (h : Ok a s) :
    Reaches a (execWriteDataReceived ruling data segments s) := by
  unfold execWriteDataReceived
  refine work_ok h fun x k => ?_
  split
  · exact ite_ok (receiveWrite_ok _ _ _ (ite_ok k (ackReaction_ok _ _ k))) k
  · exact k

/-! ## Long operations and firmware (chapters 08, 10, 13) -/

theorem sanitizeComplete_ok (h : Ok a s) : Reaches a (execSanitizeComplete s) := by
  unfold execSanitizeComplete
  refine work_ok h fun x k => ?_
  split
  · refine ite_ok (completePersistent_ok (poolUpdate_ok ?_)) k
    have formatted : ∀ r h, Ok a (endOp h 3 0 0 (adoptHeld (endMismatch (formatMedia r x)))) :=
      fun _ _ => endOp_ok _ _ _ _ (adoptHeld_ok (endMismatch_ok (formatMedia_ok _ k)))
    split
    · exact succeed_ok _ _ (formatted _ _)
    · exact formatted _ _
  · exact k

theorem selfTestSegmentDone_ok (ok : Bool) (h : Ok a s) : Reaches a (execSelfTestSegmentDone ok s) := by
  unfold execSelfTestSegmentDone
  refine work_ok h fun x k => ?_
  split
  · exact k
  · exact ite_ok (beginSegment_ok _ k) (ite_ok k (ite_ok (endOp_ok _ _ _ _ k) (ite_ok (endOp_ok _ _ _ _ (segmentFault_ok _ k))
      (ite_ok (endOp_ok _ _ _ _ k) (testWork_ok (modOp_ok _ _ k))))))

theorem calibrationComplete_ok (tables : List DieTable) (h : Ok a s) : Reaches a (execCalibrationComplete tables s) := by
  unfold execCalibrationComplete
  refine work_ok h fun x k => ?_
  split
  · exact k
  · exact ite_ok k (endOp_ok _ _ _ _ ((openMedia_ok k).same rfl))

theorem longOperationSuspended_ok (handle : Nat) (h : Ok a s) : Reaches a (execLongOperationSuspended handle s) := by
  unfold execLongOperationSuspended
  refine work_ok h fun x k => ?_
  split
  · exact ite_ok (reachWanted_ok _ k) k
  · exact k

theorem rebuildComplete_ok (handle : Nat) (h : Ok a s) : Reaches a (execRebuildComplete handle s) := by
  unfold execRebuildComplete
  refine work_ok h fun x k => ?_
  split
  · exact k
  · exact ite_ok k (rebuildNext_ok (endOp_ok _ _ _ _ ((addNote_ok 6 _ k).same rfl)))

theorem bootFlashOperationComplete_ok (ok : Bool) (h : Ok a s) : Reaches a (execBootFlashOperationComplete ok s) := by
  refine due_ok h fun x k => ?_
  split
  · exact ite_ok (swapPassed_ok _ k) (swapFailed_ok _ k)
  · split
    · next d _ piece _ => exact ite_ok (partPassed_ok _ (fun z => (k.sound z).piece _ piece) k) (partFailed_ok _ (fun z => (k.sound z).piece _ piece) k)
    · exact k

theorem firmwareActivationRestart_ok (h : Ok a s) : Reaches a (execFirmwareActivationRestart s) := by
  refine due_ok h fun x k => ?_
  split
  · exact swapImage_ok _ k
  · exact k

/-! ## The narrow bus (chapter 05) -/

theorem selectVersion_ok (tag : BitVec 3) (arg : BitVec 32) (h : Ok a s) : Reaches a (execSelectVersion tag arg s) := by
  refine event_ok h fun x k => ?_
  dsimp only
  split
  · exact illegal_ok _ _ k
  · next legal =>
    have three : bits arg.toNat 0 4 ≤ 3 := by simp at legal; omega
    refine ite_ok (respond_ok _ _ _ k) (respond_ok _ _ _ (k.sameBut rfl fun z => { z with granted := ?_ }))
    simpa using three

theorem versionEffective_ok (h : Ok a s) : Reaches a (execVersionEffective s) := by
  refine event_ok h fun x k => ?_
  split
  · next v w granted =>
    refine k.sameBut rfl fun z => { z with version := ?_, granted := rfl }
    have := z.granted
    simpa [granted] using this
  · exact k

theorem identificationPhaseEntry_ok (h : Ok a s) : Reaches a (execIdentificationPhaseEntry s) :=
  event_ok h fun _ k => k.sameBut rfl fun z => { z with version := Nat.zero_le _, granted := rfl }

theorem hostDataBlock_ok (data : Mem) (crcs : List (BitVec 16)) (h : Ok a s) : Reaches a (execHostDataBlock data crcs s) :=
  due_ok h fun _ k => ite_ok (receiveTaskBlock_ok _ _ k) (ite_ok (receiveSlot_ok _ _ _ k) k)

theorem executeTask_ok (tag : BitVec 3) (arg : BitVec 32) (h : Ok a s) : Reaches a (execExecuteTask tag arg s) :=
  frameDue_ok h fun _ k => ruleTask_ok (respond_ok _ _ _ (handOver_ok (k.same rfl)))

theorem busReset_ok (tag : BitVec 3) (arg : BitVec 32) (h : Ok a s) : Reaches a (execBusReset tag arg s) :=
  due_ok h fun _ k => ite_ok (emit_ok _ (respond_ok _ _ _ (busResetEffect_ok k))) (respond_ok _ _ _ (busResetEffect_ok k))

/-! ## The flash at work (chapters 09, 10, 11) -/

theorem dieProgramComplete_ok (die : Nat) (pass overLoop readBack : Bool) (plane : Nat) (h : Ok a s) :
    Reaches a (execDieProgramComplete die pass overLoop readBack plane s) := by
  refine due_ok h fun x k => ?_
  split
  · split
    · exact reviveRebuild_ok (programDone_ok _ _ _ _ (endDieOp_ok _ k))
    · exact endDieOp_ok _ k
  · exact k

theorem dieEraseComplete_ok (die : Nat) (pass : Bool) (plane : Nat) (h : Ok a s) : Reaches a (execDieEraseComplete die pass plane s) := by
  refine due_ok h fun x k => ?_
  split
  · exact eraseDone_ok _ _ _ _ (endDieOp_ok _ k)
  · exact k

theorem dieReadComplete_ok (die errors : Nat) (h : Ok a s) : Reaches a (execDieReadComplete die errors s) := by
  refine due_ok h fun x k => ?_
  have ended := endDieOp_ok die k
  split
  · dsimp only
    split
    · exact countRead_ok _ _ _ (modRd_ok _ _ ended)
    · exact ended
  · dsimp only
    split
    · exact probeRead_ok _ _ (countRead_ok _ _ _ ended)
    · exact ended
  · exact k

theorem ldpcDecodeComplete_ok (read decoder : Nat) (corrected : Option Nat) (crcOk : Bool) (h : Ok a s) :
    Reaches a (execLdpcDecodeComplete read decoder corrected crcOk s) := by
  refine due_ok h fun x k => ?_
  split
  · exact ite_ok (decoded_ok _ _ _ _ k) k
  · exact k

theorem interfaceTrainingComplete_ok (c : Nat) (ok : Bool) (ids : List Nat) (h : Ok a s) :
    Reaches a (execInterfaceTrainingComplete c ok ids s) :=
  due_ok h fun _ k => ite_ok (checkIds_ok _ _ (ackReaction_ok _ _ (k.same rfl))) (ite_ok (k.same rfl) (failChannel_ok _ k))

theorem garbageCollectionStart_ok (h : Ok a s) : Reaches a (execGarbageCollectionStart s) := by
  refine due_ok h fun x k => ?_
  have ready := collectUpdate_ok k
  dsimp only
  split
  · exact ite_ok (emptied_ok (startEmptying_ok _ _ _ ready)) ready
  · exact ready

theorem settledWaitExpiry_ok (h : Ok a s) : Reaches a (execSettledWaitExpiry s) :=
  due_ok h fun _ k => emptied_ok (.foldl k fun _ _ k => .foldl (modEmptying_ok _ _ k) fun _ _ k => startMove_ok _ _ _ _ k)

theorem foldStart_ok (h : Ok a s) : Reaches a (execFoldStart s) := by
  refine due_ok h fun x k => ?_
  dsimp only
  split
  · exact emptied_ok (startEmptying_ok _ _ _ k)
  · exact foldOpen_ok k

theorem demotion_ok (stroke : Nat) (h : Ok a s) : Reaches a (execDemotion stroke s) := by
  refine due_ok h fun x k => ?_
  have noted : Ok a { x with ftl := { x.ftl with demoting := x.demotes } } := k.same rfl
  dsimp only
  split
  · exact noted
  · exact ite_ok noted (.foldl noted fun _ _ k => startMove_ok _ _ _ _ k)

theorem wearLevelling_ok (h : Ok a s) : Reaches a (execWearLevelling s) := by
  refine due_ok h fun x k => ?_
  dsimp only
  split
  · exact ite_ok (emptied_ok (startEmptying_ok _ _ _ k)) k
  · exact k

theorem patrol_ok (band : Nat) (h : Ok a s) : Reaches a (execPatrol band s) := by
  refine due_ok h fun x k => ?_
  split
  · exact k
  · exact ite_ok k (addSweep_ok _ (.foldl (ite_ok k (wake_ok k)) fun _ _ k => startRdOn_ok _ _ _ _ _ _ k))

theorem ruleEpochDrainLimit_ok (h : Ok a s) : Reaches a (execRuleEpochDrainLimit s) :=
  due_ok h fun _ k => .foldl (.foldl k fun _ _ k => modRd_ok _ _ k) fun _ _ k => enqueue_ok _ (modRd_ok _ _ k)

/-! ## Faults, supplies, and the debug port (chapters 02, 14, 15) -/

theorem safeLevelEnd_ok (h : Ok a s) : Reaches a (execSafeLevelEnd s) :=
  due_ok h fun _ k => thenGo_ok (k.same rfl) fun k => aliveUpdate_ok (addNote_ok _ _ (k.same rfl))

theorem bankReady_ok (mv : Nat) (h : Ok a s) : Reaches a (execBankReady mv s) :=
  event_ok h fun _ k => draw_ok (ite_ok (k.same rfl) k)

theorem bankReadyLost_ok (mv : Nat) (h : Ok a s) : Reaches a (execBankReadyLost mv s) :=
  event_ok h fun _ k => draw_ok (ite_ok k (k.same rfl))

theorem dbgdata_ok (value : BitVec 33) (h : Ok a s) : Reaches a (execDbgdata value s) :=
  due_ok h fun _ k => thenGo_ok (ite_ok (debugWrite_ok _ k) (debugRead_ok k)) fun k => k.same rfl

/-- A third failure refuses DBGUNLK, so that their count stays at most three (R393). -/
theorem dbgunlk_ok (scope : BitVec 8) (verifies : Bool) (h : Ok a s) : Reaches a (execDbgunlk scope verifies s) := by
  intro t e
  change Host.Outcome.next (settleUp (onlyIf _ _ _)) = _ at e
  cases e
  refine settleUp_ok ?_
  unfold onlyIf
  split
  · next offered =>
    have few : s.dbg.fails + 1 ≤ 3 := by
      simp [State.testOffered] at offered
      omega
    exact ite_ok (addNote_ok _ _ (h.same rfl)) (debugFault_ok _ (draw_ok (h.sameBut rfl fun z => { z with debug := few })))
  · exact out_ok _ h

/-! ## The ligature (chapter 16) -/

theorem ligatureFrameSend_ok (differs : Option Nat) (h : Ok a s) : Reaches a (execLigatureFrameSend differs s) := by
  refine due_ok h fun x k => ?_
  split
  · exact k
  · split
    · exact frameSent_ok _ k
    · exact ite_ok (abandonCommits_ok (leaveLigature_ok _ (by decide) k)) (ite_ok (withdrawPrepare_ok k) k)

theorem leaderDecisionTimer_ok (h : Ok a s) : Reaches a (execLeaderDecisionTimer s) := by
  refine due_ok h fun x k => ?_
  split
  · exact k
  · exact ite_ok k (ite_ok (sendFrame_ok _ _ (k.same rfl)) (ite_ok (sendFrame_ok _ _ k) (decideOpen_ok k)))

theorem lrdyRise_ok (h : Ok a s) : Reaches a (execLrdyRise s) := by
  refine due_ok h fun x k => ?_
  replace k : Ok a { x with lig := { x.lig with lrdyHigh := true } } := k.same rfl
  dsimp only
  split
  · refine attemptAll_ok ?_
    split
    · exact succeed_ok _ _ (k.same rfl)
    · exact k.same rfl
  · exact ite_ok (stepFive_ok _ k) k
  · exact attemptAll_ok k

theorem preparePersistent_ok (h : Ok a s) : Reaches a (execPreparePersistent s) := by
  refine due_ok h fun x k => ?_
  split
  · exact ite_ok (sendFrame_ok _ _ (modEpoch_ok _ _ k)) k
  · exact k

theorem prepareTimeout_ok (h : Ok a s) : Reaches a (execPrepareTimeout s) := by
  refine due_ok h fun x k => ?_
  split
  · exact ite_ok (sendFrame_ok _ _ (k.same rfl)) k
  · exact k

theorem commitReleaseTimeout_ok (h : Ok a s) : Reaches a (execCommitReleaseTimeout s) := by
  refine due_ok h fun x k => ?_
  split
  · next n _ =>
    have flagged := flagLatest_ok n (fun e => { e with atLimit := true }) (k.same rfl : Ok a { x with lig := { x.lig with initiating := none } })
    dsimp only
    split
    · exact succeed_ok _ _ flagged
    · exact flagged
  · exact k

theorem preparedQueryTimer_ok (h : Ok a s) : Reaches a (execPreparedQueryTimer s) := by
  refine event_ok h fun x k => ?_
  split
  · exact sendFrame_ok _ _ k
  · exact k

theorem indoubtQueryWindowEnd_ok (h : Ok a s) : Reaches a (execIndoubtQueryWindowEnd s) := by
  refine due_ok h fun x k => ?_
  have dropped : Ok a { x with lig := { x.lig with querying := none, answers := [] } } := k.same rfl
  split
  · exact k
  · next n _ =>
    have decided : Ok a (match x.openEpoch? n with
      | some e => (match x.doubtDecision e true with
        | some f => decideDoubt n f (if x.awake then x else wake x)
        | none => { x with lig := { x.lig with querying := none, answers := [] } })
      | none => { x with lig := { x.lig with querying := none, answers := [] } }) := by
      split
      · split
        · exact decideDoubt_ok _ _ (elseGo_ok k wake_ok)
        · exact dropped
      · exact dropped
    dsimp only
    split
    · exact queryEpoch_ok _ decided
    · exact decided

/-! ## Power and temperature (chapter 17) -/

theorem ps4EntryComplete_ok (h : Ok a s) : Reaches a (execPs4EntryComplete s) :=
  event_ok h fun _ k => enterState_ok _ (by decide) (ite_ok (finishShutdown_ok k) (k.same rfl))

theorem temperatureReading_ok (junction nand : Int) (h : Ok a s) : Reaches a (execTemperatureReading junction nand s) :=
  due_ok h fun _ k => thenGo_ok (raiseStep_ok _ _ (k.same rfl)) (thermalSafeEntry_ok _)

theorem throttleLeave_ok (h : Ok a s) : Reaches a (execThrottleLeave s) :=
  due_ok h fun _ k => powerOfStep_ok (k.sameBut rfl fun z => { z with step := Nat.le_trans (Nat.sub_le _ _) z.step })

theorem thermalSafeExit_ok (h : Ok a s) : Reaches a (execThermalSafeExit s) :=
  due_ok h fun _ k => aliveUpdate_ok (addNote_ok _ _ (powerOfStep_ok (k.same rfl)))

/-! ## Every row -/

/-- Every row but the reset release, which begins a run, leads to a state that work begun in `a` may reach. -/
theorem exec_ok (c : Instr) (n : ∀ high cores decoders, c ≠ .resetRelease high cores decoders) (h : Ok a s) : Reaches a (exec c s) := by
  cases c with
  | resetRelease high cores decoders => exact absurd rfl (n high cores decoders)
  | powerOnReset _ | pinReset => exact event_ok h fun _ k => enterReset_ok _ k
  | powerLoss => exact event_ok h fun _ k => ite_ok (beginDump_ok k) (powerOff_ok k)
  | dumpComplete _ _ _ => exact dumpComplete_ok _ _ _ h
  | sequencerRowRead _ | strapSample _ | faultIslandRelease | dramTrained | clkreqnHostAssert | powerHintExpiry | narrowIdReady | agingClockTick _
  | ejectnRise | bankFaultTimeout _ | aliveEdge | dbgaddr _ | extest _ | ligatureFrameError _ => exact event_ok h fun _ k => k.same rfl
  | resetStretchEnd _ => exact event_ok h fun _ k => ite_ok (phase_ok .extended nofun k) (endStretch_ok _ k)
  | vccqSettled _ => exact event_ok h fun _ k => endStretch_ok _ k
  | islandRelease _ _ => exact islandRelease_ok _ _ h
  | islandClockTimeout _ => exact islandClockTimeout_ok _ h
  | faceSelection _ _ => exact event_ok h fun _ k => ite_ok (k.same rfl) (ite_ok (k.same rfl) k)
  | imageCheck => exact imageCheck_ok h
  | adminReady => exact adminReady_ok h
  | recovery _ _ => exact event_ok h fun _ k => recover_ok _ _ k
  | ioReady => exact ioReady_ok h
  | failedStartLimit => exact event_ok h fun _ k => selfReset_ok _ k
  | linkTrained _ _ _ _ => exact due_ok h fun _ k => drainTx_ok (ackReaction_ok _ _ (k.same rfl))
  | bootstrapEnable => exact barDue_ok h fun _ k => setEnable_ok k
  | bootstrapEnableClear => exact barDue_ok h fun _ k => onlyIf_ok k (clearEnable_ok k)
  | shutdownRequest => exact barDue_ok h fun _ k => setShutdown_ok k
  | shutdownComplete => exact due_ok h fun _ k => endShutdown_ok k
  | bar0RegisterWrite _ _ _ => exact barDue_ok h fun _ k => ite_ok (barWord_ok _ _ k) (ite_ok (barWord_ok _ _ (barWord_ok _ _ k)) k)
  | bar0OversizedRead _ _ => exact bar_ok h fun _ k => ite_ok (abortRequest_ok k) (emit_ok _ k)
  | submissionTailDoorbell _ _ | pair0ResumeDoorbell _ => exact bar_ok h fun _ k => tailDoorbell_ok _ _ k
  | completionHeadDoorbell _ _ => exact bar_ok h fun _ k => headDoorbell_ok _ _ k
  | msixVectorUnmask _ => exact bar_ok h fun _ k => elseGo_ok k fun k => sendPending_ok _ (msixByte_ok _ _ k)
  | hotReset | functionLevelReset => exact due_ok h fun _ k => inband_ok _ (Nat.zero_le _) rfl k
  | linkDown => exact due_ok h fun _ k => emit_ok _ (inband_ok _ (Nat.zero_le _) rfl k)
  | d3hotEntry => exact due_ok h fun _ k => settleD3_ok ((clearEnable_ok k).same rfl)
  | d3hotExit => exact due_ok h fun _ k => wake_ok (inband_ok _ (Nat.zero_le _) rfl k)
  | linkError _ _ _ => exact linkError_ok _ _ _ h
  | moduleRequestFailure _ _ _ => exact moduleRequestFailure_ok _ _ _ h
  | fetchTurn _ => exact fetchTurn_ok _ h
  | admissionStallEnd => exact work_ok h fun _ k => endStalls_ok k
  | rangeLockGranted _ => exact rangeLockGranted_ok _ h
  | writeDataReceived _ _ _ => exact writeDataReceived_ok _ _ _ h
  | readDataDelivered _ _ => exact due_ok h fun _ k => deliverRead_ok _ _ k
  | write _ | read _ | flush _ | release _ | verify _ | planeRead _ | precisionRead _ | createQueuePair | deleteQueuePair | resumeQueue
  | cancelCommand | controllerRestart | awaitEvent | identify _ _ | getLogPage _ _ | getLogPageClear _ _ | getLogPageAcknowledge _ _ | setTime
  | powerHint | createPartition | deletePartition | cap | uncap | fix | setAccess | sanitizeDevice | selfTest | calibrate | operationSuspend
  | operationResume | operationCancel | firmwareDownload _ _ | firmwareActivateNextReset | firmwareActivateImmediate | firmwareActivateOtherBank
  | attest _ | epochCommit | epochResolve | invalidOpcodeCommand _ => exact front_ok h
  | sanitizeComplete => exact sanitizeComplete_ok h
  | selfTestSegmentDone _ => exact selfTestSegmentDone_ok _ h
  | calibrationComplete _ => exact calibrationComplete_ok _ h
  | longOperationSuspended _ => exact longOperationSuspended_ok _ h
  | rebuildComplete _ => exact rebuildComplete_ok _ h
  | bootFlashOperationComplete _ => exact bootFlashOperationComplete_ok _ h
  | firmwareActivationRestart => exact firmwareActivationRestart_ok h
  | selectVersion _ _ => exact selectVersion_ok _ _ h
  | versionEffective => exact versionEffective_ok h
  | identificationPhaseEntry => exact identificationPhaseEntry_ok h
  | readStatus _ _ => exact event_ok h fun _ k => respond_ok _ _ _ k
  | writeTaskRegister _ _ => exact frame_ok h fun _ k => ite_ok (respond_ok _ _ _ (k.same rfl)) (illegal_ok _ _ k)
  | readTaskRegister _ _ => exact frame_ok h fun _ k => ite_ok (respond_ok _ _ _ k) (illegal_ok _ _ k)
  | writeTaskBlock _ _ => exact frame_ok h fun _ k => respond_ok _ _ _ (k.same rfl)
  | readTaskBlock _ _ | sendTuningBlock _ _ => exact frame_ok h fun _ k => emit_ok _ (respond_ok _ _ _ k)
  | executeTask tag arg => exact executeTask_ok tag arg h
  | writeData _ _ => exact frame_ok h fun _ k => ite_ok (illegal_ok _ _ k) (respond_ok _ _ _ (k.same rfl))
  | hostDataBlock _ _ => exact hostDataBlock_ok _ _ h
  | readData _ _ => exact frameDue_ok h fun _ k => readDataFrame_ok _ _ k
  | resumeTask _ _ => exact frameDue_ok h fun _ k => ite_ok (respond_ok _ _ _ (k.same rfl)) (ruleTask_ok (respond_ok _ _ _ (handOver_ok k)))
  | cancelTask _ _ => exact frameDue_ok h fun _ k => respond_ok _ _ _ (ite_ok k (abortTask_ok k))
  | busReset tag arg => exact busReset_ok tag arg h
  | malformedCommandFrame _ => exact event_ok h fun _ k => checkError_ok (k.same rfl)
  | reservedIndexFrame _ _ _ => exact event_ok h fun _ k => illegal_ok _ _ k
  | channelDispatch _ => exact event_ok h fun _ k => dispatch_ok _ k
  | nestedSuspendLimit _ => exact event_ok h fun _ k => resumeDie_ok _ (modDie_ok _ _ k)
  | dieProgramComplete _ _ _ _ _ => exact dieProgramComplete_ok _ _ _ _ _ h
  | dieEraseComplete _ _ _ => exact dieEraseComplete_ok _ _ _ h
  | dieReadComplete _ _ => exact dieReadComplete_ok _ _ h
  | ldpcDecodeComplete _ _ _ _ => exact ldpcDecodeComplete_ok _ _ _ _ h
  | decoderTimeout _ => exact due_ok h fun _ k => removeDecoder_ok _ _ k
  | dieReadyTimeout _ => exact due_ok h fun _ k => ite_ok (modDie_ok _ _ k) (dieFails_ok _ k)
  | dieResetWaitExpiry _ | minimumRunAfterResumeExpiry _ => exact event_ok h fun _ k => modDie_ok _ _ k
  | dieSlowDiversion _ => exact event_ok h fun _ k => divert_ok _ (modDie_ok _ _ k)
  | failureHoldbackExpiry _ => exact due_ok h fun _ k => recordFailure_ok _ _ k
  | logPageFill => exact due_ok h fun _ k => fillPage_ok (openMedia_ok k)
  | logPageVerified => exact due_ok h fun _ k => pageVerified_ok k
  | checkpointStart => exact due_ok h fun _ k => beginCheckpoint_ok (openMedia_ok k)
  | garbageCollectionStart => exact garbageCollectionStart_ok h
  | settledWaitExpiry => exact settledWaitExpiry_ok h
  | foldStart => exact foldStart_ok h
  | demotion _ => exact demotion_ok _ h
  | wearLevelling => exact wearLevelling_ok h
  | patrol _ => exact patrol_ok _ h
  | ejectionWarning => exact due_ok h fun _ k => warn_ok k
  | wpswPinEvent _ => exact event_ok h fun _ k => (ruleEvent_ok k).same rfl
  | bankReady _ => exact bankReady_ok _ h
  | bankReadyLost _ => exact bankReadyLost_ok _ h
  | faultReport _ _ _ _ => exact due_ok h fun _ k => react_ok _ _ _ _ k
  | wireFault _ => exact due_ok h fun _ k => wire_ok _ k
  | islandStall _ _ => exact due_ok h fun _ k => stallFault_ok _ _ k
  | lockstepDisagreement | deviceWatchdogExpiry => exact event_ok h fun _ k => recordLevel_ok _ _ _ _ _ _ k
  | safeLevelEnd => exact safeLevelEnd_ok h
  | scribeWatchdogExpiry _ => exact due_ok h fun _ k => coreFault_ok _ k
  | brownOut _ | vccqOutOfRange _ => exact due_ok h fun _ k => supplyFault_ok _ _ k
  | memoryScrub _ _ _ _ => exact due_ok h fun _ k => memoryFault_ok _ _ _ _ k
  | actHoldExpiry => exact event_ok h fun _ k => actUpdate_ok (k.same rfl)
  | dbgdata _ => exact dbgdata_ok _ h
  | dbgchal => exact event_ok h fun _ k => draw_ok (emit_ok _ (k.same rfl))
  | dbgunlk _ _ => exact dbgunlk_ok _ _ h
  | leaderLckWatchEnd _ => exact event_ok h fun _ k => ite_ok (leaveLigature_ok _ (by decide) k) (k.same rfl)
  | leaderTickTimer | musterTimer => exact event_ok h fun _ k => sendFrame_ok _ _ k
  | leaderCallTimer => exact event_ok h fun _ k => sendFrame_ok _ _ (k.same rfl)
  | ligatureFrameSend _ => exact ligatureFrameSend_ok _ h
  | tick _ _ | call _ _ | present _ _ | muster _ _ | prepare _ _ | members _ _ | ready _ _ | refuse _ _ | commit _ _ | abort _ _ | query _ _
  | state _ _ => exact receive_ok _ _ _ h
  | tickLossTimeout => exact due_ok h fun _ k => attemptAll_ok (leaveLigature_ok _ (by decide) k)
  | lrdyRise => exact lrdyRise_ok h
  | preparePersistent => exact preparePersistent_ok h
  | commitPersistent => exact due_ok h fun _ k => ite_ok k (k.same rfl)
  | prepareTimeout => exact prepareTimeout_ok h
  | commitReleaseTimeout => exact commitReleaseTimeout_ok h
  | leaderDecisionTimer => exact leaderDecisionTimer_ok h
  | preparedQueryTimer => exact preparedQueryTimer_ok h
  | indoubtQueryWindowEnd => exact indoubtQueryWindowEnd_ok h
  | ps2Entry | ps3Entry => exact event_ok h fun _ k => enterState_ok _ (by decide) k
  | ps4Entry => exact event_ok h fun _ k => beginPs4_ok k
  | ps4EntryComplete => exact ps4EntryComplete_ok h
  | wakeEvent => exact due_ok h fun _ k => ruleTask_ok (wake_ok k)
  | temperatureReading _ _ => exact temperatureReading_ok _ _ h
  | throttleLeave => exact throttleLeave_ok h
  | thermalSafeExit => exact thermalSafeExit_ok h
  | interfaceTrainingComplete _ _ _ => exact interfaceTrainingComplete_ok _ _ _ h
  | ruleEpochDrainLimit => exact ruleEpochDrainLimit_ok h

end

/-! ## Reset release -/

/-- The state in which the run that a reset release begins is taken to begin. -/
def inRun (s : State) : State := { s with rst := { s.rst with phase := .run } }

theorem refill_length (tail : List Blot) : (refill tail).length = tail.length := by
  unfold refill
  rw [List.length_reverse, List.length_filterMap_eq_countP, List.countP_eq_length.2, List.length_range]
  intro k below
  simp [List.mem_range.1 below]

/-- What the release takes over from before it: the blotter from the tail, and the ligature's address (R404, R417). -/
def releaseBegun (high : Bool) (s : State) : State :=
  let s := { s with flt := { s.flt with unack := [], counts := List.replicate 16 0 } }
  { s with
    sup := { s.sup with ejectArmed := high && s.ejectUsed }
    flt := { s.flt with blotter := refill s.aon.tail, nextSlot := s.aon.tail.length % 32 }
    lig := { s.lig with state := if s.ligAddress.isSome && !s.recovery then 1 else 0 } }

theorem releaseBegun_ok {a s : State} (high : Bool) (h : Ok a s) : Ok a (releaseBegun high s) := by
  refine h.sameBut rfl fun z => { z with blotter := ?_, ligature := ?_ }
  · show (refill s.aon.tail).length ≤ 32
    rw [refill_length]
    exact Nat.le_trans z.tail (by decide)
  · show (if _ then 1 else 0 : Nat) ≤ 3
    split <;> decide

/-- The start that a reset release begins. -/
def released (high : Bool) (cores decoders : List Nat) (s : State) : State :=
  startTests cores decoders (aliveUpdate (startBank (releaseBegun high (bootChoice { s with rst := { s.rst with phase := .run, timeMs := 0 } }))))

theorem execResetRelease_eq (high : Bool) (cores decoders : List Nat) (s : State) : execResetRelease high cores decoders s
    = answer s (onlyIf (s.rst.phase = .waitRelease) fun s =>
        if (released high cores decoders s).running then releaseFaults (released high cores decoders s) else released high cores decoders s) := rfl

theorem released_ok {a s : State} (high : Bool) (cores decoders : List Nat) (h : Ok a (inRun s)) : Ok a (released high cores decoders s) :=
  startTests_ok _ _ (aliveUpdate_ok (startBank_ok (releaseBegun_ok _ (bootChoice_ok (h.same rfl)))))

/-- A state is one that the run taken to begin in it may reach, whatever its own phase is. -/
theorem inRun_ok (s : State) : Ok (inRun s) s :=
  ⟨rfl, id, fun _ h => h, fun _ h => h, fun _ => ⟨rfl, Nat.le_refl _⟩, fun z => { z with }⟩

/-- A reset release leads to a state that the run it begins may reach. -/
theorem resetRelease_ok {s : State} (high : Bool) (cores decoders : List Nat) : Reaches (inRun s) (exec (.resetRelease high cores decoders) s) := by
  intro t e
  change execResetRelease high cores decoders s = _ at e
  rw [execResetRelease_eq] at e
  cases e
  exact onlyIf_ok (out_ok _ (inRun_ok s)) (thenGo_ok (released_ok _ _ _ ((Ok.refl _).same rfl)) releaseFaults_ok)

theorem exec_sound {c : Instr} {s t : State} (z : s.Sound) (e : exec c s = .next t) : t.Sound := by
  by_cases release : ∃ high cores decoders, c = .resetRelease high cores decoders
  · obtain ⟨high, cores, decoders, rfl⟩ := release
    exact (resetRelease_ok high cores decoders t e).sound { z with }
  · exact (exec_ok c (fun high cores decoders h => release ⟨high, cores, decoders, h⟩) (Ok.refl s) t e).sound z

/-- Settles O3: each row leads to a state that `Ok` allows, from the state itself or, at a reset release, from the run that it begins. -/
theorem everyStepKeepsSoundness : Obligations.EveryStepKeepsSoundness := by
  intro s t z e
  unfold step at e
  split at e
  · cases e
    exact (passMillisecond_ok (out_ok [] (Ok.refl s))).sound z
  · next c rest _ => exact exec_sound (s := { s with pending := rest }) { z with } e

end Sys2Proof.Proofs
end

section
/-! SUPPORT. The state after reset (O4), and what every reset leaves, whatever its cause (Table 04-4). -/

namespace Sys2Proof.Proofs

open Sys2Proof Sys2Proof.Machine Sys2Proof.Laws

theorem reset_sound : State.reset.Sound where
  blotter := by decide
  tail := by decide
  queue := by decide
  errors := by decide
  failed := by decide
  rulings := fun _ h => absurd h List.not_mem_nil
  first := by decide
  power := by decide
  step := by decide
  version := by decide
  granted := rfl
  kinetic := by decide
  debug := by decide
  ligature := by decide
  msix := rfl
  bankA := rfl
  bankB := rfl
  piece := by intro _ h; cases h

/-- Settles O4: soundness field by field, and the stretch by the values of the reset state. -/
theorem resetIsSoundAndInTheStretch : Obligations.ResetIsSoundAndInTheStretch :=
  ⟨reset_sound, rfl, rfl, rfl, by decide, rfl, rfl, rfl, rfl, rfl, rfl, rfl, rfl, rfl, rfl, rfl, rfl, rfl⟩

/-! ## What a reset leaves -/

theorem endByRestart_final (now : Nat) (l : List LongOp) : ∀ o ∈ endByRestart now l, 3 ≤ o.state := by
  unfold endByRestart
  refine List.forall_mem_map.2 fun o _ => ?_
  split
  · exact Nat.le_of_ble_eq_true rfl
  · next final => exact Nat.le_of_not_lt final

theorem enterReset_leaves (k : ResetKind) (s : State) : s.ResetLeaves (enterReset k s) where
  low := ⟨rfl, rfl, rfl⟩
  islands := List.forall_mem_map.2 fun _ _ => rfl
  started := ⟨rfl, rfl, rfl, rfl, rfl⟩
  straps := rfl
  host := ⟨rfl, rfl, rfl, rfl⟩
  logs := ⟨rfl, rfl, rfl, rfl, rfl⟩
  ligature := rfl
  debug := rfl
  ended := endByRestart_final s.rst.timeMs _
  media := ⟨rfl, rfl, rfl, rfl, rfl⟩
  flash := ⟨rfl, rfl, rfl, rfl⟩

/-- What a reset leaves as it stands, of the media and of the boot flash. -/
def stored (s : State) := (s.unit, s.rec_, s.log.pages, s.log.cps, s.ftl.slots, s.boot.bankA, s.boot.bankB, s.boot.swap0, s.boot.swap1)

/-- What a reset leaves is told of the media alone, of the state it is taken in. -/
theorem leaves_of_stored {s u t : State} (k : u.ResetLeaves t) (h : stored u = stored s) : s.ResetLeaves t := by
  simp only [stored, Prod.mk.injEq] at h
  obtain ⟨unit, rec_, pages, cps, slots, bankA, bankB, swap0, swap1⟩ := h
  obtain ⟨unit', rec_', pages', cps', slots'⟩ := k.media
  obtain ⟨bankA', bankB', swap0', swap1'⟩ := k.flash
  exact { k with
    media := ⟨unit'.trans unit, rec_'.trans rec_, pages'.trans pages, cps'.trans cps, slots'.trans slots⟩
    flash := ⟨bankA'.trans bankA, bankB'.trans bankB, swap0'.trans swap0, swap1'.trans swap1⟩ }

/-! ## A reset of the module's own -/

/-- The newest entry stays in the tail (R417). -/
theorem mem_aonTailAdd (b : Blot) (tail : List Blot) : b ∈ aonTailAdd [b] tail := by
  unfold aonTailAdd
  rw [List.length_append, List.length_singleton, List.drop_append_of_le_length (by omega)]
  exact List.mem_append_right _ (List.mem_singleton.2 rfl)

/-- An entry made before every waiting copy stands in the tail at once, where AON can be reached. -/
theorem addBlot_first (kind cls level : Nat) (escalated : Bool) (source : Nat) (detail : BitVec 64) (s : State) :
    addBlot kind cls level escalated source detail true s = { s with
      flt := { s.flt with blotter := blotOf kind cls level escalated source detail s :: s.flt.blotter.take 31, nextSlot := (s.flt.nextSlot + 1) % 32 }
      aon := { s.aon with
        nextSeq := (s.aon.nextSeq + 1) % 2 ^ 32
        tail := if s.aonReachable then aonTailAdd [blotOf kind cls level escalated source detail s] s.aon.tail else s.aon.tail } } := by
  unfold addBlot
  simp only [↓reduceIte]
  cases reach : s.aonReachable
  · exact if_neg (by simpa [State.aonReachable] using reach)
  · exact if_pos (by simpa [State.aonReachable] using reach)

/-- A self-initiated reset is a pin reset with its cause in the tail: the start that fails is counted with it (R78, R94, R95). -/
theorem selfReset_spec (cause : Nat) (s : State) : s.ResetLeaves (selfReset cause s) ∧ (selfReset cause s).rst = { Rst.init with power := false, aonValid := true }
    ∧ (selfReset cause s).aon.failed = (if s.startFails then min 15 (s.aon.failed + 1) else s.aon.failed)
    ∧ (selfReset cause s).aon.resetNo = (s.aon.resetNo + 1) % 65536
    ∧ (s.aonReachable = true → blotOf 0x02 0xFF 5 false 0xFF (BitVec.ofNat 64 cause) s ∈ (selfReset cause s).aon.tail) := by
  unfold selfReset
  rw [addBlot_first]
  refine ⟨leaves_of_stored (enterReset_leaves _ _) rfl, rfl, rfl, rfl, fun reach => ?_⟩
  show _ ∈ (if s.aonReachable then _ else _ : List Blot)
  rw [if_pos reach]
  exact mem_aonTailAdd _ _

/-! ## The hold-up dump begins -/

/-- Commands removed before their completion leave alone what is not the nib's, the reservoir's or the dies'. -/
theorem foldl_removeItem_eq (l : List Item) (s : State) : ∃ items unsettled res dies,
    l.foldl (fun s i => removeItem i true s) s = { s with nib := { s.nib with items := items, unsettled := unsettled }, res := res, dies := dies } := by
  induction l generalizing s with
  | nil => exact ⟨s.nib.items, s.nib.unsettled, s.res, s.dies, rfl⟩
  | cons i l ih =>
    obtain ⟨items, unsettled, res, dies, e⟩ := ih (removeItem i true s)
    exact ⟨items, unsettled, res, dies, e⟩

theorem foldl_removeItem_without (l : List Item) (s : State) : Without l s (l.foldl (fun s i => removeItem i true s) s) := by
  induction l generalizing s with
  | nil => exact .nil s
  | cons i l ih => exact (removeItem_without i true s).append (ih _)

/-- Of the commands, those that have passed their cancel point stay (R344 step 2). -/
theorem dumpAbort_eq (s : State) : ∃ items unsettled res dies,
    dumpAbort s = { s with nib := { s.nib with items := items, unsettled := unsettled }, res := res, dies := dies }
      ∧ ∀ i ∈ items, i ∈ s.nib.items ∧ i.past = true := by
  have removed := foldl_removeItem_without (s.nib.items.filter (fun i => !i.past)) s
  obtain ⟨items, unsettled, res, dies, e⟩ := foldl_removeItem_eq (s.nib.items.filter (fun i => !i.past)) s
  rw [e] at removed
  refine ⟨items, unsettled, res, dies, e, fun i hi => ?_⟩
  obtain ⟨listed, others⟩ := (removed.items i).1 hi
  refine ⟨listed, ?_⟩
  by_contra early
  exact others i (List.mem_filter.2 ⟨listed, by simpa using early⟩) rfl

/-! ## The dump ends -/

/-- The last page of a dump (R344). -/
theorem dumpWhole_pages (s : State) : ∃ l p, (dumpWhole s).log.pages = l ++ [p] ∧ p.dump = true ∧ p.clean = false ∧ p.opened = false :=
  ⟨_, _, rfl, rfl, rfl, rfl⟩

theorem exec_dumpComplete_whole {s : State} (vcc3 good : Bool) (dump : s.rst.phase = .dump) (recovered : s.rst.recovered = true) :
    exec (.dumpComplete false vcc3 good) s = .next (if vcc3 then enterReset (powerKind good) { dumpWhole { s with out := [] } with out := [] }
      else powerOff { dumpWhole { s with out := [] } with out := [] }) := by
  change answer s (onlyIf _ _) = _
  rw [answer_onlyIf_true (by simpa using dump)]
  simp only [recovered, Bool.not_false, Bool.and_self, ↓reduceIte]

/-- A dump that the bank did not outlast, or of a start that had not recovered its map, leaves the media as they stand. -/
theorem exec_dumpComplete_cut {s : State} {ranOut : Bool} (vcc3 good : Bool) (dump : s.rst.phase = .dump) (cut : s.rst.recovered = false ∨ ranOut = true) :
    exec (.dumpComplete ranOut vcc3 good) s = .next (if vcc3 then enterReset (powerKind good) { s with out := [] } else powerOff { s with out := [] }) := by
  have none_ : (s.rst.recovered && !ranOut) = false := by rcases cut with h | h <;> simp [h]
  change answer s (onlyIf _ _) = _
  rw [answer_onlyIf_true (by simpa using dump)]
  simp only [none_, Bool.false_eq_true, ↓reduceIte]

/-- Settles O9: each reset by what `enterReset` leaves, the loss of power by the bank, and the dump's end by the page that it adds last. -/
theorem resetsAreTaken : Obligations.ResetsAreTaken := by
  refine ⟨fun s good hp => ?_, fun s run => ?_, fun s fails => ?_, fun s off dump bank => ?_, fun s run bank => ?_, fun s ranOut good dump cut => ?_,
    fun s ranOut good dump cut => ?_, fun s vcc3 good dump recovered => ?_⟩
  case refine_1 =>
    refine ⟨_, answer_onlyIf_true (by simpa using hp), leaves_of_stored (enterReset_leaves _ _) rfl, rfl, rfl, ?_, ?_, ?_, ?_⟩ <;> cases good <;> rfl
  case refine_2 =>
    exact ⟨_, answer_onlyIf_true run, leaves_of_stored (enterReset_leaves _ _) rfl, rfl, rfl, rfl, rfl, rfl, rfl⟩
  case refine_3 =>
    obtain ⟨leaves, rst, failed, resetNo, cause⟩ := selfReset_spec 3 { s with out := [] }
    refine ⟨_, _, answer_onlyIf_true fails, leaves_of_stored leaves rfl, by rw [rst], ?_, resetNo, fun reach =>
      ⟨cause (by simpa [State.aonReachable] using reach), rfl, rfl, rfl⟩⟩
    rw [failed]
    exact if_pos fails
  case refine_4 =>
    refine ⟨_, answer_onlyIf_true (by simp [off, dump]), ?_⟩
    rw [if_neg (by rcases bank with stopped | bank <;> simp [State.running] at * <;> simp [*])]
    exact ⟨rfl, rfl, rfl, rfl, rfl, rfl, rfl, rfl, rfl⟩
  case refine_5 =>
    have on : s.rst.phase = .run := of_decide_eq_true run
    obtain ⟨items, unsettled, res, dies, e, past⟩ := dumpAbort_eq { s with out := [], nib := { s.nib with stopped := true, fetched := [] } }
    have begun : exec .powerLoss s = .next (beginDump { s with out := [] }) :=
      (answer_onlyIf_true (by simp [on])).trans (congrArg _ (if_pos (by simpa [bank] using run)))
    refine ⟨_, begun, ?_⟩
    unfold beginDump
    rw [e]
    exact ⟨rfl, rfl, rfl, rfl, past, rfl, rfl, rfl, rfl⟩
  case refine_6 =>
    exact ⟨_, exec_dumpComplete_cut true good dump cut, leaves_of_stored (enterReset_leaves _ _) rfl, rfl, by cases good <;> rfl⟩
  case refine_7 =>
    exact ⟨_, exec_dumpComplete_cut false good dump cut, rfl, rfl⟩
  case refine_8 =>
    obtain ⟨l, p, pages, isDump, notClean, notOpened⟩ := dumpWhole_pages { s with out := [] }
    refine ⟨_, l, p, exec_dumpComplete_whole vcc3 good dump recovered, ?_⟩
    cases vcc3
    · exact ⟨rfl, pages, isDump, notClean, notOpened, rfl, rfl⟩
    · exact ⟨rfl, pages, isDump, notClean, notOpened, rfl, rfl⟩

end Sys2Proof.Proofs
end

section
/-! SUPPORT. Get Log Page with Clear and Acknowledge (O32): what is sent, and what the read takes off the page. -/

namespace Sys2Proof.Proofs

open Sys2Proof Sys2Proof.Machine Sys2Proof.Laws

/-! ## The command that begins -/

theorem takes_getLogPageClear {q : Nat} {g : List Nat} {s : State} {f : Fetched} (h : s.Takes (.getLogPageClear q g) q f) :
    Entry.opcode f.entry = 0x89 ∧ logClear f.entry = true := by
  obtain ⟨k, hk, hf⟩ := h
  obtain ⟨-, rfl⟩ := by simpa [State.hostRow] using hk
  simpa [isOp] using hf

theorem takes_getLogPageAcknowledge {q : Nat} {g : List Nat} {s : State} {f : Fetched} (h : s.Takes (.getLogPageAcknowledge q g) q f) :
    Entry.opcode f.entry = 0x89 ∧ logClear f.entry = false ∧ logAck f.entry = true := by
  obtain ⟨k, hk, hf⟩ := h
  obtain ⟨-, rfl⟩ := by simpa [State.hostRow] using hk
  simpa [isOp, and_assoc] using hf

/-- A Get Log Page that begins: its item, and what its admission leaves of what the pages show. -/
structure LogRead (s t : State) (q : Nat) (g : List Nat) (f : Fetched) (i : Item) : Prop where
  entry : i.entry = f.entry
  pair : i.q = q
  narrow : i.narrow = false
  well : i.well = s.wellOf q
  segs : i.segs = g
  out : t.out = []
  aon : t.aon = s.aon
  flt : t.flt = s.flt
  rst : t.rst = s.rst
  pcie : t.pcie = s.pcie

theorem logRead_of_begins {c : Instr} {q : Nat} {g : List Nat} {s t : State} {f : Fetched} {i : Item} (h : s.Begins c q f t i)
    (op : Entry.opcode f.entry = 0x89) (given_ : (rowGiven c).segs = g) : LogRead s t q g f i := by
  obtain ⟨v, e, hd, a, w, p, x, y, z, rfl, entry, -, narrow, pair, -, -, -, -, well, -, -, -, -, -, -, -, -, -, -, segs, -⟩ := begins_eq h (by rw [op]; decide)
  exact ⟨entry, pair, narrow, well, segs.trans given_, rfl, rfl, rfl, rfl, rfl⟩

/-- What a Get Log Page sends: the bytes asked for, in writes within Max Payload Size (R150, R220, R221). -/
def logData (i : Item) (g : List Nat) (mps : Nat) (page : Mem) : Out :=
  .hostData i.q (Entry.cid i.entry) { len := Entry.length i.entry, data := Mem.slice 0 (Entry.length i.entry) (Mem.slice (Entry.w30 i.entry) (Entry.length i.entry) page) }
    false ((i.pieces g).flatMap (cut (min mps 512)))

/-- The state with Clear or Acknowledge done (R221). -/
def logTaken (i : Item) (s : State) : State :=
  if !i.listFits then s
  else if logClear i.entry && Entry.b2C i.entry = 4 then clearCause i.well s
  else if logClear i.entry && Entry.b2C i.entry = 5 then clearEvents s
  else if logAck i.entry && Entry.b2C i.entry = 3 then acknowledgeRead (Entry.w30 i.entry) (Entry.length i.entry) s
  else s

section
variable {c : Instr} {q : Nat} {g : List Nat} {s t : State} {f : Fetched} {i : Item}

theorem LogRead.listFits (r : LogRead s t q g f i) (fit : segmentsFit i.entry g = true) : i.listFits = true := by
  unfold Item.listFits
  rw [r.segs, fit, Bool.or_true]

/-- The page goes out as it stood, and the command completes. -/
theorem exec_getLog (h : s.Begins c q f t i) (r : LogRead s t q g f i) (op : Entry.opcode f.entry = 0x89) (fit : segmentsFit i.entry g = true) :
    exec c s = .next (settleUp (succeed i (t.logPage (Entry.b2C i.entry) i.well).1
      (post (logData i g (logTaken i t).pcie.host.mps (Mem.ofFields (t.logPage (Entry.b2C i.entry) i.well).2)) (logTaken i t)))) := by
  have plain : isBlockCmd (Entry.opcode i.entry) = false := by rw [r.entry, op]; decide
  rw [exec_of_begins h, begin_admits h.2.2]
  simp only [r.entry, op]
  rw [← r.entry]
  unfold runGetLog structure_
  rw [if_pos (r.listFits fit)]
  unfold deliver
  simp only [r.narrow, Bool.false_and, Bool.false_eq_true, ↓reduceIte]
  unfold writeHost
  rw [plain, Bool.and_false, r.segs]
  rfl

end

/-! ## What is sent -/

/-- What the module sends goes out, or waits in the transmit path while the host keeps Bus Master off. -/
theorem post_lengths (o : Out) (s : State) : (post o s).out.length = s.out.length + (if s.busMaster = true then 1 else 0)
    ∧ (post o s).pcie.tx.length = s.pcie.tx.length + (if s.busMaster = true then 0 else 1) ∧ (post o s).flt = s.flt ∧ (post o s).nib = s.nib := by
  unfold post
  split
  · next => simp [emit]
  · next => simp

/-! ## What the read takes off the page -/

/-- A well's bit taken out of a sticky mask: that bit reads 0, every other as before. -/
theorem getLsbD_wellCleared (b : BitVec 64) (w v : Nat) :
    (b &&& ~~~(BitVec.ofNat 64 (2 ^ w))).getLsbD v = (b.getLsbD v && decide (v ≠ w)) := by
  by_cases inside : v < 64
  · rw [BitVec.getLsbD_and, BitVec.getLsbD_not, BitVec.getLsbD_ofNat, Nat.testBit_two_pow]
    simp [inside, eq_comm]
  · simp [BitVec.getLsbD_of_ge b v (by omega)]

/-- With no cause of the safe level there is none to end. -/
theorem endSafe_of_safe_nil (l : List Unack) {s : State} (h : s.flt.safe = []) : endSafe l s = s := by
  unfold endSafe
  simp [h]

/-- Where the read itself acknowledges none, none is acknowledged. -/
theorem ackSet_of_none (direct held : Unack → Bool) : ∀ l : List Unack, (∀ u ∈ l, direct u = false) → ackSet direct held l = ([], [])
  | [], _ => rfl
  | u :: us, h => by
    have rest := ackSet_of_none direct held us (fun x hx => h x (List.mem_cons_of_mem u hx))
    simp [ackSet, rest, h u List.mem_cons_self]

theorem acknowledgeRead_of_none (off len : Nat) {s : State} (h : ∀ u ∈ s.flt.unack, u.level ≠ 3 ∧ u.level ≠ 4) (calm : s.flt.safe = []) :
    (acknowledgeRead off len s).flt.unack = s.flt.unack ∧ (acknowledgeRead off len s).flt.blotter = s.flt.blotter := by
  have none_ : ackSet (s.directlyAcked off len) (fun u => s.entryReturned off len u.seq) s.flt.unack = ([], []) :=
    ackSet_of_none _ _ _ fun u hu => by simp [State.directlyAcked, h u hu]
  unfold acknowledgeRead
  rw [none_, endSafe_of_safe_nil _ (by exact calm)]
  exact ⟨rfl, rfl⟩

/-- A read that returns the entry of the one fault held acknowledges that fault (R403). -/
theorem ackSet_of_returned {off len : Nat} {s : State} {u : Unack} {b : Blot} (unack : s.flt.unack = [u]) (level : u.level = 3) (blot : s.flt.blotter = [b])
    (seq : b.seq = u.seq) (kind : b.kind = 1) (from_ : off ≤ 0x40 + 32 * b.slot) (to_ : 0x40 + 32 * b.slot + 32 ≤ off + len) :
    (ackSet (s.directlyAcked off len) (fun u => s.entryReturned off len u.seq) s.flt.unack).2 = [u] := by
  have returned : s.entryReturned off len u.seq = true := by simp [State.entryReturned, blot, seq, kind, from_, to_]
  simp [unack, ackSet, State.directlyAcked, level, returned]

theorem acknowledgeRead_of_returned {off len : Nat} {s : State} {u : Unack} {b : Blot} (unack : s.flt.unack = [u]) (level : u.level = 3)
    (blot : s.flt.blotter = [b]) (seq : b.seq = u.seq) (kind : b.kind = 1) (from_ : off ≤ 0x40 + 32 * b.slot) (to_ : 0x40 + 32 * b.slot + 32 ≤ off + len)
    (calm : s.flt.safe = []) : acknowledgeRead off len s = { s with flt := { s.flt with
      unack := [], blotter := [{ b with acked := true, hostAcked := true }],
      containedParts := s.flt.containedParts.filter (fun x => x.2 ≠ u.seq) } } := by
  unfold acknowledgeRead
  rw [ackSet_of_returned unack level blot seq kind from_ to_, endSafe_of_safe_nil _ (by exact calm)]
  simp [acknowledge, unack, blot, seq, mapIf, eq_comm]

/-! ## O32 -/

/-- Settles O32: the command admitted is the Get Log Page of the entry; the page goes out as it stood, and Clear and Acknowledge take from it what R102, R219
and R403 name. -/
theorem logPagesClearAndAcknowledge : Obligations.LogPagesClearAndAcknowledge := by
  unfold Obligations.LogPagesClearAndAcknowledge
  refine ⟨?cause, ?events, ?acknowledged, ?none_⟩
  case cause =>
    intro s q g f t i begins fit page
    obtain ⟨op, clear⟩ := takes_getLogPageClear begins.2.1
    have r : LogRead s t q g f i := logRead_of_begins begins op rfl
    have taken : logTaken i t = clearCause (s.wellOf q) t := by simp [logTaken, r.listFits fit, page, r.entry ▸ clear, ← r.well]
    have shown : t.resetCause (s.wellOf q) = s.resetCause (s.wellOf q) := by simp [State.resetCause, State.recovery, r.aon, r.rst]
    refine ⟨(clearCause (s.wellOf q) s).aon, _, ?_, rfl, getLsbD_wellCleared _ _, getLsbD_wellCleared _ _, rfl, rfl, rfl⟩
    rw [exec_getLog begins r op fit, taken, page]
    unfold logData State.logPage clearCause
    simp only [r.pcie, r.pair, r.aon, r.well, shown]
  case events =>
    intro s q g f t i begins fit page
    obtain ⟨op, clear⟩ := takes_getLogPageClear begins.2.1
    have r : LogRead s t q g f i := logRead_of_begins begins op rfl
    have taken : logTaken i t = clearEvents t := by simp [logTaken, r.listFits fit, page, r.entry ▸ clear]
    have shown : t.eventsPage = s.eventsPage := by simp [State.eventsPage, r.flt]
    refine ⟨_, ?_, rfl⟩
    rw [exec_getLog begins r op fit, taken, page]
    unfold logData State.logPage clearEvents
    simp only [r.pcie, r.pair, r.flt, shown]
  case acknowledged =>
    intro s q g f t i u b begins fit page unack level blot seq kind from_ to_ calm
    obtain ⟨op, clear, ack⟩ := takes_getLogPageAcknowledge begins.2.1
    have r : LogRead s t q g f i := logRead_of_begins begins op rfl
    have taken : logTaken i t = acknowledgeRead (Entry.w30 i.entry) (Entry.length i.entry) t := by
      simp [logTaken, r.listFits fit, page, r.entry ▸ clear, r.entry ▸ ack]
    rw [← r.flt] at unack blot calm
    rw [acknowledgeRead_of_returned unack level blot seq kind from_ to_ calm] at taken
    have master : t.busMaster = s.busMaster := by simp [State.busMaster, r.pcie]
    refine ⟨_, by rw [exec_getLog begins r op fit, page]; rfl, ?_⟩
    obtain ⟨out, tx, flt, nib⟩ := post_lengths (logData i g (logTaken i t).pcie.host.mps (Mem.ofFields (t.logPage 3 i.well).2)) (logTaken i t)
    rw [out, tx, flt, nib, taken]
    simp [State.busMaster, r.out, r.pcie, r.flt]
  case none_ =>
    intro s q g f t i begins fit page low calm
    obtain ⟨op, clear, ack⟩ := takes_getLogPageAcknowledge begins.2.1
    have r : LogRead s t q g f i := logRead_of_begins begins op rfl
    have taken : logTaken i t = acknowledgeRead (Entry.w30 i.entry) (Entry.length i.entry) t := by
      simp [logTaken, r.listFits fit, page, r.entry ▸ clear, r.entry ▸ ack]
    rw [← r.flt] at low calm ⊢
    obtain ⟨unack, blot⟩ := acknowledgeRead_of_none (Entry.w30 i.entry) (Entry.length i.entry) low calm
    refine ⟨_, by rw [exec_getLog begins r op fit, page]; rfl, ?_⟩
    obtain ⟨-, -, flt, -⟩ := post_lengths (logData i g (logTaken i t).pcie.host.mps (Mem.ofFields (t.logPage 3 i.well).2)) (logTaken i t)
    rw [flt, taken]
    exact ⟨unack, blot⟩

end Sys2Proof.Proofs
end

section
/-! SUPPORT. The selection of the host face (O12), the image check and admin ready (O13), with what a fault below the safe level leaves. -/

namespace Sys2Proof.Proofs

open Sys2Proof Sys2Proof.Machine Sys2Proof.Laws

/-- Settles O12: the two events that count, that of an armed face, are told apart, and a tie goes by the preferred face. -/
theorem theFirstEventSelectsTheFace : Obligations.TheFirstEventSelectsTheFace := by
  unfold Obligations.TheFirstEventSelectsTheFace
  intro s ts1 frame running open_
  change answer s (onlyIf (s.running && s.rst.face = .none) _) = _
  rw [answer_onlyIf_true (by simp [running, open_])]
  simp only [show State.sa0 { s with out := [] } = s.sa0 from rfl, Bool.and_eq_true, Bool.or_eq_true, Bool.not_eq_true', Bool.and_eq_false_iff, decide_eq_true_eq,
    and_assoc, or_assoc]


/-! ## A fault below the safe level -/

/-- `t` is `a` after a fault below the safe level: the collector, AON and the counters hold it, and at most an Await Event was answered. -/
structure Noted (a t : State) : Prop where
  eq : ∃ (flt : Flt) (aon : Aon) (health : Health), Concluded { a with flt := flt, aon := aon, health := health } t
    ∧ aon.failed = a.aon.failed ∧ aon.resetNo = a.aon.resetNo

/-- An event goes to the oldest Await Event, or waits in the collector. -/
theorem deliverEvent_concluded (s : State) : ∃ events, Concluded { s with flt := { s.flt with events := events } } (deliverEvent s) := by
  unfold deliverEvent
  split
  · exact ⟨_, .refl s⟩
  split
  · exact ⟨_, .refl s⟩
  · exact ⟨_, succeed_concluded _ _ _⟩

theorem raiseEvent_noted {a : State} {flt : Flt} {aon : Aon} {health : Health} (failed : aon.failed = a.aon.failed) (resetNo : aon.resetNo = a.aon.resetNo)
    (cls level seq : Nat) : Noted a (raiseEvent cls level seq { a with flt := flt, aon := aon, health := health }) := by
  obtain ⟨events, concluded⟩ := deliverEvent_concluded { a with flt := { flt with events := flt.events.set cls _ }, aon := aon, health := health }
  exact ⟨_, _, _, concluded, failed, resetNo⟩

/-- An entry behind the waiting copies leaves the counts of AON. -/
theorem addBlot_waiting (kind cls level : Nat) (escalated : Bool) (source : Nat) (detail : BitVec 64) (s : State) :
    ∃ aon, addBlot kind cls level escalated source detail false s = { s with
      flt := { s.flt with blotter := blotOf kind cls level escalated source detail s :: s.flt.blotter.take 31, nextSlot := (s.flt.nextSlot + 1) % 32 }
      aon := aon } ∧ aon.failed = s.aon.failed ∧ aon.resetNo = s.aon.resetNo := by
  obtain ⟨aon, e⟩ := addBlot_front kind cls level escalated source detail s
  refine ⟨aon, e, ?_⟩
  have counts := congrArg (fun t : State => (t.aon.failed, t.aon.resetNo)) e
  simp only [addBlot, aonDrain, Bool.false_eq_true, ↓reduceIte, apply_ite State.aon, apply_ite Aon.failed, apply_ite Aon.resetNo, ite_self, Prod.mk.injEq] at counts
  exact ⟨counts.1.symm, counts.2.symm⟩

theorem recordLevel_noted {cls base level source cause : Nat} {detail : BitVec 64} {s : State} (stop : s.flt.stopping = false) (low : level < 4) :
    Noted s (recordLevel cls base level source detail cause s) := by
  unfold recordLevel
  dsimp only
  obtain ⟨aon, e, failed, resetNo⟩ := addBlot_waiting 0x01 cls level (level ≠ base) source detail
    { s with flt := { s.flt with counts := s.flt.counts.set cls (sat 32 (s.flt.counts.getD cls 0 + 1)) }
             health := { s.health with faults := s.health.faults.set cls (sat 32 (s.health.faults.getD cls 0 + 1)) } }
  rw [e]
  simp only [stop, Bool.false_eq_true, ↓reduceIte, if_neg (show ¬ level = 5 by omega), if_neg (show ¬ level = 4 by omega)]
  exact raiseEvent_noted (a := s) failed resetNo _ _ _

section
variable {a t : State} (h : Noted a t)
include h

theorem Noted.rst : t.rst = a.rst := by
  obtain ⟨_, _, _, ⟨_, _, _, _, _, _, _, _, _, _, _, _, rfl, -⟩, -⟩ := h
  rfl

theorem Noted.running : t.running = a.running := congrArg (fun r : Rst => decide (r.phase = .run)) h.rst

theorem Noted.stored : stored t = stored a := by
  obtain ⟨_, _, _, ⟨_, _, _, _, _, _, _, _, _, _, _, _, rfl, -⟩, -⟩ := h
  rfl

theorem Noted.startFails : t.startFails = a.startFails := by
  obtain ⟨_, _, _, ⟨_, _, _, _, _, _, _, _, _, _, _, _, rfl, -⟩, -⟩ := h
  rfl

theorem Noted.aonCounts : t.aon.failed = a.aon.failed ∧ t.aon.resetNo = a.aon.resetNo := by
  obtain ⟨_, _, _, ⟨_, _, _, _, _, _, _, _, _, _, _, _, rfl, -⟩, counts⟩ := h
  exact counts

/-- A self-initiated reset after such a fault, with the start that fails counted. -/
theorem Noted.selfReset (cause : Nat) : a.ResetLeaves (selfReset cause t)
    ∧ (selfReset cause t).aon.failed = (if a.startFails then min 15 (a.aon.failed + 1) else a.aon.failed)
    ∧ (selfReset cause t).aon.resetNo = (a.aon.resetNo + 1) % 65536 := by
  obtain ⟨leaves, -, failed, resetNo, -⟩ := selfReset_spec cause t
  rw [h.startFails, h.aonCounts.1] at failed
  rw [h.aonCounts.2] at resetNo
  exact ⟨leaves_of_stored leaves h.stored, failed, resetNo⟩

end

/-- With no fault unacknowledged a fault has its own level (R401). -/
theorem recordFault_noted {cls base source cause : Nat} {detail : BitVec 64} {s : State} (unack : s.flt.unack = []) (stop : s.flt.stopping = false) (low : base < 4) :
    Noted s (recordFault cls base source detail cause s) := by
  unfold recordFault
  rw [levelFor_of_unack_nil unack]
  exact recordLevel_noted stop low

/-! ## The image, the DRAM and admin ready -/

/-- With no entry fetched the narrow face has no task to rule. -/
theorem ruleTask_of_noFetched {s : State} (h : s.nib.fetched = []) : ruleTask s = s := by
  unfold ruleTask
  simp [h]

theorem ceilingPage_ceiling (s : State) :
    (ceilingPage s).nib.ceiling = (match newestPage s.log.pages with | some p => p.ceiling | none => 1) + 0x100000000 := by
  unfold ceilingPage
  cases newestPage s.log.pages <;> rfl

/-- A record of ready touches BOOT alone. -/
theorem readySwap_eq (s : State) : ∃ boot, readySwap s = { s with boot := boot } := by
  unfold readySwap
  split
  · exact ⟨_, rfl⟩
  split <;> exact ⟨_, rfl⟩

theorem reachReady_eq (s : State) : ∃ boot, reachReady s =
    { s with aon := { s.aon with failed := 0 }, health := { s.health with starts := sat 32 (s.health.starts + 1) }, boot := boot } := readySwap_eq _

theorem resumeSanitize_eq (s : State) : ∃ lops, resumeSanitize s = { s with lops := lops } := by
  unfold resumeSanitize
  split <;> exact ⟨_, rfl⟩

/-- A start with a strap mismatch is ready at admin ready, and resumes its Sanitize alone (R73, R93). -/
theorem reachReady_resumeSanitize_eq (s : State) : ∃ lops boot, reachReady (resumeSanitize s) = { s with
    lops := lops, aon := { s.aon with failed := 0 }, health := { s.health with starts := sat 32 (s.health.starts + 1) }, boot := boot } := by
  obtain ⟨lops, resumed⟩ := resumeSanitize_eq s
  rw [resumed]
  exact ⟨lops, reachReady_eq { s with lops := lops }⟩

/-- What admin ready does to a start, before the first narrow task is ruled. -/
def adminReached (s : State) : State :=
  { s with out := [], rst := { s.rst with admin := true }, pcie := { s.pcie with ready := s.pcie.ready || (s.pair? 0).isSome } }

section
variable {s : State} (run : s.running = true) (early : s.rst.admin = false) (released : s.ordersDone 4 = true) (fetched : s.nib.fetched = [])
include run early released fetched

/-- In minimal recovery mode neither image nor DRAM is waited for (R100). -/
theorem exec_adminReady_recovery (recovery : s.recovery = true) : exec .adminReady s = .next (settleUp (adminReached s)) := by
  change work (onlyIf (s.running && !s.rst.admin && s.ordersDone 4 && (s.recovery || (s.rst.imageRuns && s.rst.dram))) _) s = _
  rw [work_onlyIf_true (by simp [run, early, released, recovery])]
  have mode : (adminReached s).recovery = true := recovery
  change Host.Outcome.next (settleUp (ruleTask (if (adminReached s).recovery then adminReached s else _))) = _
  rw [mode, if_pos rfl, ruleTask_of_noFetched (s := adminReached s) fetched]

section
variable (normal : s.recovery = false) (image : s.rst.imageRuns = true) (dram : s.rst.dram = true)
include normal image dram

theorem exec_adminReady_normal (t : State) (reached : (if mismatchMap s.rec_.profile s.profile = 0 then ceilingPage (compareProfile (adminReached s))
      else reachReady (resumeSanitize (journalEpochs (ceilingPage (compareProfile (adminReached s)))))) = t) (still : t.nib.fetched = s.nib.fetched) :
    exec .adminReady s = .next (settleUp t) := by
  subst reached
  change work (onlyIf (s.running && !s.rst.admin && s.ordersDone 4 && (s.recovery || (s.rst.imageRuns && s.rst.dram))) _) s = _
  rw [work_onlyIf_true (by simp [run, early, released, image, dram])]
  have mode : (adminReached s).recovery = false := normal
  have state : (ceilingPage (compareProfile (adminReached s))).mismatch = decide (mismatchMap s.rec_.profile s.profile ≠ 0) := by
    change decide ((if mismatchMap s.rec_.profile s.profile = 0 then (0 : BitVec 8) else 2) = 2) = _
    split <;> simp [*]
  change Host.Outcome.next (settleUp (ruleTask (if (adminReached s).recovery then adminReached s
    else if (ceilingPage (compareProfile (adminReached s))).mismatch then reachReady (resumeSanitize (journalEpochs (ceilingPage (compareProfile (adminReached s)))))
    else ceilingPage (compareProfile (adminReached s))))) = _
  rw [mode, if_neg Bool.false_ne_true, state]
  simp only [decide_eq_true_eq, ne_eq, ite_not]
  rw [ruleTask_of_noFetched (still.trans fetched)]

end
end

/-- Settles O13: the failed check by the fault and the reset that it makes, admin ready by the comparison of the profile. -/
theorem theStartReachesAdminReady : Obligations.TheStartReachesAdminReady := by
  unfold Obligations.TheStartReachesAdminReady
  refine ⟨?runs, ?fails, ?trained, ?recovery, ?matches_, ?mismatches⟩
  case runs =>
    intro s run normal waits released passes
    refine ⟨(runImage s.rst.bank s).boot, ?_, rfl, rfl, rfl, rfl, rfl, rfl⟩
    change answer s (onlyIf (s.running && !s.recovery && !s.rst.imageRuns && s.ordersDone 2) _) = _
    rw [answer_onlyIf_true (by simp [run, normal, waits, released]), if_pos (show State.imagePasses { s with out := [] } s.rst.bank = true from passes)]
    rfl
  case fails =>
    intro s run normal waits io admin released bad unack stop
    have noted := recordFault_noted (s := { s with out := [] }) (cls := 7) (base := 2) (source := 0x0A) (cause := 2)
      (detail := BitVec.ofNat 64 (bankBase s.rst.bank)) unack stop (by decide)
    obtain ⟨leaves, failed, resetNo⟩ := noted.selfReset 4
    have ends : s.startFails = true := by simp [State.startFails, State.reachedReady, run, normal, io, admin]
    refine ⟨_, ?_, leaves_of_stored leaves rfl, failed.trans (if_pos ends), resetNo⟩
    change answer s (onlyIf (s.running && !s.recovery && !s.rst.imageRuns && s.ordersDone 2) _) = _
    rw [answer_onlyIf_true (by simp [run, normal, waits, released])]
    refine congrArg Host.Outcome.next ((if_neg ?_).trans (if_pos (noted.running.trans run)))
    exact (Bool.eq_false_iff.1 (show State.imagePasses { s with out := [] } s.rst.bank = false from bad))
  case trained =>
    intro s run image
    change answer s (onlyIf (s.running && s.rst.imageRuns) _) = _
    rw [answer_onlyIf_true (by simp [run, image])]
  case recovery =>
    intro s run early released recovery fetched
    exact exec_adminReady_recovery run early released fetched recovery
  case matches_ =>
    intro s run early released normal image dram fetched same
    exact ⟨ceilingPage (compareProfile (adminReached s)), exec_adminReady_normal run early released fetched normal image dram _ (if_pos same) rfl, rfl,
      if_pos same, rfl, rfl, ceilingPage_ceiling _, List.length_append, rfl, rfl⟩
  case mismatches =>
    intro s run early released normal image dram fetched other _ _
    obtain ⟨lops, boot, ready⟩ := reachReady_resumeSanitize_eq (journalEpochs (ceilingPage (compareProfile (adminReached s))))
    exact ⟨_, exec_adminReady_normal run early released fetched normal image dram _ ((if_neg other).trans ready) rfl, rfl, if_neg other, rfl, rfl, rfl⟩

end Sys2Proof.Proofs
end

section
/-! SUPPORT. The end of a start (O14): a die that the map log names, and that fails at I/O ready with a fault of its class at the safe level, stops
the module (R308, R401), and the single-level band of the stroke-only clause stays where it is. -/

namespace Sys2Proof.Proofs

open Sys2Proof Sys2Proof.Machine Sys2Proof.Laws

/-- A single-level host band, closed, as a hold-up dump leaves it (R470). -/
def dumpedBand : Band :=
  { n := 16, tlc := false, st := .closed, chans := List.range 16, nextPos := 184320, nextWl := 769, erases := 1, cache := false, closedAt := 1, stamps := []
    blks := [], refresh := none, soft := [], softBefore := [], retireAfter := [], eraseWait := [] }

/-- The block of device block 0, in that band. -/
def dumpedSlot : Slot :=
  { n := 16 * bandSlots
    cw := { block := 0, ruling := 1, part := 1, pad := false, poisoned := false, relocated := false, system := false, stream := 0, temp := 0, wall := 0
            aging := 0, data := [] } }

/-- A log page with the record that die 5 was found failed, its failure held back at the stop (R309). -/
def namingPage : LogPage :=
  { seq := 0, clean := false, opened := false, dump := true, recs := [mkRec 0 0x0A 0 (.die 5)], settled := 1, ceiling := 0x100000000, wall := 0, powerOn := 0
    cpSlot := none, cpStart := 0, replay := 0, cpRuling := 0, aging := [] }

/-- A start in stroke-only profile 3 that has recovered, with a fault of class FC5 unacknowledged at the safe level. -/
def namedDieStart : State := { State.reset with
  rst := { Rst.init with phase := .run, admin := true, recovered := true }
  strap := { Strap.init with codes := [0, 0, 0, 3, 0, 0, 0, 0, 0] }
  map := { MapState.empty with hair := [{ block := 0, slot := some (16 * bandSlots) }] }
  log := { MapLog.init with pages := [namingPage] }
  ftl := { Ftl.init with bands := [dumpedBand], slots := [dumpedSlot] }
  rec_ := { MediaRec.init with profile := 3 }
  flt := { Flt.init with unack := [{ cls := 5, level := 4, seq := 0 }] } }

/-- That start once what its records hold back is recorded: FC5 has escalated to the stop level, and the module stands in reset. -/
def namedDieStopped : State := adoptHeld (reachReady { namedDieStart with out := [], rst := { namedDieStart.rst with io := true } })

theorem namedDieStopped_running : namedDieStopped.running = false := by decide

theorem namedDieStopped_emptying : namedDieStopped.ftl.emptying = [] := by decide

theorem exec_ioReady_namedDie : exec .ioReady namedDieStart = .next (settleUp namedDieStopped) := by
  change work (onlyIf _ _) namedDieStart = _
  rw [work_onlyIf_true (by decide)]
  exact congrArg (fun t => Host.Outcome.next (settleUp t)) (if_pos (by rw [← namedDieStopped, namedDieStopped_running]; rfl))

/-- The work that an event leaves is done by a running module alone. -/
theorem settleUp_of_notRunning {s : State} (h : s.running = false) : settleUp s = s := by
  unfold settleUp
  rw [h]
  rfl

theorem settleUp_running (s : State) : (settleUp s).running = s.running := by
  obtain ⟨-, rst, -⟩ := whatSettlingKeeps.1 s
  unfold State.running
  rw [rst]

/-- Refutes O14: the clause on a stroke-only profile holds no die free of a failure that the log names, and no fault unacknowledged; the failure's fault
then stops the module at I/O ready, before the band begins to be emptied. -/
theorem not_recoveryPresentsThePrefix : ¬ Obligations.RecoveryPresentsThePrefix := by
  unfold Obligations.RecoveryPresentsThePrefix
  rintro ⟨-, -, -, -, strokeOnly, -⟩
  obtain ⟨u, e, exec_, emptying, -⟩ := strokeOnly namedDieStart dumpedBand (by decide) (by decide) (by decide) rfl rfl rfl rfl rfl rfl rfl rfl (by decide) rfl rfl
    rfl (by decide) rfl (by decide) rfl (by decide) (.inl rfl) (by decide) rfl rfl
  rw [exec_ioReady_namedDie, settleUp_of_notRunning namedDieStopped_running] at exec_
  have same : namedDieStopped = settleUp u := Host.Outcome.next.inj exec_
  have stopped : u.running = false := by rw [← settleUp_running, ← same, namedDieStopped_running]
  rw [← (same.trans (settleUp_of_notRunning stopped)), namedDieStopped_emptying] at emptying
  exact List.not_mem_nil emptying

end Sys2Proof.Proofs
end

section
/-! SUPPORT. The start that a reset release chooses (O11): ALIVE follows the mode of the start that begins, not the mode that stood before it. -/

namespace Sys2Proof.Proofs

open Sys2Proof Sys2Proof.Machine Sys2Proof.Laws

/-- RESETn is waited for, the mode still reads minimal recovery by count, no start has failed since, and the media are worn out. -/
def wornWaiting : State := { State.reset with
  rst := { Rst.init with phase := .waitRelease, calGood := true, mode := .recCount }
  rec_ := { MediaRec.init with worn := true } }

/-- Before the release the mode keeps the worn media from counting as a safe level (R99, R407). -/
theorem wornWaiting_safe : wornWaiting.safe = false := by decide

/-- The start is a normal one, with ALIVE of a safe level, as the media are worn out. -/
theorem released_wornWaiting : (released false [] [] { wornWaiting with out := [] }).rst.mode = .normal
    ∧ (released false [] [] { wornWaiting with out := [] }).lands.alive = .hz8 ∧ (released false [] [] { wornWaiting with out := [] }).running = true := by
  decide

/-- A release that finds a calibration row, a swap record and VCCQ in its range records nothing (R357, R361, R477). -/
theorem releaseFaults_of_good {s : State} (cal : s.rst.calGood = true) (vccq : vccqInRange s.strap.vccq18 s.strap.vccqMv = true)
    (swap : s.boot.swap0.isSome = true) : releaseFaults s = s := by
  unfold releaseFaults
  simp only [cal, vccq, ↓reduceIte, Option.isNone_eq_false_iff.2 swap, Bool.and_false, Bool.false_and, Bool.false_eq_true]

theorem exec_resetRelease_wornWaiting : exec (.resetRelease false [] []) wornWaiting = .next (released false [] [] { wornWaiting with out := [] }) := by
  change execResetRelease false [] [] wornWaiting = _
  rw [execResetRelease_eq, answer_onlyIf_true (by decide)]
  exact congrArg Host.Outcome.next ((if_pos released_wornWaiting.2.2).trans (releaseFaults_of_good (by decide) (by decide) (by decide)))

/-- Refutes O11: the clause on the release reads the safe level in the mode that stood before it. Of a state that waits in minimal recovery by count, with
no failed start counted and worn media, the clause gives 1 kHz; the normal start that begins shows 8 Hz. -/
theorem not_theStartIsChosenAndIslandsReleased : ¬ Obligations.TheStartIsChosenAndIslandsReleased := by
  unfold Obligations.TheStartIsChosenAndIslandsReleased
  rintro ⟨-, -, -, -, -, -, -, release⟩
  obtain ⟨t, exec_, -, -, -, -, -, -, -, -, -, -, alive, -⟩ := release wornWaiting false (by decide) (by decide) (by decide) (.inl (by decide)) (by decide)
    (by decide) (by decide)
  rw [exec_resetRelease_wornWaiting] at exec_
  obtain rfl := Host.Outcome.next.inj exec_
  obtain ⟨mode, hz8, -⟩ := released_wornWaiting
  rw [mode, hz8, wornWaiting_safe] at alive
  exact absurd alive (by decide)

end Sys2Proof.Proofs
end

section
/-! SUPPORT. The frames of the narrow bus and of the ligature (O41): their fields, and the check that seals them (R112 to R115, R423). -/

namespace Sys2Proof.Proofs

open Sys2Proof Sys2Proof.Machine Sys2Proof.Laws

/-! ## Bits and check codes -/

theorem bits_eq (x lo n : Nat) : bits x lo n = x / 2 ^ lo % 2 ^ n := by rw [bits, Nat.shiftRight_eq_div_pow]

theorem bit_eq_testBit (x i : Nat) : bit x i = x.testBit i := by
  rw [bit, bits_eq, pow_one, Nat.testBit_eq_decide_div_mod_eq]

/-- The start, lead and end bits of a frame are bits of its number. -/
theorem getLsbD_eq_bit {w : Nat} (frame : BitVec w) (i : Nat) : frame.getLsbD i = bit frame.toNat i := by
  rw [bit_eq_testBit, BitVec.testBit_toNat]

/-- A check code has its own width. -/
theorem crc_lt {w poly init : Nat} (hpoly : poly < 2 ^ w) (hinit : init < 2 ^ w) (bs : List Bool) : crc w poly init bs < 2 ^ w := by
  unfold crc
  refine List.foldlRecOn (motive := fun r => r < 2 ^ w) _ _ hinit (fun r _ b _ => Nat.xor_lt_two_pow (Nat.mod_lt _ (Nat.two_pow_pos w)) ?_)
  split
  · exact hpoly
  · exact Nat.two_pow_pos w

theorem frameCheck_lt (x : Nat) : frameCheck x < 2 ^ 7 := crc_lt (by decide) (by decide) _

theorem ligCheck_lt (x : Nat) : ligCheck x < 2 ^ 8 := crc_lt (by decide) (by decide) _

/-! ## Command frames -/

/-- R114 on a frame that has begun: a wrong Lead bit, Kind, check or end bit. -/
theorem malformed_iff {frame : BitVec 52} (start : frame.getLsbD 51 = false) : malformed frame = true ↔
    frame.getLsbD 50 = false ∨ bits frame.toNat 48 2 ≠ 2 ∨ bits frame.toNat 1 7 ≠ crc 7 0x09 0 (msbFirst (frame.toNat / 256) 44)
      ∨ frame.getLsbD 0 = false := by
  rw [getLsbD_eq_bit] at start
  simp only [malformed, getLsbD_eq_bit, start, Bool.not_false, Bool.true_and, Bool.or_eq_true, Bool.not_eq_true', decide_eq_true_eq, or_assoc]
  exact or_left_comm.trans (or_congr_right or_left_comm)

theorem frameCommand_of_correct {frame : BitVec 52} (start : frame.getLsbD 51 = false) (correct : malformed frame = false) :
    frameCommand frame = some (indexCommand (frame.extractLsb' 45 3) (frame.extractLsb' 40 5) (frame.extractLsb' 8 32)) := by
  unfold frameCommand frameFields
  rw [start, correct]
  rfl

theorem frameCommand_of_malformed {frame : BitVec 52} (bad : malformed frame = true) :
    frameCommand frame = some (.malformedCommandFrame frame) := by
  simp [frameCommand, frameFields, bad]

/-- The indices that Table 05-6 reserves. -/
theorem indexCommand_reserved {tag : BitVec 3} {index : BitVec 5} {arg : BitVec 32} (reserved : index = 0 ∨ 0x0D ≤ index.toNat ∧ index ≠ 0x1F) :
    indexCommand tag index arg = .reservedIndexFrame tag index arg := by
  have number : index.toNat = 0 ∨ 13 ≤ index.toNat ∧ index.toNat ≠ 31 := by
    rcases reserved with rfl | ⟨high, other⟩
    · exact .inl rfl
    · exact .inr ⟨high, fun h => other (BitVec.eq_of_toNat_eq h)⟩
  unfold indexCommand
  split
  case h_14 => rfl
  all_goals omega

/-! ## Response frames and ligature frames -/

/-- A response frame up to its check, as a number (Table 05-4). -/
def responseHead (tag : BitVec 3) (index status result : Nat) : Nat :=
  2 ^ 50 + 2 ^ 48 + tag.toNat * 2 ^ 45 + index * 2 ^ 40 + status % 65536 * 2 ^ 24 + result % 65536 * 256

/-- The check and the end bit stand below the head. -/
theorem responseFrame_toNat (tag : BitVec 3) {index : Nat} (hindex : index < 32) (status result : Nat) :
    (responseFrame tag index status result).toNat
      = responseHead tag index status result + frameCheck (responseHead tag index status result) * 2 + 1 := by
  have hcheck := frameCheck_lt (responseHead tag index status result)
  have room : responseHead tag index status result + 256 ≤ 2 ^ 52 := by
    have htag := tag.isLt
    unfold responseHead
    omega
  change (BitVec.ofNat 52 (responseHead tag index status result + frameCheck (responseHead tag index status result) * 2 + 1)).toNat = _
  rw [BitVec.toNat_ofNat, Nat.mod_eq_of_lt (by omega)]

/-- The fields of a response frame, and its check over what stands above it. -/
theorem responseFrame_fields (tag : BitVec 3) {index : Nat} (hindex : index < 32) (status result : Nat) :
    (responseFrame tag index status result).getLsbD 51 = false ∧ (responseFrame tag index status result).getLsbD 50 = true
    ∧ bits (responseFrame tag index status result).toNat 48 2 = 1 ∧ bits (responseFrame tag index status result).toNat 45 3 = tag.toNat
    ∧ bits (responseFrame tag index status result).toNat 40 5 = index ∧ bits (responseFrame tag index status result).toNat 24 16 = status % 65536
    ∧ bits (responseFrame tag index status result).toNat 8 16 = result % 65536
    ∧ bits (responseFrame tag index status result).toNat 1 7 = crc 7 0x09 0 (msbFirst ((responseFrame tag index status result).toNat / 256) 44)
    ∧ (responseFrame tag index status result).getLsbD 0 = true := by
  have htag := tag.isLt
  have hcheck := frameCheck_lt (responseHead tag index status result)
  have head : responseHead tag index status result
      = 2 ^ 50 + 2 ^ 48 + tag.toNat * 2 ^ 45 + index * 2 ^ 40 + status % 65536 * 2 ^ 24 + result % 65536 * 256 := rfl
  have check : crc 7 0x09 0 (msbFirst (responseHead tag index status result / 256) 44) = frameCheck (responseHead tag index status result) := rfl
  simp only [getLsbD_eq_bit, responseFrame_toNat tag hindex]
  generalize responseHead tag index status result = x at *
  generalize frameCheck x = c at *
  have above : (x + c * 2 + 1) / 256 = x / 256 := by omega
  rw [above, check]
  simp only [bit, bits_eq, decide_eq_true_eq, decide_eq_false_iff_not]
  clear check above
  refine ⟨?_, ?_, ?_, ?_, ?_, ?_, ?_, ?_, ?_⟩ <;> omega

/-- A frame of the ligature up to its check, as a number (Table 16-1). -/
def ligHead (f : LigFrame) : Nat := f.source * 2 ^ 42 + f.typ * 2 ^ 38 + f.value.toNat * 512

theorem ligFrame_toNat {f : LigFrame} (hsource : f.source < 32) (htyp : f.typ < 16) :
    f.bits.toNat = ligHead f + ligCheck (ligHead f) * 2 + 1 := by
  have hcheck := ligCheck_lt (ligHead f)
  have room : ligHead f + 512 ≤ 2 ^ 48 := by
    have hvalue := f.value.isLt
    unfold ligHead
    omega
  change (BitVec.ofNat 48 (ligHead f + ligCheck (ligHead f) * 2 + 1)).toNat = _
  rw [BitVec.toNat_ofNat, Nat.mod_eq_of_lt (by omega)]

/-- The fields of a frame of the ligature, and its check over what stands above it. -/
theorem ligFrame_fields {f : LigFrame} (hsource : f.source < 32) (htyp : f.typ < 16) :
    f.bits.getLsbD 47 = false ∧ bits f.bits.toNat 42 5 = f.source ∧ bits f.bits.toNat 38 4 = f.typ ∧ bits f.bits.toNat 9 29 = f.value.toNat
    ∧ bits f.bits.toNat 1 8 = crc 8 0x07 0 (msbFirst (f.bits.toNat / 512) 39) ∧ f.bits.getLsbD 0 = true := by
  have hvalue := f.value.isLt
  have hcheck := ligCheck_lt (ligHead f)
  have head : ligHead f = f.source * 2 ^ 42 + f.typ * 2 ^ 38 + f.value.toNat * 512 := rfl
  have check : crc 8 0x07 0 (msbFirst (ligHead f / 512) 39) = ligCheck (ligHead f) := rfl
  simp only [getLsbD_eq_bit, ligFrame_toNat hsource htyp]
  generalize ligHead f = x at *
  generalize ligCheck x = c at *
  have above : (x + c * 2 + 1) / 512 = x / 512 := by omega
  rw [above, check]
  simp only [bit, bits_eq, decide_eq_true_eq, decide_eq_false_iff_not]
  clear check above
  refine ⟨?_, ?_, ?_, ?_, ?_, ?_⟩ <;> omega

/-- Settles O41: a command frame by whether R114 rejects it, the frames that are sent by the numbers that they are made of. -/
theorem framesCarryTheirChecks : Obligations.FramesCarryTheirChecks := by
  unfold Obligations.FramesCarryTheirChecks
  refine ⟨fun frame start lead kind check end_ => ?_, fun frame start wrong => frameCommand_of_malformed ((malformed_iff start).2 wrong),
    fun tag index arg => indexCommand_reserved, fun tag arg => ⟨rfl, rfl, rfl, rfl, rfl, rfl, rfl, rfl, rfl, rfl, rfl, rfl, rfl⟩,
    fun tag index status result hindex => responseFrame_fields tag hindex status result, fun f hsource htyp => ?_⟩
  · refine frameCommand_of_correct start (Bool.eq_false_iff.2 fun bad => ?_)
    rcases (malformed_iff start).1 bad with h | h | h | h
    · exact nomatch h.symm.trans lead
    · exact h kind
    · exact h check
    · exact nomatch h.symm.trans end_
  · obtain ⟨start, source, typ, value, check, end_⟩ := ligFrame_fields hsource htyp
    exact ⟨start, source, typ, value, check, end_, by decide +kernel⟩

end Sys2Proof.Proofs
end

section
/-! SUPPORT. The frames of the narrow bus that a phase or a task state accepts, and those that it does not (O42, O43, O44). -/

namespace Sys2Proof.Proofs

open Sys2Proof Sys2Proof.Machine Sys2Proof.Laws

/-! ## Frames of the version phase (R115, R116) -/

section
variable {s : State} {tag : BitVec 3} {index : Nat} {states : Task → Bool} {f : State → State}

theorem taskFrame_accepted (on : s.nbOn = true) (phase : s.nb.version ≠ 0) (state : states s.nb.task = true) : taskFrame tag index states f s = f s := by
  simp [taskFrame, on, phase, state]

theorem taskFrame_refused (on : s.nbOn = true) (away : s.nb.version = 0 ∨ states s.nb.task = false) :
    taskFrame tag index states f s = illegal tag index s := by
  rcases away with phase | state
  · simp [taskFrame, on, phase]
  · simp [taskFrame, on, state]

theorem answer_taskFrame_accepted (on : s.nbOn = true) (phase : s.nb.version ≠ 0) (state : states s.nb.task = true) :
    answer s (taskFrame tag index states f) = .next (f { s with out := [] }) :=
  congrArg Host.Outcome.next (taskFrame_accepted (s := { s with out := [] }) on phase state)

theorem answer_taskFrame_refused (on : s.nbOn = true) (away : s.nb.version = 0 ∨ states s.nb.task = false) :
    answer s (taskFrame tag index states f) = .next (illegal tag index { s with out := [] }) :=
  congrArg Host.Outcome.next (taskFrame_refused (s := { s with out := [] }) on away)

theorem work_taskFrame_accepted (on : s.nbOn = true) (phase : s.nb.version ≠ 0) (state : states s.nb.task = true) :
    work (taskFrame tag index states f) s = .next (settleUp (f { s with out := [] })) :=
  congrArg (fun t => Host.Outcome.next (settleUp t)) (taskFrame_accepted (s := { s with out := [] }) on phase state)

theorem work_taskFrame_refused (on : s.nbOn = true) (away : s.nb.version = 0 ∨ states s.nb.task = false) :
    work (taskFrame tag index states f) s = .next (settleUp (illegal tag index { s with out := [] })) :=
  congrArg (fun t => Host.Outcome.next (settleUp t)) (taskFrame_refused (s := { s with out := [] }) on away)

/-- The states in which a task may be written and executed, as the rows ask for them. -/
theorem openTask_true {t : Task} (h : t = .idle ∨ t = .done) : (decide (t = .idle) || decide (t = .done)) = true := by simpa using h

theorem openTask_false {t : Task} (h : ¬(t = .idle ∨ t = .done)) : (decide (t = .idle) || decide (t = .done)) = false := by simpa using h

end

/-! ## Select Version -/

theorem n3Granted_iff (s : State) : s.n3Granted = true ↔ s.strap.vccq18 = some true ∧ s.sa0 ≠ 4 ∧ s.sa0 ≠ 5 := by
  simp only [State.n3Granted, Bool.and_eq_true, decide_eq_true_eq, and_assoc]

/-- Select Version by its argument's version and width. -/
theorem exec_selectVersion {s : State} (on : s.nbOn = true) (tag : BitVec 3) (arg : BitVec 32) : exec (.selectVersion tag arg) s = .next
    (if s.nb.version ≠ 0 || bits arg.toNat 0 4 = 0 || 3 < bits arg.toNat 0 4 then illegal tag 0x01 { s with out := [] }
      else if bits arg.toNat 0 4 = 3 && !s.n3Granted then respond tag 0x01 (2 * 16 + flag (bit arg.toNat 4) 8) { s with out := [] }
      else respond tag 0x01 (bits arg.toNat 0 4 + flag (bit arg.toNat 4) 8)
        { s with out := [], nb := { s.nb with grantedNext := some (bits arg.toNat 0 4, bit arg.toNat 4) } }) := by
  change answer s (onlyIf _ _) = _
  rw [answer_onlyIf_true on]
  rfl

/-- Settles O42: by the order of the frame's checks, then the classification of VCCQ and the cap of SA0. -/
theorem selectVersionGrantsAVersion : Obligations.SelectVersionGrantsAVersion := by
  unfold Obligations.SelectVersionGrantsAVersion
  rintro s tag arg _ _ on rfl rfl
  rw [exec_selectVersion on]
  refine ⟨fun phase granted => ?_, fun phase three refused => ?_, fun outOfPlace => ?_, fun granted => ?_⟩
  · have legal : ¬(s.nb.version ≠ 0 || bits arg.toNat 0 4 = 0 || 3 < bits arg.toNat 0 4) = true := by
      simp only [Bool.or_eq_true, decide_eq_true_eq]; omega
    have granted' : ¬(decide (bits arg.toNat 0 4 = 3) && !s.n3Granted) = true := by
      rcases granted with h | h | ⟨-, h⟩
      · simp [h]
      · simp [h]
      · simp [(n3Granted_iff s).2 h]
    rw [if_neg legal, if_neg granted']
  · have held : s.n3Granted = false := by
      refine Bool.eq_false_iff.2 fun h => ?_
      obtain ⟨vccq, cap, cap'⟩ := (n3Granted_iff s).1 h
      tauto
    rw [if_neg (by simp [phase, three]), if_pos (by simp [three, held])]
  · rw [if_pos (by simpa [or_assoc] using outOfPlace)]
  · change answer s (onlyIf _ _) = _
    rw [answer_onlyIf_true on]
    dsimp only
    rw [granted]

/-! ## A check error on the bus (R114, R132) -/

/-- A fault below the safe level with no Await Event outstanding: the entry in front is its own, and it waits for acknowledgement. -/
theorem recordLevel_waits {cls base level source cause : Nat} {detail : BitVec 64} {s : State} (stop : s.flt.stopping = false) (low : level < 4)
    (noAwait : ∀ i ∈ s.nib.items, i.wait ≠ .event) : ∃ (flt : Flt) (aon : Aon) (health : Health) (b : Blot) (rest : List Blot),
    recordLevel cls base level source detail cause s = { s with flt := flt, aon := aon, health := health } ∧ flt.blotter = b :: rest
      ∧ flt.unack = s.flt.unack ++ [{ cls := cls, level := level, seq := b.seq }] ∧ b.kind = 1 ∧ b.cls = cls ∧ b.level = level ∧ b.source = source := by
  unfold recordLevel
  dsimp only
  obtain ⟨aon, e⟩ := addBlot_front 0x01 cls level (level ≠ base) source detail
    { s with flt := { s.flt with counts := s.flt.counts.set cls (sat 32 (s.flt.counts.getD cls 0 + 1)) }
             health := { s.health with faults := s.health.faults.set cls (sat 32 (s.health.faults.getD cls 0 + 1)) } }
  rw [e]
  simp only [stop, Bool.false_eq_true, ↓reduceIte, if_neg (show ¬ level = 5 by omega), if_neg (show ¬ level = 4 by omega)]
  obtain ⟨events, raised⟩ := raiseEvent_of_noAwait (s := { s with flt := _, aon := aon, health := _ }) noAwait cls level s.aon.nextSeq
  rw [raised]
  exact ⟨_, aon, _, _, _, rfl, rfl, rfl, rfl, rfl, rfl, rfl⟩

/-- The reaction of a class takes the one fault that waits, where it is of the class and the entry in front is the source's. -/
theorem ackReaction_only {cls level source : Nat} {s : State} {b : Blot} {rest : List Blot} (unack : s.flt.unack = [{ cls := cls, level := level, seq := b.seq }])
    (low : level ≤ 2) (front : s.flt.blotter = b :: rest) (src : b.source = source) : ackReaction cls source s = acknowledge false b.seq s := by
  simp [ackReaction, unack, front, src, low]

/-- FC9 with no fault unacknowledged: a notice in front of the blotter, acknowledged at once (R402). -/
theorem checkError_noted {s : State} (unack : s.flt.unack = []) (stop : s.flt.stopping = false) (noAwait : ∀ i ∈ s.nib.items, i.wait ≠ .event) :
    ∃ (flt : Flt) (aon : Aon) (health : Health) (b : Blot) (rest : List Blot), checkError s = { s with flt := flt, aon := aon, health := health }
      ∧ flt.blotter = b :: rest ∧ flt.unack = [] ∧ b.kind = 1 ∧ b.cls = 9 ∧ b.level = 1 ∧ b.source = 0x03 := by
  obtain ⟨flt, aon, health, b, rest, recorded, front, waits, kind, cls, level, source⟩ :=
    recordLevel_waits (cls := 9) (base := 1) (level := 1) (source := 0x03) (cause := 2) (detail := 0) stop (by decide) noAwait
  rw [unack] at waits
  have taken : checkError s = acknowledge false b.seq { s with flt := flt, aon := aon, health := health } := by
    unfold checkError recordHandled recordFault
    simp only [levelFor_of_unack_nil unack, Nat.reduceLT, ↓reduceIte, recorded]
    exact ackReaction_only waits (by decide) front source
  refine ⟨_, aon, health, _, _, taken, congrArg (mapIf _ _) front, ?_, ?_⟩
  · simp [waits]
  · dsimp only
    split <;> exact ⟨kind, cls, level, source⟩

/-- Settles O43: a malformed frame by its check error, the others by the phase and the task state. -/
theorem framesOutOfPlaceHaveNoEffect : Obligations.FramesOutOfPlaceHaveNoEffect := by
  unfold Obligations.FramesOutOfPlaceHaveNoEffect
  refine ⟨?malformed, ?reserved, ?writes, ?executes, ?dataIn, ?dataOut, fun s tag index => rfl⟩
  case malformed =>
    intro s frame run armed bad unack stop items
    obtain ⟨flt, aon, health, b, rest, noted, front, acked, kind, cls, level, source⟩ :=
      checkError_noted (s := { s with out := [], nb := { s.nb with frameErr := true } }) unack stop (by simp [items])
    have row : exec (.malformedCommandFrame frame) s = .next (checkError { s with out := [], nb := { s.nb with frameErr := true } }) := by
      change answer s (onlyIf _ _) = _
      rw [answer_onlyIf_true (by simp [run, armed, bad])]
    rw [noted] at row
    exact ⟨_, b, rest, row, rfl, rfl, rfl, front, kind, cls, level, source, acked⟩
  case reserved =>
    intro s tag index arg on reserved
    change answer s (onlyIf _ _) = _
    rw [answer_onlyIf_true (by simpa [on] using reserved)]
  case writes =>
    rintro s tag arg c index on away (⟨rfl, rfl⟩ | ⟨rfl, rfl⟩)
    · exact answer_taskFrame_refused on (away.imp_right openTask_false)
    · exact answer_taskFrame_refused on (away.imp_right openTask_false)
  case executes =>
    intro s tag arg on away
    exact work_taskFrame_refused on (away.imp_right openTask_false)
  case dataIn =>
    intro s tag arg on away
    exact answer_taskFrame_refused on (away.imp_right decide_eq_false)
  case dataOut =>
    intro s tag arg on away
    exact work_taskFrame_refused on (away.imp_right decide_eq_false)

/-! ## Fields of an entry (R121) -/

theorem testBit_bits (x lo n i : Nat) : (bits x lo n).testBit i = (decide (i < n) && x.testBit (lo + i)) := by
  rw [bits, Nat.testBit_mod_two_pow, Nat.testBit_shiftRight]

/-- The bits of a number made of three parts: `low` of `lo` bits, above it `mid` of `n` bits, above that `high`. -/
theorem testBit_parts {lo n mid low : Nat} (hmid : mid < 2 ^ n) (hlow : low < 2 ^ lo) (high i : Nat) : (2 ^ lo * (2 ^ n * high + mid) + low).testBit i
    = if i < lo then low.testBit i else if i - lo < n then mid.testBit (i - lo) else high.testBit (i - lo - n) := by
  rw [Nat.testBit_two_pow_mul_add _ hlow, Nat.testBit_two_pow_mul_add _ hmid]

/-- The field of a number replaced: its bits from `lo` on, `n` of them, those of `y`, and every other bit as before. -/
theorem testBit_replace (x lo n y i : Nat) : (x - bits x lo n * 2 ^ lo + y % 2 ^ n * 2 ^ lo).testBit i
    = if lo ≤ i ∧ i < lo + n then y.testBit (i - lo) else x.testBit i := by
  have low := Nat.mod_lt x (Nat.two_pow_pos lo)
  have parts : x = 2 ^ lo * (2 ^ n * (x / 2 ^ lo / 2 ^ n) + bits x lo n) + x % 2 ^ lo := by
    rw [bits_eq, Nat.div_add_mod, Nat.div_add_mod]
  have replaced : x - bits x lo n * 2 ^ lo + y % 2 ^ n * 2 ^ lo = 2 ^ lo * (2 ^ n * (x / 2 ^ lo / 2 ^ n) + y % 2 ^ n) + x % 2 ^ lo := by
    have sum : bits x lo n * 2 ^ lo + (2 ^ lo * (2 ^ n * (x / 2 ^ lo / 2 ^ n)) + x % 2 ^ lo) = x := by
      conv_rhs => rw [parts]
      ring
    rw [Nat.sub_eq_of_eq_add' sum.symm]
    ring
  have field : bits x lo n < 2 ^ n := Nat.mod_lt _ (Nat.two_pow_pos n)
  have kept := testBit_parts field low (x / 2 ^ lo / 2 ^ n) i
  rw [← parts] at kept
  rw [replaced, kept, testBit_parts (Nat.mod_lt _ (Nat.two_pow_pos n)) low]
  by_cases below : i < lo
  · rw [if_pos below, if_pos below, if_neg (by omega)]
  by_cases inside : i - lo < n
  · rw [if_neg below, if_pos inside, if_pos (by omega), Nat.testBit_mod_two_pow, decide_eq_true inside, Bool.true_and]
  · rw [if_neg below, if_neg inside, if_neg (by omega), if_neg below, if_neg inside]

/-- A word of an entry replaced: the bits of its bytes, and no others. -/
theorem testBit_put (e : Entry) (off n x : Nat) {i : Nat} (hi : i < 512) : (Entry.put e off n x).toNat.testBit i
    = if 8 * off ≤ i ∧ i < 8 * off + 8 * n then x.testBit (i - 8 * off) else e.toNat.testBit i := by
  unfold Entry.put Entry.field
  rw [BitVec.testBit_toNat, BitVec.getLsbD_ofNat, decide_eq_true hi, Bool.true_and, testBit_replace]

theorem testBit_field (e : Entry) (off n i : Nat) : (Entry.field e off n).testBit i = (decide (i < 8 * n) && e.toNat.testBit (8 * off + i)) :=
  testBit_bits _ _ _ _

/-- A 16-bit write to the task entry (R121). -/
theorem field_put_word (e : Entry) {j k x : Nat} (hk : k < 32) (hx : x < 65536) :
    Entry.field (Entry.put e (2 * j) 2 x) (2 * k) 2 = if j = k then x else Entry.field e (2 * k) 2 := by
  refine Nat.eq_of_testBit_eq fun i => ?_
  rw [testBit_field]
  by_cases word : i < 16
  · rw [decide_eq_true word, Bool.true_and, testBit_put e _ _ _ (by omega)]
    by_cases same : j = k
    · subst same
      rw [if_pos rfl, if_pos (by omega), Nat.add_sub_cancel_left]
    · rw [if_neg same, if_neg (by omega), testBit_field, decide_eq_true word, Bool.true_and]
  · have above : x.testBit i = false := Nat.testBit_lt_two_pow (Nat.lt_of_lt_of_le hx (Nat.pow_le_pow_right (n := 2) (by decide) (Nat.not_lt.1 word)))
    rw [decide_eq_false word, Bool.false_and]
    split
    · exact above.symm
    · rw [testBit_field, decide_eq_false word, Bool.false_and]

/-! ## Registers, blocks and Bus Reset -/

/-- Outside the data phases and a contained task a Bus Reset leaves the task as it is (R126, R406). -/
theorem busResetEffect_calm {s : State} (task : s.nb.task = .idle ∨ s.nb.task = .busy ∨ s.nb.task = .done ∨ s.nb.task = .frozen ∧ s.nb.contained = false) :
    busResetEffect s = { s with nb := { s.nb with idNext := decide (s.nb.version ≠ 0), grantedNext := none, taskBlock := false } } := by
  rcases task with h | h | h | ⟨h, free⟩
  · simp [busResetEffect, h]
  · simp [busResetEffect, h]
  · simp [busResetEffect, h]
  · simp [busResetEffect, h, free]

section
variable {s : State} (on : s.nbOn = true)
include on

theorem exec_readStatus (tag : BitVec 3) (arg : BitVec 32) : exec (.readStatus tag arg) s = .next
    (respond tag 0x02 (if s.nb.task = .dataIn ∨ s.nb.task = .dataOut then s.nb.remaining else 0) { s with out := [] }) := by
  change answer s (onlyIf _ _) = _
  rw [answer_onlyIf_true on]
  simp only [Bool.or_eq_true, decide_eq_true_eq]

section
variable (phase : s.nb.version ≠ 0)
include phase

theorem exec_writeTaskRegister (state : s.nb.task = .idle ∨ s.nb.task = .done) (tag : BitVec 3) (arg : BitVec 32) :
    exec (.writeTaskRegister tag arg) s = .next (if 2 * bits arg.toNat 0 8 < 0x40 then respond tag 0x03 0 { s with
        out := [], nb := { s.nb with entry := Entry.put s.nb.entry (2 * bits arg.toNat 0 8) 2 (bits arg.toNat 16 16) } }
      else illegal tag 0x03 { s with out := [] }) :=
  answer_taskFrame_accepted on phase (openTask_true state)

theorem exec_readTaskRegister (tag : BitVec 3) (arg : BitVec 32) :
    exec (.readTaskRegister tag arg) s = .next (if 2 * bits arg.toNat 0 8 < 0x100
      then respond tag 0x04 (Mem.getLE 0 s.taskFile (2 * bits arg.toNat 0 8) 2) { s with out := [] } else illegal tag 0x04 { s with out := [] }) :=
  answer_taskFrame_accepted on phase rfl

end

theorem exec_busReset (tag : BitVec 3) (arg : BitVec 32) {t : State} (effect : busResetEffect { s with out := [] } = t) :
    exec (.busReset tag arg) s = .next (settleUp
      (if t.nb.idReady then emit t.idBlock (respond tag 0x1F t.idString.length t) else respond tag 0x1F 0 t)) := by
  subst effect
  change work (onlyIf _ _) s = _
  rw [work_onlyIf_true on]

end

/-- Settles O44: each frame by the row that accepts it, and the word written by the bits that it replaces. -/
theorem narrowFramesAreAnswered : Obligations.NarrowFramesAreAnswered := by
  unfold Obligations.NarrowFramesAreAnswered
  refine ⟨fun s tag arg on => exec_readStatus on tag arg, ?registers, ?writeBlock, ?readBlock, ?tuning, ?reset, ?identification, ?idReady,
    fun e j k x _ hk hx => field_put_word e hk hx⟩
  case registers =>
    rintro s tag arg _ on phase rfl
    refine ⟨fun state inside => ?_, fun state beyond => ?_, fun inside => ?_, fun beyond => ?_⟩
    · rw [exec_writeTaskRegister on phase state, if_pos inside]
    · rw [exec_writeTaskRegister on phase state, if_neg (Nat.not_lt.2 beyond)]
    · rw [exec_readTaskRegister on phase, if_pos inside]
    · rw [exec_readTaskRegister on phase, if_neg (Nat.not_lt.2 beyond)]
  case writeBlock =>
    intro s tag arg on phase state
    exact answer_taskFrame_accepted on phase (openTask_true state)
  case readBlock =>
    intro s tag arg on phase notOut
    exact answer_taskFrame_accepted on phase (decide_eq_true notOut)
  case tuning =>
    intro s tag arg on phase notIn notOut
    exact answer_taskFrame_accepted on phase (by simp [notIn, notOut])
  case reset =>
    rintro s tag arg t on task rfl
    have effect := busResetEffect_calm (s := { s with out := [] }) task
    refine ⟨fun ready => ?_, fun notReady => ?_⟩
    · rw [exec_busReset on tag arg effect, if_pos ready]
    · rw [exec_busReset on tag arg effect, if_neg (Bool.eq_false_iff.1 notReady)]
  case identification =>
    intro s on next_
    change answer s (onlyIf _ _) = _
    rw [answer_onlyIf_true (by rw [on, next_]; rfl)]
  case idReady =>
    intro s run released
    change answer s (onlyIf _ _) = _
    rw [answer_onlyIf_true (by simp [run, released])]

end Sys2Proof.Proofs
end

section
/-! SUPPORT. Tasks of the narrow bus (O45): how one is handed over and ruled, and how it ends before its cancel point. -/

namespace Sys2Proof.Proofs

open Sys2Proof Sys2Proof.Machine Sys2Proof.Laws

/-! ## What a response changes (R117) -/

section
variable (tag : BitVec 3) (index result : Nat) (s : State)

theorem respond_nb : (respond tag index result s).nb = { s.nb with frameErr := false, dataErr := false, illegal := false } := rfl
@[simp] theorem respond_nib : (respond tag index result s).nib = s.nib := rfl
@[simp] theorem respond_res : (respond tag index result s).res = s.res := rfl
@[simp] theorem respond_map : (respond tag index result s).map = s.map := rfl
theorem respond_out : (respond tag index result s).out = s.out ++ [.response (responseFrame tag index s.narrowStatus result)] := rfl

end

/-! ## Execute Task and Resume Task (R122, R123, R125) -/

/-- The phase bit of the completion area (R122). -/
theorem clearPhase_phase (c : BitVec 128) : (clearPhase c).getLsbD 112 = false := by
  have phaseBit : (BitVec.ofNat 128 (2 ^ 112)).getLsbD 112 = true := by
    rw [BitVec.getLsbD_ofNat, Nat.testBit_two_pow_self]; rfl
  rw [clearPhase, BitVec.getLsbD_and, BitVec.getLsbD_not, phaseBit]
  simp

/-- A task that stands alone before the nib, ready and with its resources there, takes its ruling (R123, R127). -/
theorem ruleTask_of_ready {s : State} {f : Fetched} (fetched : s.nib.fetched = [f]) (narrow : f.narrow = true) (fresh : f.stalled = false)
    (ready : s.taskReady f.entry = true) (room : s.mustStall f = false) :
    ruleTask s = rule true 0 0 f.entry .nothing { s with nib := { s.nib with fetched := [] } } := by
  have first : s.nib.fetched.find? (·.narrow) = some f := by rw [fetched]; exact List.find?_cons_of_pos narrow
  have left : s.nib.fetched.erase f = [] := by rw [fetched]; exact List.erase_cons_head f []
  unfold ruleTask
  rw [first]
  simp only [ready, fresh, room, left, Bool.not_true, Bool.or_self, Bool.false_eq_true, ↓reduceIte]

/-- The data of a task's command gives its state (Table 05-10). -/
theorem taskAdmitted_task {i : Item} {x : CmdInfo} (narrow : i.narrow = true) (info : cmdInfo (Entry.opcode i.entry) = some x) (s : State) :
    (taskAdmitted i s).nb.task = if x.data = 1 then .dataIn else if x.data = 2 then .dataOut else .busy := by
  unfold taskAdmitted
  rw [if_pos narrow, info]

section
variable {s : State} (on : s.nbOn = true) (phase : s.nb.version ≠ 0)
include on phase

theorem exec_executeTask (state : s.nb.task = .idle ∨ s.nb.task = .done) (tag : BitVec 3) (arg : BitVec 32) : exec (.executeTask tag arg) s
    = .next (settleUp (ruleTask (respond tag 0x07 0 (handOver { s with
        out := [], nb := { s.nb with completion := clearPhase s.nb.completion, taskBlock := false } })))) :=
  work_taskFrame_accepted on phase (openTask_true state)

theorem exec_resumeTask (state : s.nb.task = .frozen) (free : s.nb.contained = false) (tag : BitVec 3) (arg : BitVec 32) :
    exec (.resumeTask tag arg) s = .next (settleUp (if bit arg.toNat 0 then respond tag 0x0A 0 { s with out := [], nb := { s.nb with task := .idle } }
      else ruleTask (respond tag 0x0A 0 (handOver { s with out := [] })))) := by
  -- the states of this row read the task's containment beside its state
  change work (fun t => taskFrame tag 0x0A (fun x => x = .frozen && !t.nb.contained) _ t) s = _
  exact congrArg (fun t => Host.Outcome.next (settleUp t)) (taskFrame_accepted (s := { s with out := [] }) on phase (by simp [state, free]))

/-- Cancel Task ends a task before its cancel point, and none past it (R126). -/
theorem exec_cancelTask (state : s.nb.task = .admitting ∨ s.nb.task = .dataIn ∨ s.nb.task = .dataOut ∨ s.nb.task = .busy) (tag : BitVec 3)
    (arg : BitVec 32) : exec (.cancelTask tag arg) s = .next (settleUp (respond tag 0x0B 0
      (if s.nb.task = .busy && (match s.task? with | some i => i.past | none => false) then { s with out := [] } else abortTask { s with out := [] }))) :=
  work_taskFrame_accepted on phase (by rcases state with h | h | h | h <;> simp [h])

end

/-! ## A task aborted (R126) -/

/-- The narrow bus after its task has been aborted: the completion area shows it, and no data of it is left. -/
def abortedNarrow (ruling : Nat) (entry : Entry) (nb : Narrow) : Narrow :=
  { nb with
    completion := completionEntry 0 ruling 0 0 (Entry.cid entry) true 7, task := .frozen
    outData := none, slots := 0, slotNo := 0, inData := [], inLen := 0 }

theorem completeTask_aborted (e : Ending) (s : State) :
    completeTask e Fail.aborted.status 0 s = { s with nb := abortedNarrow e.ruling e.entry s.nb } := by
  have status : Fail.aborted.status = 7 := rfl
  rw [status]
  simp [completeTask, abortedNarrow]

theorem complete_aborted_counts {e : Ending} (narrow : e.narrow = true) (s : State) : ∃ elog health,
    complete e Fail.aborted 0 s = actUpdate (completeTask e Fail.aborted.status 0 { s with elog := elog, health := health }) := by
  unfold complete
  dsimp only
  rw [if_pos narrow, if_neg (show ¬ Fail.aborted.status = 0 by decide)]
  exact ⟨_, _, rfl⟩

/-- The aborted completion of a task is logged and counted, shows on the bus, and sends nothing. -/
theorem complete_aborted_narrow {e : Ending} (narrow : e.narrow = true) (s : State) : ∃ lands elog health,
    complete e Fail.aborted 0 s = { s with lands := lands, elog := elog, health := health, nb := abortedNarrow e.ruling e.entry s.nb } := by
  obtain ⟨elog, health, counted⟩ := complete_aborted_counts narrow s
  rw [counted, completeTask_aborted]
  obtain ⟨lands, acted⟩ := actUpdate_eq { s with elog := elog, health := health, nb := abortedNarrow e.ruling e.entry s.nb }
  exact ⟨lands, elog, health, acted⟩

/-- A task that waits before the nib is taken out of it (R126). -/
theorem abortTask_of_fetched {s : State} {f : Fetched} (fetched : s.nib.fetched = [f]) (narrow : f.narrow = true) : ∃ lands elog health,
    abortTask s = { s with
      lands := lands, elog := elog, health := health, nib := { s.nib with fetched := [] }, nb := abortedNarrow 0 f.entry s.nb } := by
  have first : s.nib.fetched.find? (·.narrow) = some f := by rw [fetched]; exact List.find?_cons_of_pos narrow
  have left : s.nib.fetched.erase f = [] := by rw [fetched]; exact List.erase_cons_head f []
  have aborted : abortTask s = complete { Ending.ofFetched s f with freezes := true } Fail.aborted 0 { s with nib := { s.nib with fetched := [] } } := by
    unfold abortTask
    rw [first, ← left]
    rfl
  rw [aborted]
  exact complete_aborted_narrow (e := { Ending.ofFetched s f with freezes := true }) narrow { s with nib := { s.nib with fetched := [] } }

/-- With no entry fetched, the task is the item of the narrow bus. -/
theorem abortTask_of_item {s : State} {i : Item} (fetched : s.nib.fetched = []) (item : s.task? = some i) : abortTask s = finish i Fail.aborted 0 s := by
  unfold abortTask
  rw [fetched, List.find?_nil, item]

/-- The item that is the only one is the task. -/
theorem task_of_only {s : State} {i : Item} (items : s.nib.items = [i]) (narrow : i.narrow = true) : s.task? = some i := by
  unfold State.task?
  rw [items, List.find?_cons_of_pos narrow]

/-- A ruled task, the only item, leaves the nib and the reservoir (R126, R185, R325). -/
theorem finish_aborted_narrow {s : State} {i : Item} (items : s.nib.items = [i]) (narrow : i.narrow = true) :
    (finish i Fail.aborted 0 s).nb = abortedNarrow i.ruling i.entry s.nb ∧ (finish i Fail.aborted 0 s).nib.items = []
      ∧ (∀ x ∈ (finish i Fail.aborted 0 s).res.staged, x.ruling ≠ i.ruling) ∧ (finish i Fail.aborted 0 s).map = s.map := by
  obtain ⟨lands, elog, health, completed⟩ := complete_aborted_narrow (e := Ending.ofItem i) narrow (removeItem i true s)
  have ended : finish i Fail.aborted 0 s = complete (Ending.ofItem i) Fail.aborted 0 (removeItem i true s) := rfl
  rw [ended, completed]
  refine ⟨rfl, ?_, fun x hx => ?_, rfl⟩
  · change s.nib.items.filter (fun j => j.ruling ≠ i.ruling) = []
    simp [items]
  · exact of_decide_eq_true (List.mem_filter.1 hx).2

/-- Settles O45: the hand-over by what it sets up, the ruling by the task that stands before the nib, and the end by the place at which the abort finds it. -/
theorem tasksRunAndEnd : Obligations.TasksRunAndEnd := by
  unfold Obligations.TasksRunAndEnd
  refine ⟨?execute, fun s f fetched narrow fresh ready room => ruleTask_of_ready fetched narrow fresh ready room,
    fun s i x narrow info => taskAdmitted_task narrow info s, ?skip, ?retry, ?cancelFetched, ?cancelData, ?past⟩
  case execute =>
    intro s tag arg on phase state
    exact ⟨_, exec_executeTask on phase state tag arg, rfl, clearPhase_phase _, rfl, rfl, rfl, rfl⟩
  case skip =>
    intro s tag arg on phase state free skip
    rw [exec_resumeTask on phase state free, if_pos skip]
  case retry =>
    intro s tag arg on phase state free retry
    rw [exec_resumeTask on phase state free, if_neg (Bool.eq_false_iff.1 retry)]
    exact ⟨_, rfl, rfl, rfl, rfl⟩
  case cancelFetched =>
    intro s tag arg f on phase state fetched narrow
    obtain ⟨lands, elog, health, aborted⟩ := abortTask_of_fetched (s := { s with out := [] }) fetched narrow
    have row := exec_cancelTask on phase (.inl state) tag arg
    rw [if_neg (by simp [state]), aborted] at row
    exact ⟨_, row, rfl, rfl, rfl, rfl, rfl, rfl⟩
  case cancelData =>
    intro s tag arg i on phase state fetched items narrow
    have row := exec_cancelTask on phase (.inr (state.imp_right .inl)) tag arg
    rw [if_neg (by rcases state with h | h <;> simp [h]), abortTask_of_item (s := { s with out := [] }) fetched (task_of_only items narrow)] at row
    obtain ⟨bus, gone, staged, map⟩ := finish_aborted_narrow (s := { s with out := [] }) items narrow
    refine ⟨_, row, ?_, ?_, ?_, ?_, ?_⟩
    · rw [respond_nb, bus]; rfl
    · rw [respond_nib, gone]
    · rw [respond_nb, bus]; rfl
    · rw [respond_res]; exact staged
    · rw [respond_map, map]
  case past =>
    intro s tag arg i on phase state items narrow past
    rw [exec_cancelTask on phase (.inr (.inr (.inr state))), task_of_only items narrow, if_pos (by simp [state, past])]

end Sys2Proof.Proofs
end

section
/-! SUPPORT. The data phases of the narrow bus (O46): the blocks that the host sends, and those that the module sends. -/

namespace Sys2Proof

/-! ## Bytes already in canonical form -/

/-- A byte above every listed one goes to the end. -/
theorem Mem.set_above {d : Byte} {m : Mem} {a : Nat} {v : Byte} (above : ∀ c ∈ m, c.1 < a) (hv : v ≠ d) : Mem.set d m a v = m ++ [(a, v)] := by
  induction m with
  | nil => simp [Mem.set, hv]
  | cons c m ih =>
    obtain ⟨k, w⟩ := c
    have below : k < a := above (k, w) List.mem_cons_self
    rw [Mem.set, if_neg (by omega), if_neg (by omega), ih fun c hc => above c (List.mem_cons_of_mem _ hc)]
    rfl

/-- The cells of a canonical memory are added one by one as they stand. -/
theorem Mem.foldl_set_wf {d : Byte} {n : Nat} {l acc : Mem} (wf : Mem.wf d (acc ++ l) = true) (inside : ∀ c ∈ l, c.1 < n) :
    l.foldl (fun acc c => if c.1 < n then Mem.set d acc c.1 c.2 else acc) acc = acc ++ l := by
  induction l generalizing acc with
  | nil => simp
  | cons c l ih =>
    obtain ⟨rising, listed⟩ := (Mem.wf_iff d _).1 wf
    obtain ⟨-, -, ordered⟩ := List.pairwise_append.1 rising
    have added := Mem.set_above (fun x hx => ordered x hx c List.mem_cons_self) (listed c (by simp))
    rw [List.foldl_cons, if_pos (inside c List.mem_cons_self), added,
      ih (by rwa [List.append_assoc]) fun x hx => inside x (List.mem_cons_of_mem _ hx), List.append_assoc]
    rfl

theorem Mem.mem_norm_lt {d : Byte} {n : Nat} {m : Mem} : ∀ c ∈ Mem.norm d n m, c.1 < n := by
  refine List.foldlRecOn (motive := fun acc : Mem => ∀ c ∈ acc, c.1 < n) _ _ (fun _ h => nomatch h) fun acc inside x _ => ?_
  split
  · intro c hc
    rcases Mem.mem_set hc with old | ⟨rfl, -⟩
    · exact inside c old
    · assumption
  · exact inside

/-- Bytes in canonical form are left as they are. -/
theorem Mem.norm_norm (d : Byte) (n : Nat) (m : Mem) : Mem.norm d n (Mem.norm d n m) = Mem.norm d n m :=
  Mem.foldl_set_wf (acc := []) (Mem.wf_norm d n m) Mem.mem_norm_lt

end Sys2Proof

namespace Sys2Proof.Proofs

open Sys2Proof Sys2Proof.Machine Sys2Proof.Laws

/-! ## Blocks of the host (R131, R132, R133) -/

section
variable {s : State} (on : s.nbOn = true)
include on

theorem exec_writeData (phase : s.nb.version ≠ 0) (task : s.nb.task = .dataIn) (tag : BitVec 3) (arg : BitVec 32) : exec (.writeData tag arg) s
    = .next (if bits arg.toNat 0 13 = 0 || 4096 < bits arg.toNat 0 13 then illegal tag 0x08 { s with out := [] }
      else respond tag 0x08 (min (bits arg.toNat 0 13) s.nb.remaining)
        { s with out := [], nb := { s.nb with slots := min (bits arg.toNat 0 13) s.nb.remaining, slotNo := 0 } }) :=
  answer_taskFrame_accepted on phase (decide_eq_true task)

theorem exec_hostDataBlock_task (waits : s.nb.taskBlock = true) (data : Mem) (crcs : List (BitVec 16)) : exec (.hostDataBlock data crcs) s
    = .next (settleUp (receiveTaskBlock (Mem.norm 0 64 data) (crcs = blockChecks s.nb.wide 64 (Mem.norm 0 64 data)) { s with out := [] })) := by
  change work (onlyIf _ _) s = _
  rw [work_onlyIf_true on]
  exact congrArg (fun t => Host.Outcome.next (settleUp t)) (if_pos waits)

theorem exec_hostDataBlock_slot {n : Nat} (other : s.nb.taskBlock = false) (task : s.nb.task = .dataIn) (granted : 0 < s.nb.slots)
    (size : n = min 4096 (Entry.length s.nb.entry - s.nb.inLen)) (data : Mem) (crcs : List (BitVec 16)) : exec (.hostDataBlock data crcs) s
    = .next (settleUp (receiveSlot n (Mem.norm 0 n data) (crcs = blockChecks s.nb.wide n (Mem.norm 0 n data)) { s with out := [] })) := by
  subst size
  change work (onlyIf _ _) s = _
  rw [work_onlyIf_true on]
  exact congrArg (fun t => Host.Outcome.next (settleUp t)) ((if_neg (Bool.eq_false_iff.1 other)).trans (if_pos (by simp [task, granted])))

end

/-- A good block in a slot that is not the transfer's last (R132). -/
theorem receiveSlot_good {s : State} (more : 1 < s.nb.remaining) (n : Nat) (data : Mem) : receiveSlot n (Mem.norm 0 n data) true s = { s with
    out := s.out ++ [tokenOf (s.nb.slotNo + 1) true]
    nb := { s.nb with slots := s.nb.slots - 1, slotNo := s.nb.slotNo + 1, remaining := s.nb.remaining - 1, inLen := s.nb.inLen + n
                      inData := Mem.patch s.nb.inData (Mem.norm 0 n data) s.nb.inLen n } } := by
  have left : ¬ s.nb.remaining - 1 = 0 := by omega
  unfold receiveSlot
  simp only [↓reduceIte, emit_nb, left, Mem.norm_norm]
  rfl

/-- A bad block in a slot: the slot is used up, its token says so, and FC9 is recorded (R132). -/
theorem receiveSlot_bad (n : Nat) (data : Mem) (s : State) : receiveSlot n data false s = emit (tokenOf (s.nb.slotNo + 1) false)
    (checkError { s with nb := { s.nb with slots := s.nb.slots - 1, slotNo := s.nb.slotNo + 1, dataErr := true } }) := rfl

/-! ## Blocks of the module (R133) -/

/-- Things sent one after another. -/
theorem foldl_emit {α : Type} (o : State → α → Out) (l : List α) (s : State) :
    ∃ os, l.foldl (fun s x => emit (o s x) s) s = emits os s ∧ os.length = l.length := by
  induction l generalizing s with
  | nil => exact ⟨[], by simp [emits], rfl⟩
  | cons x l ih =>
    obtain ⟨os, sent, length⟩ := ih (emit (o s x) s)
    exact ⟨o s x :: os, by rw [List.foldl_cons, sent]; simp [emits, emit], by rw [List.length_cons, length, List.length_cons]⟩

/-- Blocks that the module sends change nothing but what it sends. -/
theorem sendBlocks_eq (p : Payload) (k n : Nat) (s : State) : ∃ os, sendBlocks p k n s = emits os s ∧ os.length = n := by
  obtain ⟨os, sent, length⟩ := foldl_emit (fun s i => blockOut s.nb.wide s.ddr (min 4096 (p.len - 4096 * (k + i)))
    (Mem.slice (4096 * (k + i)) (min 4096 (p.len - 4096 * (k + i))) p.data)) (List.range n) s
  exact ⟨os, sent, length.trans List.length_range⟩

/-- The state after Read Data has sent `k` blocks, `again` of them once more. -/
def blocksSent (p : Payload) (again k : Nat) (tag : BitVec 3) (s : State) : State :=
  let t := sendBlocks p (s.nb.sent - again) k (respond tag 0x09 k s)
  { t with nb := { t.nb with sent := t.nb.sent + k - again, remaining := t.nb.remaining - (k - again) } }

theorem blocksSent_nb (p : Payload) (again k : Nat) (tag : BitVec 3) (s : State) : (blocksSent p again k tag s).nb = { s.nb with
    frameErr := false, dataErr := false, illegal := false, sent := s.nb.sent + k - again, remaining := s.nb.remaining - (k - again) } := by
  obtain ⟨os, sent, -⟩ := sendBlocks_eq p (s.nb.sent - again) k (respond tag 0x09 k s)
  unfold blocksSent
  rw [sent]
  rfl

theorem blocksSent_out (p : Payload) (again k : Nat) (tag : BitVec 3) (s : State) : (blocksSent p again k tag s).out.length = s.out.length + 1 + k := by
  obtain ⟨os, sent, length⟩ := sendBlocks_eq p (s.nb.sent - again) k (respond tag 0x09 k s)
  unfold blocksSent
  rw [sent]
  simp only [emits_out, respond_out, List.length_append, List.length_singleton, length]

section
variable {s : State} {tag : BitVec 3} {arg : BitVec 32} {n : Nat} (size : n = bits arg.toNat 0 13) (least : 1 ≤ n) (most : n ≤ 4096)
include size least most

theorem readDataFrame_next {p : Payload} (fresh : bit arg.toNat 31 = false) (left : s.nb.remaining ≠ 0) (staged : s.nb.outData = some p) :
    readDataFrame tag arg s = blocksSent p 0 (min n (blocksOf p - s.nb.sent)) tag s := by
  subst size
  unfold readDataFrame
  dsimp only
  rw [if_neg (by simp [fresh]; omega), if_neg (by simp [left]), staged]
  simp [fresh, blocksSent]

theorem readDataFrame_resend {p : Payload} (resend : bit arg.toNat 31 = true) (some_ : s.nb.sent ≠ 0) (staged : s.nb.outData = some p) :
    readDataFrame tag arg s = blocksSent p 1 (min n (1 + (blocksOf p - s.nb.sent))) tag s := by
  subst size
  unfold readDataFrame
  dsimp only
  rw [if_neg (by simp [some_]; omega), if_neg (by simp [resend]), staged]
  simp [resend, blocksSent]

theorem readDataFrame_confirm (fresh : bit arg.toNat 31 = false) (done : s.nb.remaining = 0) :
    readDataFrame tag arg s = taskDataOut (respond tag 0x09 0 { s with nb := { s.nb with task := .busy } }) := by
  subst size
  unfold readDataFrame
  dsimp only
  rw [if_neg (by simp [fresh]; omega), if_pos (by simp [fresh, done])]

end

/-- The last block confirmed, the command completes; the bytes read are counted (R125, R133). -/
theorem taskDataOut_completes {s : State} {i : Item} (item : s.task? = some i) (wait : i.wait = .data) (staged : s.nb.outData ≠ none) :
    ∃ health, taskDataOut s = succeed i i.result { s with health := health } := by
  have ready : ¬ (decide (i.wait ≠ .data) || s.nb.outData.isNone) = true := by simp [wait, staged]
  unfold taskDataOut
  rw [item]
  dsimp only
  rw [if_neg ready]
  split
  · exact ⟨_, rfl⟩
  · exact ⟨s.health, rfl⟩

theorem exec_readData {s : State} (on : s.nbOn = true) (phase : s.nb.version ≠ 0) (task : s.nb.task = .dataOut) (tag : BitVec 3) (arg : BitVec 32) :
    exec (.readData tag arg) s = .next (settleUp (readDataFrame tag arg { s with out := [] })) :=
  work_taskFrame_accepted on phase (decide_eq_true task)

/-- Settles O46: a block of the host by what it is checked against, Read Data by the blocks that are left. -/
theorem dataPhasesMoveBlocks : Obligations.DataPhasesMoveBlocks := by
  unfold Obligations.DataPhasesMoveBlocks
  refine ⟨?grant, ?taskBlock, ?good, ?bad, ?next_, ?resend, ?confirm⟩
  case grant =>
    rintro s tag arg _ on phase task rfl
    rw [exec_writeData on phase task]
    refine ⟨fun least most => ?_, fun outside => ?_⟩
    · rw [if_neg (by simp; omega)]
    · rw [if_pos (by simpa using outside)]
  case taskBlock =>
    intro s data crcs on waits good
    rw [exec_hostDataBlock_task on waits, decide_eq_true good]
    rfl
  case good =>
    intro s data crcs n on other task granted more size good
    rw [exec_hostDataBlock_slot on other task granted size, decide_eq_true good, receiveSlot_good (s := { s with out := [] }) more]
    rfl
  case bad =>
    intro s data crcs n on other task granted size bad unack stop items
    obtain ⟨flt, aon, health, b, rest, noted, front, -, -, cls, level, -⟩ := checkError_noted
      (s := { s with out := [], nb := { s.nb with slots := s.nb.slots - 1, slotNo := s.nb.slotNo + 1, dataErr := true } }) unack stop (by simp [items])
    have row := exec_hostDataBlock_slot on other task granted size data crcs
    rw [decide_eq_false bad, receiveSlot_bad, noted] at row
    exact ⟨_, b, rest, row, rfl, rfl, front, cls, level⟩
  case next_ =>
    rintro s tag arg n _ p on phase task size least most fresh left staged rfl
    have row := exec_readData on phase task tag arg
    rw [readDataFrame_next (s := { s with out := [] }) size least most fresh left staged] at row
    refine ⟨_, row, rfl, ?_, ?_, ?_, ?_, ?_⟩
    · rw [blocksSent_nb]; rfl
    · rw [blocksSent_nb]; rfl
    · rw [blocksSent_nb]; exact task
    · rw [blocksSent_nb]; exact staged
    · rw [blocksSent_out]; exact Nat.add_comm _ _
  case resend =>
    rintro s tag arg n _ p on phase task size least most resend some_ staged rfl
    have row := exec_readData on phase task tag arg
    rw [readDataFrame_resend (s := { s with out := [] }) size least most resend some_ staged] at row
    refine ⟨_, row, rfl, ?_, ?_, ?_⟩
    · rw [blocksSent_nb]
    · rw [blocksSent_nb]
    · rw [blocksSent_nb]; exact task
  case confirm =>
    intro s tag arg i on phase task fresh least most done items narrow wait staged
    obtain ⟨health, completes⟩ := taskDataOut_completes (s := respond tag 0x09 0 { s with out := [], nb := { s.nb with task := .busy } })
      (task_of_only items narrow) wait staged
    have row := exec_readData on phase task tag arg
    rw [readDataFrame_confirm (s := { s with out := [] }) rfl least most fresh done, completes] at row
    exact ⟨_, row, rfl, rfl, rfl⟩

end Sys2Proof.Proofs
end

section
/-! SUPPORT. The structures that Identify, Get Log Page and Attest return (O31): the command as it begins, the structure cut to its transfer, and the segment
list that does not fit. -/

namespace Sys2Proof.Proofs

open Sys2Proof Sys2Proof.Machine Sys2Proof.Laws

/-! ## The rows -/

theorem takes_identify {q : Nat} {g : List Nat} {s : State} {f : Fetched} (h : s.Takes (.identify q g) q f) : Entry.opcode f.entry = 0x88 := by
  obtain ⟨k, hk, hf⟩ := h
  obtain ⟨-, rfl⟩ := by simpa [State.hostRow] using hk
  simpa [isOp] using hf

theorem takes_getLogPage {q : Nat} {g : List Nat} {s : State} {f : Fetched} (h : s.Takes (.getLogPage q g) q f) :
    Entry.opcode f.entry = 0x89 ∧ logClear f.entry = false ∧ logAck f.entry = false := by
  obtain ⟨k, hk, hf⟩ := h
  obtain ⟨-, rfl⟩ := by simpa [State.hostRow] using hk
  simpa [isOp, and_assoc] using hf

theorem takes_attest {g : List Nat} {s : State} {f : Fetched} (h : s.Takes (.attest g) 0 f) : Entry.opcode f.entry = 0xA2 := by
  obtain ⟨k, hk, hf⟩ := h
  obtain ⟨-, rfl⟩ := by simpa [State.hostRow] using hk
  simpa [isOp] using hf

/-- The opcodes of the commands that return a structure. -/
def isStructureOp (op : Nat) : Prop := op = 0x88 ∨ op = 0x89 ∨ op = 0xA2

theorem isStructureOp.ne_sanitize {op : Nat} (h : isStructureOp op) : op ≠ 0x98 := by rcases h with rfl | rfl | rfl <;> decide

theorem isStructureOp.plain {op : Nat} (h : isStructureOp op) : isBlockCmd op = false := by rcases h with rfl | rfl | rfl <;> decide

/-- None of them changes a partition or a right. -/
theorem isStructureOp.changesOf {e : Entry} (h : isStructureOp (Entry.opcode e)) (limit profile ruling : Nat) (m : MapState) :
    changesOf limit profile ruling m e = [] := by
  unfold Machine.changesOf
  rcases h with h | h | h <;> simp [h]

/-- Each returns data, so its buffer is undefined where it fails (R211). -/
theorem isStructureOp.failData {i : Item} (h : isStructureOp (Entry.opcode i.entry)) (narrow : i.narrow = false) (x : Fail) (s : State) :
    failData i x s = finish i x 0 (emit (.undefinedBuffer i.q (Entry.cid i.entry)) s) := by
  unfold Machine.failData undefineBuffer
  rw [narrow]
  rcases h with e | e | e <;> rw [e] <;> rfl

/-- A command that returns a structure, as it begins: its item, and what its admission leaves of what the structures show. -/
structure Told (s t : State) (q : Nat) (g : List Nat) (f : Fetched) (i : Item) : Prop where
  entry : i.entry = f.entry
  pair : i.q = q
  narrow : i.narrow = false
  well : i.well = s.wellOf q
  segs : i.segs = g
  out : t.out = []
  adm : t.nib.adm = s.nib.adm
  strap : t.strap = s.strap
  rst : t.rst = s.rst
  pcie : t.pcie = s.pcie
  op : isStructureOp (Entry.opcode i.entry)

theorem told_of_begins {c : Instr} {q : Nat} {g : List Nat} {s t : State} {f : Fetched} {i : Item} (h : s.Begins c q f t i)
    (op : isStructureOp (Entry.opcode f.entry)) (given_ : (rowGiven c).segs = g) : Told s t q g f i := by
  obtain ⟨v, e, hd, a, w, p, x, y, z, rfl, entry, -, narrow, pair, -, -, -, -, well, -, -, -, -, -, -, adm, -, -, -, segs, -⟩ := begins_eq h op.ne_sanitize
  rw [op.changesOf] at adm
  exact ⟨entry, pair, narrow, well, segs.trans given_, rfl, adm, rfl, rfl, rfl, entry ▸ op⟩

/-! ## A structure cut to its transfer -/

/-- What the module sends of a structure: the bytes of the transfer, in writes within Max Payload Size (R150, R220). -/
def structureData (i : Item) (g : List Nat) (mps : Nat) (m : Mem) : Out :=
  .hostData i.q (Entry.cid i.entry) { len := Entry.length i.entry, data := Mem.slice 0 (Entry.length i.entry) m } false ((i.pieces g).flatMap (cut (min mps 512)))

/-- A slice cut to its own length is itself. -/
theorem slice_zero_slice (a n : Nat) (m : Mem) : Mem.slice 0 n (Mem.slice a n m) = Mem.slice a n m := by
  induction m with
  | nil => rfl
  | cons c m ih =>
    obtain ⟨k, v⟩ := c
    by_cases inside : a ≤ k ∧ k < a + n
    · have short : k - a < n := by omega
      simp [Mem.slice, inside, short, ih]
    · simp [Mem.slice, inside, ih]

section
variable {s t : State} {q : Nat} {g : List Nat} {f : Fetched} {i : Item} (r : Told s t q g f i)
include r

theorem Told.listFits : i.listFits = segmentsFit i.entry g := by
  unfold Item.listFits
  rw [r.narrow, r.segs, Bool.false_or]

/-- A structure whose segment list fits goes to the host buffer, and the command completes with its size (R166, R220). -/
theorem Told.structure_fits (fit : segmentsFit i.entry g = true) (size : Nat) (m : Mem) :
    structure_ i size m t = succeed i size (post (structureData i g s.pcie.host.mps m) t) := by
  unfold structure_ deliver writeHost
  rw [r.listFits, if_pos fit, r.op.plain, Bool.and_false, r.segs, r.pcie]
  simp only [r.narrow, Bool.false_and, Bool.false_eq_true, ↓reduceIte]
  rfl

/-- The buffer of the command holds undefined content, and the command ends so. -/
theorem Told.failData (x : Fail) : failData i x t = finish i x 0 { t with out := [.undefinedBuffer q (Entry.cid i.entry)] } := by
  rw [r.op.failData r.narrow]
  unfold emit
  rw [r.pair, r.out]
  rfl

/-- One whose segment list does not sum to the transfer fails the command (R166). -/
theorem Told.structure_misfits (misfit : segmentsFit i.entry g = false) (size : Nat) (m : Mem) : structure_ i size m t = Machine.failData i Fail.segments t := by
  unfold structure_
  rw [r.listFits, misfit]
  rfl

/-! ## The commands -/

theorem Told.runGetLog_misfits (misfit : segmentsFit i.entry g = false) : runGetLog i t = Machine.failData i Fail.segments t := by
  unfold runGetLog
  simp only [r.listFits, misfit, Bool.not_false, ↓reduceIte]
  exact r.structure_misfits misfit _ _

omit r in
/-- With neither Clear nor Acknowledge the page alone is returned (R221). -/
theorem runGetLog_plain (clear : logClear i.entry = false) (ack : logAck i.entry = false) :
    runGetLog i t = structure_ i (t.logPage (Entry.b2C i.entry) i.well).1
      (Mem.slice (Entry.w30 i.entry) (Entry.length i.entry) (Mem.ofFields (t.logPage (Entry.b2C i.entry) i.well).2)) t := by
  have noClear : bit (Entry.b2D i.entry) 0 = false := clear
  have noAck : bit (Entry.b2D i.entry) 1 = false := ack
  unfold runGetLog
  simp only [noClear, noAck, Bool.false_and, Bool.false_eq_true, ↓reduceIte, ite_self]

/-- The partitions that Identify lists are those of the items ruled (R220). -/
theorem Told.identifyData {n : Nat} {l : List Field}
    (shown : Entry.b2C i.entry = 0 ∧ n = 2048 ∧ l = t.deviceFields ∨ Entry.b2C i.entry = 2 ∧ n = 576 ∧ l = partListFields s.nib.adm
      ∨ Entry.b2C i.entry = 1 ∧ n = 256 ∧ (∃ p, s.nib.adm.part? (Entry.part i.entry) = some p ∧ l = t.partFields p)) : t.identifyData i.entry = (n, l) := by
  unfold State.identifyData
  rw [r.adm]
  rcases shown with ⟨sel, rfl, rfl⟩ | ⟨sel, rfl, rfl⟩ | ⟨sel, rfl, p, hp, rfl⟩
  · simp only [sel]
  · simp only [sel]
  · simp only [sel, hp]

theorem Told.logPage {n : Nat} {l : List Field}
    (shown : Entry.b2C i.entry = 1 ∧ n = 16448 ∧ l = t.errorPage ∨ Entry.b2C i.entry = 2 ∧ n = 512 ∧ l = t.healthPage
      ∨ Entry.b2C i.entry = 3 ∧ n = 1088 ∧ l = t.blotterPage ∨ Entry.b2C i.entry = 4 ∧ n = 64 ∧ l = [(0, 4, t.resetCause (s.wellOf q))]
      ∨ Entry.b2C i.entry = 5 ∧ n = 256 ∧ l = t.eventsPage ∨ Entry.b2C i.entry = 6 ∧ n = 544 ∧ l = t.longOpsPage
      ∨ Entry.b2C i.entry = 7 ∧ n = 32 ∧ l = strapFields s.strap ∨ Entry.b2C i.entry = 8 ∧ n = 2112 ∧ l = t.ligaturePage) :
    t.logPage (Entry.b2C i.entry) i.well = (n, l) := by
  unfold State.logPage
  rw [r.well, r.strap]
  rcases shown with ⟨sel, rfl, rfl⟩ | ⟨sel, rfl, rfl⟩ | ⟨sel, rfl, rfl⟩ | ⟨sel, rfl, rfl⟩ | ⟨sel, rfl, rfl⟩ | ⟨sel, rfl, rfl⟩
    | ⟨sel, rfl, rfl⟩ | ⟨sel, rfl, rfl⟩
    <;> simp only [sel]

end

/-- The rows that return a structure, and what their commands begin with. -/
theorem told_of_row {c : Instr} {q : Nat} {g : List Nat} {s t : State} {f : Fetched} {i : Item} (h : s.Begins c q f t i)
    (row : c = .identify q g ∨ c = .getLogPage q g ∨ c = .getLogPageClear q g ∨ c = .getLogPageAcknowledge q g ∨ c = .attest g ∧ q = 0) : Told s t q g f i := by
  rcases row with rfl | rfl | rfl | rfl | ⟨rfl, rfl⟩
  · exact told_of_begins h (.inl (takes_identify h.2.1)) rfl
  · exact told_of_begins h (.inr (.inl (takes_getLogPage h.2.1).1)) rfl
  · exact told_of_begins h (.inr (.inl (takes_getLogPageClear h.2.1).1)) rfl
  · exact told_of_begins h (.inr (.inl (takes_getLogPageAcknowledge h.2.1).1)) rfl
  · exact told_of_begins h (.inr (.inr (takes_attest h.2.1))) rfl

section
variable {c : Instr} {q : Nat} {g : List Nat} {s t : State} {f : Fetched} {i : Item} (h : s.Begins c q f t i)
include h

theorem exec_identify_begins (op : Entry.opcode i.entry = 0x88) : exec c s = .next (settleUp (runIdentify i t)) := by
  rw [exec_of_begins h, begin_admits h.2.2]
  simp only [op]

theorem exec_getLog_begins (op : Entry.opcode i.entry = 0x89) : exec c s = .next (settleUp (runGetLog i t)) := by
  rw [exec_of_begins h, begin_admits h.2.2]
  simp only [op]

theorem exec_attest_begins (op : Entry.opcode i.entry = 0xA2) : exec c s = .next (settleUp (runAttest i t)) := by
  rw [exec_of_begins h, begin_admits h.2.2]
  simp only [op]

/-- A segment list that does not sum to the transfer fails each of them; Attest looks at the calibration row first (R166, R357). -/
theorem Told.exec_misfits (r : Told s t q g f i) (misfit : segmentsFit i.entry g = false) (cal : Entry.opcode i.entry = 0xA2 → s.rst.calGood = true) :
    exec c s = .next (settleUp (Machine.failData i Fail.segments t)) := by
  rcases r.op with op | op | op
  · rw [exec_identify_begins h op, runIdentify, r.structure_misfits misfit]
  · rw [exec_getLog_begins h op, r.runGetLog_misfits misfit]
  · rw [exec_attest_begins h op, runAttest, r.rst, if_pos (cal op), r.structure_misfits misfit]

end

/-- Settles O31: each command by the structure that it builds, which goes out cut to its transfer where the segment list fits. -/
theorem structuresGoToTheHost : Obligations.StructuresGoToTheHost := by
  unfold Obligations.StructuresGoToTheHost
  refine ⟨?identify, ?logPage, ?attest, ?uncalibrated, ?misfits⟩
  case identify =>
    intro s q g f t i n l begins fit shown
    have r := told_of_row begins (.inl rfl)
    rw [exec_identify_begins begins (r.entry ▸ takes_identify begins.2.1), runIdentify, r.identifyData shown, r.structure_fits fit, structureData, r.pair]
  case logPage =>
    intro s q g f t i n l begins fit shown
    have r := told_of_row begins (.inr (.inl rfl))
    obtain ⟨op, clear, ack⟩ := takes_getLogPage begins.2.1
    rw [← r.entry] at op clear ack
    rw [exec_getLog_begins begins op, runGetLog_plain clear ack, r.logPage shown, r.structure_fits fit, structureData, r.pair, slice_zero_slice]
  case attest =>
    intro s g f t i begins fit cal
    have r := told_of_row begins (.inr (.inr (.inr (.inr ⟨rfl, rfl⟩))))
    refine ⟨Mem.slice 0 (Entry.length i.entry) (t.attestReport i), ?_⟩
    rw [exec_attest_begins begins (r.entry ▸ takes_attest begins.2.1), runAttest, r.rst, if_pos cal, r.structure_fits fit, structureData, r.pair]
  case uncalibrated =>
    intro s g f t i begins cal
    have r := told_of_row begins (.inr (.inr (.inr (.inr ⟨rfl, rfl⟩))))
    have unread : t.rst.calGood = false := by rw [r.rst, cal]
    rw [exec_attest_begins begins (r.entry ▸ takes_attest begins.2.1), runAttest, unread, if_neg Bool.false_ne_true, r.failData]
    rfl
  case misfits =>
    intro s c q g f t i row begins segmented sum
    have r : Told s t q g f i := told_of_row begins (by tauto)
    have misfit : segmentsFit i.entry g = false := by simp [segmentsFit, segmented, sum]
    have cal : Entry.opcode i.entry = 0xA2 → s.rst.calGood = true := by
      intro op
      rcases row with rfl | rfl | rfl | rfl | ⟨-, -, cal⟩
      · rw [r.entry, takes_identify begins.2.1] at op; exact absurd op (by decide)
      · rw [r.entry, (takes_getLogPage begins.2.1).1] at op; exact absurd op (by decide)
      · rw [r.entry, (takes_getLogPageClear begins.2.1).1] at op; exact absurd op (by decide)
      · rw [r.entry, (takes_getLogPageAcknowledge begins.2.1).1] at op; exact absurd op (by decide)
      · exact cal
    rw [r.exec_misfits begins misfit cal, r.failData]
    rfl

end Sys2Proof.Proofs
end

section
/-! SUPPORT. An access to BAR0 (R148, R151, R164): it reaches the function, or is refused as an Unsupported Request. What the reports of AER touch. -/

namespace Sys2Proof.Proofs

open Sys2Proof Sys2Proof.Machine Sys2Proof.Laws

section
variable {posted : Bool} {f : State → State} {s : State}

theorem answer_barAccess_open (open_ : s.barOpen = true) : answer s (barAccess posted f) = .next (f { s with out := [] }) :=
  congrArg Host.Outcome.next (if_pos open_)

theorem answer_barAccess_closed (up : s.linkUp = true) (closed : s.barOpen = false) :
    answer s (barAccess posted f) = .next (refuseRequest posted 0 { s with out := [] }) := by
  have closed' : State.barOpen { s with out := [] } = false := closed
  have up' : State.linkUp { s with out := [] } = true := up
  simp only [answer, barAccess, closed', up', Bool.false_eq_true, ↓reduceIte]

theorem work_barAccess_open (open_ : s.barOpen = true) : work (barAccess posted f) s = .next (settleUp (f { s with out := [] })) :=
  congrArg (fun t => Host.Outcome.next (settleUp t)) (if_pos open_)

theorem work_barAccess_closed (up : s.linkUp = true) (closed : s.barOpen = false) :
    work (barAccess posted f) s = .next (settleUp (refuseRequest posted 0 { s with out := [] })) := by
  have closed' : State.barOpen { s with out := [] } = false := closed
  have up' : State.linkUp { s with out := [] } = true := up
  simp only [work, answer, barAccess, closed', up', Bool.false_eq_true, ↓reduceIte]

end

/-! ## Reports of AER (R164) -/

/-- Only messages of AER. -/
def ErrMessages (o : List Out) : Prop := ∀ y ∈ o, ∃ k, y = .errMessage k

theorem ErrMessages.nil : ErrMessages [] := fun _ h => absurd h List.not_mem_nil

theorem ErrMessages.one (k : Nat) : ErrMessages [.errMessage k] := fun _ h => ⟨k, List.mem_singleton.1 h⟩

theorem ErrMessages.not_mem {o : List Out} (h : ErrMessages o) {y : Out} (other : ∀ k, y ≠ .errMessage k) : y ∉ o :=
  fun m => (h y m).elim fun k e => other k e

theorem sendError_eq (severity : Nat) (s : State) : ∃ o, ErrMessages o ∧ sendError severity s = { s with out := s.out ++ o } := by
  unfold sendError
  dsimp only
  split
  · exact ⟨_, .one severity, rfl⟩
  · exact ⟨_, .nil, by rw [List.append_nil]⟩

theorem reportCorrectable_eq (bits : BitVec 32) (s : State) : ∃ o, ErrMessages o
    ∧ reportCorrectable bits s = { s with out := s.out ++ o, pcie := { s.pcie with aerCor := s.pcie.aerCor ||| bits } } := by
  unfold reportCorrectable
  dsimp only
  split
  · exact ⟨_, .nil, by rw [List.append_nil]⟩
  · exact sendError_eq 0 { s with pcie := { s.pcie with aerCor := s.pcie.aerCor ||| bits } }

/-- An uncorrectable error sets its own status bits; one that an answer makes known may set the bit of an advisory error besides. -/
theorem reportUncorrectable_touches (bits : BitVec 32) (header : BitVec 128) (advisory : Bool) (s : State) : ∃ o c h, ErrMessages o
    ∧ reportUncorrectable bits header advisory s
      = { s with out := s.out ++ o, pcie := { s.pcie with aerUncor := s.pcie.aerUncor ||| bits, aerCor := c, aerHeader := h } }
    ∧ (advisory = false → c = s.pcie.aerCor) := by
  unfold reportUncorrectable
  dsimp only
  split
  · exact ⟨_, _, _, .nil, by rw [List.append_nil], fun _ => rfl⟩
  split
  · obtain ⟨o, messages, e⟩ := sendError_eq 2 { s with pcie := { s.pcie with aerUncor := s.pcie.aerUncor ||| bits, aerHeader := _ } }
    exact ⟨o, _, _, messages, e, fun _ => rfl⟩
  split
  · next known =>
    obtain ⟨o, messages, e⟩ := reportCorrectable_eq 0x2000 { s with pcie := { s.pcie with aerUncor := s.pcie.aerUncor ||| bits, aerHeader := _ } }
    exact ⟨o, _, _, messages, e, fun unknown => absurd known (by simp [unknown])⟩
  · obtain ⟨o, messages, e⟩ := sendError_eq 1 { s with pcie := { s.pcie with aerUncor := s.pcie.aerUncor ||| bits, aerHeader := _ } }
    exact ⟨o, _, _, messages, e, fun _ => rfl⟩

theorem reportUncorrectable_eq (bits : BitVec 32) (header : BitVec 128) (s : State) : ∃ o h, ErrMessages o
    ∧ reportUncorrectable bits header false s = { s with out := s.out ++ o, pcie := { s.pcie with aerUncor := s.pcie.aerUncor ||| bits, aerHeader := h } } := by
  obtain ⟨o, c, h, messages, e, kept⟩ := reportUncorrectable_touches bits header false s
  obtain rfl := kept rfl
  exact ⟨o, h, messages, e⟩

/-- A posted request that is refused is reported, and not answered. -/
theorem refuseRequest_posted (header : BitVec 128) (s : State) : ∃ o h, ErrMessages o
    ∧ refuseRequest true header s = { s with out := s.out ++ o, pcie := { s.pcie with aerUncor := s.pcie.aerUncor ||| 0x100000, aerHeader := h } } :=
  reportUncorrectable_eq 0x100000 header s

/-- A non-posted one is answered with Unsupported Request. -/
theorem refuseRequest_nonPosted (header : BitVec 128) (s : State) : ∃ o c h, ErrMessages o
    ∧ refuseRequest false header s = { s with
        out := s.out ++ o ++ [.unsupportedRequest], pcie := { s.pcie with aerUncor := s.pcie.aerUncor ||| 0x100000, aerCor := c, aerHeader := h } } := by
  obtain ⟨o, c, h, messages, e, -⟩ := reportUncorrectable_touches 0x100000 header true s
  exact ⟨o, c, h, messages, congrArg (emit .unsupportedRequest) e⟩

/-- Completer Abort is answered, and reported (R151). -/
theorem abortRequest_eq (s : State) : ∃ o c h, ErrMessages o ∧ abortRequest s = { s with
    out := s.out ++ o ++ [.completerAbort]
    pcie := { s.pcie with status := s.pcie.status ||| 0x0800, aerUncor := s.pcie.aerUncor ||| 0x8000, aerCor := c, aerHeader := h } } := by
  obtain ⟨o, c, h, messages, e, -⟩ := reportUncorrectable_touches 0x8000 0 true (setStatus 0x0800 s)
  exact ⟨o, c, h, messages, congrArg (emit .completerAbort) e⟩

end Sys2Proof.Proofs
end

section
/-! SUPPORT. The statement on MSI-X (O19): when a message goes out, waits or is kept as a pending bit, and the unmasking of a vector (R159). -/

namespace Sys2Proof.Proofs

open Sys2Proof Sys2Proof.Machine Sys2Proof.Laws

/-- The table with a vector unmasked: its Vector Control byte differs from its reset value. -/
theorem setMsixByte_unmask (v : Nat) (t : Mem) : setMsixByte (16 * v + 12) 0 t = Mem.set 0 t (16 * v + 12) 1 := by
  have control : (16 * v + 12) % 16 = 12 := by omega
  simp [setMsixByte, control]

theorem get_unmasked {t : Mem} (wf : Mem.wf 0 t = true) (v a : Nat) :
    Mem.get 0 (setMsixByte (16 * v + 12) 0 t) a = if a = 16 * v + 12 then 1 else Mem.get 0 t a := by
  rw [setMsixByte_unmask, Mem.get_set 0 t _ a 1 wf]
  simp only [eq_comm]

/-- The state with a vector unmasked. -/
def unmasked (v : Nat) (s : State) : State := { s with pcie := { s.pcie with msixTable := setMsixByte (16 * v + 12) 0 s.pcie.msixTable } }

theorem vectorMasked_unmasked {s : State} (wf : Mem.wf 0 s.pcie.msixTable = true) (v : Nat) : (unmasked v s).vectorMasked v = false := by
  have control : (16 * v + 12) % 16 = 12 := by omega
  have byte : Mem.get 0 (unmasked v s).pcie.msixTable (16 * v + 12) = 1 := (get_unmasked wf v _).trans (if_pos rfl)
  rw [State.vectorMasked, msixByte, byte, if_pos control]
  rfl

theorem exec_msixVectorUnmask {s : State} {v : Nat} (open_ : s.barOpen = true) (small : v < 2048) :
    exec (.msixVectorUnmask v) s = .next (sendPending v (unmasked v { s with out := [] })) := by
  change answer s (barAccess true _) = _
  rw [answer_barAccess_open open_, if_neg (Nat.not_le.2 small)]
  rfl

/-- A pending vector that nothing masks sends its one message, or leaves it in the transmit path. -/
theorem sendPending_pending {s : State} {v : Nat} (pending : v ∈ s.pcie.msixPending) (on : s.msixOn = true) (free : s.vectorMasked v = false) :
    sendPending v s = post (.msix v) { s with pcie := { s.pcie with msixPending := without v s.pcie.msixPending } } := by
  simp [sendPending, pending, on, free]

theorem sendPending_none {s : State} {v : Nat} (none_ : v ∉ s.pcie.msixPending) : sendPending v s = s := by
  simp [sendPending, none_]

/-- Settles O19: a message by the masks and the transmit path, the unmasking by the byte that it writes. -/
theorem msixMessagesAndPendingBits : Obligations.MsixMessagesAndPendingBits := by
  unfold Obligations.MsixMessagesAndPendingBits
  refine ⟨?message, ?pending, ?idle⟩
  case message =>
    intro s v
    unfold sendMsix
    by_cases off : s.pcie.host.msixEnable = false ∨ s.pcie.host.msixMask = true
    · have disabled : s.msixOn = false := by rcases off with h | h <;> simp [State.msixOn, h]
      rw [if_pos off, disabled]
      rfl
    · have enabled : s.msixOn = true := by simpa [State.msixOn] using off
      rw [if_neg off, enabled]
      rfl
  case pending =>
    intro s v open_ small enabled free pending wf
    have on : (unmasked v { s with out := [] }).msixOn = true := by simp [State.msixOn, unmasked, enabled, free]
    have sent := sendPending_pending (s := unmasked v { s with out := [] }) pending on (vectorMasked_unmasked (s := { s with out := [] }) wf v)
    refine ⟨setMsixByte (16 * v + 12) 0 s.pcie.msixTable, ?_, get_unmasked wf v⟩
    rw [exec_msixVectorUnmask open_ small, sent]
    by_cases master : s.busMaster = true
    · simp only [if_pos master]
      exact congrArg Host.Outcome.next (if_pos master)
    · simp only [if_neg master]
      exact congrArg Host.Outcome.next (if_neg master)
  case idle =>
    intro s v open_ small none_ wf
    refine ⟨setMsixByte (16 * v + 12) 0 s.pcie.msixTable, ?_, get_unmasked wf v⟩
    rw [exec_msixVectorUnmask open_ small, sendPending_none (s := unmasked v { s with out := [] }) none_]
    rfl

end Sys2Proof.Proofs
end

section
/-! SUPPORT. The statement on BAR0 (O17): reads and writes by width, the bootstrap block, and the doorbells (R148, R151, R154, R169). -/

namespace Sys2Proof.Proofs

open Sys2Proof Sys2Proof.Machine Sys2Proof.Laws

/-! ## Fields in a memory -/

theorem wf_setLE {m : Mem} (wf : Mem.wf 0 m = true) (a n x : Nat) : Mem.wf 0 (Mem.setLE 0 m a n x) = true := by
  induction n generalizing m a x with
  | zero => exact wf
  | succ n ih => exact ih (Mem.wf_set _ _ _ _ wf) _ _

/-- A byte of a memory in which a field has been stored: the field's own byte, or the byte that stood there. -/
theorem get_setLE {m : Mem} (wf : Mem.wf 0 m = true) (a n x b : Nat) :
    Mem.get 0 (Mem.setLE 0 m a n x) b = if a ≤ b ∧ b < a + n then BitVec.ofNat 8 (x / 256 ^ (b - a)) else Mem.get 0 m b := by
  induction n generalizing m a x with
  | zero => rw [if_neg (by omega)]; rfl
  | succ n ih =>
    rw [Mem.setLE, ih (Mem.wf_set _ _ _ _ wf), Mem.get_set 0 m _ _ _ wf]
    by_cases first : a = b
    · subst first
      simp
    · by_cases later : a + 1 ≤ b ∧ b < a + 1 + n
      · have next : b - a = b - (a + 1) + 1 := by omega
        rw [if_pos later, if_pos (by omega), next, Nat.pow_succ', Nat.div_div_eq_div_mul]
      · rw [if_neg later, if_neg first, if_neg (by omega)]

/-- A field stored. -/
def putField (m : Mem) (f : Field) : Mem := Mem.setLE 0 m f.1 f.2.1 f.2.2

theorem wf_putField {m : Mem} (wf : Mem.wf 0 m = true) (f : Field) : Mem.wf 0 (putField m f) = true := wf_setLE wf _ _ _

theorem get_putField {m : Mem} (wf : Mem.wf 0 m = true) (f : Field) (b : Nat) :
    Mem.get 0 (putField m f) b = if f.1 ≤ b ∧ b < f.1 + f.2.1 then BitVec.ofNat 8 (f.2.2 / 256 ^ (b - f.1)) else Mem.get 0 m b := get_setLE wf _ _ _ _

theorem wf_putFields {m : Mem} (wf : Mem.wf 0 m = true) (l : List Field) : Mem.wf 0 (l.foldl putField m) = true :=
  Mem.wf_foldl 0 putField l m wf fun _ f h => wf_putField h f

/-- Fields that lie elsewhere leave a byte as it is. -/
theorem get_putFields_elsewhere {m : Mem} (wf : Mem.wf 0 m = true) {l : List Field} {b : Nat} (away : ∀ x ∈ l, ¬(x.1 ≤ b ∧ b < x.1 + x.2.1)) :
    Mem.get 0 (l.foldl putField m) b = Mem.get 0 m b := by
  induction l generalizing m with
  | nil => rfl
  | cons f l ih =>
    rw [List.foldl_cons, ih (wf_putField wf f) fun x hx => away x (List.mem_cons_of_mem f hx), get_putField wf, if_neg (away f List.mem_cons_self)]

/-- A byte of a structure, by the last field that covers it. -/
theorem get_ofFields {b : Nat} (l₁ : List Field) (f : Field) (l₂ : List Field) (inside : f.1 ≤ b ∧ b < f.1 + f.2.1)
    (away : ∀ x ∈ l₂, ¬(x.1 ≤ b ∧ b < x.1 + x.2.1)) : Mem.get 0 (Mem.ofFields (l₁ ++ f :: l₂)) b = BitVec.ofNat 8 (f.2.2 / 256 ^ (b - f.1)) := by
  have wf : Mem.wf 0 (l₁.foldl putField []) = true := wf_putFields (Mem.wf_nil 0) l₁
  change Mem.get 0 ((l₁ ++ f :: l₂).foldl putField []) b = _
  rw [List.foldl_append, List.foldl_cons, get_putFields_elsewhere (wf_putField wf f) away, get_putField wf, if_pos inside]

/-! ## Reads -/

theorem barByte_boot (s : State) (k : Nat) (inside : k < 0x24) : s.barByte (0x1000 + k) = Mem.get 0 (Mem.ofFields (bootFields s)) k := by
  unfold State.barByte
  rw [if_neg (by omega), if_pos (by omega), Nat.add_sub_cancel_left]

/-- The bytes of the bootstrap block that identify it and that show Granted and Status (Table 06-7). -/
theorem bootFields_bytes (s : State) : Mem.get 0 (Mem.ofFields (bootFields s)) 0x00 = 3
    ∧ Mem.get 0 (Mem.ofFields (bootFields s)) 0x05 = BitVec.ofNat 8 s.pcie.granted
    ∧ Mem.get 0 (Mem.ofFields (bootFields s)) 0x0C = BitVec.ofNat 8 s.bootstrapStatus := by
  refine ⟨(get_ofFields [] _ _ ?_ ?_).trans ?_, (get_ofFields [_, _] _ _ ?_ ?_).trans ?_, (get_ofFields [_, _, _, _] _ _ ?_ ?_).trans ?_⟩ <;> simp

theorem barByte_reserved (s : State) {a : Nat} (reserved : 0x1024 ≤ a ∧ a < 0x8000 ∨ 0x10100 ≤ a) : s.barByte a = 0 := by
  have identity : ¬ a < 0x1000 := by omega
  have boot : ¬ a < 0x1024 := by omega
  have table : ¬ (0x8000 ≤ a ∧ a < 0x10000) := by omega
  have pending : ¬ (0x10000 ≤ a ∧ a < 0x10100) := by omega
  simp only [State.barByte, Bool.and_eq_true, decide_eq_true_eq, identity, boot, table, pending, ↓reduceIte]

/-! ## Writes -/

/-- A write of BAR0 that reaches the function (R151). -/
def barStore (off len : Nat) (v : BitVec 64) (s : State) : State :=
  if len = 4 && off % 4 = 0 then barWord off (v.extractLsb' 0 32) s
  else if len = 8 && off % 8 = 0 then barWord (off + 4) (v.extractLsb' 32 32) (barWord off (v.extractLsb' 0 32) s)
  else s

theorem exec_bar0RegisterWrite {s : State} (open_ : s.barOpen = true) (off len : Nat) (v : BitVec 64) :
    exec (.bar0RegisterWrite off len v) s = .next (settleUp (barStore off len v { s with out := [] })) :=
  work_barAccess_open open_

section
variable (v : BitVec 64) (s : State)

theorem barStore_word {off : Nat} (aligned : off % 4 = 0) : barStore off 4 v s = barWord off (v.extractLsb' 0 32) s := by simp [barStore, aligned]

theorem barStore_pair {off : Nat} (aligned : off % 8 = 0) :
    barStore off 8 v s = barWord (off + 4) (v.extractLsb' 32 32) (barWord off (v.extractLsb' 0 32) s) := by simp [barStore, aligned]

/-- Any other write is discarded. -/
theorem barStore_other {off len : Nat} (word : ¬ (len = 4 ∧ off % 4 = 0)) (pair : ¬ (len = 8 ∧ off % 8 = 0)) : barStore off len v s = s := by
  simp [barStore, word, pair]

end

section
variable {off : Nat} (v : BitVec 32) (s : State)

/-- The words outside the bootstrap block, the doorbells and the MSI-X table take no write (Table 06-5). -/
theorem barWord_elsewhere (away : off < 0x1000 ∨ 0x1024 ≤ off ∧ off < 0x4000 ∨ 0x10000 ≤ off) : barWord off v s = s := by
  have control : off ≠ 0x1008 := by omega
  have boot : ¬ (0x1000 ≤ off ∧ off < 0x1024) := by omega
  have doorbells : ¬ (0x4000 ≤ off ∧ off < 0x8000) := by omega
  have table : ¬ (0x8000 ≤ off ∧ off < 0x10000) := by omega
  simp only [barWord, Bool.and_eq_true, decide_eq_true_eq, control, boot, doorbells, table, ↓reduceIte]

theorem barWord_boot (lo : 0x1000 ≤ off) (hi : off < 0x1024) (other : off ≠ 0x1008) : barWord off v s = writeBoot (off - 0x1000) v.toNat s := by
  simp only [barWord, Bool.and_eq_true, decide_eq_true_eq, other, lo, hi, and_self, ↓reduceIte]

end

/-- While Enable or Ready is 1 the block's stored registers stand (R154). -/
theorem writeBoot_locked {s : State} (locked : s.pcie.enable = true ∨ s.pcie.ready = true) (off v : Nat) : writeBoot off v s = s := by
  unfold writeBoot
  rw [if_pos (by simpa using locked)]

theorem writeBoot_free {s : State} (enable : s.pcie.enable = false) (ready : s.pcie.ready = false) (off v : Nat) : writeBoot off v s = match off with
    | 0x004 => { s with pcie := { s.pcie with request := v % 256 } }
    | 0x010 => { s with pcie := { s.pcie with asq := putHalf s.pcie.asq false v } }
    | 0x014 => { s with pcie := { s.pcie with asq := putHalf s.pcie.asq true v } }
    | 0x018 => { s with pcie := { s.pcie with acq := putHalf s.pcie.acq false v } }
    | 0x01C => { s with pcie := { s.pcie with acq := putHalf s.pcie.acq true v } }
    | 0x020 => { s with pcie := { s.pcie with asqSize := v % 65536, acqSize := v / 65536 } }
    | _ => s := by
  unfold writeBoot
  exact if_neg (by simp [enable, ready])

/-- The halves of a 64-bit register, written one after the other, make the value. -/
theorem putHalf_halves (x : Nat) (v : BitVec 64) : putHalf (putHalf x false (v.extractLsb' 0 32).toNat) true (v.extractLsb' 32 32).toNat = v.toNat := by
  have whole := v.isLt
  simp only [putHalf, BitVec.extractLsb'_toNat, Nat.shiftRight_eq_div_pow, Bool.false_eq_true, ↓reduceIte]
  omega

section
variable {s : State} (enable : s.pcie.enable = false) (ready : s.pcie.ready = false) (v : BitVec 64)
include enable ready

theorem barStore_asq : barStore 0x1010 8 v s = { s with pcie := { s.pcie with asq := v.toNat } } := by
  rw [barStore_pair _ _ rfl, barWord_boot (off := 0x1010) _ _ (by decide) (by decide) (by decide), writeBoot_free enable ready,
    barWord_boot _ _ (by decide) (by decide) (by decide), writeBoot_free (by exact enable) (by exact ready)]
  simp only [putHalf_halves]

theorem barStore_acq : barStore 0x1018 8 v s = { s with pcie := { s.pcie with acq := v.toNat } } := by
  rw [barStore_pair _ _ rfl, barWord_boot (off := 0x1018) _ _ (by decide) (by decide) (by decide), writeBoot_free enable ready,
    barWord_boot _ _ (by decide) (by decide) (by decide), writeBoot_free (by exact enable) (by exact ready)]
  simp only [putHalf_halves]

theorem barStore_request : barStore 0x1004 4 v s = { s with pcie := { s.pcie with request := (v.extractLsb' 0 8).toNat } } := by
  rw [barStore_word _ _ rfl, barWord_boot _ _ (by decide) (by decide) (by decide), writeBoot_free enable ready]
  simp [BitVec.extractLsb'_toNat]

theorem barStore_sizes : barStore 0x1020 4 v s
    = { s with pcie := { s.pcie with asqSize := (v.extractLsb' 0 16).toNat, acqSize := (v.extractLsb' 16 16).toNat } } := by
  have low : v.toNat % 2 ^ 32 % 65536 = v.toNat % 2 ^ 16 := by omega
  have high : v.toNat % 2 ^ 32 / 65536 = v.toNat / 2 ^ 16 % 2 ^ 16 := by omega
  rw [barStore_word _ _ rfl, barWord_boot _ _ (by decide) (by decide) (by decide), writeBoot_free enable ready]
  simp only [BitVec.extractLsb'_toNat, Nat.shiftRight_eq_div_pow, Nat.pow_zero, Nat.div_one, low, high]

end

/-! ## Doorbells -/

/-- The index of a doorbell is its low half (R169). -/
theorem doorbell_index (v : BitVec 32) : bits v.toNat 0 16 = (v.extractLsb' 0 16).toNat := (BitVec.extractLsb'_toNat ..).symm

theorem tailDoorbell_inside {s : State} {q : Nat} {v : BitVec 32} {p : Pair} (pair : s.pair? q = some p) (inside : (v.extractLsb' 0 16).toNat < p.sqSize)
    (plain : q ≠ 0 ∨ v.getLsbD 31 = false) : tailDoorbell q v s = modPair q (fun p => { p with tail := (v.extractLsb' 0 16).toNat }) (touch s) := by
  have noResume : (decide (q = 0) && bit v.toNat 31 && p.frozen.isSome) = false := by
    rw [← getLsbD_eq_bit]
    rcases plain with other | unset
    · rw [decide_eq_false other, Bool.false_and, Bool.false_and]
    · rw [unset, Bool.and_false, Bool.false_and]
  unfold tailDoorbell
  rw [pair]
  simp only [doorbell_index, Nat.not_le.2 inside, noResume, Bool.false_eq_true, ↓reduceIte]

theorem tailDoorbell_beyond {s : State} {q : Nat} {v : BitVec 32} {p : Pair} (pair : s.pair? q = some p) (beyond : p.sqSize ≤ (v.extractLsb' 0 16).toNat) :
    tailDoorbell q v s = badDoorbell q (v.extractLsb' 0 16).toNat 0 s := by
  unfold tailDoorbell
  rw [pair]
  simp only [doorbell_index, beyond, ↓reduceIte]

theorem headDoorbell_inside {s : State} {q : Nat} {v : BitVec 32} {p : Pair} (pair : s.pair? q = some p) (inside : (v.extractLsb' 0 16).toNat < p.cqSize) :
    headDoorbell q v s = modPair q (fun p => { p with cqHead := (v.extractLsb' 0 16).toNat }) (touch s) := by
  unfold headDoorbell
  rw [pair]
  simp only [doorbell_index, Nat.not_le.2 inside, ↓reduceIte]

theorem headDoorbell_beyond {s : State} {q : Nat} {v : BitVec 32} {p : Pair} (pair : s.pair? q = some p) (beyond : p.cqSize ≤ (v.extractLsb' 0 16).toNat) :
    headDoorbell q v s = badDoorbell q (v.extractLsb' 0 16).toNat 1 s := by
  unfold headDoorbell
  rw [pair]
  simp only [doorbell_index, beyond, ↓reduceIte]

section
variable {s : State} (open_ : s.barOpen = true) (q : Nat) (v : BitVec 32)
include open_

theorem exec_submissionTailDoorbell : exec (.submissionTailDoorbell q v) s = .next (tailDoorbell q v { s with out := [] }) := answer_barAccess_open open_

theorem exec_completionHeadDoorbell : exec (.completionHeadDoorbell q v) s = .next (headDoorbell q v { s with out := [] }) := answer_barAccess_open open_

end

/-- A pair's change by a doorbell, as the statement writes it. -/
theorem modPair_touch (q : Nat) (f : Pair → Pair) (s : State) : modPair q f (touch s) = { s with
    pwr := { s.pwr with entering4 := false }, nib := { s.nib with pairs := s.nib.pairs.map (fun x => if x.id = q then f x else x) } } := by
  simp only [modPair, touch, mapIf, decide_eq_true_eq]

/-- Settles O17: an access by whether the function answers it, a write by the word that it reaches, a doorbell by its pair and its index. -/
theorem bar0AnswersAndDoorbellsMoveTheRings : Obligations.Bar0AnswersAndDoorbellsMoveTheRings := by
  unfold Obligations.Bar0AnswersAndDoorbellsMoveTheRings
  refine ⟨?oversized, ?closedRead, ?closedWrite, ?read, ?misaligned, ?elsewhere, ?locked, ?stored, ?shown, ?tail, ?head, ?beyond, ?noPair⟩
  case oversized =>
    intro s off len open_ wide
    obtain ⟨o, c, h, messages, aborted⟩ := abortRequest_eq { s with out := [] }
    refine ⟨c, h, o, ?_, messages⟩
    change answer s (barAccess false _) = _
    rw [answer_barAccess_open open_, if_pos (by simpa [oversized] using wide), aborted]
    rfl
  case closedRead =>
    intro s off len up closed
    obtain ⟨o, c, h, messages, refused⟩ := refuseRequest_nonPosted 0 { s with out := [] }
    refine ⟨c, h, o, ?_, messages⟩
    change answer s (barAccess false _) = _
    rw [answer_barAccess_closed up closed, refused]
    rfl
  case closedWrite =>
    intro s off len v up closed
    obtain ⟨o, h, messages, refused⟩ := refuseRequest_posted 0 { s with out := [] }
    refine ⟨h, o, ?_, messages⟩
    change work (barAccess true _) s = _
    rw [work_barAccess_closed up closed, refused]
    rfl
  case read =>
    intro s off len open_ narrow inside
    change answer s (barAccess false _) = _
    rw [answer_barAccess_open open_, if_neg (by simp [oversized, narrow, inside])]
    rfl
  case misaligned =>
    intro s off len v open_ word pair
    rw [exec_bar0RegisterWrite open_, barStore_other _ _ word pair]
  case elsewhere =>
    intro s off len v open_ away wide
    rw [exec_bar0RegisterWrite open_]
    by_cases word : len = 4 ∧ off % 4 = 0
    · rw [word.1, barStore_word _ _ word.2, barWord_elsewhere _ _ away]
    by_cases pair : len = 8 ∧ off % 8 = 0
    · have upper : off + 4 < 0x1000 ∨ 0x1024 ≤ off + 4 ∧ off + 4 < 0x4000 ∨ 0x10000 ≤ off + 4 := by omega
      rw [pair.1, barStore_pair _ _ pair.2, barWord_elsewhere _ _ away, barWord_elsewhere _ _ upper]
    · rw [barStore_other _ _ word pair]
  case locked =>
    intro s off v open_ locked lo hi aligned other
    rw [exec_bar0RegisterWrite open_, barStore_word _ _ aligned, barWord_boot _ _ lo hi other, writeBoot_locked (s := { s with out := [] }) locked]
  case stored =>
    intro s v open_ enable ready
    refine ⟨?_, ?_, ?_, ?_⟩ <;> rw [exec_bar0RegisterWrite open_]
    · rw [barStore_request (s := { s with out := [] }) enable ready]
    · rw [barStore_asq (s := { s with out := [] }) enable ready]
    · rw [barStore_acq (s := { s with out := [] }) enable ready]
    · rw [barStore_sizes (s := { s with out := [] }) enable ready]
  case shown =>
    intro s
    obtain ⟨marker, granted, status⟩ := bootFields_bytes s
    exact ⟨(barByte_boot s 0x00 (by decide)).trans marker, (barByte_boot s 0x05 (by decide)).trans granted, (barByte_boot s 0x0C (by decide)).trans status,
      fun a => barByte_reserved s⟩
  case tail =>
    intro s q v p open_ pair inside plain
    rw [exec_submissionTailDoorbell open_, tailDoorbell_inside (s := { s with out := [] }) pair inside plain, modPair_touch]
  case head =>
    intro s q v p open_ pair inside
    rw [exec_completionHeadDoorbell open_, headDoorbell_inside (s := { s with out := [] }) pair inside, modPair_touch]
  case beyond =>
    intro s q v p c d open_ pair row
    rcases row with ⟨rfl, beyond, rfl⟩ | ⟨rfl, beyond, rfl⟩
    · rw [exec_submissionTailDoorbell open_, tailDoorbell_beyond (s := { s with out := [] }) pair beyond]
      exact ⟨_, rfl, rfl, rfl, rfl, rfl, rfl, rfl⟩
    · rw [exec_completionHeadDoorbell open_, headDoorbell_beyond (s := { s with out := [] }) pair beyond]
      exact ⟨_, rfl, rfl, rfl, rfl, rfl, rfl, rfl⟩
  case noPair =>
    intro s q v open_ none_
    have none' : State.pair? { s with out := [] } q = none := none_
    rw [exec_submissionTailDoorbell open_, exec_completionHeadDoorbell open_, tailDoorbell, headDoorbell, none']
    exact ⟨rfl, rfl⟩

end Sys2Proof.Proofs
end

section
/-! SUPPORT. The statement on the fetch arbiter (O21): the pair that a turn serves, and the entries that it takes (R174, R175, R191). -/

namespace Sys2Proof.Proofs

open Sys2Proof Sys2Proof.Machine Sys2Proof.Laws

/-! ## The arbiter -/

theorem mem_insertNat {x n : Nat} {l : List Nat} : x ∈ insertNat n l ↔ x = n ∨ x ∈ l := by
  induction l with
  | nil => simp [insertNat]
  | cons y l ih =>
    unfold insertNat
    split
    · simp
    · simp [ih, or_left_comm]

theorem mem_sortNat {x : Nat} {l : List Nat} : x ∈ sortNat l ↔ x ∈ l := by
  induction l with
  | nil => rfl
  | cons y l ih => rw [sortNat, List.foldr_cons, mem_insertNat, ← sortNat, ih, List.mem_cons]

/-- The rotation finds a member of every list that has one. -/
theorem nextAround_of_mem {x : Nat} {l : List Nat} (last : Nat) (h : x ∈ l) : ∃ w, nextAround last l = some w ∧ w ∈ l := by
  unfold nextAround
  cases later : l.find? (fun x => last < x) with
  | some w => exact ⟨w, rfl, List.mem_of_find?_eq_some later⟩
  | none =>
    cases l with
    | nil => exact absurd h List.not_mem_nil
    | cons y l => exact ⟨y, rfl, List.mem_cons_self⟩

theorem arbiter_none {s : State} (h : ∀ p ∈ s.nib.pairs, s.fetchable p = false) : s.arbiter = none := by
  have able : s.nib.pairs.filter s.fetchable = [] := List.filter_eq_nil_iff.2 fun p hp => by simp [h p hp]
  unfold State.arbiter
  rw [able]
  rfl

/-- A well with a pair that is able serves one of those that are, whichever was served last. -/
theorem served_of_mem {able : List Pair} {x : Pair} (hx : x ∈ able) (last : Nat) :
    ∃ z, (nextAround last (sortNat ((able.filter (fun p => p.well = x.well)).map (·.id)))).bind (fun q => able.find? (fun p => p.id = q)) = some z ∧ z ∈ able := by
  have inWell : x.id ∈ (able.filter (fun p => p.well = x.well)).map (·.id) := List.mem_map_of_mem (List.mem_filter.2 ⟨hx, by simp⟩)
  obtain ⟨q, served, id⟩ := nextAround_of_mem last (mem_sortNat.2 inWell)
  obtain ⟨y, hy, rfl⟩ := List.mem_map.1 (mem_sortNat.1 id)
  obtain ⟨z, found⟩ : ∃ z, able.find? (fun p => p.id = y.id) = some z :=
    Option.isSome_iff_exists.1 (List.find?_isSome.2 ⟨y, (List.mem_filter.1 hy).1, by simp⟩)
  exact ⟨z, by rw [served, Option.bind_some, found], List.mem_of_find?_eq_some found⟩

/-- Where a pair is fetchable one is served, and pair 0 before all others (R175). -/
theorem arbiter_some {s : State} (h : ∃ p ∈ s.nib.pairs, s.fetchable p = true) : ∃ p, s.arbiter = some p ∧ p ∈ s.nib.pairs ∧ s.fetchable p = true
    ∧ (p.id = 0 ∨ ∀ x ∈ s.nib.pairs, s.fetchable x = true → x.id ≠ 0) := by
  obtain ⟨p, hp, able⟩ := h
  unfold State.arbiter
  dsimp only
  cases admin : (s.nib.pairs.filter s.fetchable).find? (fun p => p.id = 0) with
  | some p₀ =>
    obtain ⟨listed, fetchable⟩ := List.mem_filter.1 (List.mem_of_find?_eq_some admin)
    exact ⟨p₀, rfl, listed, fetchable, .inl (by simpa using List.find?_some admin)⟩
  | none =>
    have others : ∀ x ∈ s.nib.pairs, s.fetchable x = true → x.id ≠ 0 := fun x hx fx => by
      simpa using List.find?_eq_none.1 admin x (List.mem_filter.2 ⟨hx, fx⟩)
    obtain ⟨w, turn, well⟩ := nextAround_of_mem s.nib.wellTurn (mem_sortNat.2 (List.mem_map_of_mem (f := Pair.well) (List.mem_filter.2 ⟨hp, able⟩)))
    obtain ⟨x, hx, rfl⟩ := List.mem_map.1 (mem_sortNat.1 well)
    simp only [turn]
    refine (served_of_mem hx _).imp fun z ⟨served, hz⟩ => ⟨served, ?_⟩
    obtain ⟨listed, fetchable⟩ := List.mem_filter.1 hz
    exact ⟨listed, fetchable, .inr others⟩

/-! ## The entries of a turn -/

theorem pair?_modPair {f : Pair → Pair} (keeps : ∀ p : Pair, (f p).id = p.id) (q : Nat) (s : State) :
    (modPair q f s).pair? q = (s.pair? q).map f := find?_mapIf (key := Pair.id) keeps q s.nib.pairs

/-- What the fetching of entries touches: the pairs, and the fetched commands behind those that stand there. -/
structure FetchedFrom (q : Nat) (l : List Entry) (a t : State) : Prop where
  eq : ∃ (pairs : List Pair) (fs : List Fetched), t = { a with nib := { a.nib with pairs := pairs, fetched := a.nib.fetched ++ fs } }
    ∧ fs.length = l.length ∧ ∀ x ∈ fs, x.q = q ∧ x.narrow = false ∧ x.stalled = false ∧ x.entry ∈ l

/-- The pair after one of its entries is fetched. -/
def afterFetch (p : Pair) : Pair := { p with retry := p.retry.tail, head := if p.retry = [] then (p.head + 1) % max 1 p.sqSize else p.head }

theorem fetchOne_eq {s : State} {q : Nat} {p : Pair} (h : s.pair? q = some p) (e : Entry) : fetchOne q e s = { modPair q afterFetch s with nib := {
    (modPair q afterFetch s).nib with
      fetched := s.nib.fetched ++ [{ narrow := false, q := q, slot := p.retry.head?.getD p.head, entry := e, stalled := false, retries := 0 }] } } := by
  unfold fetchOne
  rw [h]
  rfl

theorem foldl_fetchOne {q : Nat} (l : List Entry) {s : State} (h : (s.pair? q).isSome = true) : FetchedFrom q l s (l.foldl (fun s e => fetchOne q e s) s) := by
  induction l generalizing s with
  | nil => exact ⟨s.nib.pairs, [], by simp, rfl, by simp⟩
  | cons e l ih =>
    obtain ⟨p, hp⟩ := Option.isSome_iff_exists.1 h
    have next : ((fetchOne q e s).pair? q).isSome = true := by
      have kept : (modPair q afterFetch s).pair? q = some (afterFetch p) := by rw [pair?_modPair (f := afterFetch) fun _ => rfl, hp]; rfl
      rw [fetchOne_eq hp]
      exact Option.isSome_of_eq_some kept
    obtain ⟨pairs, fs, rest, count, each⟩ := ih next
    refine ⟨pairs, { narrow := false, q := q, slot := p.retry.head?.getD p.head, entry := e, stalled := false, retries := 0 } :: fs, ?_, by simp [count], ?_⟩
    · rw [List.foldl_cons, rest, fetchOne_eq hp]
      simp [modPair]
    · rintro x (_ | ⟨_, hx⟩)
      · exact ⟨rfl, rfl, rfl, List.mem_cons_self⟩
      · obtain ⟨pair, narrow, stalled, entry⟩ := each x hx
        exact ⟨pair, narrow, stalled, List.mem_cons_of_mem e entry⟩

/-! ## The row -/

/-- The state in which a turn takes its entries: the rotation noted, and the read of the ring sent (R150, R175). -/
def turnBegun (p : Pair) (n : Nat) (s : State) : State :=
  noteTurn p (emit (.hostRead p.id (cut s.readMax (64 * n))) (modPair p.id (fun p => { p with refetch := false }) s))

/-- The entries of a turn (R174). -/
def turnLength (s : State) (p : Pair) : Nat := min p.burst (min p.pendingEntries (s.allowance p))

theorem noteTurn_eq (p : Pair) (s : State) : ∃ w l, noteTurn p s = { s with nib := { s.nib with wellTurn := w, pairTurn := l } } := by
  unfold noteTurn
  split <;> exact ⟨_, _, rfl⟩

theorem turnBegun_eq (p : Pair) (n : Nat) (s : State) : ∃ w l, turnBegun p n s = { s with
    out := s.out ++ [.hostRead p.id (cut s.readMax (64 * n))]
    nib := { s.nib with pairs := mapIf (fun x => x.id = p.id) (fun p => { p with refetch := false }) s.nib.pairs, wellTurn := w, pairTurn := l } } :=
  noteTurn_eq p (emit (.hostRead p.id (cut s.readMax (64 * n))) (modPair p.id (fun p => { p with refetch := false }) s))

theorem turnBegun_pair {p : Pair} {s : State} (listed : p ∈ s.nib.pairs) (n : Nat) : ((turnBegun p n s).pair? p.id).isSome = true := by
  obtain ⟨w, turns, begun⟩ := turnBegun_eq p n s
  have found : (s.pair? p.id).isSome = true := List.find?_isSome.2 ⟨p, listed, by simp⟩
  have kept := pair?_modPair (f := fun p => { p with refetch := false }) (fun _ => rfl) p.id s
  have same : (turnBegun p n s).pair? p.id = (modPair p.id (fun p => { p with refetch := false }) s).pair? p.id := by rw [begun]; rfl
  rw [same, kept, Option.isSome_map, found]

/-- A turn serves the arbiter's pair, if there is one. -/
def serveTurn (l : List Entry) (s : State) : State :=
  match s.arbiter with
  | none => s
  | some p => actUpdate ((l.take (turnLength s p)).foldl (fun s e => fetchOne p.id e s) (turnBegun p (min (turnLength s p) l.length) s))

theorem exec_fetchTurn (l : List Entry) (s : State) :
    exec (.fetchTurn l) s = answer s (onlyIf (s.onPcie && s.awake && s.busMaster && !s.pcie.d3hot) (serveTurn l)) := rfl

theorem serveTurn_none {s : State} (none_ : s.arbiter = none) (l : List Entry) : serveTurn l { s with out := [] } = { s with out := [] } := by
  unfold serveTurn
  rw [show State.arbiter { s with out := [] } = none from none_]

theorem serveTurn_some {s : State} {p : Pair} (served : s.arbiter = some p) (l : List Entry) : ∃ lands, serveTurn l { s with out := [] } =
    { (l.take (turnLength s p)).foldl (fun s e => fetchOne p.id e s) (turnBegun p (min (turnLength s p) l.length) { s with out := [] }) with lands := lands } := by
  unfold serveTurn
  rw [show State.arbiter { s with out := [] } = some p from served]
  exact actUpdate_eq _

/-- A pair that is fetchable has an entry to take and room for its completion (R174). -/
theorem turnLength_pos {s : State} {p : Pair} (fetchable : s.fetchable p = true) (burst : 1 ≤ p.burst) : 1 ≤ turnLength s p := by
  simp only [State.fetchable, Bool.and_eq_true, decide_eq_true_eq] at fetchable
  obtain ⟨⟨⟨⟨⟨⟨⟨-, pending⟩, -⟩, -⟩, -⟩, -⟩, -⟩, room⟩ := fetchable
  unfold turnLength
  omega

/-- A fetchable pair with nothing to retry has a ring, around which its fetch position moves. -/
theorem sqSize_pos {s : State} {p : Pair} (fetchable : s.fetchable p = true) (fresh : p.retry = []) : max 1 p.sqSize = p.sqSize := by
  simp only [State.fetchable, Bool.and_eq_true, decide_eq_true_eq] at fetchable
  obtain ⟨⟨⟨⟨⟨⟨⟨-, pending⟩, -⟩, -⟩, -⟩, -⟩, -⟩, -⟩ := fetchable
  by_contra small
  have none_ : p.sqSize = 0 := by omega
  simp [Pair.pendingEntries, fresh, none_, Nat.mod_one] at pending

/-- Settles O21: the pair by the arbiter's choice, the entries one by one. -/
theorem fetchTurnsServeOnePair : Obligations.FetchTurnsServeOnePair := by
  unfold Obligations.FetchTurnsServeOnePair
  refine ⟨?idle, ?turn, ?single, ?off⟩
  case idle =>
    intro s l on awake hot none_
    rw [exec_fetchTurn, answer, onlyIf, serveTurn_none (arbiter_none none_), ite_self]
  case turn =>
    intro s l on awake master hot able
    obtain ⟨p, served, listed, fetchable, first⟩ := arbiter_some able
    obtain ⟨lands, turn⟩ := serveTurn_some served l
    have taken := foldl_fetchOne (l.take (turnLength s p)) (turnBegun_pair (s := { s with out := [] }) listed (min (turnLength s p) l.length))
    obtain ⟨w, turns, begun⟩ := turnBegun_eq p (min (turnLength s p) l.length) { s with out := [] }
    obtain ⟨pairs, fs, fetched, count, each⟩ := taken
    have length : fs.length = min l.length (turnLength s p) := by rw [count, List.length_take, Nat.min_comm]
    have row := exec_fetchTurn l s
    rw [answer_onlyIf_true (by simp [on, awake, master, hot]), turn, fetched, begun] at row
    refine ⟨_, p, fs, row, listed, fetchable, first, rfl, length, fun x hx => ?_, rfl, rfl, ?_, rfl, rfl, rfl⟩
    · obtain ⟨pair, narrow, stalled, entry⟩ := each x hx
      exact ⟨pair, narrow, stalled, List.mem_of_mem_take entry⟩
    · rw [length, Nat.min_comm l.length]
      rfl
  case single =>
    intro s e p on awake master hot pairs fetchable burst
    obtain ⟨p', served, listed, -⟩ := arbiter_some ⟨p, pairs ▸ List.mem_singleton.2 rfl, fetchable⟩
    rw [pairs, List.mem_singleton] at listed
    subst listed
    obtain ⟨lands, turn⟩ := serveTurn_some served [e]
    obtain ⟨w, turns, begun⟩ := turnBegun_eq p' (min (turnLength s p') [e].length) { s with out := [] }
    have one : [e].take (turnLength s p') = [e] := List.take_of_length_le (turnLength_pos fetchable burst)
    have only : mapIf (fun x => x.id = p'.id) (fun p => { p with refetch := false }) s.nib.pairs = [{ p' with refetch := false }] := by simp [mapIf, pairs]
    rw [only] at begun
    have found : (turnBegun p' (min (turnLength s p') [e].length) { s with out := [] }).pair? p'.id = some { p' with refetch := false } := by
      rw [begun]; simp [State.pair?]
    rw [one, List.foldl_cons, List.foldl_nil, fetchOne_eq found, begun] at turn
    have row := exec_fetchTurn [e] s
    rw [answer_onlyIf_true (by simp [on, awake, master, hot]), turn] at row
    refine ⟨_, row, rfl, ?_⟩
    by_cases fresh : p'.retry = []
    · simp [modPair, mapIf, afterFetch, fresh, sqSize_pos fetchable fresh]
    · simp [modPair, mapIf, afterFetch, fresh]
  case off =>
    intro s l master
    rw [exec_fetchTurn, answer_onlyIf_false (by simp [master])]

end Sys2Proof.Proofs
end

section
/-! SUPPORT. Enable set, refused and cleared, and the end of the shutdown sequence (O16): what the commands that are aborted leave alone, and the pages that the
map log still writes (R156, R341). -/

namespace Sys2Proof.Proofs

open Sys2Proof Sys2Proof.Machine Sys2Proof.Laws

/-! ## Commands aborted where Enable is cleared -/

/-- What a completion changes of the PCI Express face: the transmit path and the pending bits. -/
structure KeepsFace (a t : State) : Prop where
  eq : ∃ tx pending, t.pcie = { a.pcie with tx := tx, msixPending := pending }

theorem KeepsFace.same {a t : State} (h : t.pcie = a.pcie) : KeepsFace a t := ⟨a.pcie.tx, a.pcie.msixPending, h⟩

theorem KeepsFace.trans {a b c : State} (h : KeepsFace a b) (k : KeepsFace b c) : KeepsFace a c := by
  obtain ⟨_, _, h⟩ := h
  obtain ⟨tx, pending, k⟩ := k
  rw [h] at k
  exact ⟨tx, pending, k⟩

theorem KeepsFace.ite {a t u : State} {c : Prop} [Decidable c] (h : KeepsFace a t) (k : KeepsFace a u) : KeepsFace a (if c then t else u) := by
  split
  · exact h
  · exact k

theorem post_keepsFace (o : Out) (s : State) : KeepsFace s (post o s) := by
  unfold post
  exact .ite (.same rfl) ⟨_, s.pcie.msixPending, rfl⟩

theorem sendMsix_keepsFace (v : Nat) (s : State) : KeepsFace s (sendMsix v s) := by
  unfold sendMsix
  exact .ite (.same rfl) (.ite ⟨s.pcie.tx, _, rfl⟩ (.ite (.same rfl) (post_keepsFace _ s)))

theorem modPair_keepsFace (q : Nat) (f : Pair → Pair) (s : State) : KeepsFace s (modPair q f s) := .same rfl

theorem postCompletion_keepsFace (q cid result ruling status : Nat) (s : State) : KeepsFace s (postCompletion q cid result ruling status s) := by
  unfold postCompletion
  split
  · exact .same rfl
  · exact ((post_keepsFace _ s).trans (modPair_keepsFace _ _ _)).trans (sendMsix_keepsFace _ _)

theorem actUpdate_keepsFace (s : State) : KeepsFace s (actUpdate s) := by
  obtain ⟨_, e⟩ := actUpdate_eq s
  rw [e]
  exact .same rfl

theorem completeTask_keepsFace (e : Ending) (status result : Nat) (s : State) : KeepsFace s (completeTask e status result s) := by
  unfold completeTask
  exact .same rfl

theorem counted_keepsFace (health : Health) (s : State) : KeepsFace s { s with health := health } := .same rfl

theorem complete_keepsFace (e : Ending) (f : Fail) (result : Nat) (s : State) : KeepsFace s (complete e f result s) := by
  have logged : KeepsFace s (if f.status = 0 then s else logError (e.err f) s) := .ite (.same rfl) (.same rfl)
  unfold complete
  refine KeepsFace.trans ?_ (actUpdate_keepsFace _)
  have counted : ∀ health : Health, KeepsFace s { (if f.status = 0 then s else logError (e.err f) s) with health := health } :=
    fun health => logged.trans (counted_keepsFace health _)
  refine .ite ((counted _).trans (completeTask_keepsFace _ _ _ _)) (KeepsFace.trans ?_ (postCompletion_keepsFace _ _ _ _ _ _))
  exact .ite ((counted _).trans (modPair_keepsFace _ _ _)) (counted _)

/-- What the end of commands that have made no change leaves alone. -/
structure Ended (a t : State) : Prop where
  rst : t.rst = a.rst
  map : t.map = a.map
  log : t.log = a.log
  pwr : t.pwr = a.pwr
  next : t.nib.next = a.nib.next
  face : KeepsFace a t

theorem Ended.refl (a : State) : Ended a a := ⟨rfl, rfl, rfl, rfl, rfl, .same rfl⟩

theorem Ended.trans {a b c : State} (h : Ended a b) (k : Ended b c) : Ended a c :=
  ⟨k.rst.trans h.rst, k.map.trans h.map, k.log.trans h.log, k.pwr.trans h.pwr, k.next.trans h.next, h.face.trans k.face⟩

theorem Answered.ended {a t : State} (h : Answered a t) (face : KeepsFace a t) : Ended a t := by
  obtain ⟨_, _, _, _, _, _, _, rfl⟩ := h
  exact ⟨rfl, rfl, rfl, rfl, rfl, face⟩

theorem complete_ended (e : Ending) (f : Fail) (result : Nat) (s : State) : Ended s (complete e f result s) :=
  (complete_answered e f result s).ended (complete_keepsFace e f result s)

theorem undefineBuffer_ended (i : Item) (s : State) : Ended s (undefineBuffer i s) := by
  refine (undefineBuffer_answered i s).ended ?_
  unfold undefineBuffer
  exact .ite (.same rfl) (.same rfl)

theorem removeItem_ended (i : Item) (failed : Bool) (s : State) : Ended s (removeItem i failed s) := by
  unfold removeItem
  dsimp only
  split <;> exact ⟨rfl, rfl, rfl, rfl, rfl, .same rfl⟩

theorem abortItem_ended (i : Item) (freezes : Bool) (s : State) : Ended s (abortItem i freezes s) :=
  ((undefineBuffer_ended i s).trans (removeItem_ended i true _)).trans (complete_ended _ _ _ _)

theorem abortFetched_ended (f : Fetched) (freezes : Bool) (s : State) : Ended s (abortFetched f freezes s) :=
  (⟨rfl, rfl, rfl, rfl, rfl, .same rfl⟩ : Ended s { s with nib := { s.nib with fetched := s.nib.fetched.erase f } }).trans (complete_ended _ _ _ _)

theorem Ended.foldl {α : Type} {step : State → α → State} (each : ∀ s x, Ended s (step s x)) (l : List α) (s : State) : Ended s (l.foldl step s) := by
  induction l generalizing s with
  | nil => exact .refl s
  | cons x l ih => exact (each s x).trans (ih _)

theorem abortCommands_ended (p : Nat → Bool) (except : Nat) (freezes : Nat → Bool) (s : State) : Ended s (abortCommands p except freezes s) :=
  (Ended.foldl (fun s i => abortItem_ended i _ s) _ s).trans (Ended.foldl (fun s f => abortFetched_ended f _ s) _ _)

theorem abortFetched_nib (f : Fetched) (freezes : Bool) (s : State) : (abortFetched f freezes s).nib.items = s.nib.items
    ∧ (abortFetched f freezes s).nib.fetched = s.nib.fetched.erase f := by
  unfold abortFetched
  obtain ⟨_, _, _, _, _, _, _, e⟩ := complete_answered { Ending.ofFetched s f with freezes := freezes } Fail.aborted 0
    { s with nib := { s.nib with fetched := s.nib.fetched.erase f } }
  rw [e]
  exact ⟨rfl, rfl⟩

theorem foldl_abortFetched_nib (freezes : Nat → Bool) (l : List Fetched) (s : State) :
    (l.foldl (fun s f => abortFetched f (freezes f.q) s) s).nib.items = s.nib.items
    ∧ (l.foldl (fun s f => abortFetched f (freezes f.q) s) s).nib.fetched = s.nib.fetched.diff l := by
  induction l generalizing s with
  | nil => exact ⟨rfl, rfl⟩
  | cons f l ih =>
    obtain ⟨items, fetched⟩ := abortFetched_nib f (freezes f.q) s
    obtain ⟨items', fetched'⟩ := ih (abortFetched f (freezes f.q) s)
    exact ⟨items'.trans items, by rw [List.foldl_cons, fetched', fetched, List.diff_cons]⟩

theorem foldl_abortEach_without (freezes : Nat → Bool) (l : List Item) (s : State) :
    Without l s (l.foldl (fun s i => abortItem i (freezes i.q) s) s) ∧ (l.foldl (fun s i => abortItem i (freezes i.q) s) s).nib.fetched = s.nib.fetched := by
  induction l generalizing s with
  | nil => exact ⟨.nil s, rfl⟩
  | cons i l ih =>
    obtain ⟨without, fetched⟩ := ih (abortItem i (freezes i.q) s)
    refine ⟨(abortItem_without i _ s).append without, fetched.trans ?_⟩
    unfold abortItem
    obtain ⟨_, _, _, _, _, _, _, undefined⟩ := undefineBuffer_answered i s
    obtain ⟨_, _, _, _, _, _, _, e⟩ := complete_answered { Ending.ofItem i with freezes := freezes i.q } Fail.aborted 0 (removeItem i true (undefineBuffer i s))
    rw [e, undefined]
    rfl

/-- Nothing of a list that a test holds of stays when all it holds of is taken out. -/
theorem not_of_mem_diff_filter {α : Type} [DecidableEq α] {p : α → Bool} {l : List α} {x : α} (h : x ∈ l.diff (l.filter p)) : p x = false := by
  by_contra holds
  have gone : (l.diff (l.filter p)).count x = 0 := by
    rw [List.count_diff, List.count_filter (by simpa using holds), Nat.sub_self]
  exact List.count_eq_zero.1 gone h

/-- Of the host's commands those past their cancel point stay, and none that has not been ruled (R156, R197). -/
theorem abortCommands_nib {s : State} (freezes : Nat → Bool) (ruled : ∀ i ∈ s.nib.items, i.ruling ≠ 0) :
    (∀ i ∈ (abortCommands (fun _ => true) 0 freezes s).nib.items, i.narrow = true ∨ i.past = true)
    ∧ ∀ f ∈ (abortCommands (fun _ => true) 0 freezes s).nib.fetched, f.narrow = true := by
  unfold abortCommands
  dsimp only
  obtain ⟨without, kept⟩ := foldl_abortEach_without freezes (s.nib.items.filter (fun i => !i.narrow && true && !i.past && i.ruling ≠ 0)) s
  obtain ⟨items, fetched⟩ := foldl_abortFetched_nib freezes (s.nib.fetched.filter (fun f => !f.narrow && true))
    ((s.nib.items.filter (fun i => !i.narrow && true && !i.past && i.ruling ≠ 0)).foldl (fun s i => abortItem i (freezes i.q) s) s)
  rw [items, fetched, kept]
  refine ⟨fun i hi => ?_, fun f hf => by simpa using not_of_mem_diff_filter hf⟩
  obtain ⟨listed, others⟩ := (without.items i).1 hi
  by_contra early
  exact others i (List.mem_filter.2 ⟨listed, by simpa [ruled i listed] using early⟩) rfl

theorem abortCommands_none {s : State} (p : Nat → Bool) (except : Nat) (freezes : Nat → Bool) (items : s.nib.items = []) (fetched : s.nib.fetched = []) :
    abortCommands p except freezes s = s := by
  simp [abortCommands, items, fetched]

/-- Whether the effect of clearing Enable is complete or waits, no command comes back. -/
theorem endClear_ended (s : State) : (endClear s).nib.items = s.nib.items ∧ (∀ f ∈ (endClear s).nib.fetched, f ∈ s.nib.fetched)
    ∧ (endClear s).pcie.enable = s.pcie.enable ∧ (endClear s).rst = s.rst ∧ (endClear s).map = s.map ∧ (endClear s).log = s.log
    ∧ (endClear s).nib.next = s.nib.next := by
  unfold endClear
  split
  · exact ⟨rfl, fun _ hf => List.mem_of_mem_filter hf, rfl, rfl, rfl, rfl, rfl⟩
  · exact ⟨rfl, fun _ hf => hf, rfl, rfl, rfl, rfl, rfl⟩

/-! ## The map log written out -/

/-- What the writing of log pages leaves alone where no command waits. -/
structure WritesOut (a t : State) : Prop where
  items : t.nib.items = a.nib.items
  emptying : t.ftl.emptying = a.ftl.emptying
  next : t.nib.next = a.nib.next
  rst : t.rst = a.rst
  map : t.map = a.map
  pcie : t.pcie = a.pcie

theorem WritesOut.refl (a : State) : WritesOut a a := ⟨rfl, rfl, rfl, rfl, rfl, rfl⟩

theorem WritesOut.trans {a b c : State} (h : WritesOut a b) (k : WritesOut b c) : WritesOut a c :=
  ⟨k.items.trans h.items, k.emptying.trans h.emptying, k.next.trans h.next, k.rst.trans h.rst, k.map.trans h.map, k.pcie.trans h.pcie⟩

theorem checkpointValid_eq (s : State) : ∃ w cps, checkpointValid s = { s with log := { s.log with cpWriting := w, cps := cps } } := by
  unfold checkpointValid
  split
  · exact ⟨s.log.cpWriting, s.log.cps, rfl⟩
  · split
    · exact ⟨s.log.cpWriting, s.log.cps, rfl⟩
    · exact ⟨none, _, rfl⟩

theorem completePersistent_none {s : State} (items : s.nib.items = []) : completePersistent s = s := by
  simp [completePersistent, items]

theorem noteLogged_none {s : State} (emptying : s.ftl.emptying = []) : noteLogged s = s := by
  have none_ : ∀ f g, mapIf f g s.ftl.emptying = s.ftl.emptying := fun f g => by simp [mapIf, emptying]
  unfold noteLogged
  dsimp only
  rw [none_]

theorem eraseReady_none {s : State} (emptying : s.ftl.emptying = []) : eraseReady s = s := by
  simp [eraseReady, emptying]

/-- Without a command and a band being emptied, a verified page settles rulings and can end a checkpoint, and that is all. -/
theorem afterPage_eq {s : State} (items : s.nib.items = []) (emptying : s.ftl.emptying = []) : ∃ unsettled w cps,
    afterPage s = { s with nib := { s.nib with unsettled := unsettled }, log := { s.log with cpWriting := w, cps := cps } } := by
  obtain ⟨w, cps, valid⟩ := checkpointValid_eq (settleCovered s)
  unfold afterPage
  rw [completePersistent_none (s := settleCovered s) items, valid, noteLogged_none (s := { settleCovered s with log := _ }) emptying,
    eraseReady_none (s := { settleCovered s with log := _ }) emptying]
  exact ⟨_, w, cps, rfl⟩

theorem afterPage_writesOut {s : State} (items : s.nib.items = []) (emptying : s.ftl.emptying = []) : WritesOut s (afterPage s)
    ∧ (afterPage s).log.buf = s.log.buf ∧ (afterPage s).log.inflight = s.log.inflight := by
  obtain ⟨_, _, _, e⟩ := afterPage_eq items emptying
  rw [e]
  exact ⟨⟨rfl, rfl, rfl, rfl, rfl, rfl⟩, rfl, rfl⟩

theorem pageVerified_writesOut {s : State} {p : LogPage} {rest : List LogPage} (items : s.nib.items = []) (emptying : s.ftl.emptying = [])
    (under : s.log.inflight = p :: rest) :
    WritesOut s (pageVerified s) ∧ (pageVerified s).log.buf = s.log.buf ∧ (pageVerified s).log.inflight = rest := by
  unfold pageVerified
  simp only [under]
  obtain ⟨kept, same⟩ := afterPage_writesOut (s := { s with
    log := { s.log with inflight := rest, pages := s.log.pages ++ [p], progs := s.log.progs.filter (fun x => x.1 ≠ p.seq) }
    nib := { s.nib with ceiling := max s.nib.ceiling p.ceiling } }) items emptying
  refine ⟨WritesOut.trans ?_ kept, same⟩
  exact ⟨rfl, rfl, rfl, rfl, rfl, rfl⟩

/-- A page of waiting records that passes verify leaves the others waiting. -/
theorem addedPage_writesOut {s : State} (p : LogPage) (rest : List MapRec) (items : s.nib.items = []) (emptying : s.ftl.emptying = []) :
    WritesOut s (afterPage (addPage p { s with log := { s.log with buf := rest } }))
    ∧ (afterPage (addPage p { s with log := { s.log with buf := rest } })).log.buf = rest
    ∧ (afterPage (addPage p { s with log := { s.log with buf := rest } })).log.inflight = s.log.inflight := by
  obtain ⟨kept, same⟩ := afterPage_writesOut (s := addPage p { s with log := { s.log with buf := rest } }) items emptying
  refine ⟨WritesOut.trans ?_ kept, same⟩
  exact ⟨rfl, rfl, rfl, rfl, rfl, rfl⟩

/-- With fuel for every record and every page, both are written out. -/
theorem flushLog_empties (dump : Bool) (fuel : Nat) {s : State} (items : s.nib.items = []) (emptying : s.ftl.emptying = [])
    (enough : s.log.buf.length + s.log.inflight.length ≤ fuel) :
    WritesOut s (flushLog dump fuel s) ∧ (flushLog dump fuel s).log.buf = [] ∧ (flushLog dump fuel s).log.inflight = [] := by
  induction fuel generalizing s with
  | zero =>
    exact ⟨.refl s, List.length_eq_zero_iff.1 (by omega : s.log.buf.length = 0), List.length_eq_zero_iff.1 (by omega : s.log.inflight.length = 0)⟩
  | succ fuel ih =>
    unfold flushLog
    split
    · next p rest under =>
      obtain ⟨verified, buf, inflight⟩ := pageVerified_writesOut items emptying under
      rw [under, List.length_cons] at enough
      obtain ⟨kept, empty⟩ := ih (verified.items.trans items) (verified.emptying.trans emptying) (by rw [buf, inflight]; omega)
      exact ⟨verified.trans kept, empty⟩
    · next none_ =>
      split
      · next empty => exact ⟨.refl s, empty, none_⟩
      · next some_ =>
        obtain ⟨added, buf, inflight⟩ := addedPage_writesOut (s.assemble false false dump (s.log.buf.take 496) (s.log.buf.drop 496)) (s.log.buf.drop 496)
          items emptying
        have fewer : (s.log.buf.drop 496).length + s.log.inflight.length ≤ fuel := by
          have := List.length_pos_iff.2 some_
          rw [List.length_drop]
          omega
        obtain ⟨kept, empty⟩ := ih (added.items.trans items) (added.emptying.trans emptying) (by rw [buf, inflight]; exact fewer)
        exact ⟨added.trans kept, empty⟩

theorem flushLog_fuel (dump : Bool) {s : State} (items : s.nib.items = []) (emptying : s.ftl.emptying = []) :
    WritesOut s (flushLog dump s.logFuel s) ∧ (flushLog dump s.logFuel s).log.buf = [] ∧ (flushLog dump s.logFuel s).log.inflight = [] :=
  flushLog_empties dump _ items emptying (Nat.le_add_right _ 2)

theorem openMedia_writesOut (s : State) : WritesOut s (openMedia s) := by
  unfold openMedia
  split <;> exact ⟨rfl, rfl, rfl, rfl, rfl, rfl⟩

theorem beginCheckpoint_writesOut (s : State) : WritesOut s (beginCheckpoint s) := ⟨rfl, rfl, rfl, rfl, rfl, rfl⟩

/-- The shutdown sequence with nothing outstanding ends with a Clean page, and no record waits (R341 steps 4 to 6). -/
theorem finishShutdown_spec {s : State} (items : s.nib.items = []) (emptying : s.ftl.emptying = []) : WritesOut s (finishShutdown s)
    ∧ (finishShutdown s).log.buf = [] ∧ (finishShutdown s).log.inflight = [] ∧ (finishShutdown s).log.closing = false ∧ (finishShutdown s).log.needOpened = true
    ∧ ∃ l p, (finishShutdown s).log.pages = l ++ [p] ∧ p.clean = true := by
  have opened := openMedia_writesOut s
  have flushed := opened.trans (flushLog_fuel false (opened.items.trans items) (opened.emptying.trans emptying)).1
  have begun := flushed.trans (beginCheckpoint_writesOut _)
  obtain ⟨written, buf, inflight⟩ := flushLog_fuel false (begun.items.trans items) (begun.emptying.trans emptying)
  have done := begun.trans written
  unfold finishShutdown
  dsimp only
  generalize flushLog false (State.logFuel (beginCheckpoint _)) (beginCheckpoint _) = t at written buf inflight done ⊢
  obtain ⟨_, _, _, e⟩ := afterPage_eq (s := addPage (t.assemble true false false [] []) t) (done.items.trans items) (done.emptying.trans emptying)
  rw [e]
  exact ⟨done.trans ⟨rfl, rfl, rfl, rfl, rfl, rfl⟩, buf, inflight, rfl, rfl, _, _, rfl, rfl⟩

end Sys2Proof.Proofs
end

section
/-! O16. Enable set, refused and cleared; the shutdown request and its end (R155, R156, R157, R341). -/

namespace Sys2Proof.Proofs

open Sys2Proof Sys2Proof.Machine Sys2Proof.Laws

theorem setEnable_refused {s : State} (enable : s.pcie.enable = false) (clearing : s.pcie.clearing = false) (fails : s.enablePasses = false) :
    setEnable s = { s with pcie := { s.pcie with enable := true, refused := true } } := by
  simp [setEnable, enable, clearing, fails]

theorem setEnable_passed {s : State} (enable : s.pcie.enable = false) (clearing : s.pcie.clearing = false) (passes : s.enablePasses = true) :
    setEnable s = { s with
      pcie := { s.pcie with enable := true, refused := false, granted := if s.pcie.request = 2 then 2 else 1, ready := s.rst.admin, shutReq := false, shutdown := 0 }
      nib := { s.nib with pairs := insertPair (adminPair s) (s.nib.pairs.filter (fun p => p.id ≠ 0)) } } := by
  simp [setEnable, enable, clearing, passes]

theorem clearEnable_waiting {s : State} (ready : s.pcie.ready = false) : clearEnable s = { s with pcie := { s.pcie with enable := false } } := by
  simp [clearEnable, ready]

/-- Enable cleared while Ready is 1, before its effect (R156). -/
def clearBegun (s : State) : State :=
  { s with pcie := { s.pcie with enable := false, clearing := true }, nib := { s.nib with paused := true } }

theorem clearEnable_ready {s : State} (ready : s.pcie.ready = true) (clearing : s.pcie.clearing = false) :
    clearEnable s = endClear (abortCommands (fun _ => true) 0 (fun q => q ≠ 0) (clearBegun s)) := by
  simp [clearEnable, clearBegun, ready, clearing]

theorem clearEnable_none {s : State} (ready : s.pcie.ready = true) (clearing : s.pcie.clearing = false) (items : s.nib.items = []) (fetched : s.nib.fetched = []) :
    clearEnable s = { s with
      nib := { s.nib with pairs := [], paused := s.boot.activating }, pcie := { s.pcie with enable := false, granted := 0, ready := false } } := by
  rw [clearEnable_ready ready clearing, abortCommands_none (s := clearBegun s) _ _ _ items fetched]
  simp [endClear, clearBegun, items, fetched, clearing]

/-- Of the host's commands, what remains once Enable is cleared (R156). -/
theorem clearEnable_spec {s : State} (ready : s.pcie.ready = true) (clearing : s.pcie.clearing = false) (ruled : ∀ i ∈ s.nib.items, i.ruling ≠ 0) :
    (clearEnable s).pcie.enable = false ∧ (∀ i ∈ (clearEnable s).nib.items, i.narrow = true ∨ i.past = true)
    ∧ (∀ f ∈ (clearEnable s).nib.fetched, f.narrow = true) ∧ (clearEnable s).rst = s.rst ∧ (clearEnable s).map = s.map ∧ (clearEnable s).log = s.log
    ∧ (clearEnable s).nib.next = s.nib.next := by
  rw [clearEnable_ready ready clearing]
  obtain ⟨rst, map, log, -, next, tx, pending, face⟩ := abortCommands_ended (fun _ => true) 0 (fun q => q ≠ 0) (clearBegun s)
  obtain ⟨items, fetched⟩ := abortCommands_nib (s := clearBegun s) (fun q => q ≠ 0) ruled
  obtain ⟨items', fetched', enable', rst', map', log', next'⟩ := endClear_ended (abortCommands (fun _ => true) 0 (fun q => q ≠ 0) (clearBegun s))
  refine ⟨by rw [enable', face]; rfl, by rw [items']; exact items, fun f hf => fetched f (fetched' f hf),
    rst'.trans rst, map'.trans map, log'.trans log, next'.trans next⟩

theorem setShutdown_begins {s : State} (ready : s.pcie.ready = true) (field : s.pcie.shutdown = 0) (fill : s.ftl.fill = []) :
    setShutdown s = { s with pcie := { s.pcie with shutReq := true, shutdown := 1 }, log := { s.log with closing := true } } := by
  unfold setShutdown
  rw [if_pos (by simp [ready, field])]
  exact closeStripes_of_noFill fill

/-- The shutdown field where the sequence ends (R157, R341). -/
def shutDone (s : State) : State := { s with pcie := { s.pcie with shutdown := if s.pcie.shutdown = 1 then 2 else s.pcie.shutdown } }

theorem endShutdown_eq {s : State} (items : (if s.rst.io then finishShutdown s else { s with log := { s.log with closing := false } }).nib.items = []) :
    endShutdown s = shutDone (if s.rst.io then finishShutdown s else { s with log := { s.log with closing := false } }) := by
  unfold endShutdown
  dsimp only
  generalize (if s.rst.io = true then finishShutdown s else { s with log := { s.log with closing := false } }) = t at items
  have asked : (shutDone t).shutdownTask = none := by simp [State.shutdownTask, shutDone, items]
  change (match (shutDone t).shutdownTask with | some i => succeed i 0 (shutDone t) | none => shutDone t) = shutDone t
  rw [asked]

theorem exec_shutdownComplete {s : State} (on : s.running = true) (closing : s.log.closing = true) (awake : s.pwr.entering4 = false)
    (mode : s.rst.io = true ∨ s.recovery = true ∨ s.mismatch = true) (fetched : s.nib.fetched = []) (items : s.nib.items = []) (staged : s.res.staged = []) :
    exec .shutdownComplete s = .next (settleUp (endShutdown { s with out := [] })) := by
  have row : exec .shutdownComplete s = work (onlyIf _ endShutdown) s := rfl
  rw [row]
  refine work_onlyIf_true ?_
  have ends : (s.rst.io || s.recovery || s.mismatch) = true := by simpa [or_assoc] using mode
  simpa [State.quiet, on, closing, awake, fetched, items, staged] using ends

/-- Settles O16: the checks of R155 by cases, the clearing by what `abortCommands` leaves, and the end of the shutdown by the pages that it writes. -/
theorem enableIsSetClearedAndShutDown : Obligations.EnableIsSetClearedAndShutDown := by
  refine ⟨?refused, ?passed, ?waiting, ?nothingLeft, ?cleared, ?request, ?sequence, ?recovery⟩
  case refused =>
    intro s bar enable clearing fails
    exact (work_barAccess_open bar).trans (congrArg (Host.Outcome.next ∘ settleUp) (setEnable_refused (s := { s with out := [] }) enable clearing fails))
  case passed =>
    intro s bar enable clearing pairs request sq cq sqLow sqHigh cqLow cqHigh
    have passes : State.enablePasses { s with out := [] } = true := by simp [State.enablePasses, *]
    refine (work_barAccess_open bar).trans (congrArg (Host.Outcome.next ∘ settleUp) ((setEnable_passed (s := { s with out := [] }) enable clearing passes).trans ?_))
    simp [pairs, insertPair, adminPair]
  case waiting =>
    intro s bar enable ready
    refine (work_barAccess_open bar).trans (congrArg (Host.Outcome.next ∘ settleUp) ?_)
    exact (if_pos enable).trans (clearEnable_waiting (s := { s with out := [] }) ready)
  case nothingLeft =>
    intro s bar enable ready clearing items fetched
    refine (work_barAccess_open bar).trans (congrArg (Host.Outcome.next ∘ settleUp) ?_)
    exact (if_pos enable).trans (clearEnable_none (s := { s with out := [] }) ready clearing items fetched)
  case cleared =>
    intro s bar enable ready clearing ruled
    refine ⟨_, (work_barAccess_open bar).trans (congrArg (Host.Outcome.next ∘ settleUp) (if_pos enable)), ?_⟩
    exact clearEnable_spec (s := { s with out := [] }) ready clearing ruled
  case request =>
    intro s bar ready field fill
    exact (work_barAccess_open bar).trans (congrArg (Host.Outcome.next ∘ settleUp) (setShutdown_begins (s := { s with out := [] }) ready field fill))
  case sequence =>
    intro s on closing awake io fetched items staged emptying
    obtain ⟨kept, buf, inflight, closed, opened, l, p, pages, clean⟩ := finishShutdown_spec (s := { s with out := [] }) items emptying
    have row := exec_shutdownComplete on closing awake (.inl io) fetched items staged
    rw [endShutdown_eq (by rw [if_pos io, kept.items]; exact items), if_pos io] at row
    refine ⟨_, p, l, row, pages, clean, buf, inflight, closed, opened, ?_, kept.rst, kept.map, kept.next⟩
    simp only [shutDone, kept.pcie]
  case recovery =>
    intro s on closing awake io mode fetched items staged
    have row := exec_shutdownComplete on closing awake (.inr mode) fetched items staged
    have io' : ¬ (State.rst { s with out := [] }).io = true := by simp [io]
    rw [endShutdown_eq (by rw [if_neg io']; exact items), if_neg io'] at row
    exact row

end Sys2Proof.Proofs
end

section
/-! O15. Link training, and the in-band resets that end the host's commands (R146, R162, R163). -/

namespace Sys2Proof.Proofs

open Sys2Proof Sys2Proof.Machine Sys2Proof.Laws

/-! ## Link training -/

/-- An acknowledgement by firmware changes the blotter, and takes faults off the unacknowledged ones (R402). -/
theorem foldl_acknowledge_eq (l : List Unack) (s : State) : ∃ unack blotter,
    l.foldl (fun s u => acknowledge false u.seq s) s = { s with flt := { s.flt with unack := unack, blotter := blotter } } ∧ ∀ u ∈ unack, u ∈ s.flt.unack := by
  induction l generalizing s with
  | nil => exact ⟨_, _, rfl, fun _ h => h⟩
  | cons u l ih =>
    obtain ⟨unack, blotter, e, sub⟩ := ih (acknowledge false u.seq s)
    exact ⟨unack, blotter, e, fun v hv => List.mem_of_mem_filter (sub v hv)⟩

theorem ackReaction_eq (cls source : Nat) (s : State) : ∃ x : Flt, ackReaction cls source s = { s with flt := x }
    ∧ (∀ u ∈ x.unack, u ∈ s.flt.unack) ∧ x.counts = s.flt.counts ∧ x.events = s.flt.events ∧ (s.flt.unack = [] → x = s.flt) := by
  by_cases none_ : s.flt.unack = []
  · exact ⟨s.flt, by simp [ackReaction, none_], fun _ h => h, rfl, rfl, fun _ => rfl⟩
  · obtain ⟨unack, blotter, e, sub⟩ := foldl_acknowledge_eq (s.flt.unack.filter (fun u => u.cls = cls && u.level ≤ 2
      && s.flt.blotter.any (fun b => b.seq = u.seq && b.source = source))) s
    exact ⟨_, e, sub, rfl, rfl, fun h => absurd h none_⟩

/-- With Bus Master enabled the transmit path empties (R148). -/
theorem drainTx_eq (s : State) : drainTx s = { s with
    out := s.out ++ if s.pcie.host.command.getLsbD 2 = true then s.pcie.tx else []
    pcie := { s.pcie with tx := if s.pcie.host.command.getLsbD 2 = true then [] else s.pcie.tx } } := by
  unfold drainTx State.busMaster
  split <;> simp [*, emits]

/-! ## What an in-band reset drops -/

theorem undefineBuffer_eq (i : Item) (s : State) : ∃ o, undefineBuffer i s = { s with out := s.out ++ o } ∧ ∀ y ∈ o, ∃ q cid, y = .undefinedBuffer q cid := by
  unfold undefineBuffer
  by_cases read : ((match cmdInfo (Entry.opcode i.entry) with | some x => x.data = 2 | none => false) && !i.narrow) = true
  · exact ⟨[.undefinedBuffer i.q (Entry.cid i.entry)], if_pos read, by simp⟩
  · exact ⟨[], (if_neg read).trans (by simp), by simp⟩

/-- The commands of the host before their cancel point go without a completion; a read's buffer is undefined (R163, R194). -/
theorem foldl_dropItem_eq (l : List Item) (s : State) : ∃ items unsettled res dies o,
    l.foldl (fun s i => removeItem i true (undefineBuffer i s)) s
      = { s with nib := { s.nib with items := items, unsettled := unsettled }, res := res, dies := dies, out := s.out ++ o }
    ∧ (∀ y ∈ o, ∃ q cid, y = .undefinedBuffer q cid) ∧ ∀ j, j ∈ items ↔ j ∈ s.nib.items ∧ ∀ i ∈ l, j.ruling ≠ i.ruling := by
  induction l generalizing s with
  | nil => exact ⟨s.nib.items, s.nib.unsettled, s.res, s.dies, [], by simp, by simp, by simp⟩
  | cons i l ih =>
    obtain ⟨o, first, undefined⟩ := undefineBuffer_eq i s
    obtain ⟨items, unsettled, res, dies, o', e, undefined', kept⟩ := ih (removeItem i true { s with out := s.out ++ o })
    have one := (removeItem_without i true { s with out := s.out ++ o }).items
    refine ⟨items, unsettled, res, dies, o ++ o', ?_, fun y hy => (List.mem_append.1 hy).elim (undefined y) (undefined' y), fun j => ?_⟩
    · rw [List.foldl_cons, first, e, ← List.append_assoc]
      rfl
    · rw [kept, one]
      simp [and_assoc]

/-- What `dropHost` changes: the commands, the pairs and the fetching, and what held the commands' data. -/
theorem dropHost_eq (s : State) : ∃ items unsettled res dies o,
    dropHost s = { s with
      nib := { s.nib with items := items, unsettled := unsettled, fetched := s.nib.fetched.filter (·.narrow), pairs := [], paused := s.boot.activating }
      res := res, dies := dies, out := s.out ++ o }
    ∧ (∀ y ∈ o, ∃ q cid, y = .undefinedBuffer q cid) ∧ (∀ i ∈ items, i.narrow = true ∨ i.q = 65535)
    ∧ ∀ i ∈ s.nib.items, i.narrow = false → i.q ≠ 65535 → i.past = false → ∀ j ∈ items, j.ruling ≠ i.ruling := by
  obtain ⟨items, unsettled, res, dies, o, e, undefined, kept⟩ := foldl_dropItem_eq (s.nib.items.filter (fun i => !i.narrow && decide (i.q ≠ 65535) && !i.past)) s
  refine ⟨mapIf (fun i => !i.narrow && decide (i.q ≠ 65535)) (fun i => { i with q := 65535 }) items, unsettled, res, dies, o, ?_, undefined, ?_, ?_⟩
  · unfold dropHost
    dsimp only
    rw [e]
  · refine List.forall_mem_map.2 fun i _ => ?_
    split
    · exact .inr rfl
    · next other => simpa [Classical.or_iff_not_imp_left] using other
  · intro i hi host pair early
    refine List.forall_mem_map.2 fun j hj => ?_
    have gone := ((kept j).1 hj).2 i (List.mem_filter.2 ⟨hi, by simp [host, pair, early]⟩)
    split <;> exact gone

/-! ## D3hot -/

theorem padTo_log (n lo hi : Nat) (s : State) : (padTo n lo hi s).log = s.log := by
  have each : ∀ (b : Band) (l : List Nat) (s : State), (l.foldl (fun s i =>
      if usable b (lo + i) then addFill (n * bandSlots + (lo + i)) padCodeword s else s) s).log = s.log := fun b l => by
    induction l with
    | nil => exact fun _ => rfl
    | cons i l ih =>
      intro s
      rw [List.foldl_cons, ih]
      split <;> rfl
  unfold padTo
  split
  · rfl
  · exact each _ _ s

theorem launch_log (n wl cls : Nat) (slots : List Slot) (s : State) : (launch n wl cls slots s).log = s.log := by
  unfold launch
  split <;> rfl

theorem programWordline_log (n wl cls : Nat) (s : State) : (programWordline n wl cls s).log = s.log := by
  unfold programWordline
  split
  · rfl
  · exact launch_log _ _ _ _ _

theorem closeBandStripes_log (n cls : Nat) (s : State) : (closeBandStripes n cls s).log = s.log := by
  unfold closeBandStripes
  split
  · rfl
  · dsimp only
    split
    · exact (programWordline_log _ _ _ _).trans (padTo_log _ _ _ _)
    · rfl

/-- Stripes closed enter no record in the map log. -/
theorem closeStripes_log (s : State) : (closeStripes s).log = s.log := by
  have each : ∀ (l : List Nat) (s : State), (l.foldl (fun s n => closeBandStripes n 2 s) s).log = s.log := fun l => by
    induction l with
    | nil => exact fun _ => rfl
    | cons n l ih => exact fun s => (ih _).trans (closeBandStripes_log n 2 s)
  exact each _ s

theorem closeStripes_eq (s : State) : ∃ ftl dies res, closeStripes s = { s with ftl := ftl, dies := dies, res := res } := by
  obtain ⟨ftl, log, dies, res, e⟩ := closeStripesOf_stored s (fun _ => true)
  change closeStripes s = _ at e
  obtain rfl : s.log = log := by rw [← closeStripes_log s, e]
  exact ⟨ftl, dies, res, e⟩

/-- The function enters D3hot, and the module begins to enter PS4 (R162, R453). -/
theorem enterD3_eq {s : State} (normal : s.recovery = false) (match_ : s.mismatch = false) : ∃ ftl dies res,
    enterD3 s = { s with
      pcie := { s.pcie with d3hot := true, d3Next := false }, pwr := { s.pwr with entering4 := true }, log := { s.log with closing := true }
      ftl := ftl, dies := dies, res := res } := by
  have normal' : State.recovery { s with pcie := { s.pcie with d3hot := true, d3Next := false } } = false := normal
  have match' : State.mismatch { s with pcie := { s.pcie with d3hot := true, d3Next := false } } = false := match_
  unfold enterD3 beginPs4
  rw [normal', match', if_neg Bool.false_ne_true, if_neg Bool.false_ne_true]
  exact closeStripes_eq _

/-- D3hot is asked for, before the effect of clearing Enable has ended (R162). -/
def d3Asked (s : State) : State := { clearEnable s with pcie := { (clearEnable s).pcie with d3Next := true } }

theorem exec_d3hotEntry {s : State} (on : s.onPcie = true) (off : s.pcie.d3hot = false) :
    exec .d3hotEntry s = .next (settleUp (settleD3 (d3Asked { s with out := [] }))) :=
  work_onlyIf_true (f := fun s => settleD3 (d3Asked s)) (by simp [on, off])

theorem settleD3_enters {s : State} (next : s.pcie.d3Next = true) (done : s.pcie.clearing = false) : settleD3 s = enterD3 s :=
  if_pos (by simp [next, done])

theorem settleD3_waits {s : State} (clearing : s.pcie.clearing = true) : settleD3 s = s :=
  if_neg (by simp [clearing])

theorem abortCommands_past {s : State} {i : Item} (freezes : Nat → Bool) (items : s.nib.items = [i]) (past : i.past = true) :
    (abortCommands (fun _ => true) 0 freezes s).nib.items = [i] := by
  unfold abortCommands
  dsimp only
  rw [(foldl_abortFetched_nib freezes _ _).1]
  simp [items, past]

/-- With the effect of clearing Enable complete, D3hot is entered at once (R162). -/
theorem settleD3_d3Asked {s c : State} (cleared : clearEnable s = c) (done : c.pcie.clearing = false) (normal : c.recovery = false) (match_ : c.mismatch = false) :
    ∃ ftl dies res, settleD3 (d3Asked s) = { c with
      pcie := { c.pcie with d3hot := true, d3Next := false }, pwr := { c.pwr with entering4 := true }, log := { c.log with closing := true }
      ftl := ftl, dies := dies, res := res } := by
  subst cleared
  rw [settleD3_enters rfl (by exact done)]
  exact enterD3_eq (s := d3Asked s) normal match_

/-- With one command of the host left, past its cancel point, the effect of clearing Enable waits for it (R156). -/
theorem clearEnable_held {s : State} {i : Item} (ready : s.pcie.ready = true) (clearing : s.pcie.clearing = false) (items : s.nib.items = [i])
    (host : i.narrow = false) (pair : i.q ≠ 65535) (past : i.past = true) : (clearEnable s).nib.items = [i]
    ∧ (∃ tx pending, (clearEnable s).pcie = { s.pcie with enable := false, clearing := true, tx := tx, msixPending := pending })
    ∧ (clearEnable s).pwr = s.pwr ∧ (clearEnable s).rst = s.rst := by
  have kept := abortCommands_past (s := clearBegun s) (fun q => q ≠ 0) items past
  have waits : clearEnable s = abortCommands (fun _ => true) 0 (fun q => q ≠ 0) (clearBegun s) := by
    rw [clearEnable_ready ready clearing]
    generalize abortCommands (fun _ => true) 0 (fun q => q ≠ 0) (clearBegun s) = t at kept ⊢
    exact if_neg (by simp [kept, host, pair])
  obtain ⟨rst, -, -, pwr, -, face⟩ := abortCommands_ended (fun _ => true) 0 (fun q => q ≠ 0) (clearBegun s)
  rw [waits]
  exact ⟨kept, face.eq, pwr, rst⟩

/-- Settles O15: the resets by what `dropHost` changes, D3hot by what is left of the host's commands. -/
theorem inBandEventsEndTheHostsCommands : Obligations.InBandEventsEndTheHostsCommands := by
  refine ⟨?trained, ?reset, ?d3Exit, ?d3Entry, ?d3Ready, ?d3Waits, ?clkreq⟩
  case trained =>
    intro s speed width rev h on fast
    obtain ⟨x, acked, sub, counts, events, same⟩ := ackReaction_eq 8 2 { s with out := [], pcie := { s.pcie with
      speed := min speed s.linkCeiling.1, width := min width s.linkCeiling.2, lane0 := if rev && s.linkCeiling.2 = 2 then 1 else 0, host := h } }
    have row : exec (.linkTrained speed width rev h) s = .next (settleUp (drainTx (ackReaction 8 2 { s with out := [], pcie := { s.pcie with
        speed := min speed s.linkCeiling.1, width := min width s.linkCeiling.2, lane0 := if rev && s.linkCeiling.2 = 2 then 1 else 0, host := h } }))) :=
      work_onlyIf_true (by simp [on, fast])
    rw [acked, drainTx_eq] at row
    refine ⟨x, row.trans ?_, sub, counts, events, same⟩
    simp
  case reset =>
    intro s c p on which
    obtain ⟨items, unsettled, res, dies, o, e, undefined, left, gone⟩ := dropHost_eq { s with out := [] }
    have only : ∀ y ∈ o, y ≠ .retrain := fun y hy same => by
      obtain ⟨q, cid, named⟩ := undefined y hy
      rw [named] at same
      cases same
    rcases which with ⟨rfl, rfl⟩ | ⟨rfl, rfl⟩ | ⟨rfl, rfl⟩
    case inl =>
      refine ⟨_, work_onlyIf_true on, ?_⟩
      unfold inband
      rw [e]
      exact ⟨rfl, rfl, rfl, ⟨fun h => absurd rfl (only _ h), nofun⟩, fun y hy => .inr (undefined y hy), left, gone, rfl, rfl, rfl, rfl, rfl, rfl, rfl⟩
    case inr.inl =>
      refine ⟨_, work_onlyIf_true on, ?_⟩
      unfold inband
      rw [e]
      refine ⟨rfl, rfl, rfl, ⟨fun _ => rfl, fun _ => List.mem_append_right _ (List.mem_singleton.2 rfl)⟩, fun y hy => ?_, left, gone,
        rfl, rfl, rfl, rfl, rfl, rfl, rfl⟩
      rcases List.mem_append.1 hy with hy | hy
      · exact .inr (undefined y hy)
      · exact .inl (List.mem_singleton.1 hy)
    case inr.inr =>
      refine ⟨_, work_onlyIf_true on, ?_⟩
      unfold inband
      rw [e]
      exact ⟨rfl, rfl, rfl, ⟨fun h => absurd rfl (only _ h), nofun⟩, fun y hy => .inr (undefined y hy), left, gone, rfl, rfl, rfl, rfl, rfl, rfl, rfl⟩
  case d3Exit =>
    intro s on hot
    obtain ⟨items, unsettled, res, dies, o, e, -⟩ := dropHost_eq { s with out := [] }
    have face : s.rst.face = .pcie := by simpa using (Bool.and_eq_true_iff.1 on).2
    refine ⟨_, work_onlyIf_true (by simp [on, hot]), ?_⟩
    unfold wake inband
    rw [e]
    exact ⟨rfl, rfl, rfl, rfl, by simp [face], rfl, rfl⟩
  case d3Entry =>
    intro s on off ready clearing normal match_
    obtain ⟨ftl, dies, res, entered⟩ := settleD3_d3Asked (clearEnable_waiting (s := { s with out := [] }) ready) clearing normal match_
    refine ⟨_, exec_d3hotEntry on off, ?_⟩
    rw [entered]
    exact ⟨rfl, rfl, rfl, rfl, rfl, rfl⟩
  case d3Ready =>
    intro s on off ready clearing items fetched normal match_
    obtain ⟨ftl, dies, res, entered⟩ := settleD3_d3Asked (clearEnable_none (s := { s with out := [] }) ready clearing items fetched) clearing normal match_
    refine ⟨_, exec_d3hotEntry on off, ?_⟩
    rw [entered]
    exact ⟨rfl, rfl, rfl, rfl, rfl, rfl⟩
  case d3Waits =>
    intro s i on off ready clearing items host pair past
    obtain ⟨held, ⟨tx, pending, face⟩, pwr, rst⟩ := clearEnable_held (s := { s with out := [] }) ready clearing items host pair past
    refine ⟨_, exec_d3hotEntry on off, ?_⟩
    rw [settleD3_waits (by simp [d3Asked, face])]
    unfold d3Asked
    rw [face]
    exact ⟨rfl, ready, off, rfl, held, pwr, rst⟩
  case clkreq =>
    intro s on low
    exact answer_onlyIf_true (by simp [on, low])

end Sys2Proof.Proofs
end

section
/-! O20. The link errors of Table 06-10, and the failure of a request of the module (R164). -/

namespace Sys2Proof.Proofs

open Sys2Proof Sys2Proof.Machine Sys2Proof.Laws

/-! ## FC8 at the retry level -/

/-- What FC8 of the link leaves, at the retry level with no fault unacknowledged, with its entry at the front of the blotter (R395). -/
def Fc8Noted (aer : BitVec 32) (a t : State) : Prop := ∃ (flt : Flt) (aon : Aon) (health : Health) (b : Blot) (rest : List Blot),
  t = { a with flt := flt, aon := aon, health := health } ∧ flt.blotter = b :: rest
    ∧ b.kind = 1 ∧ b.cls = 8 ∧ b.level = 2 ∧ b.source = 2 ∧ b.detail.toNat = aer.toNat

theorem recordFault_fc8 {s : State} (aer : BitVec 32) (unack : s.flt.unack = []) (stop : s.flt.stopping = false) (noAwait : ∀ i ∈ s.nib.items, i.wait ≠ .event) :
    Fc8Noted aer s (recordFault 8 2 2 (BitVec.ofNat 64 aer.toNat) 2 s) := by
  unfold recordFault
  rw [levelFor_of_unack_nil unack]
  obtain ⟨flt, aon, health, b, rest, recorded, front, -, kind, cls, level, source⟩ :=
    recordLevel_waits (cls := 8) (base := 2) (level := 2) (source := 2) (cause := 2) (detail := BitVec.ofNat 64 aer.toNat) stop (by decide) noAwait
  obtain ⟨flt', aon', health', same, b', rest', front', -, -, -, detail⟩ :=
    recordLevel_heads (cls := 8) (base := 2) (level := 2) (source := 2) (cause := 2) (detail := BitVec.ofNat 64 aer.toNat) stop (by decide) noAwait
  obtain rfl : flt = flt' := congrArg State.flt (recorded.symm.trans same)
  obtain rfl : b = b' := (List.cons.inj (front.symm.trans front')).1
  refine ⟨flt, aon, health, b, rest, recorded, front, kind, cls, level, source, ?_⟩
  rw [detail, BitVec.toNat_ofNat]
  exact Nat.mod_eq_of_lt (Nat.lt_trans aer.isLt (by decide))

/-- At the retry level the local action of FC8 follows its record (Table 15-3). -/
theorem linkFault_retries {s : State} (aer : BitVec 32) (action : State → State) (on : s.running = true) (unack : s.flt.unack = []) (stop : s.flt.stopping = false)
    (noAwait : ∀ i ∈ s.nib.items, i.wait ≠ .event) : ∃ t, linkFault aer action s = action t ∧ Fc8Noted aer s t := by
  have noted := recordFault_fc8 aer unack stop noAwait
  refine ⟨_, ?_, noted⟩
  have on' : (recordFault 8 2 2 (BitVec.ofNat 64 aer.toNat) 2 s).running = true := by
    obtain ⟨_, _, _, _, _, e, -⟩ := noted
    rw [e]; exact on
  unfold linkFault
  dsimp only
  rw [levelFor_of_unack_nil unack, on', if_neg (by decide), if_pos (by decide)]

theorem running_of_onPcie {s : State} (on : s.onPcie = true) : s.running = true := (Bool.and_eq_true_iff.1 on).1

theorem noAwait_nil {s : State} (items : s.nib.items = []) : ∀ i ∈ s.nib.items, i.wait ≠ .event := by simp [items]

/-! ## A command fails -/

/-- The error log and the rings. -/
def rings (s : State) : ErrLog × List Pair := (s.elog, s.nib.pairs)

theorem rings_post (o : Out) (s : State) : rings (post o s) = rings s := by
  unfold post
  split <;> rfl

theorem rings_sendMsix (v : Nat) (s : State) : rings (sendMsix v s) = rings s := by
  unfold sendMsix
  split
  · rfl
  split
  · rfl
  split
  · rfl
  · exact rings_post _ s

theorem rings_actUpdate (s : State) : rings (actUpdate s) = rings s := by
  obtain ⟨_, e⟩ := actUpdate_eq s
  rw [e]; rfl

/-- The error log as it was, and each ring frozen as it was. -/
structure RingsKept (a t : State) : Prop where
  elog : t.elog = a.elog
  frozen : ∀ p ∈ t.nib.pairs, ∃ p' ∈ a.nib.pairs, p'.id = p.id ∧ p'.frozen = p.frozen

theorem RingsKept.of_rings {a t : State} (h : rings t = rings a) : RingsKept a t := by
  obtain ⟨elog, pairs⟩ := Prod.mk.inj h
  exact ⟨elog, fun p hp => ⟨p, pairs ▸ hp, rfl, rfl⟩⟩

theorem RingsKept.trans {a b c : State} (h : RingsKept a b) (k : RingsKept b c) : RingsKept a c := by
  refine ⟨k.elog.trans h.elog, fun p hp => ?_⟩
  obtain ⟨p', hp', id', frozen'⟩ := k.frozen p hp
  obtain ⟨p'', hp'', id'', frozen''⟩ := h.frozen p' hp'
  exact ⟨p'', hp'', id''.trans id', frozen''.trans frozen'⟩

theorem RingsKept.modPair {f : Pair → Pair} (keeps : ∀ p, (f p).id = p.id ∧ (f p).frozen = p.frozen) (q : Nat) (s : State) : RingsKept s (modPair q f s) := by
  refine ⟨rfl, List.forall_mem_map.2 fun p hp => ⟨p, hp, ?_⟩⟩
  split
  · exact ⟨(keeps p).1.symm, (keeps p).2.symm⟩
  · exact ⟨rfl, rfl⟩

/-- A completion entry moves the completion ring alone: what is frozen stays so. -/
theorem postCompletion_ringsKept (q cid result ruling status : Nat) (s : State) : RingsKept s (postCompletion q cid result ruling status s) := by
  unfold postCompletion
  split
  · exact .of_rings rfl
  · refine RingsKept.trans (RingsKept.trans (.of_rings (rings_post _ s)) (.modPair ?_ q _)) (.of_rings (rings_sendMsix _ _))
    exact fun _ => ⟨rfl, rfl⟩

/-- A failed completion of a command of the host: its entry comes first in the error log, and its ring is frozen (R189, R190). -/
theorem complete_failed {e : Ending} {f : Fail} (failed : f.status ≠ 0) (host : e.narrow = false) (freezes : e.freezes = true) (result : Nat) (s : State) :
    (∃ x ∈ (complete e f result s).elog.list, x.status = f.status ∧ x.ruling = e.ruling ∧ x.cls = f.cls)
    ∧ ∀ p, (complete e f result s).pair? e.q = some p → p.frozen.isSome = true := by
  unfold complete
  simp only [failed, host, freezes, ↓reduceIte, Bool.false_eq_true, ne_eq, not_false_eq_true, and_self]
  generalize counted : ({ logError (e.err f) s with health := _ } : State) = t
  have log : t.elog = (logError (e.err f) s).elog := by rw [← counted]
  have kept := (postCompletion_ringsKept e.q (Entry.cid e.entry) result e.ruling f.status (freezeRing e.q e.slot t)).trans (.of_rings (rings_actUpdate _))
  constructor
  · rw [kept.elog]
    change ∃ x ∈ t.elog.list, _
    rw [log]
    exact ⟨_, List.mem_cons_self, rfl, rfl, rfl⟩
  · intro p found
    obtain ⟨p', listed, id, frozen⟩ := kept.frozen p (List.mem_of_find?_eq_some found)
    have own : p.id = e.q := by simpa using List.find?_some found
    obtain ⟨x, -, rfl⟩ := List.mem_map.1 listed
    rw [← frozen]
    split at id
    · next here =>
      rw [if_pos here]
      cases held : x.frozen <;> simp [held]
    · next other => exact absurd (id.trans own) (by simpa using other)

theorem failData_hostTransfer (i : Item) (s : State) :
    failData i Fail.hostTransfer s = complete (Ending.ofItem i) Fail.hostTransfer 0 (removeItem i true (undefineBuffer i s)) := rfl

/-- The command of a failed read of host memory has failed (R164). -/
theorem failData_hostTransfer_spec {i : Item} (host : i.narrow = false) (s : State) :
    (failData i Fail.hostTransfer s).nib.items = s.nib.items.filter (fun j => j.ruling ≠ i.ruling)
    ∧ (failData i Fail.hostTransfer s).flt = s.flt ∧ (failData i Fail.hostTransfer s).rst = s.rst
    ∧ (∀ x ∈ (failData i Fail.hostTransfer s).res.staged, x.ruling ≠ i.ruling)
    ∧ (∃ x ∈ (failData i Fail.hostTransfer s).elog.list, x.status = 9 ∧ x.ruling = i.ruling ∧ x.cls = 8)
    ∧ ∀ p, (failData i Fail.hostTransfer s).pair? i.q = some p → p.frozen.isSome = true := by
  obtain ⟨logged, frozen⟩ := complete_failed (e := Ending.ofItem i) (f := Fail.hostTransfer) (by decide) host rfl 0 (removeItem i true (undefineBuffer i s))
  obtain ⟨_, undefined, -⟩ := undefineBuffer_eq i s
  have answered := complete_answered (Ending.ofItem i) Fail.hostTransfer 0 (removeItem i true (undefineBuffer i s))
  rw [← failData_hostTransfer] at answered logged frozen
  have frame : (failData i Fail.hostTransfer s).nib.items = s.nib.items.filter (fun j => j.ruling ≠ i.ruling)
      ∧ (failData i Fail.hostTransfer s).flt = s.flt ∧ (failData i Fail.hostTransfer s).rst = s.rst
      ∧ ∀ x ∈ (failData i Fail.hostTransfer s).res.staged, x.ruling ≠ i.ruling := by
    obtain ⟨_, _, _, _, _, _, _, e⟩ := answered
    rw [e, undefined]
    exact ⟨rfl, rfl, rfl, fun x hx => by simpa using (List.mem_filter.1 hx).2⟩
  obtain ⟨items, flt, rst, staged⟩ := frame
  exact ⟨items, flt, rst, staged, logged, frozen⟩

end Sys2Proof.Proofs
end

section
/-! O20. The rows of Table 06-10, one lemma for a link fault and one for a link that is lost. -/

namespace Sys2Proof.Proofs

open Sys2Proof Sys2Proof.Machine Sys2Proof.Laws

/-- The same where the error has been reported: the report has changed the face and what the module sends. -/
theorem linkFault_reported {s t : State} {o : List Out} {p : Pcie} (reported : t = { s with out := o, pcie := p }) (aer : BitVec 32) (action : State → State)
    (on : s.onPcie = true) (unack : s.flt.unack = []) (stop : s.flt.stopping = false) (noAwait : ∀ i ∈ s.nib.items, i.wait ≠ .event) :
    ∃ u, linkFault aer action t = action u ∧ Fc8Noted aer t u := by
  subst reported
  exact linkFault_retries aer action (running_of_onPcie on) unack stop noAwait

/-- A link that goes down where FC8 was at the retry level: retrained, with its configuration and its rings gone (Table 06-9). -/
theorem linkLost_down {s t : State} {aer : BitVec 32} (on : s.onPcie = true) (noted : Fc8Noted aer s t) :
    (linkLost true (emit .retrain t)).pcie = Pcie.init ∧ (linkLost true (emit .retrain t)).nib.pairs = [] ∧ (linkLost true (emit .retrain t)).rst = s.rst
    ∧ .retrain ∈ (linkLost true (emit .retrain t)).out ∧ ∃ b ∈ (linkLost true (emit .retrain t)).flt.blotter, b.cls = 8 ∧ b.level = 2 := by
  obtain ⟨flt, aon, health, b, rest, rfl, front, -, cls, level, -⟩ := noted
  have lost : linkLost true (emit .retrain { s with flt := flt, aon := aon, health := health })
      = inband .down (emit .retrain { s with flt := flt, aon := aon, health := health }) :=
    if_pos (by rw [Bool.true_and]; exact running_of_onPcie on)
  obtain ⟨_, _, _, _, o, dropped, -⟩ := dropHost_eq (emit .retrain { s with flt := flt, aon := aon, health := health })
  rw [lost, inband, dropped]
  refine ⟨rfl, rfl, rfl, List.mem_append_left _ (List.mem_append_right _ (List.mem_singleton.2 rfl)), b, ?_, cls, level⟩
  change b ∈ flt.blotter
  rw [front]
  exact List.mem_cons_self

theorem exec_moduleRequestFailure {s : State} {r q : Nat} {i : Item} (aer : BitVec 32) (ruled : r ≠ 0) (found : s.item? r = some i) (reads : s.readsHost i = true) :
    exec (.moduleRequestFailure r q aer) s = .next (settleUp
      (if i.retries = 0 then
        linkFault (reportUncorrectable aer 0 false { s with out := [] }).pcie.aerUncor (fun s => emit (.reissue r) (setItem { i with retries := 1 } s))
          (reportUncorrectable aer 0 false { s with out := [] })
      else linkFault (reportUncorrectable aer 0 false { s with out := [] }).pcie.aerUncor id
        (failData i Fail.hostTransfer (reportUncorrectable aer 0 false { s with out := [] })))) := by
  have found' : State.item? { s with out := [] } r = some i := found
  have reads' : State.readsHost { s with out := [] } i = true := reads
  have row : exec (.moduleRequestFailure r q aer) s = execModuleRequestFailure r q aer s := rfl
  rw [row]
  unfold execModuleRequestFailure work answer
  simp only [ruled, ↓reduceIte, found', reads', Bool.not_true, Bool.false_eq_true]

theorem readsHost_data {s : State} {i : Item} (h : s.readsHost i = true) : s.onPcie = true ∧ i.narrow = false ∧ i.wait = .data := by
  simp only [State.readsHost, Bool.and_eq_true, Bool.not_eq_true', decide_eq_true_eq] at h
  exact ⟨h.1.1.2, h.1.1.1.1, h.1.2⟩

/-- The report of a failed read, then FC8. -/
theorem exec_ringReadFailed {s : State} {q : Nat} {p : Pair} (aer : BitVec 32) (on : s.onPcie = true) (fetched : s.nib.fetched = []) (found : s.pair? q = some p)
    (fresh : p.refetch = false) : exec (.moduleRequestFailure 0 q aer) s = .next (settleUp
      (linkFault (reportUncorrectable aer 0 false { s with out := [] }).pcie.aerUncor (emit (.reissue 0))
        (modPair q (fun p => { p with refetch := true }) (reportUncorrectable aer 0 false { s with out := [] })))) := by
  have on' : State.onPcie { s with out := [] } = true := on
  obtain ⟨o, h, -, reported⟩ := reportUncorrectable_eq aer 0 { s with out := [] }
  have front : (reportUncorrectable aer 0 false { s with out := [] }).front? q = none := by rw [reported]; simp [State.front?, fetched]
  have pair : (reportUncorrectable aer 0 false { s with out := [] }).pair? q = some p := by rw [reported]; exact found
  have row : exec (.moduleRequestFailure 0 q aer) s = execModuleRequestFailure 0 q aer s := rfl
  rw [row]
  unfold execModuleRequestFailure work answer
  simp only [↓reduceIte, onlyIf, on', ringReadFailed, front, Option.filter_none, pair, fresh, Bool.false_eq_true]

section
variable {s : State} (aer : BitVec 32) (hd : BitVec 128)

theorem linkError_corrected (on : s.onPcie = true) : ∃ o : List Out, exec (.linkError .corrected aer hd) s = .next (settleUp { s with
    out := o, pcie := { s.pcie with aerCor := s.pcie.aerCor ||| aer }, health := { s.health with linkErrors := sat 32 (s.health.linkErrors + 1) } })
    ∧ ∀ y ∈ o, ∃ k, y = .errMessage k := by
  obtain ⟨o, messages, reported⟩ := reportCorrectable_eq aer { s with out := [], health := { s.health with linkErrors := sat 32 (s.health.linkErrors + 1) } }
  exact ⟨o, (work_onlyIf_true on).trans (congrArg (Host.Outcome.next ∘ settleUp) reported), messages⟩

/-- The bits that a poisoned request leaves (Table 06-10). -/
theorem poisoned_eq (advisory : Bool) (s : State) : ∃ o x h, ErrMessages o
    ∧ setStatus (if aer.getLsbD 12 = true then 0x8000 else 0) (reportUncorrectable aer hd advisory { s with out := [] }) = { s with
        out := o
        pcie := { s.pcie with
          status := s.pcie.status ||| (if aer.getLsbD 12 = true then 0x8000 else 0), aerUncor := s.pcie.aerUncor ||| aer, aerCor := x, aerHeader := h } } := by
  obtain ⟨o, x, h, messages, reported, -⟩ := reportUncorrectable_touches aer hd advisory { s with out := [] }
  exact ⟨o, x, h, messages, congrArg (setStatus _) reported⟩

theorem linkError_poisoned_posted (on : s.onPcie = true) : ∃ (o : List Out) (x : BitVec 32) (h : BitVec 128),
    exec (.linkError (.poisonedRequest true) aer hd) s = .next (settleUp { s with
      out := o
      pcie := { s.pcie with
        status := s.pcie.status ||| (if aer.getLsbD 12 = true then 0x8000 else 0), aerUncor := s.pcie.aerUncor ||| aer, aerCor := x, aerHeader := h } })
      ∧ (.unsupportedRequest ∈ o ↔ true = false) ∧ ∀ y ∈ o, y = .unsupportedRequest ∨ ∃ k, y = .errMessage k := by
  obtain ⟨o, x, h, messages, reported⟩ := poisoned_eq aer hd false s
  exact ⟨o, x, h, (work_onlyIf_true on).trans (congrArg (Host.Outcome.next ∘ settleUp) reported), iff_of_false (messages.not_mem nofun) nofun,
    fun y hy => .inr (messages y hy)⟩

/-- The messages of AER, then the answer. -/
theorem ErrMessages.answered {o : List Out} (messages : ErrMessages o) : (.unsupportedRequest ∈ o ++ [Out.unsupportedRequest] ↔ false = false)
    ∧ ∀ y ∈ o ++ [.unsupportedRequest], y = .unsupportedRequest ∨ ∃ k, y = .errMessage k := by
  refine ⟨iff_of_true (List.mem_append_right _ (List.mem_singleton.2 rfl)) rfl, fun y hy => ?_⟩
  exact (List.mem_append.1 hy).elim (fun hy => .inr (messages y hy)) (fun hy => .inl (List.mem_singleton.1 hy))

theorem emit_reported {s t : State} {o : List Out} {p : Pcie} (reported : t = { s with out := o, pcie := p }) (y : Out) :
    emit y t = { s with out := o ++ [y], pcie := p } := by
  subst reported
  rfl

theorem linkError_poisoned_nonPosted (on : s.onPcie = true) : ∃ (o : List Out) (x : BitVec 32) (h : BitVec 128),
    exec (.linkError (.poisonedRequest false) aer hd) s = .next (settleUp { s with
      out := o
      pcie := { s.pcie with
        status := s.pcie.status ||| (if aer.getLsbD 12 = true then 0x8000 else 0), aerUncor := s.pcie.aerUncor ||| aer, aerCor := x, aerHeader := h } })
      ∧ (.unsupportedRequest ∈ o ↔ false = false) ∧ ∀ y ∈ o, y = .unsupportedRequest ∨ ∃ k, y = .errMessage k := by
  obtain ⟨o, x, h, messages, reported⟩ := poisoned_eq aer hd true s
  have row : exec (.linkError (.poisonedRequest false) aer hd) s = .next (settleUp (emit .unsupportedRequest
      (setStatus (if aer.getLsbD 12 = true then 0x8000 else 0) (reportUncorrectable aer hd true { s with out := [] })))) :=
    work_onlyIf_true on
  exact ⟨o ++ [.unsupportedRequest], x, h, row.trans (congrArg (Host.Outcome.next ∘ settleUp) (emit_reported reported _)), messages.answered⟩

theorem linkError_unsupported_posted (on : s.onPcie = true) : ∃ (o : List Out) (x : BitVec 32) (h : BitVec 128),
    exec (.linkError (.unsupported true) aer hd) s = .next (settleUp { s with
      out := o, pcie := { s.pcie with aerUncor := s.pcie.aerUncor ||| 0x100000, aerCor := x, aerHeader := h } })
      ∧ (.unsupportedRequest ∈ o ↔ true = false) ∧ ∀ y ∈ o, y = .unsupportedRequest ∨ ∃ k, y = .errMessage k := by
  obtain ⟨o, h, messages, refused⟩ := refuseRequest_posted hd { s with out := [] }
  exact ⟨o, _, h, (work_onlyIf_true on).trans (congrArg (Host.Outcome.next ∘ settleUp) refused), iff_of_false (messages.not_mem nofun) nofun,
    fun y hy => .inr (messages y hy)⟩

theorem linkError_unsupported_nonPosted (on : s.onPcie = true) : ∃ (o : List Out) (x : BitVec 32) (h : BitVec 128),
    exec (.linkError (.unsupported false) aer hd) s = .next (settleUp { s with
      out := o, pcie := { s.pcie with aerUncor := s.pcie.aerUncor ||| 0x100000, aerCor := x, aerHeader := h } })
      ∧ (.unsupportedRequest ∈ o ↔ false = false) ∧ ∀ y ∈ o, y = .unsupportedRequest ∨ ∃ k, y = .errMessage k := by
  obtain ⟨o, x, h, messages, refused⟩ := refuseRequest_nonPosted hd { s with out := [] }
  exact ⟨o ++ [.unsupportedRequest], x, h, (work_onlyIf_true on).trans (congrArg (Host.Outcome.next ∘ settleUp) refused), messages.answered⟩

variable (on : s.onPcie = true) (unack : s.flt.unack = []) (stop : s.flt.stopping = false) (items : s.nib.items = [])
include on unack stop items

/-- The correctable error of a replay (Table 06-10). -/
theorem linkError_replay : ∃ u b, exec (.linkError .replay aer hd) s = .next (settleUp u) ∧ .retrain ∈ u.out ∧ u.pcie = { s.pcie with aerCor := s.pcie.aerCor ||| aer } ∧ u.rst = s.rst
      ∧ b ∈ u.flt.blotter ∧ b.kind = 1 ∧ b.cls = 8 ∧ b.level = 2 ∧ b.source = 2 ∧ b.detail.toNat = (s.pcie.aerCor ||| aer).toNat := by
  obtain ⟨o, -, reported⟩ := reportCorrectable_eq aer { s with out := [] }
  have row : exec (.linkError .replay aer hd) s = .next (settleUp
      (linkFault (reportCorrectable aer { s with out := [] }).pcie.aerCor (emit .retrain) (reportCorrectable aer { s with out := [] }))) :=
    work_onlyIf_true on
  generalize reportCorrectable aer { s with out := [] } = t at row reported
  obtain ⟨u, retries, flt, aon, health, b, rest, rfl, front, fault⟩ := linkFault_reported reported t.pcie.aerCor (emit .retrain) on unack stop (noAwait_nil items)
  rw [retries] at row
  subst reported
  exact ⟨_, b, row, List.mem_append_right _ (List.mem_singleton.2 rfl), rfl, rfl, front ▸ List.mem_cons_self, fault⟩

/-- An uncorrectable error that leaves the link up. -/
theorem linkError_fatal_up : ∃ u b h, exec (.linkError (.fatal false) aer hd) s = .next (settleUp u) ∧ .retrain ∈ u.out ∧ u.rst = s.rst
      ∧ u.pcie = { s.pcie with aerUncor := s.pcie.aerUncor ||| aer, aerHeader := h }
      ∧ b ∈ u.flt.blotter ∧ b.kind = 1 ∧ b.cls = 8 ∧ b.level = 2 ∧ b.source = 2 ∧ b.detail.toNat = (s.pcie.aerUncor ||| aer).toNat := by
  obtain ⟨o, h, -, reported⟩ := reportUncorrectable_eq aer hd { s with out := [] }
  have row : exec (.linkError (.fatal false) aer hd) s = .next (settleUp
      (linkFault (reportUncorrectable aer hd false { s with out := [] }).pcie.aerUncor (emit .retrain) (reportUncorrectable aer hd false { s with out := [] }))) :=
    work_onlyIf_true on
  generalize reportUncorrectable aer hd false { s with out := [] } = t at row reported
  obtain ⟨u, retries, flt, aon, health, b, rest, rfl, front, fault⟩ := linkFault_reported reported t.pcie.aerUncor (emit .retrain) on unack stop (noAwait_nil items)
  rw [retries] at row
  subst reported
  exact ⟨_, b, h, row, List.mem_append_right _ (List.mem_singleton.2 rfl), rfl, rfl, front ▸ List.mem_cons_self, fault⟩

/-- The link goes down while Ready is 1. -/
theorem linkError_surpriseDown (ready : s.pcie.ready = true) : ∃ u b, exec (.linkError .surpriseDown aer hd) s = .next (settleUp u) ∧ .retrain ∈ u.out ∧ u.pcie = Pcie.init
      ∧ u.nib.pairs = [] ∧ u.rst = s.rst ∧ b ∈ u.flt.blotter ∧ b.cls = 8 ∧ b.level = 2 := by
  obtain ⟨t, retries, noted⟩ := linkFault_retries (s := { s with out := [] }) s.pcie.aerUncor (emit .retrain) (running_of_onPcie on) unack stop (noAwait_nil items)
  obtain ⟨pcie, pairs, rst, retrain, b, listed, fault⟩ := linkLost_down (s := { s with out := [] }) on noted
  have row : exec (.linkError .surpriseDown aer hd) s = .next (settleUp (linkLost true
      (if s.pcie.ready then linkFault s.pcie.aerUncor (emit .retrain) { s with out := [] } else emit .retrain { s with out := [] }))) :=
    work_onlyIf_true on
  rw [if_pos ready, retries] at row
  exact ⟨_, b, row, retrain, pcie, pairs, rst, listed, fault⟩

/-- An uncorrectable error that takes the link down. -/
theorem linkError_fatal_down : ∃ u b, exec (.linkError (.fatal true) aer hd) s = .next (settleUp u) ∧ .retrain ∈ u.out ∧ u.pcie = Pcie.init
      ∧ u.nib.pairs = [] ∧ u.rst = s.rst ∧ b ∈ u.flt.blotter ∧ b.cls = 8 ∧ b.level = 2 := by
  obtain ⟨o, h, -, reported⟩ := reportUncorrectable_eq aer hd { s with out := [] }
  have row : exec (.linkError (.fatal true) aer hd) s = .next (settleUp (linkLost true
      (linkFault (reportUncorrectable aer hd false { s with out := [] }).pcie.aerUncor (emit .retrain) (reportUncorrectable aer hd false { s with out := [] })))) :=
    work_onlyIf_true on
  generalize reportUncorrectable aer hd false { s with out := [] } = t at row reported
  obtain ⟨u, retries, noted⟩ := linkFault_reported reported t.pcie.aerUncor (emit .retrain) on unack stop (noAwait_nil items)
  rw [retries] at row
  subst reported
  obtain ⟨pcie, pairs, rst, retrain, b, listed, fault⟩ := linkLost_down (s := { s with out := o, pcie := _ }) on noted
  exact ⟨_, b, row, retrain, pcie, pairs, rst, listed, fault⟩

end

section
variable {s : State} {r q : Nat} {i : Item} (aer : BitVec 32)

/-- The first failed read of a command is issued again. -/
theorem moduleRequest_reissued (ruled : r ≠ 0) (found : s.item? r = some i) (reads : s.readsHost i = true) (first : i.retries = 0)
    (unack : s.flt.unack = []) (stop : s.flt.stopping = false) (items : s.nib.items = [i]) :
    ∃ u, exec (.moduleRequestFailure r q aer) s = .next (settleUp u) ∧ .reissue r ∈ u.out
      ∧ u.item? r = some { i with retries := 1 } ∧ u.pcie.aerUncor = s.pcie.aerUncor ||| aer ∧ ∃ b ∈ u.flt.blotter, b.cls = 8 ∧ b.level = 2 := by
  obtain ⟨on, -, wait⟩ := readsHost_data reads
  obtain ⟨o, h, -, reported⟩ := reportUncorrectable_eq aer 0 { s with out := [] }
  have row := exec_moduleRequestFailure (q := q) aer ruled found reads
  rw [if_pos first] at row
  generalize reportUncorrectable aer 0 false { s with out := [] } = t at row reported
  obtain ⟨u, retries, flt, aon, health, b, rest, rfl, front, -, cls, level, -⟩ := linkFault_reported reported t.pcie.aerUncor
    (fun s => emit (.reissue r) (setItem { i with retries := 1 } s)) on unack stop (by simp [items, wait])
  rw [retries] at row
  subst reported
  obtain rfl := ruling_of_item? found
  refine ⟨_, row, List.mem_append_right _ (List.mem_singleton.2 rfl), ?_, rfl, b, front ▸ List.mem_cons_self, cls, level⟩
  exact item?_setItem (i := { i with retries := 1 }) (s := { s with out := _, pcie := _, flt := flt, aon := aon, health := health }) found

/-- The second fails the command. -/
theorem moduleRequest_failed (ruled : r ≠ 0) (found : s.item? r = some i) (reads : s.readsHost i = true) (again : i.retries ≠ 0)
    (unack : s.flt.unack = []) (stop : s.flt.stopping = false) (items : s.nib.items = [i]) :
    ∃ u, exec (.moduleRequestFailure r q aer) s = .next (settleUp u) ∧ u.item? r = none
      ∧ (∃ e ∈ u.elog.list, e.status = 9 ∧ e.ruling = r ∧ e.cls = 8) ∧ (∀ p, u.pair? i.q = some p → p.frozen.isSome = true)
      ∧ ∀ x ∈ u.res.staged, x.ruling ≠ r := by
  obtain ⟨on, host, -⟩ := readsHost_data reads
  obtain ⟨o, h, -, reported⟩ := reportUncorrectable_eq aer 0 { s with out := [] }
  have row := exec_moduleRequestFailure (q := q) aer ruled found reads
  rw [if_neg again] at row
  generalize reportUncorrectable aer 0 false { s with out := [] } = t at row reported
  obtain ⟨left, flt, rst, staged, logged, frozen⟩ := failData_hostTransfer_spec host t
  obtain rfl := ruling_of_item? found
  have gone : (failData i Fail.hostTransfer t).nib.items = [] := by
    rw [left, reported]
    change s.nib.items.filter _ = []
    rw [items]
    simp
  obtain ⟨u, retries, _, _, _, _, _, rfl, -⟩ := linkFault_retries (s := failData i Fail.hostTransfer t) t.pcie.aerUncor id
    (by unfold State.running; rw [rst, reported]; exact running_of_onPcie on) (by rw [flt, reported]; exact unack) (by rw [flt, reported]; exact stop)
    (noAwait_nil gone)
  rw [retries] at row
  refine ⟨_, row, ?_, logged, frozen, staged⟩
  change List.find? _ (failData i Fail.hostTransfer t).nib.items = none
  rw [gone]
  rfl

/-- The first failed read of a ring is issued again. -/
theorem ringRead_reissued {p : Pair} (on : s.onPcie = true) (found : s.pair? q = some p) (fetched : s.nib.fetched = []) (fresh : p.refetch = false)
    (unack : s.flt.unack = []) (stop : s.flt.stopping = false) (items : s.nib.items = []) :
    ∃ u, exec (.moduleRequestFailure 0 q aer) s = .next (settleUp u) ∧ .reissue 0 ∈ u.out
      ∧ u.pair? q = some { p with refetch := true } ∧ u.pcie.aerUncor = s.pcie.aerUncor ||| aer ∧ ∃ b ∈ u.flt.blotter, b.cls = 8 ∧ b.level = 2 := by
  obtain ⟨o, h, -, reported⟩ := reportUncorrectable_eq aer 0 { s with out := [] }
  have row := exec_ringReadFailed aer on fetched found fresh
  rw [reported] at row
  obtain ⟨u, retries, flt, aon, health, b, rest, rfl, front, -, cls, level, -⟩ := linkFault_reported
    (s := modPair q (fun p => { p with refetch := true }) s) rfl (s.pcie.aerUncor ||| aer) (emit (.reissue 0)) on unack stop (noAwait_nil items)
  refine ⟨_, row.trans (congrArg (Host.Outcome.next ∘ settleUp) retries), List.mem_append_right _ (List.mem_singleton.2 rfl), ?_, rfl, b,
    front ▸ List.mem_cons_self, cls, level⟩
  have kept := pair?_modPair (f := fun p => { p with refetch := true }) (fun _ => rfl) q s
  rw [found] at kept
  exact kept

end

/-- Settles O20: each row by its reports, then by `linkFault_retries` where the row records FC8. -/
theorem linkErrorsAreReported : Obligations.LinkErrorsAreReported := by
  refine ⟨?corrected, ?poisoned, ?unsupported, ?replay, ?fatal, ?down, ?reissued, ?failed, ?ring⟩
  case corrected => exact fun s aer hd => linkError_corrected aer hd
  case poisoned =>
    rintro s aer hd (_ | _) on
    · exact linkError_poisoned_nonPosted aer hd on
    · exact linkError_poisoned_posted aer hd on
  case unsupported =>
    rintro s aer hd (_ | _) on
    · exact linkError_unsupported_nonPosted aer hd on
    · exact linkError_unsupported_posted aer hd on
  case replay => exact fun s aer hd => linkError_replay aer hd
  case fatal => exact fun s aer hd => linkError_fatal_up aer hd
  case down =>
    intro s aer hd e on ready unack stop items which
    rcases which with rfl | rfl
    · exact linkError_surpriseDown aer hd on unack stop items ready
    · exact linkError_fatal_down aer hd on unack stop items
  case reissued => exact fun s r q aer i => moduleRequest_reissued aer
  case failed => exact fun s r q aer i => moduleRequest_failed aer
  case ring => exact fun s q aer p => ringRead_reissued aer

end Sys2Proof.Proofs
end

section
/-! SUPPORT. What the placement of a write's data leaves as it is (R250, R251): the pages of the map log, the die reads, the reservoir's claims, and what is staged. -/

namespace Sys2Proof.Proofs

open Sys2Proof Sys2Proof.Machine Sys2Proof.Laws

/-- A staged block without its place. -/
def stagedTag (x : Staged) : Nat × Nat × Bool × Mem := (x.ruling, x.block, x.poisoned, x.data)

/-- What placement leaves as it is. -/
def held (s : State) : List LogPage × List Rd × Nat × List (Nat × Nat × Bool × Mem) :=
  (s.log.pages, s.dies.reads, s.res.claimed, s.res.staged.map stagedTag)

theorem held_foldl {α : Type} {f : State → α → State} (each : ∀ s x, held (f s x) = held s) (l : List α) (s : State) : held (l.foldl f s) = held s := by
  induction l generalizing s with
  | nil => rfl
  | cons x l ih => exact (ih _).trans (each s x)

theorem held_ite {c : Prop} [Decidable c] {a t u : State} (h : held t = held a) (k : held u = held a) : held (if c then t else u) = held a := by
  split
  · exact h
  · exact k

section
variable (s : State)

theorem held_launch (n wl cls : Nat) (slots : List Slot) : held (launch n wl cls slots s) = held s := by
  unfold launch
  split <;> rfl

theorem held_padTo (n lo hi : Nat) : held (padTo n lo hi s) = held s := by
  unfold padTo
  split
  · rfl
  · refine held_foldl (fun t i => ?_) _ s
    exact held_ite rfl rfl

theorem held_programWordline (n wl cls : Nat) : held (programWordline n wl cls s) = held s := by
  unfold programWordline
  split
  · rfl
  · exact held_launch _ _ _ _ _

theorem held_programComplete (n cls fuel : Nat) : held (programComplete n cls fuel s) = held s := by
  induction fuel generalizing s with
  | zero => rfl
  | succ fuel ih =>
    unfold programComplete
    split
    · rfl
    · exact held_ite ((ih _).trans (held_programWordline s _ _ _)) rfl

theorem held_closeBandStripes (n cls : Nat) : held (closeBandStripes n cls s) = held s := by
  unfold closeBandStripes
  split
  · rfl
  · exact held_ite ((held_programWordline _ _ _ _).trans (held_padTo s _ _ _)) rfl

theorem held_noteBand (n : Nat) : held (noteBand n s) = held s := by
  unfold noteBand
  split <;> rfl

theorem held_openBand (n : Nat) (tlc cache : Bool) (cls : Nat) : held (openBand n tlc cache cls s) = held s := by
  unfold openBand
  refine (held_launch _ _ _ _ _).trans (Eq.trans ?_ (held_noteBand (formBand n tlc cache s) n))
  split
  · exact held_ite rfl rfl
  · rfl

theorem held_bindWp (kind stream : Nat) : held (bindWp kind stream s) = held s := by
  unfold bindWp
  split
  · next w _ => exact (held_foldl (f := fun t x => closeBandStripes x.2 2 t) (fun t x => held_closeBandStripes t x.2 2) w.open_ s :)
  · rfl

theorem held_newBand (w : WritePoint) (tlc cache : Bool) (cls : Nat) (whole : Bool) : held (newBand w tlc cache cls whole s).1 = held s := by
  unfold newBand
  split
  · rfl
  · exact held_openBand s _ _ _ _

theorem held_withRoom (kind stream cls : Nat) (whole : Bool) : held (withRoom kind stream cls whole s).1 = held s := by
  unfold withRoom
  dsimp only
  split
  · rfl
  split
  · exact held_newBand s _ _ _ _ _
  split
  · rfl
  · exact held_newBand s _ _ _ _ _

theorem held_append (kind stream cls : Nat) (cws : List Codeword) : held (append kind stream cls cws s).1 = held s := by
  have room := held_withRoom s kind stream cls (cws.length = 32)
  unfold append
  dsimp only
  split
  · exact room
  split
  · exact room
  · next n pos _ _ b _ =>
    have filled := held_foldl (f := fun t i => addFill (n * bandSlots + (pos + i)) (cws.getD i padCodeword) t) (fun _ _ => rfl) (List.range cws.length)
      (padTo n b.nextPos pos (withRoom kind stream cls (cws.length = 32) s).1)
    have written := filled.trans ((held_padTo _ n b.nextPos pos).trans room)
    exact (held_programComplete _ _ _ _).trans (held_ite written written)

/-- A block's place is no part of what is staged. -/
theorem held_markPlaced (r b slot : Nat) : held (markPlaced r b slot s) = held s := by
  have tags : (mapIf (fun x : Staged => x.ruling = r && x.block = b) (fun x => { x with placed := some slot }) s.res.staged).map stagedTag
      = s.res.staged.map stagedTag := by
    unfold mapIf
    rw [List.map_map]
    refine List.map_congr_left fun x _ => ?_
    dsimp only [Function.comp]
    split <;> rfl
  unfold held markPlaced
  rw [tags]

theorem held_placeBlocks (r kind stream fuel : Nat) (l : List Staged) : held (placeBlocks r kind stream fuel l s) = held s := by
  induction fuel generalizing l s with
  | zero => rfl
  | succ fuel ih =>
    cases l with
    | nil => rfl
    | cons x xs =>
      unfold placeBlocks
      dsimp only
      split
      · have placed := held_append s kind stream 2 (((x :: xs).take 32).map (·.cw))
        split
        · exact (ih _ _).trans ((held_foldl (fun t i => held_markPlaced t _ _ _) _ _).trans placed)
        · exact placed
      · have placed := held_append s kind stream 2 [x.cw]
        split
        · exact (ih _ _).trans ((held_markPlaced _ _ _ _).trans placed)
        · exact placed

theorem held_placeWrite (r : Nat) : held (placeWrite r s) = held s := by
  unfold placeWrite
  split
  · rfl
  · exact (held_placeBlocks _ _ _ _ _ _).trans (held_bindWp s _ _)

theorem placeWrite_stored (r : Nat) : Stored s (placeWrite r s) := by
  unfold placeWrite
  split
  · exact .refl s
  · exact (bindWp_stored s _ _).trans (placeBlocks_stored _ _ _ _ _ _)

end

end Sys2Proof.Proofs
end

section
/-! O27. The data of writes: taken, merged, refused (R150, R186, R251, R258, R381). -/

namespace Sys2Proof.Proofs

open Sys2Proof Sys2Proof.Machine Sys2Proof.Laws

/-- A Write of the PCIe face, the one command outstanding, waits for its data. -/
structure WriteWaits (s : State) (i : Item) : Prop where
  on : s.running = true
  live : s.nib.stopped = false
  items : s.nib.items = [i]
  host : i.narrow = false
  wait : i.wait = .data
  first : i.retries = 0
  op : Entry.opcode i.entry = 1

theorem item?_only {s : State} {i : Item} (items : s.nib.items = [i]) : s.item? i.ruling = some i := by
  simp [State.item?, items]

theorem setItem_only {s : State} {i j : Item} (items : s.nib.items = [i]) (same : j.ruling = i.ruling) : (setItem j s).nib.items = [j] := by
  rw [setItem_nib]
  simp [mapIf, items, same]

section
variable {s : State} {i : Item} (w : WriteWaits s i) (data : Mem) (segs : List Nat)
include w

theorem WriteWaits.exec : exec (.writeDataReceived i.ruling data segs) s = .next (settleUp (receiveWrite i data segs { s with out := [] })) := by
  have found : State.item? { s with out := [] } i.ruling = some i := item?_only w.items
  have on : State.running { s with out := [] } = true := w.on
  have row : Machine.exec (.writeDataReceived i.ruling data segs) s = execWriteDataReceived i.ruling data segs s := rfl
  rw [row]
  unfold execWriteDataReceived work answer
  simp only [found, on, w.live, w.host, w.wait, w.op, w.first, Bool.not_false, Bool.and_self, decide_true, ↓reduceIte]

theorem WriteWaits.misfits (misfit : segmentsFit i.entry segs = false) :
    Machine.exec (.writeDataReceived i.ruling data segs) s = .next (settleUp (finish i Fail.segments 0 { s with out := [] })) := by
  rw [w.exec, receiveWrite, if_pos (by rw [misfit]; rfl)]

variable {segs} (fit : segmentsFit i.entry segs = true)
include fit

theorem WriteWaits.waits (full : s.dataWaits i = true) : Machine.exec (.writeDataReceived i.ruling data segs) s = .next (settleUp { s with out := [] }) := by
  rw [w.exec, receiveWrite, if_neg (by simp [fit])]
  exact congrArg (Host.Outcome.next ∘ settleUp) (if_pos full)

variable (space : s.dataWaits i = false)
include space

theorem WriteWaits.stops (refuses : s.gateRefuses i = true) :
    Machine.exec (.writeDataReceived i.ruling data segs) s = .next (settleUp (gateStops i { s with out := [] })) := by
  have space' : State.dataWaits { s with out := [] } i = false := space
  rw [w.exec, receiveWrite, if_neg (by simp [fit]), if_neg (by simp [space'])]
  exact congrArg (Host.Outcome.next ∘ settleUp) (if_pos refuses)

theorem WriteWaits.takes (allows : s.gateRefuses i = false) : Machine.exec (.writeDataReceived i.ruling data segs) s
    = .next (settleUp (takeData i data { s with out := [.hostRead i.q ((i.pieces segs).flatMap (cut s.readMax))] })) := by
  have space' : State.dataWaits { s with out := [] } i = false := space
  have allows' : State.gateRefuses { s with out := [] } i = false := allows
  rw [w.exec, receiveWrite, if_neg (by simp [fit]), if_neg (by simp [space']), if_neg (by simp [allows'])]
  rfl

end

/-- A write's data in the reservoir (R186, R494). -/
def dataTaken (s : State) (i : Item) (p : Part) (data : Mem) (out : List Out) : State :=
  { s with
    out := out
    res := { staged := s.res.staged ++ s.stageBlocks i p (Mem.norm 0 (Entry.length i.entry) data), claimed := s.res.claimed - i.resClaim }
    health := { s.health with writtenBytes := sat 64 (s.health.writtenBytes + Entry.length i.entry) } }

theorem takeData_eq {s : State} {i : Item} {p : Part} (part : s.partOf i = some p) (data : Mem) (out : List Out) :
    takeData i data { s with out := out } = if s.mergeBlocks i p = [] then acceptData { i with resClaim := 0, hairClaim := 0 } (dataTaken s i p data out)
      else startMerge { i with resClaim := 0, hairClaim := 0 } (s.mergeBlocks i p) (dataTaken s i p data out) := by
  have part' : State.partOf { s with out := out } i = some p := part
  unfold takeData
  simp only [part']
  rfl

/-- A write past its cancel point, its data placed (R186, R251). -/
def placed (i : Item) (s : State) : State := placeWrite i.ruling (setItem { i with past := true, wait := .persist } s)

/-- A durable write, and one ruled after a warning, waits for persistence; any other completes (R186, R345). -/
theorem acceptData_eq (i : Item) (s : State) : acceptData i s = if Entry.durable i.entry = true ∨ s.afterWarning i.ruling = true then pushStripes (placed i s)
    else pushStripes (succeed { i with past := true, wait := .persist } 0 (placed i s)) := by
  have sup : (placed i s).afterWarning i.ruling = s.afterWarning i.ruling := by
    obtain ⟨_, _, _, _, e⟩ := placeWrite_stored (setItem { i with past := true, wait := .persist } s) i.ruling
    unfold placed
    rw [e]
    rfl
  change pushStripes (if Entry.durable i.entry || (placed i s).afterWarning i.ruling then placed i s
    else succeed { i with past := true, wait := .persist } 0 (placed i s)) = _
  rw [sup]
  by_cases waits : Entry.durable i.entry = true ∨ s.afterWarning i.ruling = true
  · rw [if_pos waits, if_pos (by simpa using waits)]
  · rw [if_neg waits, if_neg (by simpa using waits)]

theorem placed_frame (i : Item) (s : State) : (placed i s).nib = (setItem { i with past := true, wait := .persist } s).nib ∧ (placed i s).map = s.map
    ∧ (placed i s).health = s.health ∧ (placed i s).out = s.out ∧ held (placed i s) = held s := by
  obtain ⟨_, _, _, _, e⟩ := placeWrite_stored (setItem { i with past := true, wait := .persist } s) i.ruling
  have kept := held_placeWrite (setItem { i with past := true, wait := .persist } s) i.ruling
  unfold placed
  refine ⟨?_, ?_, ?_, ?_, kept⟩ <;> rw [e] <;> rfl

/-! ## The merge -/

/-- A codeword read listed, whether its die serves it or reconstruction does (R307, R309). -/
theorem startRd_lists (ruling block slot cls use : Nat) (s : State) : ∃ r ∈ (startRd ruling block slot cls use s).dies.reads,
    r.ruling = ruling ∧ r.block = block ∧ r.slot = slot ∧ r.use = use ∧ r.cls = cls ∧ r.done = false := by
  unfold startRd startRdOn
  dsimp only
  split
  · exact ⟨_, (enqueue_gathered _ _).reads (List.mem_append_right _ (List.mem_singleton.2 rfl)), by split <;> exact ⟨rfl, rfl, rfl, rfl, rfl, rfl⟩⟩
  split
  · exact ⟨_, (startPeers_gathered _ _).reads (List.mem_append_right _ (List.mem_singleton.2 rfl)), by split <;> exact ⟨rfl, rfl, rfl, rfl, rfl, rfl⟩⟩
  · exact ⟨_, List.mem_append_right _ (List.mem_singleton.2 rfl), by split <;> exact ⟨rfl, rfl, rfl, rfl, rfl, rfl⟩⟩

theorem foldl_startRd_lists (ruling cls use : Nat) (l : List (Nat × Nat)) (s : State) :
    Gathered s (l.foldl (fun s x => startRd ruling x.1 x.2 cls use s) s)
    ∧ ∀ x ∈ l, ∃ r ∈ (l.foldl (fun s x => startRd ruling x.1 x.2 cls use s) s).dies.reads,
      r.ruling = ruling ∧ r.block = x.1 ∧ r.slot = x.2 ∧ r.use = use ∧ r.cls = cls ∧ r.done = false := by
  induction l generalizing s with
  | nil => exact ⟨.refl s, by simp⟩
  | cons x l ih =>
    obtain ⟨gathered, lists⟩ := ih (startRd ruling x.1 x.2 cls use s)
    refine ⟨(startRd_gathered _ _ _ _ _ s).trans gathered, List.forall_mem_cons.2 ⟨?_, lists⟩⟩
    obtain ⟨r, listed, fields⟩ := startRd_lists ruling x.1 x.2 cls use s
    exact ⟨r, gathered.reads listed, fields⟩

/-- The reads of a merge, and the write that waits for them (R258). -/
theorem startMerge_spec {s : State} {i : Item} {l : List (Nat × Nat)} (items : (setItem { i with wait := .merge } s).nib.items = [{ i with wait := .merge }]) :
    (startMerge i l s).nib.items = [{ i with wait := .merge }] ∧ (startMerge i l s).res = s.res ∧ (startMerge i l s).map = s.map ∧ (startMerge i l s).log = s.log
    ∧ (startMerge i l s).out = s.out ∧ ∀ x ∈ l, ∃ r ∈ (startMerge i l s).dies.reads,
      r.ruling = i.ruling ∧ r.block = x.1 ∧ r.slot = x.2 ∧ r.use = 5 ∧ r.cls = 0 ∧ r.done = false := by
  obtain ⟨gathered, lists⟩ := foldl_startRd_lists i.ruling 0 5 l (setItem { i with wait := .merge } s)
  unfold startMerge
  refine ⟨by rw [gathered.nib]; exact items, ?_, ?_, ?_, ?_, lists⟩ <;> obtain ⟨_, _, _, _, _, e, -⟩ := gathered <;> rw [e] <;> rfl

/-! ## The gate -/

/-- FC14 of a gate at the notice level fails the command, and no data moves (R383). -/
theorem gateStops_heads {s : State} {i : Item} (w : WriteWaits s i) (unack : s.flt.unack = []) (stop : s.flt.stopping = false) :
    ∃ u, gateStops i s = finish i { status := 0x0E, detail := 0, cls := 14, block := none } 0 u
      ∧ Heads 14 1 (if i.fast = true then 0x1B else 0x07) (BitVec.ofNat 64 (Entry.part i.entry % 256 + 256 * (i.well % 256))) s u := by
  have level := levelFor_of_unack_nil unack 14 1
  have noted : Heads 14 1 (if i.fast = true then 0x1B else 0x07) (BitVec.ofNat 64 (Entry.part i.entry % 256 + 256 * (i.well % 256))) s
      (recordLevel 14 1 1 (if i.fast = true then 0x1B else 0x07) (BitVec.ofNat 64 (Entry.part i.entry % 256 + 256 * (i.well % 256))) 2 s) :=
    recordLevel_heads stop (by decide) (by simp [w.items, w.wait])
  have acked := noted.ackReaction 14 (if i.fast = true then 0x1B else 0x07)
  refine ⟨_, ?_, acked⟩
  have found : (ackReaction 14 (if i.fast = true then 0x1B else 0x07)
      (recordLevel 14 1 1 (if i.fast = true then 0x1B else 0x07) (BitVec.ofNat 64 (Entry.part i.entry % 256 + 256 * (i.well % 256))) 2 s)).item? i.ruling = some i := by
    obtain ⟨_, _, _, e, -⟩ := acked
    rw [e]
    exact item?_only w.items
  unfold gateStops gateFault recordFault
  simp only [level, noted.running, w.on, Bool.not_true, Bool.false_eq_true, ↓reduceIte, Nat.reduceLeDiff, found]
  unfold failData undefineBuffer
  rw [w.op]
  rfl

end Sys2Proof.Proofs
end

section
/-! O27. The data of reads, the end of a merge, and the statement (R150, R185, R258). -/

namespace Sys2Proof.Proofs

open Sys2Proof Sys2Proof.Machine Sys2Proof.Laws

/-! ## The last read of a merge -/

/-- A decode with its CRC32C, at the first step and of few errors, teaches nothing (R294, Table 10-12). -/
theorem learn_first {r : Rd} {n : Nat} (step : r.step = 0) (few : n ≤ 132) (cls : r.tried.getLastD 0 < 56) (s : State) : learn r n s = s := by
  have quiet : ¬ (132 < n ∨ 56 ≤ r.tried.getLastD 0) := by omega
  unfold learn
  simp only [step, decide_false, Bool.false_and, Bool.or_false, Bool.false_eq_true, ↓reduceIte, Nat.reduceLeDiff, OfNat.zero_ne_ofNat]
  rw [if_neg (by simpa using quiet)]
  cases s.band? (bandOfSlot r.slot) <;> rfl

theorem ackReaction_none {s : State} (unack : s.flt.unack = []) (cls source : Nat) : ackReaction cls source s = s := by
  simp [ackReaction, unack]

/-- The codeword is in hand, and the read's purpose goes on. -/
theorem decoded_first {s : State} {r : Rd} {n : Nat} (on : s.running = true) (unack : s.flt.unack = []) (bad : r.bad = false) (step : r.step = 0)
    (sure : r.falsely = none) (few : n ≤ 132) (cls : r.tried.getLastD 0 < 56) (dec : Nat) : decoded r dec (some n) true s = codewordDone r s := by
  have yields : s.yields r true = true := by simp [State.yields, bad, step]
  have certain : noteFalse r dec s = s := by simp [noteFalse, sure]
  unfold decoded
  simp only [yields, ↓reduceIte, certain, ackReaction_none unack, on, learn_first step few cls]

theorem exec_lastRead {s : State} {r : Rd} {n dec : Nat} (on : s.running = true) (there : dec ∈ s.dies.decoders) (reads : s.dies.reads = [r]) (staged : r.staged = true)
    (open_ : r.done = false) (bad : r.bad = false) (step : r.step = 0) (sure : r.falsely = none) (use : r.use = 5) (few : n ≤ 132)
    (cls : r.tried.getLastD 0 < 56) (unack : s.flt.unack = []) :
    exec (.ldpcDecodeComplete r.id dec (some n) true) s = .next (settleUp (mergeDone r.ruling (dropRd r.id { s with out := [] }))) := by
  have found : State.rd? { s with out := [] } r.id = some r := by simp [State.rd?, reads]
  refine (work_onlyIf_true (by simp [on, there])).trans (congrArg (Host.Outcome.next ∘ settleUp) ?_)
  have first := decoded_first (s := { s with out := [] }) on unack bad step sure few cls dec
  simp only [found, staged, open_, Bool.not_false, Bool.and_self, ↓reduceIte, first]
  simp only [codewordDone, use]

/-- With its last read gone, a merged write goes on (R258). -/
theorem mergeDone_accepts {s : State} {i : Item} (found : s.item? i.ruling = some i) (wait : i.wait = .merge) (reads : s.dies.reads = [])
    (op : Entry.opcode i.entry = 1) : mergeDone i.ruling s = acceptData i s := by
  unfold mergeDone
  simp [found, wait, reads, op]

/-! ## Data out -/

theorem readPayload_len (s : State) (i : Item) (p : Part) : (s.readPayload i p).len = Entry.length i.entry := by
  unfold State.readPayload
  dsimp only
  split
  · rfl
  · split <;> rfl
  · rfl

section
variable {s : State} {i : Item} (segs : List Nat) (found : s.item? i.ruling = some i)
include found

theorem deliverRead_open (opened : s.readsOpen i.ruling = true) : deliverRead i.ruling segs s = s := by
  unfold deliverRead
  simp only [found, opened, Bool.or_true, ↓reduceIte]

variable {p : Part} (host : i.narrow = false) (wait : i.wait = .data) (op : Entry.opcode i.entry = 2 ∨ Entry.opcode i.entry = 6 ∨ Entry.opcode i.entry = 7)
  (closed : s.readsOpen i.ruling = false) (part : s.partOf i = some p)
include host wait op closed part

/-- A read of the PCIe face with every codeword in hand. -/
theorem deliverRead_eq : deliverRead i.ruling segs s = if segmentsFit i.entry segs = true then
      succeed i 0 (writeHost i segs (s.readPayload i p) { s with health := { s.health with readBytes := sat 64 (s.health.readBytes + Entry.length i.entry) } })
    else failData i Fail.segments s := by
  unfold deliverRead
  simp only [found, host, wait, closed, part, ne_eq, not_true_eq_false, decide_false, Bool.or_self, Bool.false_eq_true, ↓reduceIte]
  rw [← readPayload_len s i p]
  cases fit : segmentsFit i.entry segs <;> rcases op with op | op | op <;> rw [op] <;> rfl

end

theorem exec_readDataDelivered {s : State} (r : Nat) (segs : List Nat) (on : s.running = true) (live : s.nib.stopped = false) :
    exec (.readDataDelivered r segs) s = .next (settleUp (deliverRead r segs { s with out := [] })) :=
  work_onlyIf_true (by simp [on, live])

theorem segmentsFit_false {e : Entry} {segs : List Nat} (segmented : Entry.segmented e = true) (sum : segs.sum ≠ Entry.length e) : segmentsFit e segs = false := by
  simp [segmentsFit, segmented, sum]

/-- The data of a block command may be written with Relaxed Ordering (R150). -/
theorem writeHost_block {i : Item} (block : isBlockCmd (Entry.opcode i.entry) = true) (segs : List Nat) (p : Payload) (s : State) :
    writeHost i segs p s = post (.hostData i.q (Entry.cid i.entry) p s.pcie.host.relaxed ((i.pieces segs).flatMap (cut (min s.pcie.host.mps 512)))) s := by
  unfold writeHost
  rw [block, Bool.and_true]

/-- Settles O27: the data of a write by what placement leaves (`held`), of a merge by the reads that are listed, of a read by `deliverRead_eq`. -/
theorem dataMovesWithTheHost : Obligations.DataMovesWithTheHost := by
  refine ⟨?accepted, ?merged, ?waits, ?refused, ?lastRead, ?misfit, ?delivered, ?undelivered, ?opened⟩
  case accepted =>
    intro s i p data segs on live items host wait first op part fit space allows whole
    have w : WriteWaits s i := ⟨on, live, items, host, wait, first, op⟩
    obtain ⟨nib, map, health, out, kept⟩ := placed_frame { i with resClaim := 0, hairClaim := 0 }
      (dataTaken s i p data [.hostRead i.q ((i.pieces segs).flatMap (cut s.readMax))])
    simp only [held, Prod.mk.injEq] at kept
    obtain ⟨pages, -, claimed, staged⟩ := kept
    have row := w.takes data fit space allows
    rw [takeData_eq part, if_pos whole, acceptData_eq] at row
    refine ⟨_, row.trans (apply_ite (fun t => Host.Outcome.next (settleUp t)) _ _ _), ?_, claimed, by rw [health]; rfl,
      staged.trans (List.map_append ..), map, pages, out⟩
    rw [nib]
    exact setItem_only items rfl
  case merged =>
    intro s i p data segs on live items host wait first op part fit space allows partly
    have w : WriteWaits s i := ⟨on, live, items, host, wait, first, op⟩
    obtain ⟨left, res, map, log, out, lists⟩ := startMerge_spec (i := { i with resClaim := 0, hairClaim := 0 }) (l := s.mergeBlocks i p)
      (s := dataTaken s i p data [.hostRead i.q ((i.pieces segs).flatMap (cut s.readMax))]) (setItem_only items rfl)
    have row := w.takes data fit space allows
    rw [takeData_eq part, if_neg partly] at row
    exact ⟨_, row, left, by rw [res]; rfl, by rw [res]; rfl, lists, map, log, out⟩
  case waits =>
    intro s i data segs on live items host wait first op fit full
    exact WriteWaits.waits ⟨on, live, items, host, wait, first, op⟩ data fit full
  case refused =>
    intro s i data segs on live items host wait first op fit space refuses unack stop
    have w : WriteWaits s i := ⟨on, live, items, host, wait, first, op⟩
    obtain ⟨u, stops, flt, aon, health, rfl, b, rest, blotter, fields⟩ := gateStops_heads (s := { s with out := [] })
      ⟨on, live, items, host, wait, first, op⟩ unack stop
    have row := w.stops data fit space refuses
    rw [stops] at row
    obtain ⟨cls, level, source, detail⟩ := fields
    exact ⟨_, b, rest, row, blotter, cls, level, source, detail, rfl, rfl, rfl⟩
  case lastRead =>
    intro s id dec n r i on there reads named staged open_ bad step sure use few cls unack items ruling wait op durable early
    subst named
    have row := exec_lastRead on there reads staged open_ bad step sure use few cls unack
    have none_ : (dropRd r.id { s with out := [] }).dies.reads = [] := by simp [dropRd, reads]
    have early' : (dropRd r.id { s with out := [] }).afterWarning i.ruling = false := early
    have completes : ¬ (Entry.durable i.entry = true ∨ (dropRd r.id { s with out := [] }).afterWarning i.ruling = true) := by simp [durable, early']
    rw [← ruling, mergeDone_accepts (s := dropRd r.id { s with out := [] }) (item?_only items) wait none_ op, acceptData_eq, if_neg completes] at row
    obtain ⟨nib, map, -, -, kept⟩ := placed_frame i (dropRd r.id { s with out := [] })
    simp only [held, Prod.mk.injEq] at kept
    obtain ⟨-, left, -, tags⟩ := kept
    refine ⟨_, row, left.trans none_, ?_, map, tags⟩
    rw [nib]
    exact setItem_only items rfl
  case misfit =>
    intro s i data segs on live items host wait first op segmented sum
    exact WriteWaits.misfits ⟨on, live, items, host, wait, first, op⟩ data segs (segmentsFit_false segmented sum)
  case delivered =>
    intro s i p segs on live found host wait op closed part fit
    have row := exec_readDataDelivered i.ruling segs on live
    have block : isBlockCmd (Entry.opcode i.entry) = true := by rcases op with op | op | op <;> rw [op] <;> rfl
    rw [deliverRead_eq (s := { s with out := [] }) segs found host wait op closed part, if_pos fit, writeHost_block block] at row
    exact row
  case undelivered =>
    intro s i p segs on live found host wait op closed part segmented sum
    have row := exec_readDataDelivered i.ruling segs on live
    have read : isReadOp (Entry.opcode i.entry) := op.imp_right .inr
    rw [deliverRead_eq (s := { s with out := [] }) segs found host wait op closed part, if_neg (by simp [segmentsFit_false segmented sum]),
      failData_read read (by omega) host] at row
    exact row
  case opened =>
    intro s i segs found opened
    by_cases live : (s.running && !s.nib.stopped) = true
    · refine (work_onlyIf_true live).trans (congrArg (Host.Outcome.next ∘ settleUp) ?_)
      exact deliverRead_open (s := { s with out := [] }) segs found opened
    · exact work_onlyIf_false (Bool.eq_false_iff.2 live)

end Sys2Proof.Proofs
end

section
/-! O6. The next ruling through every step of a module that runs (R177). -/

namespace Sys2Proof.Proofs

open Sys2Proof Sys2Proof.Machine Sys2Proof.Laws

/-- A row that meets a module that runs leads to a state that `Ok` allows, a reset release too: it finds no start that waits for it. -/
theorem exec_ok_of_running {c : Instr} {s t : State} (run : s.running = true) (e : exec c s = .next t) : Ok s t := by
  by_cases release : ∃ high cores decoders, c = .resetRelease high cores decoders
  · obtain ⟨high, cores, decoders, rfl⟩ := release
    have phase : s.rst.phase = .run := of_decide_eq_true run
    have late : decide (s.rst.phase = .waitRelease) = false := by rw [phase]; rfl
    change execResetRelease high cores decoders s = _ at e
    rw [execResetRelease_eq, answer_onlyIf_false late] at e
    cases e
    exact out_ok [] (Ok.refl s)
  · exact exec_ok c (fun high cores decoders h => release ⟨high, cores, decoders, h⟩) (Ok.refl s) t e

/-- A step of a module that runs leads to a state that `Ok` allows. -/
theorem step_ok_of_running {s t : State} (run : s.running = true) (e : step s = .next t) : Ok s t := by
  unfold step at e
  split at e
  · cases e
    exact passMillisecond_ok (out_ok [] (Ok.refl s))
  · next c rest _ =>
    have queue : Ok s { s with pending := rest } := (Ok.refl s).upd rfl
    exact queue.trans (exec_ok_of_running (s := { s with pending := rest }) run e)

/-- Settles O6: `Ok` orders the rulings of a run, and soundness keeps the outstanding ones below the next. -/
theorem rulingsNeverGoBack : Obligations.RulingsNeverGoBack := by
  intro s t sound run run' e
  have ok := step_ok_of_running run e
  have after := ok.sound sound
  obtain ⟨-, order⟩ := ok.rulings (of_decide_eq_true run')
  exact ⟨order, after.rulings, Nat.ne_of_gt after.first⟩

end Sys2Proof.Proofs
end

section
/-! O8. The rows of Table 08-1: each is the ruling of the entry at the front of a ring, and leaves alone what is no business of a host command (R177, R201). -/

namespace Sys2Proof.Proofs

open Sys2Proof Sys2Proof.Machine Sys2Proof.Laws

/-- The ruling of the entry at the front of a ring is calm, whatever becomes of the entry. -/
theorem ruleFront_cl {a s : State} (q : Nat) (kind : Entry → Bool) (g : Given) (h : Calm a s) : Calm a (ruleFront q kind g s) := by
  unfold ruleFront
  split
  · exact h
  · split
    · exact h
    split
    · exact stall_cl _ h
    split
    · exact h
    · exact settleUp_cl (rule_cl _ _ _ _ _ (h.upd rfl))

/-- A row of Table 08-1 rules the entry at the front of its ring, where that entry is of the row's kind. -/
theorem exec_hostRow {c : Instr} {q : Nat} {kind : Entry → Bool} {s : State} (row : s.hostRow c = some (q, kind)) :
    exec c s = answer s (ruleFront q kind (rowGiven c)) := by
  cases c <;> simp only [State.hostRow, Option.some.injEq, Prod.mk.injEq, reduceCtorEq] at row <;> obtain ⟨rfl, rfl⟩ := row <;> rfl

/-- Settles O8: each row is the ruling of an entry, which is calm. -/
theorem hostCommandsLeaveTheMachineAlone : Obligations.HostCommandsLeaveTheMachineAlone := by
  intro c s t row e
  obtain ⟨⟨q, kind⟩, row⟩ := Option.isSome_iff_exists.1 row
  rw [exec_hostRow row] at e
  cases e
  have calm := (ruleFront_cl (s := { s with out := [] }) q kind (rowGiven c) ((Calm.refl s).upd rfl)).eq
  simp only [Laws.inner, Prod.mk.injEq] at calm
  obtain ⟨⟨unit, rst, strap, dbg⟩, drawn, pending, counts, dies, channels⟩ := calm
  exact ⟨unit, rst, strap, dbg, drawn, pending, counts, dies, channels⟩

end Sys2Proof.Proofs
end

section
/-! O24. The completion queue (R148, R159, R168): what a completion sends, and the tail and the phase of its pair after any number of them. -/

namespace Sys2Proof.Proofs

open Sys2Proof Sys2Proof.Machine Sys2Proof.Laws

/-! ## What a completion sends, and what it does to its ring -/

/-- What the module sends: at once, or into the transmit path while Bus Master is 0 (R148). -/
def sent (s : State) : List Out := if s.busMaster = true then s.out else s.pcie.tx

theorem sent_out (o : List Out) (s : State) : sent { s with out := o } = if s.busMaster = true then o else s.pcie.tx := rfl

/-- What the writing of completion entries and messages touches. -/
structure Posted (a t : State) : Prop where
  eq : ∃ out tx pending, t = { a with out := out, pcie := { a.pcie with tx := tx, msixPending := pending } }
  sent : ∃ m, sent t = sent a ++ m

theorem Posted.busMaster {a t : State} (h : Posted a t) : t.busMaster = a.busMaster := by
  obtain ⟨_, _, _, rfl⟩ := h.eq
  rfl

theorem post_sent (o : Out) (s : State) : sent (post o s) = sent s ++ [o] := by
  unfold post sent
  by_cases master : s.busMaster = true
  · rw [if_pos master, if_pos master]
    exact if_pos master
  · rw [if_neg master, if_neg master]
    exact if_neg master

theorem post_posted (o : Out) (s : State) : Posted s (post o s) := by
  refine ⟨?_, [o], post_sent o s⟩
  unfold post
  split
  · exact ⟨_, s.pcie.tx, s.pcie.msixPending, rfl⟩
  · exact ⟨s.out, _, s.pcie.msixPending, rfl⟩

theorem Posted.refl (s : State) : Posted s s := ⟨⟨s.out, s.pcie.tx, s.pcie.msixPending, rfl⟩, [], (List.append_nil _).symm⟩

theorem sendMsix_posted (v : Nat) (s : State) : Posted s (sendMsix v s) := by
  unfold sendMsix
  split
  · exact .refl s
  split
  · exact ⟨⟨s.out, s.pcie.tx, _, rfl⟩, [], (List.append_nil _).symm⟩
  split
  · exact .refl s
  · exact post_posted _ s

/-- The pair after a completion entry: its tail on the next slot, its phase turned where the ring begins again (R168). -/
def nextSlot (p : Pair) : Pair :=
  { p with cqTail := if p.cqTail + 1 = p.cqSize then 0 else p.cqTail + 1, phase := p.phase != decide (p.cqTail + 1 = p.cqSize) }

theorem pair?_modPair_other {f : Pair → Pair} (keeps : ∀ p : Pair, (f p).id = p.id) {q r : Nat} (other : r ≠ q) (s : State) :
    (modPair q f s).pair? r = s.pair? r := by
  unfold State.pair? modPair mapIf
  dsimp only
  induction s.nib.pairs with
  | nil => rfl
  | cons p l ih =>
    have same : (if decide (p.id = q) = true then f p else p).id = p.id := by split <;> simp [keeps]
    rw [List.map_cons, List.find?_cons, List.find?_cons, same]
    by_cases here : p.id = r
    · have away : ¬ r = q := other
      simp [here, away]
    · rw [decide_eq_false here]
      exact ih

/-- A completion of a pair writes its entry at the tail, moves the tail on, and then sends the message of its vector (R159, R168). -/
theorem postCompletion_eq {s : State} {q : Nat} {p : Pair} (found : s.pair? q = some p) (cid result ruling status : Nat) :
    ∃ out tx pending pairs m, postCompletion q cid result ruling status s
      = { s with out := out, pcie := { s.pcie with tx := tx, msixPending := pending }, nib := { s.nib with pairs := pairs } }
    ∧ sent (postCompletion q cid result ruling status s)
      = sent s ++ .completion (p.cqBase + 16 * p.cqTail) (completionEntry result ruling p.head q cid p.phase status) :: m
    ∧ (postCompletion q cid result ruling status s).pair? q = some (nextSlot p)
    ∧ ∀ r, r ≠ q → (postCompletion q cid result ruling status s).pair? r = s.pair? r := by
  unfold postCompletion
  rw [found]
  dsimp only
  generalize entry : Out.completion (p.cqBase + 16 * p.cqTail) (completionEntry result ruling p.head q cid p.phase status) = c
  generalize moved : (fun x : Pair => { x with
    cqTail := if p.cqTail + 1 = p.cqSize then 0 else x.cqTail + 1, phase := x.phase != decide (p.cqTail + 1 = p.cqSize) }) = move
  have keeps : ∀ x : Pair, (move x).id = x.id := fun _ => by rw [← moved]
  obtain ⟨out, tx, pending, written⟩ := (post_posted c s).eq
  obtain ⟨out', tx', pending', told⟩ := (sendMsix_posted p.vector (modPair q move (post c s))).eq
  obtain ⟨m, more⟩ := (sendMsix_posted p.vector (modPair q move (post c s))).sent
  have pairs : ∀ r, (sendMsix p.vector (modPair q move (post c s))).pair? r = (modPair q move (post c s)).pair? r := fun r => by rw [told]; rfl
  have before : ∀ r, (post c s).pair? r = s.pair? r := fun r => by rw [written]; rfl
  refine ⟨out', tx', pending', mapIf (fun x => x.id = q) move s.nib.pairs, m, ?_, ?_, ?_, fun r other => ?_⟩
  · rw [told, written]
    rfl
  · rw [more, show sent (modPair q move (post c s)) = sent (post c s) from rfl, post_sent, List.append_assoc]
    rfl
  · rw [pairs, pair?_modPair keeps, before, found, ← moved]
    rfl
  · rw [pairs, pair?_modPair_other keeps other, before]

theorem completionEntry_phase (result ruling head q cid status : Nat) (phase : Bool) :
    (completionEntry result ruling head q cid phase status).getLsbD 112 = phase := by
  unfold completionEntry
  rw [BitVec.getLsbD_ofNat, Nat.testBit_eq_decide_div_mod_eq]
  cases phase <;> simp only [flag] <;> simp <;> omega

/-- Where n completions have been posted, the tail stands n slots on, and Phase is 1 in every other pass. -/
def afterPosts (n : Nat) (p : Pair) : Pair := { p with cqTail := n % p.cqSize, phase := decide (n / p.cqSize % 2 = 0) }

theorem nextSlot_afterPosts {p : Pair} (room : 1 ≤ p.cqSize) (n : Nat) : nextSlot (afterPosts n p) = afterPosts (n + 1) p := by
  have parts := Nat.div_add_mod n p.cqSize
  have below := Nat.mod_lt n room
  unfold nextSlot afterPosts
  dsimp only
  by_cases wraps : n % p.cqSize + 1 = p.cqSize
  · have whole : n + 1 = p.cqSize * (n / p.cqSize + 1) := by rw [Nat.mul_add, Nat.mul_one]; omega
    have turned : (decide (n / p.cqSize % 2 = 0) != true) = decide ((n / p.cqSize + 1) % 2 = 0) := by
      rcases Nat.mod_two_eq_zero_or_one (n / p.cqSize) with even | odd <;> simp [Nat.add_mod, *]
    rw [if_pos wraps, decide_eq_true wraps, turned, whole, Nat.mul_mod_right, Nat.mul_div_cancel_left _ room]
  · have part : n + 1 = p.cqSize * (n / p.cqSize) + (n % p.cqSize + 1) := by omega
    have inside : n % p.cqSize + 1 < p.cqSize := by omega
    rw [if_neg wraps, decide_eq_false wraps, Bool.bne_false, part, Nat.mul_add_mod, Nat.mod_eq_of_lt inside, Nat.mul_add_div room, Nat.div_eq_of_lt inside]
    rfl

theorem foldl_postCompletion_pair {q : Nat} {p : Pair} (room : 1 ≤ p.cqSize) (l : List (Nat × Nat × Nat × Nat)) (n : Nat) {s : State}
    (found : s.pair? q = some (afterPosts n p)) :
    (l.foldl (fun s x => postCompletion q x.1 x.2.1 x.2.2.1 x.2.2.2 s) s).pair? q = some (afterPosts (n + l.length) p) := by
  induction l generalizing s n with
  | nil => exact found
  | cons x l ih =>
    obtain ⟨-, -, -, -, -, -, -, next, -⟩ := postCompletion_eq found x.1 x.2.1 x.2.2.1 x.2.2.2
    rw [nextSlot_afterPosts room] at next
    rw [List.foldl_cons, ih (n + 1) next, List.length_cons]
    congr 2
    omega

/-- Settles O24: the first completion by what it writes and where it leaves its pair, any number of them by induction from any slot of the ring. -/
theorem phaseAlternatesWithEachPass : Obligations.PhaseAlternatesWithEachPass := by
  refine ⟨fun _ _ _ => ⟨rfl, rfl, rfl, rfl⟩, ?phase, ?entry, ?passes⟩
  case phase => exact fun result ruling head q cid status phase => completionEntry_phase result ruling head q cid status phase
  case entry =>
    intro s q cid result ruling status p found
    obtain ⟨out, tx, pending, pairs, m, posted, written, -⟩ := postCompletion_eq found cid result ruling status
    have master : (postCompletion q cid result ruling status s).busMaster = s.busMaster := by rw [posted]; rfl
    refine ⟨m, ?_⟩
    unfold sent at written
    rw [master] at written
    exact written
  case passes =>
    intro s q p l found room phase tail
    have start : s.pair? q = some (afterPosts 0 p) := by
      rw [found]
      unfold afterPosts
      rw [Nat.zero_mod, Nat.zero_div, decide_eq_true (Nat.zero_mod 2)]
      cases p
      cases phase
      cases tail
      rfl
    simpa [afterPosts] using foldl_postCompletion_pair room l 0 start

end Sys2Proof.Proofs
end

section
/-! O25. The completion of a command (R189, R190, R222): the error log entry and the frozen ring of a failure, and the rings that a completion leaves alone. -/

namespace Sys2Proof.Proofs

open Sys2Proof Sys2Proof.Machine Sys2Proof.Laws

/-! ## The completion of a host's command (R189, R190) -/

/-- The state in which the command is counted, and logged where it fails. -/
def noted (e : Ending) (f : Fail) (s : State) : State :=
  { (if f.status = 0 then s else logError (e.err f) s) with
    health := { s.health with commands := sat 64 (s.health.commands + 1)
                              uncorrectable := sat 32 (s.health.uncorrectable + (if f.status = 0x0B then 1 else 0)) } }

/-- The pair of the command once its failure has frozen the ring; a frozen ring keeps its freezing entry. -/
def frozenBy (e : Ending) (f : Fail) (p : Pair) : Pair :=
  if f.status ≠ 0 ∧ e.freezes = true then { p with frozen := p.frozen.or (some e.slot) } else p

theorem complete_host {e : Ending} (host : e.narrow = false) (f : Fail) (result : Nat) (s : State) : complete e f result s
    = actUpdate (postCompletion e.q (Entry.cid e.entry) result e.ruling f.status
        (if f.status ≠ 0 ∧ e.freezes = true then freezeRing e.q e.slot (noted e f s) else noted e f s)) := by
  unfold complete noted
  rw [host]
  split <;> rfl

theorem complete_task {e : Ending} (narrow : e.narrow = true) (f : Fail) (result : Nat) (s : State) :
    complete e f result s = actUpdate (completeTask e f.status result (noted e f s)) := by
  unfold complete noted
  rw [narrow]
  split <;> rfl

theorem noted_pair? (e : Ending) (f : Fail) (s : State) (q : Nat) : (noted e f s).pair? q = s.pair? q := by
  unfold noted
  split <;> rfl

theorem noted_sent (e : Ending) (f : Fail) (s : State) : sent (noted e f s) = sent s := by
  unfold noted
  split <;> rfl

theorem frozen_pair? (e : Ending) (f : Fail) (s : State) :
    (if f.status ≠ 0 ∧ e.freezes = true then freezeRing e.q e.slot s else s).pair? e.q = (s.pair? e.q).map (frozenBy e f) := by
  unfold frozenBy
  by_cases fails : f.status ≠ 0 ∧ e.freezes = true
  · simp only [if_pos fails]
    exact pair?_modPair (f := fun p => { p with frozen := p.frozen.or (some e.slot) }) (fun _ => rfl) e.q s
  · simp only [if_neg fails]
    exact Option.map_id'.symm

theorem frozen_pair?_other (e : Ending) (f : Fail) (s : State) {q : Nat} (other : q ≠ e.q) :
    (if f.status ≠ 0 ∧ e.freezes = true then freezeRing e.q e.slot s else s).pair? q = s.pair? q := by
  split
  · exact pair?_modPair_other (f := fun p => { p with frozen := p.frozen.or (some e.slot) }) (fun _ => rfl) other s
  · rfl

theorem actUpdate_pair? (s : State) (q : Nat) : (actUpdate s).pair? q = s.pair? q := by
  obtain ⟨_, e⟩ := actUpdate_eq s
  rw [e]
  rfl

/-- The error log and the health counters. -/
def records (s : State) : ErrLog × Health := (s.elog, s.health)

theorem records_actUpdate (s : State) : records (actUpdate s) = records s := by
  obtain ⟨_, e⟩ := actUpdate_eq s
  rw [e]
  rfl

theorem records_postCompletion (q cid result ruling status : Nat) (s : State) : records (postCompletion q cid result ruling status s) = records s := by
  cases found : s.pair? q with
  | none =>
    unfold postCompletion
    rw [found]
  | some p =>
    obtain ⟨_, _, _, _, _, posted, -⟩ := postCompletion_eq found cid result ruling status
    rw [posted]
    rfl

/-- A task's completion changes the narrow bus alone. -/
theorem completeTask_eq (e : Ending) (status result : Nat) (s : State) : ∃ nb, completeTask e status result s = { s with nb := nb } := ⟨_, rfl⟩

/-- A completion leaves the log and the counters as its noting leaves them. -/
theorem records_complete (e : Ending) (f : Fail) (result : Nat) (s : State) : records (complete e f result s) = records (noted e f s) := by
  cases host : e.narrow
  case false =>
    rw [complete_host host, records_actUpdate, records_postCompletion]
    generalize noted e f s = t
    split <;> rfl
  case true =>
    obtain ⟨nb, shown⟩ := completeTask_eq e f.status result (noted e f s)
    rw [complete_task host, records_actUpdate, shown]
    rfl

/-- What a completion without success adds to the error log (R190, R222). -/
theorem complete_elog {f : Fail} (failed : f.status ≠ 0) (e : Ending) (result : Nat) (s : State) :
    (complete e f result s).elog = (logError (e.err f) s).elog := by
  refine (congrArg Prod.fst (records_complete e f result s)).trans ?_
  unfold records noted
  rw [if_neg failed]

theorem complete_elog_of_success {f : Fail} (ok : f.status = 0) (e : Ending) (result : Nat) (s : State) : (complete e f result s).elog = s.elog := by
  refine (congrArg Prod.fst (records_complete e f result s)).trans ?_
  unfold records noted
  rw [if_pos ok]

theorem complete_commands (e : Ending) (f : Fail) (result : Nat) (s : State) :
    (complete e f result s).health.commands = sat 64 (s.health.commands + 1) := by
  refine (congrArg (fun r => r.2.commands) (records_complete e f result s)).trans ?_
  unfold records noted
  split <;> rfl

section
variable {e : Ending} (host : e.narrow = false) {s : State} {p : Pair} (found : s.pair? e.q = some p) (f : Fail) (result : Nat)
include host found

/-- A command of the host completes at its pair's tail, and its failure freezes the ring. -/
theorem complete_pair : (∃ m, sent (complete e f result s)
      = sent s ++ .completion (p.cqBase + 16 * p.cqTail) (completionEntry result e.ruling p.head e.q (Entry.cid e.entry) p.phase f.status) :: m)
    ∧ (complete e f result s).pair? e.q = some (nextSlot (frozenBy e f p)) ∧ (complete e f result s).busMaster = s.busMaster := by
  have here : (if f.status ≠ 0 ∧ e.freezes = true then freezeRing e.q e.slot (noted e f s) else noted e f s).pair? e.q = some (frozenBy e f p) := by
    rw [frozen_pair?, noted_pair?, found]
    rfl
  obtain ⟨_, _, _, _, m, posted, written, own, -⟩ := postCompletion_eq here (Entry.cid e.entry) result e.ruling f.status
  have before : sent (if f.status ≠ 0 ∧ e.freezes = true then freezeRing e.q e.slot (noted e f s) else noted e f s) = sent s := by
    rw [← noted_sent e f s]
    split <;> rfl
  have slot : (frozenBy e f p).cqBase = p.cqBase ∧ (frozenBy e f p).cqTail = p.cqTail ∧ (frozenBy e f p).head = p.head ∧ (frozenBy e f p).phase = p.phase := by
    unfold frozenBy
    split <;> exact ⟨rfl, rfl, rfl, rfl⟩
  obtain ⟨base, tail, head, phase⟩ := slot
  rw [complete_host host]
  have master : (noted e f s).busMaster = s.busMaster := by
    unfold noted
    split <;> rfl
  refine ⟨⟨m, ?_⟩, (actUpdate_pair? _ _).trans own, ?_⟩
  case refine_2 =>
    obtain ⟨_, acts⟩ := actUpdate_eq (postCompletion e.q (Entry.cid e.entry) result e.ruling f.status
      (if f.status ≠ 0 ∧ e.freezes = true then freezeRing e.q e.slot (noted e f s) else noted e f s))
    rw [acts, posted, ← master]
    split <;> rfl
  obtain ⟨_, acts⟩ := actUpdate_eq (postCompletion e.q (Entry.cid e.entry) result e.ruling f.status
    (if f.status ≠ 0 ∧ e.freezes = true then freezeRing e.q e.slot (noted e f s) else noted e f s))
  rw [acts]
  rw [before, base, tail, head, phase] at written
  exact written

end

/-- A completion leaves the rings of other pairs alone, and a task's completion every ring. -/
theorem complete_pair?_other {e : Ending} {q : Nat} (other : q ≠ e.q ∨ e.narrow = true) (f : Fail) (result : Nat) (s : State) :
    (complete e f result s).pair? q = s.pair? q := by
  cases host : e.narrow
  case false =>
    have away : q ≠ e.q := other.resolve_right (by simp [host])
    have kept := (frozen_pair?_other e f (noted e f s) away).trans (noted_pair? e f s q)
    rw [complete_host host, actUpdate_pair?]
    generalize (if f.status ≠ 0 ∧ e.freezes = true then freezeRing e.q e.slot (noted e f s) else noted e f s) = t at kept
    cases found : t.pair? e.q with
    | none =>
      unfold postCompletion
      rw [found]
      exact kept
    | some p =>
      obtain ⟨_, _, _, _, _, -, -, -, others⟩ := postCompletion_eq found (Entry.cid e.entry) result e.ruling f.status
      exact (others q away).trans kept
  case true =>
    obtain ⟨nb, shown⟩ := completeTask_eq e f.status result (noted e f s)
    rw [complete_task host, actUpdate_pair?, shown]
    exact noted_pair? e f s q

theorem fetchable_of_frozen {p : Pair} (h : p.frozen.isSome = true) (s : State) : s.fetchable p = false := by
  unfold State.fetchable
  rw [Option.isNone_eq_false_iff.2 h]
  rfl

/-- Settles O25: a failure by what it notes and what it makes of its pair, a success by the same lemmas, with nothing logged and nothing frozen. -/
theorem failuresAreLoggedAndFreezeTheRing : Obligations.FailuresAreLoggedAndFreezeTheRing := by
  refine ⟨?failure, ?success, ?others, ?frame⟩
  case failure =>
    intro s e f r p failed host freezes found
    obtain ⟨-, own, -⟩ := complete_pair host found f r
    have holds : (nextSlot (frozenBy e f p)).frozen = p.frozen.or (some e.slot) := by
      unfold nextSlot frozenBy
      rw [if_pos ⟨failed, freezes⟩]
    refine ⟨⟨_, complete_elog failed e r s, rfl, congrArg (· % 256) (Nat.add_sub_cancel ..), rfl, rfl, rfl, rfl, rfl, rfl, rfl, rfl, rfl⟩, _, own, ?_,
      fetchable_of_frozen ?_ _⟩
    · rw [holds]
      cases p.frozen <;> rfl
    · rw [holds]
      cases p.frozen <;> rfl
  case success =>
    intro s e f r ok
    refine ⟨complete_elog_of_success ok e r s, fun q p found => ?_⟩
    by_cases other : q ≠ e.q ∨ e.narrow = true
    · exact ⟨p, (complete_pair?_other other f r s).trans found, rfl⟩
    · obtain ⟨rfl, host⟩ : q = e.q ∧ e.narrow = false := by simpa using other
      refine ⟨_, (complete_pair host found f r).2.1, ?_⟩
      unfold nextSlot frozenBy
      rw [if_neg fun h => h.1 ok]
  case others => exact fun s e f r q other => complete_pair?_other (.inl other) f r s
  case frame =>
    intro s e f r
    have counts := complete_commands e f r s
    obtain ⟨_, _, _, _, _, _, _, answered⟩ := complete_answered e f r s
    rw [answered] at counts ⊢
    exact ⟨rfl, rfl, rfl, rfl, rfl, rfl, rfl, rfl, rfl, counts⟩

end Sys2Proof.Proofs
end

section
/-! O18. The resume of pair 0 by its doorbell (R192), and the field check of the command table (R181). -/

namespace Sys2Proof.Proofs

open Sys2Proof Sys2Proof.Machine Sys2Proof.Laws

/-! ## The lowest offending field -/

theorem lowestFrom_isSome {cs : List Check} {acc : Option Nat} (h : acc.isSome = true ∨ ∃ c ∈ cs, c.2 = true) :
    (cs.foldl (fun acc c => if c.2 then (match acc with | some o => some (min o c.1) | none => some c.1) else acc) acc).isSome = true := by
  induction cs generalizing acc with
  | nil => simpa using h
  | cons c cs ih =>
    refine ih ?_
    cases fails : c.2
    · simp only [fails, Bool.false_eq_true, ↓reduceIte]
      rcases h with found | ⟨c', listed, fails'⟩
      · exact .inl found
      · refine .inr ⟨c', (List.mem_cons.1 listed).resolve_left ?_, fails'⟩
        rintro rfl
        rw [fails] at fails'
        cases fails'
    · simp only [fails, ↓reduceIte]
      left
      cases acc <;> rfl

/-- A field at fault is found. -/
theorem lowest_isSome {cs : List Check} {c : Check} (listed : c ∈ cs) (fails : c.2 = true) : (lowest cs).isSome = true :=
  lowestFrom_isSome (.inr ⟨c, listed, fails⟩)

/-- A command that the start mode and the opcode table take, with a field at fault, fails the field check (R181). -/
theorem checkEarly_fields {s : State} {narrow : Bool} {q : Nat} {e : Entry} {i : CmdInfo} (normal : s.recovery = false) (match_ : s.mismatch = false)
    (allowed : s.opcodeAllowed narrow q e = true) (info : cmdInfo (Entry.opcode e) = some i) {c : Check} (listed : c ∈ commandChecks s narrow 8192 e)
    (fails : c.2 = true) : ∃ f, s.checkEarly narrow q e = some f ∧ f.status = 2 := by
  obtain ⟨o, found⟩ := Option.isSome_iff_exists.1 (lowest_isSome (List.mem_append_right (sharedChecks narrow e i) listed) fails)
  refine ⟨{ Fail.of 2 with detail := o }, ?_, rfl⟩
  unfold State.checkEarly
  simp only [normal, match_, allowed, info, found, Bool.false_and, Bool.not_true, Bool.false_eq_true, ↓reduceIte]
  rfl

/-! ## The doorbell of pair 0 -/

/-- Two updates of one pair are the update by both. -/
theorem modPair_modPair {q : Nat} (f g : Pair → Pair) (s : State) (kept : ∀ x, (g x).id = x.id) :
    modPair q f (modPair q g s) = modPair q (fun x => f (g x)) s := by
  have both : mapIf (fun x : Pair => x.id = q) f (mapIf (fun x : Pair => x.id = q) g s.nib.pairs)
      = mapIf (fun x : Pair => x.id = q) (fun x => f (g x)) s.nib.pairs := by
    unfold mapIf
    rw [List.map_map]
    refine List.map_congr_left fun x _ => ?_
    by_cases own : x.id = q <;> simp [own, kept]
  unfold modPair
  rw [both]

/-- PAIR0_RESUME_DOORBELL is the tail doorbell of pair 0 with Resume set. -/
theorem exec_pair0ResumeDoorbell {s : State} (open_ : s.barOpen = true) (v : BitVec 32) :
    exec (.pair0ResumeDoorbell v) s = .next (tailDoorbell 0 (v ||| 0x80000000) { s with out := [] }) := answer_barAccess_open open_

theorem resume_index (v : BitVec 32) : ((v ||| 0x80000000).extractLsb' 0 16).toNat = (v.extractLsb' 0 16).toNat := by
  congr 1
  ext k hk
  have low : (0x80000000#32).getLsbD k = false := by
    have : k < 16 := hk
    interval_cases k <;> rfl
  simp [low]

/-- The tail of pair 0 is taken, and with it the resume of a frozen ring, its freezing entry retried or skipped (R192). -/
theorem tailDoorbell_resume {s : State} {v : BitVec 32} {p : Pair} (pair : s.pair? 0 = some p) (inside : (v.extractLsb' 0 16).toNat < p.sqSize) :
    tailDoorbell 0 (v ||| 0x80000000) s = if p.frozen.isSome = true
      then resumePair 0 (v.getLsbD 30) (modPair 0 (fun p => { p with tail := (v.extractLsb' 0 16).toNat }) (touch s))
      else modPair 0 (fun p => { p with tail := (v.extractLsb' 0 16).toNat }) (touch s) := by
  have resume : bit (v ||| 0x80000000).toNat 31 = true := by rw [← getLsbD_eq_bit]; simp
  have skip : bit (v ||| 0x80000000).toNat 30 = v.getLsbD 30 := by rw [← getLsbD_eq_bit]; simp
  unfold tailDoorbell
  rw [pair]
  simp only [doorbell_index, resume_index, Nat.not_le.2 inside, ↓reduceIte, resume, skip, decide_true, Bool.true_and]

/-- Settles O18: the field check of Resume Queue, and the doorbell by whether pair 0 is frozen. -/
theorem pairZeroIsResumedByItsDoorbell : Obligations.PairZeroIsResumedByItsDoorbell := by
  refine ⟨?names, ?frozen, ?open_⟩
  case names =>
    intro s e op zero normal match_
    have allowed : s.opcodeAllowed false 0 e = true := by
      unfold State.opcodeAllowed
      rw [op]
      rfl
    refine checkEarly_fields normal match_ allowed (by rw [op]; rfl) (c := (0x2C, Entry.h2C e = 0 || Entry.h2C e > 2047)) ?_ (by simp [zero])
    unfold commandChecks
    rw [op]
    exact List.mem_cons_self
  case frozen =>
    intro s v p k open_ pair frozen inside
    rw [exec_pair0ResumeDoorbell open_, tailDoorbell_resume (s := { s with out := [] }) pair inside, if_pos (by rw [frozen]; rfl)]
    unfold resumePair
    rw [modPair_modPair, modPair_touch]
    exact fun _ => rfl
  case open_ =>
    intro s v p open_ pair thawed inside
    rw [exec_pair0ResumeDoorbell open_, tailDoorbell_resume (s := { s with out := [] }) pair inside, thawed, if_neg (by simp), modPair_touch]

end Sys2Proof.Proofs
end

section
/-! O23. Commands that fail a check of Table 07-6: the failed command is ruled, logged and completed, and nothing else moves (R181, R190). -/

namespace Sys2Proof.Proofs

open Sys2Proof Sys2Proof.Machine Sys2Proof.Laws

/-! ## Commands that fail a check (R181) -/

/-- The newest error log entry is the failure's, with what it says of its command (R190). -/
theorem complete_logs {f : Fail} (failed : f.status ≠ 0) (e : Ending) (result : Nat) (s : State) : ∃ x l,
    (complete e f result s).elog.list = x :: l ∧ x.status = f.status ∧ x.ruling = e.ruling ∧ x.q = e.q ∧ x.cid = Entry.cid e.entry
      ∧ x.pos = e.slot ∧ x.detail = f.detail ∧ x.opcode = Entry.opcode e.entry :=
  ⟨_, _, congrArg ErrLog.list (complete_elog failed e result s), rfl, rfl, rfl, rfl, rfl, rfl, rfl⟩

/-- The entry has left the fetched commands, its ruling is taken, and nothing else of note has moved. -/
theorem ruledBy_eq (s : State) (f : Fetched) : ∃ v e, s.ruledBy f = { s with
    out := [], nib := { s.nib with next := s.nib.next + 1, versions := v, epoch := e, fetched := s.nib.fetched.erase f }
    pwr := { s.pwr with entering4 := false } } := by
  obtain ⟨v, e, ruled, -⟩ := takeRuling_eq (Entry.opcode f.entry) { s with out := [], nib := { s.nib with fetched := s.nib.fetched.erase f } }
  exact ⟨v, e, ruled⟩

/-- A command whose opcode the pair does not take fails with invalid-opcode in a module that neither recovers nor stands with a mismatch. -/
theorem checkEarly_opcode {s : State} {narrow : Bool} {q : Nat} {e : Entry} (normal : s.recovery = false) (match_ : s.mismatch = false)
    (foreign : s.opcodeAllowed narrow q e = false) : s.checkEarly narrow q e = some (Fail.of 1) := by
  unfold State.checkEarly
  simp only [normal, match_, foreign, Bool.false_and, Bool.not_false, Bool.false_eq_true, ↓reduceIte]

theorem exec_fails {s : State} {c : Instr} {q : Nat} {f : Fetched} {x : Fail} (takes : s.Takes c q f) (rules : s.Rules q f)
    (fails : (s.ruledBy f).checkEarly false q f.entry = some x) :
    exec c s = .next (settleUp (complete (Ending.ofItem (s.ruledItem q f)) x 0 (s.ruledBy f))) := by
  obtain ⟨kind, row, taken⟩ := takes
  rw [exec_hostRow row, ← ruleFront_fails (g := rowGiven c) rules taken fails]
  rfl

theorem exec_late {s : State} {c : Instr} {q : Nat} {f : Fetched} {x : Fail} (takes : s.Takes c q f) (enters : s.Enters q f (rowGiven c))
    (fails : (s.listed q f (rowGiven c)).checkLate (s.ruledItem q f).well f.entry = some x) :
    exec c s = .next (settleUp (finish (s.listedItem q f (rowGiven c)) x 0 (s.listed q f (rowGiven c)))) := by
  obtain ⟨kind, row, taken⟩ := takes
  rw [exec_hostRow row, ← ruleFront_late enters taken fails]
  rfl

theorem ruledItem_well (s : State) (q : Nat) (f : Fetched) : (s.ruledItem q f).well = s.wellOf q := by
  unfold State.ruledItem State.newItem
  obtain ⟨_, _, ruled⟩ := ruledBy_eq s f
  rw [ruled]
  rfl

/-- Settles O23: the completion of a ruled entry by what a completion touches and logs; a late check fails after the entry has joined the nib, and it leaves
the nib again. -/
theorem failedChecksTakeNoEffect : Obligations.FailedChecksTakeNoEffect := by
  refine ⟨?early, ?opcode, ?late⟩
  case early =>
    intro s c q f x takes rules fails failed
    obtain ⟨e, l, list, status, ruling, pair, cid, pos, detail, opcode⟩ := complete_logs failed (Ending.ofItem (s.ruledItem q f)) 0 (s.ruledBy f)
    obtain ⟨v, n, ruled⟩ := ruledBy_eq s f
    refine ⟨_, e, l, exec_fails takes rules fails, list, status, ruling, pair, cid, pos, detail, opcode, ?_⟩
    have sends : ∀ p, s.pair? q = some p → ∃ m,
        (if s.busMaster = true then (complete (Ending.ofItem (s.ruledItem q f)) x 0 (s.ruledBy f)).out
          else (complete (Ending.ofItem (s.ruledItem q f)) x 0 (s.ruledBy f)).pcie.tx) = (if s.busMaster = true then [] else s.pcie.tx)
        ++ .completion (p.cqBase + 16 * p.cqTail) (completionEntry 0 s.nib.next p.head q (Entry.cid f.entry) p.phase x.status) :: m := by
      intro p found
      obtain ⟨⟨m, sends⟩, -, master⟩ := complete_pair (e := Ending.ofItem (s.ruledItem q f)) rfl (s := s.ruledBy f) (p := p) (by rw [ruled]; exact found) x 0
      have same : (s.ruledBy f).busMaster = s.busMaster := by rw [ruled]; rfl
      have before : sent (s.ruledBy f) = if s.busMaster = true then [] else s.pcie.tx := by rw [ruled]; rfl
      rw [before] at sends
      unfold sent at sends
      rw [master, same] at sends
      exact ⟨m, sends⟩
    obtain ⟨_, _, _, _, _, _, _, answered⟩ := complete_answered (Ending.ofItem (s.ruledItem q f)) x 0 (s.ruledBy f)
    rw [answered] at sends ⊢
    rw [ruled]
    exact ⟨rfl, rfl, rfl, sends, rfl, rfl, rfl, rfl, rfl, rfl, rfl, rfl, rfl⟩
  case opcode =>
    intro s q f rules foreign normal match_
    obtain ⟨v, n, ruled⟩ := ruledBy_eq s f
    have fails : (s.ruledBy f).checkEarly false q f.entry = some (Fail.of 1) := by
      rw [ruled]
      exact checkEarly_opcode normal match_ foreign
    have takes : s.Takes (.invalidOpcodeCommand q) q f := ⟨_, rfl, by rw [foreign]; rfl⟩
    obtain ⟨e, l, list, status, ruling, pair, -, pos, -, opcode⟩ := complete_logs (f := Fail.of 1) (by decide) (Ending.ofItem (s.ruledItem q f)) 0 (s.ruledBy f)
    refine ⟨_, e, l, exec_fails takes rules fails, list, status, ruling, pair, pos, opcode, ?_⟩
    obtain ⟨_, _, _, _, _, _, _, answered⟩ := complete_answered (Ending.ofItem (s.ruledItem q f)) (Fail.of 1) 0 (s.ruledBy f)
    rw [answered, ruled]
    exact ⟨rfl, rfl, rfl, rfl⟩
  case late =>
    intro s c q f x sound takes enters fails failed
    rw [← ruledItem_well s q f] at fails
    obtain ⟨e, l, list, status, ruling, pair, -, pos, -, -⟩ := complete_logs failed (Ending.ofItem (s.listedItem q f (rowGiven c))) 0
      (removeItem (s.listedItem q f (rowGiven c)) (x.status ≠ 0) (s.listed q f (rowGiven c)))
    obtain ⟨v, n, hd, joined, -, -⟩ := listed_eq s q f (rowGiven c)
    have leaves : (s.nib.items ++ [s.listedItem q f (rowGiven c)]).filter (fun i => i.ruling ≠ s.nib.next) = s.nib.items := filter_append_ruling sound.rulings rfl
    have ends : finish (s.listedItem q f (rowGiven c)) x 0 (s.listed q f (rowGiven c)) = complete (Ending.ofItem (s.listedItem q f (rowGiven c))) x 0
        (removeItem (s.listedItem q f (rowGiven c)) (x.status ≠ 0) (s.listed q f (rowGiven c))) := by
      unfold finish
      rw [if_neg failed]
    refine ⟨_, e, l, (exec_late takes enters fails).trans (by rw [ends]), list, status, ruling, pair, pos, ?_⟩
    obtain ⟨_, _, _, _, _, _, _, answered⟩ := complete_answered (Ending.ofItem (s.listedItem q f (rowGiven c))) x 0
      (removeItem (s.listedItem q f (rowGiven c)) (x.status ≠ 0) (s.listed q f (rowGiven c)))
    rw [answered, joined]
    unfold removeItem
    rw [if_pos (decide_eq_true failed)]
    exact ⟨rfl, leaves, rfl, rfl, rfl, rfl, rfl, rfl, rfl⟩

end Sys2Proof.Proofs
end

section
/-! O22. A write whose list was read wrong twice fails at its lock (R164, R184), which the clause on a granted lock leaves out. -/

namespace Sys2Proof.Proofs

open Sys2Proof Sys2Proof.Machine Sys2Proof.Laws

/-- A command whose list was read wrong twice fails once its lock is granted (R164, R184). -/
theorem exec_rangeLockGranted_reread {s : State} {i : Item} (running : s.running = true) (works : s.nib.stopped = false) (found : s.item? i.ruling = some i)
    (waits : i.wait = .lock) (free : s.granted i = true) (verdict : i.verdict = 0) (reread : 2 ≤ i.retries) :
    exec (.rangeLockGranted i.ruling) s = .next (settleUp (failData i Fail.hostTransfer { s with out := [] })) := by
  change execRangeLockGranted i.ruling s = _
  unfold execRangeLockGranted work answer
  have found' : State.item? { s with out := [] } i.ruling = some i := found
  have running' : State.running { s with out := [] } = true := running
  have free' : State.granted { s with out := [] } i = true := free
  simp only [found', running', works, waits, free', enterLock, begin, verdict, reread, decide_true, Bool.not_false, Bool.and_self, ↓reduceIte, ne_eq,
    not_true_eq_false, OfNat.zero_ne_ofNat]

/-- A write whose list was read wrong a second time before it waited for its lock (R164, R184). -/
def rereadWrite : Item :=
  { ruling := 1, narrow := false, q := 0, slot := 0, entry := 1, well := 0, epoch := 0, lock := none, past := false, wait := .lock, resClaim := 0
    hairClaim := 0, retries := 2, result := 0, verdict := 0, after := none, fast := false, segs := [] }

/-- A module that runs with that one command. -/
def rereadWaiting : State := { State.reset with rst := { Rst.init with phase := .run }, nib := { Nib.init with next := 2, items := [rereadWrite] } }

/-- The state that the clause on a granted lock gives. -/
def rereadGranted : State := { rereadWaiting with out := [], nib := { rereadWaiting.nib with items := [{ rereadWrite with wait := .data }] } }

/-- What the grant does in fact. -/
def rereadFailed : State := failData rereadWrite Fail.hostTransfer { rereadWaiting with out := [] }

theorem settled_rereadFailed : (settleUp rereadFailed).nib.items = [] := by decide +kernel

theorem settled_rereadGranted : (settleUp rereadGranted).nib.items ≠ [] := by decide

/-- Refutes O22: the clause on a granted lock holds no write free of a second failed read of its list; such a write fails and leaves the nib, where the clause
has it wait for its data. -/
theorem not_admissionTakesOneRulingOrStalls : ¬ Obligations.AdmissionTakesOneRulingOrStalls := by
  unfold Obligations.AdmissionTakesOneRulingOrStalls
  rintro ⟨-, -, -, granted, -⟩
  have given := granted rereadWaiting rereadWrite (by decide) rfl rfl rfl rfl (by decide +kernel) rfl rfl rfl
  rw [exec_rangeLockGranted_reread (by decide) rfl rfl rfl rfl rfl (by decide)] at given
  have same : settleUp rereadFailed = settleUp rereadGranted := Host.Outcome.next.inj given
  exact settled_rereadGranted (same ▸ settled_rereadFailed)

end Sys2Proof.Proofs
end

section
/-! O28. The strokes that a Release touches (R205), which the clause on a Release of whole quanta leaves out. -/

namespace Sys2Proof.Proofs

open Sys2Proof Sys2Proof.Machine Sys2Proof.Laws

/-! ## What the settling work leaves of the strokes touched -/

/-- The codewords that fill the open stripes, and the strokes touched, of which the settling work with nothing outstanding moves neither. -/
def strokes (s : State) : List Slot × List (Nat × Nat) := (s.ftl.fill, s.ftl.touched)

theorem poolUpdate_strokes (s : State) : strokes (poolUpdate s) = strokes s := by
  unfold poolUpdate collectUpdate
  dsimp only
  split <;> split <;> rfl

theorem endClear_strokes (s : State) : strokes (endClear s) = strokes s := by
  unfold endClear
  split <;> rfl

theorem settleD3_strokes {s : State} (empty : s.ftl.fill = []) : strokes (settleD3 s) = strokes s := by
  unfold settleD3 enterD3 beginPs4
  split
  · split
    · rfl
    split
    · rfl
    · rw [closeStripes_of_noFill (by exact empty)]
      rfl
  · rfl

theorem endDrain_strokes (s : State) : strokes (endDrain s) = strokes s := by
  unfold endDrain
  split <;> rfl

theorem actUpdate_strokes (s : State) : strokes (actUpdate s) = strokes s := by
  obtain ⟨_, acts⟩ := actUpdate_eq s
  rw [acts]
  rfl

theorem ltrUpdate_strokes (s : State) : strokes (ltrUpdate s) = strokes s := by
  unfold ltrUpdate
  split
  · dsimp only
    split <;> rfl
  · rfl

theorem settleUp_strokes {s : State} (items : s.nib.items = []) (empty : s.ftl.fill = []) : strokes (settleUp s) = strokes s := by
  unfold settleUp
  split
  · rw [progress_of_noItems items, completePersistent_of_noItems items, progress_of_noItems items, ltrUpdate_strokes, actUpdate_strokes, endDrain_strokes]
    have before : strokes (endClear (poolUpdate (pruneVersions s))) = strokes s := by
      rw [endClear_strokes, poolUpdate_strokes]
      rfl
    rw [settleD3_strokes ((congrArg Prod.fst before).trans empty), before]
  · rfl

/-- The last outstanding command ends, and the settling work moves no stroke. -/
theorem settleUp_succeed_strokes {s : State} {i : Item} (only : s.nib.items = [i]) (empty : s.ftl.fill = []) (result : Nat) :
    strokes (settleUp (succeed i result s)) = strokes s := by
  have gone : (removeItem i false s).nib.items = [] := by
    show s.nib.items.filter _ = []
    rw [only]
    simp
  obtain ⟨_, _, _, _, _, _, _, answered⟩ := complete_answered (Ending.ofItem i) (Fail.of 0) result (removeItem i false s)
  have ends : succeed i result s = complete (Ending.ofItem i) (Fail.of 0) result (removeItem i false s) := rfl
  rw [ends, answered]
  exact settleUp_strokes gone empty

/-! ## A Release of a whole stroke -/

/-- The Release of the first 32 blocks of partition 1. -/
def strokeRelease : Fetched :=
  { narrow := false, q := 1, slot := 0, entry := Entry.put (Entry.put 4 4 1 1) 0x28 4 32, stalled := false, retries := 0 }

/-- A partition of 64 blocks, open to every well. -/
def openPart : Part :=
  { id := 1, base := 0, size := 64, sector := false, layout := 0, width := 0, planes := 0, owner := 0, rd := BitVec.allOnes 64
    wr := BitVec.allOnes 64, capped := false, fixed := false, born := 1 }

/-- The map with that partition and nothing stored. -/
def openParts : MapState := { MapState.empty with parts := [openPart] }

/-- A module past I/O ready with that command at the front of ring 1. -/
def releasing : State := { State.reset with
  rst := { Rst.init with phase := .run, imageRuns := true, recovered := true, admin := true, io := true }
  nib := { Nib.init with next := 10, ceiling := 1000, adm := openParts, fetched := [strokeRelease] }
  map := openParts }

/-- The command as it stands in the nib, and the state in which it begins. -/
def releasingListed : State := releasing.listed 1 strokeRelease (rowGiven (.release 1))
def strokeReleaseBegun : State := admitted (releasing.listedItem 1 strokeRelease (rowGiven (.release 1))) releasingListed
def releaseItem : Item := releasingListed.claimItem (releasing.listedItem 1 strokeRelease (rowGiven (.release 1)))

theorem releasing_sound : releasing.Sound where
  blotter := by decide
  tail := by decide
  queue := by decide
  errors := by decide
  failed := by decide
  rulings := by decide +kernel
  first := by decide
  power := by decide
  step := by decide
  version := by decide
  granted := rfl
  kinetic := by decide
  debug := by decide
  ligature := by decide
  msix := by decide
  bankA := by decide
  bankB := by decide
  piece := nofun

theorem releasing_begins : releasing.Begins (.release 1) 1 strokeRelease strokeReleaseBegun releaseItem := by
  refine ⟨releasing_sound, ⟨_, rfl, by decide +kernel⟩, ⟨⟨⟨by decide +kernel, by decide +kernel, by decide +kernel, rfl, by decide +kernel, by decide +kernel⟩,
    by decide +kernel, by decide +kernel⟩, by decide +kernel, rfl, by decide +kernel, by decide +kernel, by decide +kernel, by decide +kernel, by decide +kernel⟩⟩

/-- The step leaves a stroke touched. -/
def touches (o : Host.Outcome State Fault Refusal) : Bool := match o with | .next t => (strokes t).2 ≠ [] | _ => false

/-- The Release enters its record, and the record touches its stroke. -/
theorem releasing_touches : touches (exec (.release 1) releasing) = true := by decide +kernel

theorem strokeReleaseBegun_items : strokeReleaseBegun.nib.items = [releaseItem] := by decide +kernel

theorem strokeReleaseBegun_strokes : strokes strokeReleaseBegun = ([], []) := by decide +kernel

/-- Refutes O28: the clause on a Release of whole quanta keeps the media's streams as the ruling left them, where the records entered touch their strokes. -/
theorem not_flushAndReleaseTakeEffect : ¬ Obligations.FlushAndReleaseTakeEffect := by
  unfold Obligations.FlushAndReleaseTakeEffect
  rintro ⟨-, -, release, -⟩
  obtain ⟨v, exec_, nib, -, ftl, -⟩ := release releasing 1 strokeRelease strokeReleaseBegun releaseItem openPart releasing_begins (by decide +kernel)
    (by decide +kernel) (by decide +kernel) rfl
  have untouched : strokes v = ([], []) := by rw [← strokeReleaseBegun_strokes, strokes, ftl, strokes]
  have settled := (settleUp_succeed_strokes ((congrArg Nib.items nib).trans strokeReleaseBegun_items) (congrArg Prod.fst untouched) 0).trans untouched
  have touched := releasing_touches
  rw [exec_, touches, settled] at touched
  exact absurd touched (by decide)

end Sys2Proof.Proofs
end

section
/-! O29. The queue commands as they begin: Create Queue Pair, Delete Queue Pair and Resume Queue by how the pair stands (R171, R181, R191, R196). -/

namespace Sys2Proof.Proofs

open Sys2Proof Sys2Proof.Machine Sys2Proof.Laws

/-- The newest command takes its new form in its place, behind those ruled before it. -/
theorem setItem_newest {s : State} {l : List Item} {i j : Item} (items : s.nib.items = l ++ [i]) (fresh : ∀ x ∈ l, x.ruling < i.ruling)
    (same : j.ruling = i.ruling) : setItem j s = { s with nib := { s.nib with items := l ++ [j] } } := by
  unfold setItem
  rw [items, mapIf_append_ruling (fun x listed => same ▸ fresh x listed) same.symm]

/-! ## Commands of the queues, as they begin -/

/-- The item of a queue command that begins, and what its admission has left alone. -/
structure QueueBegun (s : State) (f : Fetched) (t : State) (i : Item) : Prop where
  entry : i.entry = f.entry
  pair : i.q = 0
  narrow : i.narrow = false
  ruling : i.ruling = s.nib.next
  items : t.nib.items = s.nib.items ++ [i]
  fresh : ∀ j ∈ s.nib.items, j.ruling < i.ruling
  fetched : t.nib.fetched = s.nib.fetched.erase f
  next : t.nib.next = s.nib.next + 1
  pairs : t.nib.pairs = s.nib.pairs
  pcie : t.pcie = s.pcie
  boot : t.boot = s.boot
  media : t.map = s.map ∧ t.log = s.log

section
variable {s t : State} {f : Fetched} {i : Item}

/-- Create Queue Pair to Controller Restart (Table 08-1). -/
def isQueueOp (op : Nat) : Prop := 0x80 ≤ op ∧ op ≤ 0x84

theorem queueBegun_of_begins {c : Instr} (h : s.Begins c 0 f t i) (op : isQueueOp (Entry.opcode f.entry)) : QueueBegun s f t i := by
  obtain ⟨low, high⟩ := op
  have sanitize : Entry.opcode f.entry ≠ 0x98 := by omega
  have download : Entry.opcode f.entry ≠ 0xA0 := by omega
  obtain ⟨v, e, hd, a, w, p, x, y, z, rfl, entry, ruling, narrow, pair, -, -, -, -, -, held, -, -, -, -, -, -, fresh, -⟩ := begins_eq h sanitize
  rw [held download]
  exact ⟨entry, pair, narrow, ruling, rfl, ruling ▸ fresh, rfl, rfl, rfl, rfl, rfl, rfl, rfl⟩

theorem isOp_iff {n : Nat} {e : Entry} : isOp n e = true ↔ Entry.opcode e = n := by
  unfold isOp
  exact decide_eq_true_iff

/-- A row that serves one opcode takes entries of that opcode. -/
theorem opcode_of_begins {c : Instr} {q n : Nat} (h : s.Begins c q f t i) (row : s.hostRow c = some (q, isOp n)) : Entry.opcode f.entry = n := by
  obtain ⟨-, ⟨k, taken, kind⟩, -⟩ := h
  obtain rfl : isOp n = k := congrArg Prod.snd (Option.some.inj (row.symm.trans taken))
  exact isOp_iff.1 kind

/-- What a queue command does once it begins. -/
def queueRun (op : Nat) : Item → State → State :=
  match op with
  | 0x80 => runCreatePair
  | 0x81 => runDeletePair
  | 0x82 => runResumeQueue
  | 0x83 => runCancel
  | _ => runRestart

theorem begun_of_row {c : Instr} {n : Nat} (h : s.Begins c 0 f t i) (row : s.hostRow c = some (0, isOp n)) (queue : isQueueOp n) :
    QueueBegun s f t i ∧ exec c s = .next (settleUp (queueRun n i t)) := by
  have op := opcode_of_begins h row
  have begun := queueBegun_of_begins h (op ▸ queue)
  refine ⟨begun, ?_⟩
  rw [exec_of_begins h, begin_admits h.2.2, begun.entry, op]
  obtain ⟨low, high⟩ := queue
  interval_cases n <;> rfl

theorem begun_createQueuePair (h : s.Begins .createQueuePair 0 f t i) :
    QueueBegun s f t i ∧ exec .createQueuePair s = .next (settleUp (runCreatePair i t)) := begun_of_row h rfl ⟨by decide, by decide⟩

theorem begun_deleteQueuePair (h : s.Begins .deleteQueuePair 0 f t i) :
    QueueBegun s f t i ∧ exec .deleteQueuePair s = .next (settleUp (runDeletePair i t)) := begun_of_row h rfl ⟨by decide, by decide⟩

theorem begun_resumeQueue (h : s.Begins .resumeQueue 0 f t i) :
    QueueBegun s f t i ∧ exec .resumeQueue s = .next (settleUp (runResumeQueue i t)) := begun_of_row h rfl ⟨by decide, by decide⟩

end

theorem setItem_modPair (j : Item) (q : Nat) (g : Pair → Pair) (s : State) : setItem j (modPair q g s) = modPair q g (setItem j s) := rfl

/-- A pair that is dropped takes its last change with it. -/
theorem dropPair_modPair {g : Pair → Pair} (keeps : ∀ p, (g p).id = p.id) (q : Nat) (s : State) : dropPair q (modPair q g s) = dropPair q s := by
  have others : (mapIf (fun p : Pair => p.id = q) g s.nib.pairs).filter (fun p => p.id ≠ q) = s.nib.pairs.filter (fun p => p.id ≠ q) := by
    unfold mapIf
    induction s.nib.pairs with
    | nil => rfl
    | cons p l ih =>
      by_cases own : p.id = q
      · simpa [own, keeps] using ih
      · simpa [own] using ih
  unfold dropPair modPair
  exact congrArg (fun l => { s with nib := { s.nib with pairs := l } }) others

/-- What a command waits for is no matter of its end. -/
theorem succeed_wait (i : Item) (w : Wait) (result : Nat) (s : State) : succeed { i with wait := w } result s = succeed i result s := rfl

theorem endDeletePair_of_idle {i : Item} {s : State} (idle : s.nib.items.any (fun j => !j.narrow && j.q = Entry.h2C i.entry) = false) :
    endDeletePair i s = succeed i 0 (dropPair (Entry.h2C i.entry) s) := by
  unfold endDeletePair deletePair
  simp only [idle, Bool.false_eq_true, ↓reduceIte]

namespace QueueBegun

variable {s t : State} {f : Fetched} {i : Item} (b : QueueBegun s f t i)
include b

theorem pair? (q : Nat) : t.pair? q = s.pair? q := by
  unfold State.pair?
  rw [b.pairs]

theorem setItem {j : Item} (same : j.ruling = i.ruling) : Machine.setItem j t = { t with nib := { t.nib with items := s.nib.items ++ [j] } } :=
  setItem_newest b.items b.fresh same

/-- With no Create or Delete of its pair outstanding the command is the first. -/
theorem earlierPairCmd_none (none_ : ∀ j ∈ s.nib.items, j.pairCmd (Entry.h2C i.entry) = false) : t.earlierPairCmd i = false := by
  unfold State.earlierPairCmd
  rw [b.items, List.any_eq_false]
  intro j listed
  rcases List.mem_append.1 listed with earlier | own
  · simp [none_ j earlier]
  · simp [List.mem_singleton.1 own]

theorem earlierPairCmd_some {j : Item} (outstanding : j ∈ s.nib.items) (same : j.pairCmd (Entry.h2C i.entry) = true) : t.earlierPairCmd i = true := by
  unfold State.earlierPairCmd
  rw [b.items]
  exact List.any_eq_true.2 ⟨j, List.mem_append_left _ outstanding, by simp [b.fresh j outstanding, same]⟩

/-- Nothing of the host's is aborted where no command of the pairs is outstanding. -/
theorem abortCommands_idle {u : State} {p : Nat → Bool} (items : u.nib.items = t.nib.items) (fetched : u.nib.fetched = t.nib.fetched)
    (freezes : Nat → Bool) (idle : ∀ j ∈ s.nib.items, p j.q = false) (empty : ∀ g ∈ s.nib.fetched.erase f, p g.q = false) :
    abortCommands p i.ruling freezes u = u := by
  have none_ : u.nib.items.filter (fun j => !j.narrow && p j.q && !j.past && j.ruling ≠ i.ruling) = [] := by
    rw [items, b.items, List.filter_eq_nil_iff]
    intro j listed
    rcases List.mem_append.1 listed with earlier | own
    · simp [idle j earlier]
    · simp [List.mem_singleton.1 own]
  have none' : u.nib.fetched.filter (fun g => !g.narrow && p g.q) = [] := by
    rw [fetched, b.fetched, List.filter_eq_nil_iff]
    intro g listed
    simp [empty g listed]
  unfold abortCommands
  dsimp only
  rw [none_, none']
  rfl

/-- Delete Queue Pair of a pair with no command left removes it at once (R196). -/
theorem runDeletePair_idle (other : Entry.h2C i.entry ≠ 0)
    (idle : ∀ j ∈ s.nib.items, j.q ≠ Entry.h2C i.entry ∧ j.pairCmd (Entry.h2C i.entry) = false)
    (empty : ∀ g ∈ s.nib.fetched, g.q ≠ Entry.h2C i.entry) (stands : ∀ p, s.pair? (Entry.h2C i.entry) = some p → p.deleting = false) :
    runDeletePair i t = succeed { i with wait := .turn } 0 { t with nib := { t.nib with
      pairs := s.nib.pairs.filter (fun p => p.id ≠ Entry.h2C i.entry), items := s.nib.items ++ [{ i with wait := .turn }] } } := by
  have first := b.earlierPairCmd_none fun j listed => (idle j listed).2
  have fresh : (t.pair? (Entry.h2C i.entry)).any (·.deleting) = false := by
    rw [b.pair?]
    cases found : s.pair? (Entry.h2C i.entry) with
    | none => rfl
    | some p => exact stands p found
  have calm : ∀ u : State, u.nib.items = t.nib.items → u.nib.fetched = t.nib.fetched →
      abortCommands (· = Entry.h2C i.entry) i.ruling (fun _ => true) u = u := fun u items fetched =>
    b.abortCommands_idle items fetched _ (fun j listed => decide_eq_false (idle j listed).1)
      (fun g listed => decide_eq_false (empty g (List.mem_of_mem_erase listed)))
  have left_ : (s.nib.items ++ [{ i with wait := .turn }]).any (fun j => !j.narrow && j.q = Entry.h2C i.entry) = false := by
    rw [List.any_eq_false]
    intro j listed
    rcases List.mem_append.1 listed with earlier | own
    · simp [(idle j earlier).1]
    · simp [List.mem_singleton.1 own, b.pair, other.symm]
  have waits := b.setItem (j := { i with wait := .turn }) rfl
  unfold runDeletePair
  simp only [first, fresh, Bool.false_eq_true, ↓reduceIte]
  rw [calm (modPair _ _ t) rfl rfl, setItem_modPair, waits]
  refine (endDeletePair_of_idle left_).trans (.trans (congrArg (succeed i 0) ?_) (succeed_wait i .turn 0 _).symm)
  rw [dropPair_modPair, dropPair, b.pairs]
  exact fun _ => rfl

end QueueBegun

/-- Settles O29: each command by what its begun form finds outstanding, and by how the pair stands. -/
theorem queuePairsAreMadeDeletedAndResumed : Obligations.QueuePairsAreMadeDeletedAndResumed := by
  refine ⟨?make, ?exists_, ?delete, ?waits, ?resume, ?stands⟩
  case make =>
    intro s f t i h absent first
    obtain ⟨b, exec_⟩ := begun_createQueuePair h
    refine ⟨newPair (t.kq1 i.narrow) i.entry, ?_, rfl, rfl, rfl, rfl, rfl, rfl, ?_, rfl, rfl, rfl, rfl, rfl, rfl, rfl, rfl⟩
    · unfold runCreatePair at exec_
      rw [b.earlierPairCmd_none first, b.pair?, absent, b.pairs] at exec_
      exact exec_
    · unfold newPair State.kq1
      rw [b.narrow, b.pcie]
      simp
  case exists_ =>
    intro s f t i p h found first
    obtain ⟨b, exec_⟩ := begun_createQueuePair h
    unfold runCreatePair at exec_
    rw [b.earlierPairCmd_none first, b.pair?, found] at exec_
    exact exec_
  case delete =>
    intro s f t i h other idle empty stands
    obtain ⟨b, exec_⟩ := begun_deleteQueuePair h
    rw [exec_, b.runDeletePair_idle other idle empty stands]
  case waits =>
    rintro s c f t i j (rfl | rfl) h only same
    · obtain ⟨b, exec_⟩ := begun_createQueuePair h
      have waits := b.setItem (j := { i with wait := .turn }) rfl
      unfold runCreatePair at exec_
      rw [b.earlierPairCmd_some (j := j) (by simp [only]) same, if_pos rfl, waits, only] at exec_
      exact exec_
    · obtain ⟨b, exec_⟩ := begun_deleteQueuePair h
      have waits := b.setItem (j := { i with wait := .turn }) rfl
      unfold runDeletePair at exec_
      rw [b.earlierPairCmd_some (j := j) (by simp [only]) same, if_pos rfl, waits, only] at exec_
      exact exec_
  case resume =>
    intro s f t i p h found frozen whole stays
    obtain ⟨b, exec_⟩ := begun_resumeQueue h
    have found' := (b.pair? _).trans found
    unfold runResumeQueue at exec_
    simp only [found', frozen, whole, stays, Bool.not_false, Bool.and_self, ↓reduceIte] at exec_
    rw [exec_]
    unfold resumePair modPair mapIf
    rw [b.pairs]
    simp only [decide_eq_true_eq]
  case stands =>
    intro s f t i p h found stands
    obtain ⟨b, exec_⟩ := begun_resumeQueue h
    have refused : (p.frozen.isSome && !p.contained && !p.deleting) = false := by
      rcases stands with thawed | contained | deleting <;> simp [*]
    have found' := (b.pair? _).trans found
    unfold runResumeQueue at exec_
    simp only [found', refused, Bool.false_eq_true, ↓reduceIte] at exec_
    exact exec_

end Sys2Proof.Proofs
end

section
/-! O30. Cancel Command and Controller Restart (R194, R195, R197): the command that is aborted, and the pairs once nothing else is outstanding. -/

namespace Sys2Proof.Proofs

open Sys2Proof Sys2Proof.Machine Sys2Proof.Laws

/-! ## A command that is aborted (R194) -/

/-- An aborted command leaves the nib, and the reservoir holds no data of it any more. -/
theorem abortItem_leaves (j : Item) (freezes : Bool) (s : State) : (abortItem j freezes s).nib.items = s.nib.items.filter (fun x => x.ruling ≠ j.ruling)
    ∧ (abortItem j freezes s).res.staged = s.res.staged.filter (fun x => x.ruling ≠ j.ruling) ∧ (abortItem j freezes s).boot = s.boot := by
  unfold abortItem
  obtain ⟨_, _, _, _, _, _, _, undefined⟩ := undefineBuffer_answered j s
  obtain ⟨_, _, _, _, _, _, _, answered⟩ := complete_answered { Ending.ofItem j with freezes := freezes } Fail.aborted 0 (removeItem j true (undefineBuffer j s))
  rw [answered, undefined]
  exact ⟨rfl, rfl, rfl⟩

/-- The error log says which command was aborted. -/
theorem abortItem_logs (j : Item) (freezes : Bool) (s : State) : ∃ e ∈ (abortItem j freezes s).elog.list, e.status = 7 ∧ e.ruling = j.ruling := by
  obtain ⟨e, l, list, status, ruling, -⟩ := complete_logs (f := Fail.aborted) (by decide) { Ending.ofItem j with freezes := freezes } 0
    (removeItem j true (undefineBuffer j s))
  exact ⟨e, (congrArg (e ∈ ·) list).mpr List.mem_cons_self, status, ruling⟩

/-- Of the commands of the pairs only this one is outstanding, and it has not passed its cancel point: it is the one aborted. -/
theorem abortCommands_one {s : State} {i j : Item} {p : Nat → Bool} (items : s.nib.items = [j, i]) (fetched : s.nib.fetched = []) (host : j.narrow = false)
    (early : j.past = false) (named : p j.q = true) (earlier : j.ruling < i.ruling) (freezes : Nat → Bool) :
    abortCommands p i.ruling freezes s = abortItem j (freezes j.q) s := by
  have other : j.ruling ≠ i.ruling := Nat.ne_of_lt earlier
  unfold abortCommands
  simp [items, fetched, host, early, named, other]

/-! ## Controller Restart (R197) -/

/-- Pair 0 as Controller Restart finds it: what its ring holds is never fetched. -/
def emptyRing (s : State) : State := modPair 0 (fun p => { p with head := p.tail }) { s with nib := { s.nib with paused := true } }

/-- The I/O pairs go, pair 0 is unfrozen, and the nib fetches again. -/
def restarted (s : State) : State :=
  modPair 0 (fun p => { p with frozen := none, retry := [] })
    { s with nib := { s.nib with pairs := s.nib.pairs.filter (fun p => p.id = 0), paused := s.boot.activating } }

theorem restarted_emptyRing (s : State) : restarted (emptyRing s) = { s with nib := { s.nib with
    pairs := (s.nib.pairs.filter (fun p => p.id = 0)).map (fun p => if p.id = 0 then { p with head := p.tail, frozen := none, retry := [] } else p)
    paused := s.boot.activating } } := by
  have both : mapIf (fun p : Pair => p.id = 0) (fun p => { p with frozen := none, retry := [] })
        ((mapIf (fun p : Pair => p.id = 0) (fun p => { p with head := p.tail }) s.nib.pairs).filter (fun p => p.id = 0))
      = (s.nib.pairs.filter (fun p => p.id = 0)).map (fun p => if p.id = 0 then { p with head := p.tail, frozen := none, retry := [] } else p) := by
    unfold mapIf
    induction s.nib.pairs with
    | nil => rfl
    | cons p l ih =>
      by_cases own : p.id = 0
      · simpa [own] using ih
      · simpa [own] using ih
  unfold restarted emptyRing modPair
  exact congrArg (fun l => { s with nib := { s.nib with pairs := l, paused := s.boot.activating } }) both

theorem restarted_pairs {s : State} {p : Pair} (listed : p ∈ (restarted s).nib.pairs) : p.id = 0 ∧ p.frozen = none := by
  obtain ⟨x, kept, rfl⟩ := List.mem_map.1 listed
  have zero : x.id = 0 := by simpa using (List.mem_filter.1 kept).2
  simp [zero]

theorem setItem_emptyRing (j : Item) (s : State) : setItem j (emptyRing s) = emptyRing (setItem j s) := rfl

theorem endRestart_alone {i : Item} {s : State} (alone : ∀ j ∈ s.nib.items, j.ruling = i.ruling) : endRestart i s = succeed i 0 (restarted s) := by
  have none_ : s.nib.items.any (fun j => j.ruling ≠ i.ruling && j.q ≠ 65535 && !laterRestart i j) = false := by
    rw [List.any_eq_false]
    intro j listed
    simp [alone j listed]
  unfold endRestart
  simp only [none_, Bool.false_eq_true, ↓reduceIte]
  rfl

theorem runRestart_host {i : Item} {s : State} (host : i.narrow = false) :
    runRestart i s = endRestart i (setItem { i with wait := .turn } (abortCommands (fun _ => true) i.ruling (fun q => q ≠ 0) (emptyRing s))) := by
  unfold runRestart
  rw [host]
  rfl

section
variable {s t : State} {f : Fetched} {i : Item}

theorem begun_cancelCommand (h : s.Begins .cancelCommand 0 f t i) :
    QueueBegun s f t i ∧ exec .cancelCommand s = .next (settleUp (runCancel i t)) := begun_of_row h rfl ⟨by decide, by decide⟩

theorem begun_controllerRestart (h : s.Begins .controllerRestart 0 f t i) :
    QueueBegun s f t i ∧ exec .controllerRestart s = .next (settleUp (runRestart i t)) := begun_of_row h rfl ⟨by decide, by decide⟩

end

section
variable {s t : State} {f : Fetched} {i : Item} (b : QueueBegun s f t i)
include b

/-- Cancel Command finds no command of its own, and none that is not outstanding. -/
theorem QueueBegun.runCancel_absent (other : Entry.h2C i.entry ≠ 0)
    (items : ∀ j ∈ s.nib.items, j.q ≠ Entry.h2C i.entry ∨ Entry.cid j.entry ≠ Entry.h2E i.entry)
    (fetched : ∀ g ∈ s.nib.fetched, g.q ≠ Entry.h2C i.entry ∨ Entry.cid g.entry ≠ Entry.h2E i.entry) : runCancel i t = succeed i 1 t := by
  have none_ : t.nib.items.find? (fun j => !j.narrow && j.q = Entry.h2C i.entry && Entry.cid j.entry = Entry.h2E i.entry) = none := by
    rw [b.items, List.find?_eq_none]
    intro j listed
    rcases List.mem_append.1 listed with earlier | own
    · rcases items j earlier with pair | cid <;> simp [*]
    · simp [List.mem_singleton.1 own, b.pair, other.symm]
  have none' : t.nib.fetched.find? (fun g => !g.narrow && g.q = Entry.h2C i.entry && Entry.cid g.entry = Entry.h2E i.entry) = none := by
    rw [b.fetched, List.find?_eq_none]
    intro g listed
    rcases fetched g (List.mem_of_mem_erase listed) with pair | cid <;> simp [*]
  unfold runCancel
  simp only [none_, none']

variable {j : Item} (only : s.nib.items = [j])
include only

theorem QueueBegun.runCancel_found (host : j.narrow = false) (pair : j.q = Entry.h2C i.entry) (cid : Entry.cid j.entry = Entry.h2E i.entry) :
    runCancel i t = if j.past then Machine.setItem { i with wait := .turn, result := 2, after := some j.ruling } t else succeed i 0 (abortItem j true t) := by
  have found : t.nib.items.find? (fun x => !x.narrow && x.q = Entry.h2C i.entry && Entry.cid x.entry = Entry.h2E i.entry) = some j := by
    rw [b.items, only]
    simp [host, pair, cid]
  unfold runCancel
  simp only [found]

theorem QueueBegun.later : j.ruling < i.ruling := b.fresh j (by simp [only])

/-- Once the one command before it is aborted, the command that has begun is the only one left. -/
theorem QueueBegun.filter_items : t.nib.items.filter (fun x => x.ruling ≠ j.ruling) = [i] := by
  have later := b.later only
  rw [b.items, only]
  simp [Nat.ne_of_gt later]

end

/-- Settles O30: Cancel Command by what it finds, Controller Restart by what it has to abort before the pairs go. -/
theorem commandsAreCancelledAndRestarted : Obligations.CommandsAreCancelledAndRestarted := by
  refine ⟨?absent, ?ruled, ?early, ?idle, ?busy⟩
  case absent =>
    intro s f t i h other items fetched
    obtain ⟨b, exec_⟩ := begun_cancelCommand h
    rw [exec_, b.runCancel_absent other items fetched]
  case ruled =>
    intro s f t i j h only host past pair cid
    obtain ⟨b, exec_⟩ := begun_cancelCommand h
    have waits := b.setItem (j := { i with wait := .turn, result := 2, after := some j.ruling }) rfl
    rw [exec_, b.runCancel_found only host pair cid, if_pos past, waits, only]
    rfl
  case early =>
    intro s f t i j h only host early pair cid
    obtain ⟨b, exec_⟩ := begun_cancelCommand h
    obtain ⟨items, staged, -⟩ := abortItem_leaves j true t
    have ended := abortItem_ended j true t
    refine ⟨abortItem j true t, ?_, items.trans (b.filter_items only), abortItem_logs j true t, ?_, ended.map.trans b.media.1, ended.log.trans b.media.2⟩
    · rw [exec_, b.runCancel_found only host pair cid, if_neg (by simp [early])]
    · rw [staged]
      exact fun x listed => by simpa using (List.mem_filter.1 listed).2
  case idle =>
    intro s f t i h none_ one
    obtain ⟨b, exec_⟩ := begun_controllerRestart h
    have calm : ∀ u : State, u.nib.items = t.nib.items → u.nib.fetched = t.nib.fetched → abortCommands (fun _ => true) i.ruling (fun q => q ≠ 0) u = u :=
      fun u items fetched => b.abortCommands_idle items fetched _ (by simp [none_]) (by simp [one])
    have waits := b.setItem (j := { i with wait := .turn }) rfl
    rw [exec_, runRestart_host b.narrow, calm (emptyRing t) rfl rfl, setItem_emptyRing, waits, endRestart_alone (by simp [emptyRing, modPair, none_]), restarted_emptyRing, b.pairs, b.boot,
      none_]
    rfl
  case busy =>
    intro s f t i j h only one host early pair
    obtain ⟨b, exec_⟩ := begun_controllerRestart h
    have items : (emptyRing t).nib.items = [j, i] := b.items.trans (by rw [only]; rfl)
    have fetched : (emptyRing t).nib.fetched = [] := b.fetched.trans (by simp [one])
    have aborts := abortCommands_one items fetched host early (p := fun _ => true) rfl (b.later only) (fun q => q ≠ 0)
    have left_ := (abortItem_leaves j (j.q ≠ 0) (emptyRing t)).1.trans (b.filter_items only)
    have logged := abortItem_logs j (j.q ≠ 0) (emptyRing t)
    have next : (abortItem j (j.q ≠ 0) (emptyRing t)).nib.next = s.nib.next + 1 := (abortItem_ended j (j.q ≠ 0) (emptyRing t)).next.trans b.next
    rw [exec_, runRestart_host b.narrow, aborts]
    generalize abortItem j (j.q ≠ 0) (emptyRing t) = u at left_ logged next
    have alone : (setItem { i with wait := .turn } u).nib.items = [{ i with wait := .turn }] := setItem_only left_ rfl
    rw [endRestart_alone (by simp [alone])]
    exact ⟨restarted (setItem { i with wait := .turn } u), rfl, logged, fun p listed => restarted_pairs listed, next⟩

end Sys2Proof.Proofs
end

section
/-! O38. Firmware commands as they begin, and the piece of a Firmware Download (R231, R367, R368). -/

namespace Sys2Proof.Proofs

open Sys2Proof Sys2Proof.Machine Sys2Proof.Laws

/-! ## Firmware commands, as they begin -/

/-- Of BOOT's state a ruling touches the bytes held with a Firmware Download alone (R231). -/
theorem begins_boot {c : Instr} {q : Nat} {s t : State} {f : Fetched} {i : Item} (h : s.Begins c q f t i) (ne : Entry.opcode f.entry ≠ 0x98) :
    t.boot = if Entry.opcode f.entry = 0xA0 then { s.boot with held := s.boot.held ++ [(s.nib.next, (rowGiven c).data)] } else s.boot := by
  obtain ⟨-, -, admits⟩ := h
  obtain ⟨_, _, _, _, _, claims, -⟩ := admitted_eq (s.listed q f (rowGiven c)) (s.listedItem q f (rowGiven c)) rfl ne
  obtain ⟨_, _, ruled⟩ := ruledBy_eq s f
  have kept : t.boot = (s.listed q f (rowGiven c)).boot := by rw [admits.state, claims]
  rw [kept, State.listed, enlist, ruled]
  have op : Entry.opcode (s.ruledItem q f).entry = Entry.opcode f.entry := rfl
  have host : (s.ruledItem q f).narrow = false := rfl
  simp only [op, host, Bool.not_false, Bool.and_true, decide_eq_true_eq]
  split <;> rfl

/-- The item of a firmware command that begins, and what its admission has left alone. -/
structure FirmwareBegun (s : State) (c : Instr) (f : Fetched) (t : State) (i : Item) : Prop where
  entry : i.entry = f.entry
  narrow : i.narrow = false
  ruling : i.ruling = s.nib.next
  segs : i.segs = (rowGiven c).segs
  items : t.nib.items = s.nib.items ++ [i]
  fresh : ∀ j ∈ s.nib.items, j.ruling < i.ruling
  rst : t.rst = s.rst
  strap : t.strap = s.strap
  unit : t.unit = s.unit
  rec_ : t.rec_ = s.rec_
  lops : t.lops = s.lops
  boot : t.boot = if Entry.opcode f.entry = 0xA0 then { s.boot with held := s.boot.held ++ [(s.nib.next, (rowGiven c).data)] } else s.boot

theorem firmwareBegun_of_begins {c : Instr} {q : Nat} {s t : State} {f : Fetched} {i : Item} (h : s.Begins c q f t i)
    (firmware : isFirmware (Entry.opcode f.entry) = true) : FirmwareBegun s c f t i := by
  have op : Entry.opcode f.entry = 0xA0 ∨ Entry.opcode f.entry = 0xA1 := by simpa [isFirmware] using firmware
  have sanitize : Entry.opcode f.entry ≠ 0x98 := by omega
  have write_ : Entry.opcode f.entry ≠ 1 := by omega
  have boot := begins_boot h sanitize
  obtain ⟨v, e, hd, a, w, p, x, y, z, rfl, entry, ruling, narrow, -, -, -, -, -, -, -, -, -, rec_, -, -, -, fresh, -, -, segs, -⟩ := begins_eq h sanitize
  exact ⟨entry, narrow, ruling, segs, rfl, ruling ▸ fresh, rfl, rfl, rfl, rec_ write_, rfl, boot⟩

namespace FirmwareBegun

variable {s t : State} {c : Instr} {f : Fetched} {i : Item} (b : FirmwareBegun s c f t i)
include b

theorem setItem {j : Item} (same : j.ruling = i.ruling) : Machine.setItem j t = { t with nib := { t.nib with items := s.nib.items ++ [j] } } :=
  setItem_newest b.items b.fresh same

theorem updateAllowed : t.updateAllowed = s.updateAllowed := by
  unfold State.updateAllowed State.sa8 State.code
  rw [b.strap]

theorem firmwareBusy_none (none_ : ∀ j ∈ s.nib.items, isFirmware (Entry.opcode j.entry) = false) : t.firmwareBusy i = false := by
  unfold State.firmwareBusy
  rw [b.items, List.any_eq_false]
  intro j listed
  rcases List.mem_append.1 listed with earlier | own
  · simp [none_ j earlier]
  · simp [List.mem_singleton.1 own]

theorem firmwareBusy_some {j : Item} (outstanding : j ∈ s.nib.items) (firmware : isFirmware (Entry.opcode j.entry) = true) : t.firmwareBusy i = true := by
  unfold State.firmwareBusy
  rw [b.items]
  exact List.any_eq_true.2 ⟨j, List.mem_append_left _ outstanding, by simp [b.fresh j outstanding, firmware]⟩

theorem swapWork : t.boot.swapWork = s.boot.swapWork := by
  rw [b.boot]
  split <;> rfl

/-- A firmware command waits its turn behind another one, or behind a record that BOOT writes (R367). -/
theorem startFirmware_turn (behind : t.firmwareBusy i = true ∨ s.boot.swapWork.isSome = true) :
    startFirmware i t = { t with nib := { t.nib with items := s.nib.items ++ [{ i with wait := .turn }] } } := by
  unfold startFirmware
  rw [b.swapWork, if_pos (by simpa using behind), b.setItem (j := { i with wait := .turn }) rfl]

end FirmwareBegun

/-! ## A piece of a download (R231, R368) -/

section
variable {s t : State} {data : Mem} {g : List Nat} {f : Fetched} {i : Item}

theorem begun_firmwareDownload (h : s.Begins (.firmwareDownload data g) 0 f t i) :
    FirmwareBegun s (.firmwareDownload data g) f t i ∧ exec (.firmwareDownload data g) s = .next (settleUp (startDownload i t))
      ∧ t.boot = { s.boot with held := s.boot.held ++ [(i.ruling, data)] } := by
  have op : Entry.opcode f.entry = 0xA0 := opcode_of_begins h rfl
  have b := firmwareBegun_of_begins h (by rw [op]; rfl)
  refine ⟨b, ?_, ?_⟩
  · rw [exec_of_begins h, begin_admits h.2.2, b.entry, op]
    rfl
  · rw [b.boot, if_pos op, b.ruling]
    rfl

/-- A download that SA8 allows, with a list that makes up its piece, is a firmware command at its turn. -/
theorem startDownload_allowed (h : s.Begins (.firmwareDownload data g) 0 f t i) (allowed : s.updateAllowed = true) (fits : segmentsFit i.entry g = true) :
    startDownload i t = startFirmware i t := by
  obtain ⟨b, -⟩ := begun_firmwareDownload h
  have listFits : i.listFits = true := by
    unfold Item.listFits
    rw [b.segs, b.narrow]
    exact fits
  unfold startDownload
  simp only [b.updateAllowed, allowed, listFits, b.narrow, Bool.not_true, Bool.false_eq_true, ↓reduceIte]

/-- The bytes held under a ruling, none where it holds none. -/
def heldPiece (ruling : Nat) (held : List (Nat × Mem)) : Mem := match held.find? (fun x => x.1 = ruling) with | some x => x.2 | none => []

theorem heldPiece_newest {ruling : Nat} {held : List (Nat × Mem)} (unheld : ∀ x ∈ held, x.1 ≠ ruling) (data : Mem) :
    heldPiece ruling (held ++ [(ruling, data)]) = data := by
  unfold heldPiece
  rw [List.find?_append, List.find?_eq_none.2 (by simpa using unheld)]
  simp

/-- At its turn the piece goes on with the bytes held under its ruling. -/
theorem startFirmware_piece (h : s.Begins (.firmwareDownload data g) 0 f t i) (first : ∀ j ∈ s.nib.items, isFirmware (Entry.opcode j.entry) = false)
    (idle : s.boot.swapWork = none) : ∃ bytes held, startFirmware i t = startPiece i bytes { t with boot := { s.boot with held := held } }
      ∧ ((∀ x ∈ s.boot.held, x.1 ≠ s.nib.next) → bytes = data) := by
  obtain ⟨b, -, boot⟩ := begun_firmwareDownload h
  have op : Entry.opcode i.entry = 0xA0 := b.entry ▸ opcode_of_begins h rfl
  refine ⟨heldPiece i.ruling (s.boot.held ++ [(i.ruling, data)]), (s.boot.held ++ [(i.ruling, data)]).filter (fun x => x.1 ≠ i.ruling), ?_, fun unheld => ?_⟩
  · unfold startFirmware heldPiece
    simp only [b.firmwareBusy_none first, boot, idle, op, Option.isSome_none, Bool.or_self, Bool.false_eq_true, ↓reduceIte] <;> rfl
  · exact heldPiece_newest (by simpa [b.ruling] using unheld) data

end

/-- A piece at the start of a download is taken, whatever download stands. -/
theorem startPiece_first {i : Item} {bytes : Mem} {s : State} (allowed : s.updateAllowed = true) (off : Entry.w2C i.entry = 0) :
    ∃ d, startPiece i bytes s = takePiece i bytes d s := by
  unfold startPiece
  rw [allowed]
  cases s.boot.dl with
  | some d => exact ⟨d, by simp [off]⟩
  | none => exact ⟨_, by simp only [off, Bool.not_true, Bool.false_eq_true, ↓reduceIte]; rfl⟩

/-- The download that a piece begins or goes on with. -/
def pieceOf (i : Item) (bytes : Mem) (d : Download) : Download :=
  { d with complete := false, piece := Mem.norm 0xFF (Entry.length i.entry) bytes, pieceLen := Entry.length i.entry, pieceOff := Entry.w2C i.entry
           at_ := Entry.w2C i.entry, fails := if Entry.w2C i.entry = 0 then [] else d.fails }

/-- BOOT takes up a piece for a bank. -/
def programs (target : BankId) (d : Download) (s : State) : State := { s with boot := { s.boot with dl := some d, busy := some target } }

theorem takePiece_withdraws {i : Item} {s : State} (off : Entry.w2C i.entry = 0) (needed : s.withdrawNeeded = true) (bytes : Mem) (d : Download) :
    takePiece i bytes d s = setItem { i with wait := .boot }
      (programs (otherBank s.rst.bank) (pieceOf i bytes d) (beginSwap { rec_ := withdrawRecord s, fails := 0, ruling := i.ruling } s)) := by
  unfold takePiece
  simp only [off, needed, ne_eq, not_true_eq_false, ↓reduceIte, decide_true, Bool.and_self]
  unfold programs pieceOf
  simp only [off, ↓reduceIte]

theorem takePiece_first {i : Item} {s : State} (off : Entry.w2C i.entry = 0) (needed : s.withdrawNeeded = false) (bytes : Mem) (d : Download) :
    takePiece i bytes d s = setItem { i with wait := .boot } (programs s.targetBank (pieceOf i bytes d) (markEmpty s.targetBank s)) := by
  unfold takePiece
  simp only [off, needed, ne_eq, not_true_eq_false, ↓reduceIte, Bool.and_false, Bool.false_eq_true]
  unfold programs pieceOf
  simp only [off, ↓reduceIte]

theorem takePiece_next {i : Item} {s : State} (off : Entry.w2C i.entry ≠ 0) (bytes : Mem) (d : Download) :
    takePiece i bytes d s = setItem { i with wait := .boot } (programs s.targetBank (pieceOf i bytes d) s) := by
  unfold takePiece
  simp only [off, ne_eq, not_false_eq_true, ↓reduceIte, decide_false, Bool.false_and, Bool.false_eq_true]
  unfold programs pieceOf
  simp only [off, ↓reduceIte]

/-- A bank that is marked as holding no image keeps its bytes. -/
theorem markEmpty_spec (x : BankId) (s : State) : (∀ y, ((markEmpty x s).bankOf y).bytes = (s.bankOf y).bytes) ∧ ((markEmpty x s).bankOf x).present = false
    ∧ (markEmpty x s).boot.swapWork = s.boot.swapWork ∧ (markEmpty x s).nib = s.nib := by
  cases x <;> exact ⟨fun y => by cases y <;> rfl, rfl, rfl, rfl⟩

theorem beginSwap_bankOf (w : SwapWork) (s : State) (x : BankId) : (beginSwap w s).bankOf x = s.bankOf x := by
  unfold beginSwap Boot.clearSlot
  cases x <;> split <;> rfl

/-- Settles O38: a piece by the check that its command fails, by what it waits for, and by whether it begins a download. -/
theorem firmwarePiecesAreTaken : Obligations.FirmwarePiecesAreTaken := by
  refine ⟨?first, ?next, ?place, ?forbidden, ?behind, ?record_, ?list⟩
  case first =>
    intro s data g f t i h fits allowed first idle unheld off
    obtain ⟨b, exec_, -⟩ := begun_firmwareDownload h
    obtain ⟨bytes, held, piece, same⟩ := startFirmware_piece h first idle
    obtain rfl := same unheld
    obtain ⟨d, taken⟩ := startPiece_first (i := i) (bytes := bytes) (s := { t with boot := { s.boot with held := held } }) (b.updateAllowed.trans allowed) off
    have waits : ∀ v : State, v.nib = t.nib → (setItem { i with wait := .boot } v).nib.items = s.nib.items ++ [{ i with wait := .boot }] := fun v same => by
      rw [setItem_newest (j := { i with wait := .boot }) ((congrArg Nib.items same).trans b.items) b.fresh rfl]
    have needs : State.withdrawNeeded { t with boot := { s.boot with held := held } } = s.withdrawNeeded := by
      unfold State.withdrawNeeded State.recovery
      rw [b.rst]
      rfl
    rw [exec_, startDownload_allowed h allowed fits, piece, taken]
    cases needed : s.withdrawNeeded
    case false =>
      rw [takePiece_first off (needs.trans needed)]
      obtain ⟨bytes_, empty, work_, nib⟩ := markEmpty_spec s.targetBank { t with boot := { s.boot with held := held } }
      exact ⟨_, pieceOf i bytes d, s.targetBank, rfl, rfl, rfl, rfl, rfl, off, off, rfl, if_pos off, rfl, bytes_, fun _ => empty, nofun, work_.trans idle, waits _ nib⟩
    case true =>
      have record_ : withdrawRecord { t with boot := { s.boot with held := held } } = withdrawRecord s := by
        unfold withdrawRecord
        rw [b.rst]
        rfl
      rw [takePiece_withdraws off (needs.trans needed), record_, b.rst]
      have banks := beginSwap_bankOf { rec_ := withdrawRecord s, fails := 0, ruling := i.ruling } { t with boot := { s.boot with held := held } }
      exact ⟨_, pieceOf i bytes d, otherBank s.rst.bank, rfl, rfl, rfl, rfl, rfl, off, off, rfl, if_pos off, rfl, fun x => congrArg Bank.bytes (banks x), nofun,
        fun _ => banks _, rfl, waits _ rfl⟩
  case next =>
    intro s data g f t i d h fits allowed first idle unheld download place off
    obtain ⟨b, exec_, -⟩ := begun_firmwareDownload h
    obtain ⟨bytes, held, piece, same⟩ := startFirmware_piece h first idle
    obtain rfl := same unheld
    have allowed' : State.updateAllowed { t with boot := { s.boot with held := held } } = true := b.updateAllowed.trans allowed
    have taken : startPiece i bytes { t with boot := { s.boot with held := held } } = takePiece i bytes d { t with boot := { s.boot with held := held } } := by
      rw [startPiece, allowed']
      simp only [download, place, decide_true, Bool.or_true, Bool.not_true, Bool.false_eq_true, ↓reduceIte]
    rw [exec_, startDownload_allowed h allowed fits, piece, taken, takePiece_next off]
    exact ⟨_, pieceOf i bytes d, rfl, rfl, rfl, rfl, place, place, if_neg off, rfl, rfl, rfl, idle⟩
  case place =>
    intro s data g f t i h fits allowed first idle off away
    obtain ⟨b, exec_, -⟩ := begun_firmwareDownload h
    obtain ⟨bytes, held, piece, -⟩ := startFirmware_piece h first idle
    have allowed' : State.updateAllowed { t with boot := { s.boot with held := held } } = true := b.updateAllowed.trans allowed
    refine ⟨{ t with boot := { s.boot with held := held } }, ?_, rfl, rfl, rfl, rfl⟩
    rw [exec_, startDownload_allowed h allowed fits, piece, startPiece, allowed']
    cases download : s.boot.dl with
    | none => simp only [download, off, Bool.not_true, Bool.false_eq_true, ↓reduceIte]
    | some d => simp only [download, off, away d download, Bool.not_true, Bool.false_eq_true, ↓reduceIte, decide_false, Bool.or_self]
  case forbidden =>
    intro s data g f t i h forbidden
    obtain ⟨b, exec_, -⟩ := begun_firmwareDownload h
    rw [exec_, startDownload, b.updateAllowed, forbidden]
    rfl
  case behind =>
    intro s data g f t i j h fits allowed only firmware
    obtain ⟨b, exec_, -⟩ := begun_firmwareDownload h
    rw [exec_, startDownload_allowed h allowed fits, b.startFirmware_turn (.inl (b.firmwareBusy_some (by simp [only]) firmware)), only]
    rfl
  case record_ =>
    intro s data g f t i w h fits allowed none_ writes
    obtain ⟨b, exec_, -⟩ := begun_firmwareDownload h
    rw [exec_, startDownload_allowed h allowed fits, b.startFirmware_turn (.inr (by rw [writes]; rfl)), none_]
    rfl
  case list =>
    intro s data g f t i h allowed misfits
    obtain ⟨b, exec_, -⟩ := begun_firmwareDownload h
    have listFits : i.listFits = false := by
      unfold Item.listFits
      rw [b.segs, b.narrow]
      exact misfits
    rw [exec_, startDownload, b.updateAllowed, allowed, listFits]
    rfl

end Sys2Proof.Proofs
end

section
/-! O40. Firmware Activate (R198, R232, R369, R370): its checks, the record of the activation in force, and the restart on the new image. -/

namespace Sys2Proof.Proofs

open Sys2Proof Sys2Proof.Machine Sys2Proof.Laws

/-! ## Firmware Activate, as it begins (R232) -/

/-- The rows of Firmware Activate, by its action. -/
def isActivate (c : Instr) : Prop := c = .firmwareActivateNextReset ∨ c = .firmwareActivateImmediate ∨ c = .firmwareActivateOtherBank

section
variable {s t : State} {c : Instr} {f : Fetched} {i : Item} (h : s.Begins c 0 f t i) (row : isActivate c)
include h row

/-- What a row of Firmware Activate takes. -/
theorem takes_activate : Entry.opcode f.entry = 0xA1 ∧ (Entry.b2C f.entry = 1 ↔ c = .firmwareActivateImmediate)
    ∧ (Entry.b2C f.entry = 2 ↔ c = .firmwareActivateOtherBank) := by
  obtain ⟨-, ⟨k, taken, kind⟩, -⟩ := h
  rcases row with rfl | rfl | rfl <;> obtain rfl := congrArg Prod.snd (Option.some.inj taken) <;>
    simp only [isOp, Bool.and_eq_true, decide_eq_true_eq] at kind <;> simp [kind]

theorem begun_activate : FirmwareBegun s c f t i ∧ exec c s = .next (settleUp (startFirmware i t)) ∧ t.boot = s.boot
    ∧ Entry.opcode i.entry = 0xA1 ∧ (Entry.b2C i.entry = 1 ↔ c = .firmwareActivateImmediate) ∧ (Entry.b2C i.entry = 2 ↔ c = .firmwareActivateOtherBank) := by
  obtain ⟨op, immediate, other⟩ := takes_activate h row
  have b := firmwareBegun_of_begins h (by rw [op]; rfl)
  refine ⟨b, ?_, ?_, by rw [b.entry, op], by rw [b.entry, immediate], by rw [b.entry, other]⟩
  · rw [exec_of_begins h, begin_admits h.2.2, b.entry, op]
    rfl
  · rw [b.boot, op]
    rfl

/-- At its turn Firmware Activate goes on with the checks of its image. -/
theorem exec_activate (first : ∀ j ∈ s.nib.items, isFirmware (Entry.opcode j.entry) = false) (idle : s.boot.swapWork = none) (allowed : s.updateAllowed = true) :
    exec c s = .next (settleUp (if Entry.b2C i.entry = 1 && s.sanitizeRuns then failWith i 0x1B t
      else if !activationPasses i s then failWith i 0x18 t
      else setItem { i with wait := .boot }
        (beginSwap { rec_ := s.boot.newRecord (fun r => { r with active := s.targetBank, trial := true, cause := 1 }), fails := 0, ruling := i.ruling } t))) := by
  obtain ⟨b, exec_, boot, op, -⟩ := begun_activate h row
  have runs : t.sanitizeRuns = s.sanitizeRuns := by
    unfold State.sanitizeRuns State.recovery
    rw [b.rst, b.rec_, b.lops]
  have passes : activationPasses i t = activationPasses i s := by
    unfold activationPasses State.imagePasses State.targetBank State.bankOf
    rw [boot, b.unit]
  have other : Entry.opcode i.entry ≠ 0xA0 := by omega
  rw [exec_, startFirmware, b.firmwareBusy_none first, boot, idle]
  simp only [Option.isSome_none, Bool.or_self, Bool.false_eq_true, ↓reduceIte, other]
  rw [startActivate, b.updateAllowed, allowed, runs, passes, boot]
  unfold State.targetBank
  rw [boot]
  rfl

end

/-- No Sanitize stands in the way of the rows that the first two clauses name. -/
theorem unsanitized {s t : State} {c : Instr} {f : Fetched} {i : Item} (h : s.Begins c 0 f t i)
    (row : c = .firmwareActivateNextReset ∨ c = .firmwareActivateImmediate ∧ s.sanitizeRuns = false ∨ c = .firmwareActivateOtherBank) :
    isActivate c ∧ (Entry.b2C i.entry = 1 && s.sanitizeRuns) = false := by
  rcases row with rfl | ⟨rfl, quiet⟩ | rfl
  · obtain ⟨-, -, -, -, immediate, -⟩ := begun_activate h (.inl rfl)
    exact ⟨.inl rfl, by simp [immediate]⟩
  · exact ⟨.inr (.inl rfl), by simp [quiet]⟩
  · obtain ⟨-, -, -, -, immediate, -⟩ := begun_activate h (.inr (.inr rfl))
    exact ⟨.inr (.inr rfl), by simp [immediate]⟩

/-! ## The record of an activation (R362, R369) -/

/-- The record is in force, and BOOT writes no other. -/
def inForce (w : SwapWork) (s : State) : State := { s with out := [], boot := { s.boot.put w.rec_ with swapWork := none } }

theorem inForce_owed (w : SwapWork) (s : State) : (inForce w s).boot.owed = s.boot.owed := by
  unfold inForce Boot.put
  split <;> rfl

theorem readySwap_of_unowed {s : State} (unowed : s.boot.owed = false) : readySwap s = s := by
  unfold readySwap
  simp only [unowed, Bool.not_false, Bool.true_or, ↓reduceIte]

theorem activated_boot {i : Item} {s : State} (normal : s.recovery = false) : (activated i s).boot.owed = s.boot.owed := by
  unfold activated
  simp only [show State.recovery { s with boot := { s.boot with dl := none } } = false from normal, Bool.false_eq_true, ↓reduceIte]
  split
  · rfl
  · obtain ⟨_, _, _, _, _, _, _, answered⟩ := complete_answered (Ending.ofItem i) (Fail.of 0) 0 (removeItem i false { s with boot := { s.boot with dl := none } })
    have ends : succeed i 0 { s with boot := { s.boot with dl := none } }
      = complete (Ending.ofItem i) (Fail.of 0) 0 (removeItem i false { s with boot := { s.boot with dl := none } }) := rfl
    rw [ends, answered]
    rfl

section
variable {s : State} {w : SwapWork} {i : Item} (on : s.running = true) (normal : s.recovery = false) (calm : s.flt.stopping = false)
  (writes : s.boot.swapWork = some w) (unowed : s.boot.owed = false) (unack : s.flt.unack = []) (found : s.item? w.ruling = some i)
  (op : Entry.opcode i.entry = 0xA1)
include on normal calm writes unowed unack found op

/-- An activation's record that passes its verify is in force, with no record of ready to follow (R362, R369). -/
theorem exec_recordProgrammed : exec (.bootFlashOperationComplete true) s = .next (settleUp (activated i (inForce w s))) := by
  have serves : swapServes w (inForce w s) = activated i (inForce w s) := by
    have found' : (inForce w s).item? w.ruling = some i := found
    unfold swapServes
    simp only [inForce_owed, unowed, found', op, Bool.false_and, Bool.false_eq_true, ↓reduceIte]
  have last : (activated i (inForce w s)).boot.owed = false := (activated_boot (s := inForce w s) normal).trans ((inForce_owed w s).trans unowed)
  change execBootFlashOperationComplete true s = _
  unfold execBootFlashOperationComplete
  rw [work_onlyIf_true (by simp [on, calm])]
  simp only [writes, ↓reduceIte]
  rw [swapPassed, ackReaction_none (by exact unack)]
  have passed : (if (swapServes w (inForce w s)).running = true then readySwap (swapServes w (inForce w s)) else swapServes w (inForce w s))
      = activated i (inForce w s) := by
    rw [serves, readySwap_of_unowed last, ite_self]
  exact congrArg (fun u => Host.Outcome.next (settleUp u)) passed

end

/-! ## The restart on the new image (R198, R370) -/

/-- Of `a` the long operations alone have moved. -/
structure LopsMoved (a t : State) : Prop where
  eq : ∃ lops, t = { a with lops := lops }

theorem LopsMoved.refl (a : State) : LopsMoved a a := ⟨a.lops, rfl⟩

theorem LopsMoved.trans {a b c : State} (h : LopsMoved a b) (k : LopsMoved b c) : LopsMoved a c := by
  obtain ⟨_, rfl⟩ := h
  obtain ⟨lops, rfl⟩ := k
  exact ⟨lops, rfl⟩

theorem LopsMoved.foldl {α : Type} {step : State → α → State} (each : ∀ s x, LopsMoved s (step s x)) (l : List α) (s : State) : LopsMoved s (l.foldl step s) := by
  induction l generalizing s with
  | nil => exact .refl s
  | cons x l ih => exact (each s x).trans (ih _)

theorem fillRebuilds_lopsMoved (fuel : Nat) (s : State) : LopsMoved s (fillRebuilds fuel s) := by
  induction fuel generalizing s with
  | zero => exact .refl s
  | succ fuel ih =>
    unfold fillRebuilds
    split
    · exact .refl s
    · split
      · exact LopsMoved.trans ⟨_, rfl⟩ (ih _)
      · exact .refl s

theorem createRebuild_lopsMoved (typ target : Nat) (s : State) : LopsMoved s (createRebuild typ target s) :=
  LopsMoved.trans ⟨_, rfl⟩ (fillRebuilds_lopsMoved 14 _)

theorem rebuildNext_of_noBands {s : State} (bands : s.ftl.bands = []) : rebuildNext s = s := by
  have none_ : s.rebuildFirst = none := by
    unfold State.rebuildFirst
    rw [bands]
    rfl
  unfold rebuildNext
  rw [none_]
  exact ite_self s

/-- Where no band is formed, the work that goes on after a restart is entered in the page of long operations alone. -/
theorem resumeWork_lopsMoved {s : State} (bands : s.ftl.bands = []) : LopsMoved s (resumeWork s) := by
  have resumed : LopsMoved s (resumeSanitize s) := ⟨resumeSanitize_eq s⟩
  unfold resumeWork
  dsimp only
  generalize entered : List.foldl _ (resumeSanitize s) (resumeSanitize s).rec_.rebuilds = t
  have moved : LopsMoved s t := by
    rw [← entered]
    refine resumed.trans (LopsMoved.foldl (fun u x => ?_) _ _)
    split
    · exact .refl u
    · exact createRebuild_lopsMoved _ _ u
  have none_ : t.ftl.bands = [] := by
    obtain ⟨_, moved⟩ := moved
    rw [moved]
    exact bands
  rw [rebuildNext_of_noBands none_]
  exact moved

/-- The slot that is cleared for a new record is not the one in force (R362). -/
theorem clearSlot_record (b : Boot) : b.clearSlot.record = b.record := by
  unfold Boot.clearSlot Boot.slot0InForce Boot.record
  cases b.swap0 with
  | none => cases b.swap1 <;> simp
  | some x =>
    cases b.swap1 with
    | none => simp
    | some y => by_cases older : x.seq < y.seq <;> simp [older]

theorem clearSlot_eq (b : Boot) : ∃ x y, b.clearSlot = { b with swap0 := x, swap1 := y } := by
  unfold Boot.clearSlot
  split
  · exact ⟨b.swap0, none, rfl⟩
  · exact ⟨none, b.swap1, rfl⟩

/-- The new image runs, and the record of ready is owed. -/
def onNewImage (s : State) : State :=
  let u := runImage s.boot.record.active { s with
    rst := { s.rst with bank := s.boot.record.active }, lops := { s.lops with list := endByRestart s.rst.timeMs s.lops.list } }
  { u with boot := { u.boot with activating := false, owed := true }, nib := { u.nib with paused := false } }

/-- The record of ready ends the trial of the bank that now runs (R370). -/
def trialEnded (s : State) : SwapRec := s.boot.newRecord (readyRecord (onNewImage s).boot.runSecurity (onNewImage s).boot.runRevoke)

theorem readySwap_onNewImage {s : State} (normal : s.recovery = false) (idle : s.boot.swapWork = none) (trial : s.boot.record.trial = true)
    (rebuild : s.boot.rebuild = false) : readySwap (onNewImage s) = beginSwap { rec_ := trialEnded s, fails := 0, ruling := 0 } (onNewImage s) := by
  have normal' : (onNewImage s).recovery = false := normal
  have idle' : (onNewImage s).boot.swapWork = none := idle
  have trial' : (onNewImage s).boot.record.trial = true := trial
  have rebuild' : (onNewImage s).boot.rebuild = false := rebuild
  have runs : (onNewImage s).rst.bank = (onNewImage s).boot.record.active := rfl
  have calls : (onNewImage s).readyRec = some (trialEnded s) := by
    unfold State.readyRec
    simp only [normal', trial', rebuild', runs, Bool.false_eq_true, ↓reduceIte, ne_eq, not_true_eq_false, decide_false, decide_true, Bool.and_false, Bool.and_self]
    rfl
  have owed : (onNewImage s).boot.owed = true := rfl
  unfold readySwap
  simp only [owed, idle', calls, Bool.not_true, Option.isSome_none, Bool.or_self, Bool.false_eq_true, ↓reduceIte]

theorem exec_firmwareActivationRestart {s : State} {i : Item} (on : s.running = true) (activating : s.boot.activating = true) (fetched : s.nib.fetched = [])
    (only : s.nib.items = [i]) (waits : i.wait = .restart) :
    exec .firmwareActivationRestart s = .next (settleUp (succeed i 0 (resumeWork (readySwap (onNewImage { s with out := [] }))))) := by
  have drained : s.drained = true := by simp [State.drained, fetched, only, waits]
  have found : s.nib.items.find? (fun j => j.wait = .restart) = some i := by simp [only, waits]
  change execFirmwareActivationRestart s = _
  unfold execFirmwareActivationRestart
  rw [work_onlyIf_true (by simp only [on, activating, drained, Bool.and_self])]
  simp only [found]
  rfl

/-- The restart: the bank of the trial runs, its measurement and limits stand, and the record that ends the trial is being written. -/
theorem restart_onNewImage {s : State} (bands : s.ftl.bands = []) (normal : s.recovery = false) (idle : s.boot.swapWork = none)
    (trial : s.boot.record.trial = true) (rebuild : s.boot.rebuild = false) : ∃ u w, resumeWork (readySwap (onNewImage s)) = u
      ∧ u.rst.bank = s.boot.record.active ∧ u.boot.activating = false ∧ u.nib.paused = false
      ∧ u.boot.runMeasure = measurement (s.bankOf s.boot.record.active).bytes
      ∧ u.boot.runSecurity = imgField (s.bankOf s.boot.record.active).bytes 0x14 4 ∧ u.boot.owed = true ∧ u.boot.record = s.boot.record
      ∧ u.boot.swapWork = some w ∧ w.fails = 0 ∧ w.rec_ = { s.boot.record with
        seq := s.boot.record.seq + 1, trial := false, cause := 2, floor := max s.boot.record.floor (imgField (s.bankOf s.boot.record.active).bytes 0x14 4)
        revoked := s.boot.record.revoked ||| BitVec.ofNat 4 (imgField (s.bankOf s.boot.record.active).bytes 0x19 1) }
      ∧ u.nib.pairs = s.nib.pairs ∧ u.nib.next = s.nib.next ∧ u.map = s.map := by
  obtain ⟨_, resumed⟩ := resumeWork_lopsMoved (s := beginSwap { rec_ := trialEnded s, fails := 0, ruling := 0 } (onNewImage s)) bands
  have record_ := clearSlot_record (onNewImage s).boot
  obtain ⟨x, y, cleared⟩ := clearSlot_eq (onNewImage s).boot
  refine ⟨_, { rec_ := trialEnded s, fails := 0, ruling := 0 }, rfl, ?_⟩
  rw [readySwap_onNewImage normal idle trial rebuild, resumed, beginSwap]
  rw [cleared] at record_ ⊢
  exact ⟨rfl, rfl, rfl, rfl, rfl, rfl, record_, rfl, rfl, rfl, rfl, rfl, rfl⟩

/-- Settles O40: an activation by the outcome of its checks, the record in force by its action, and the restart by the work that it resumes. -/
theorem firmwareIsActivated : Obligations.FirmwareIsActivated := by
  refine ⟨?writes, ?refused, ?busy, ?ends, ?waits, ?restarts⟩
  case writes =>
    intro s c f t i r row h allowed first idle passes whole shape
    obtain ⟨activate, quiet⟩ := unsanitized h row
    obtain ⟨b, -, boot, -, -, other⟩ := begun_activate h activate
    have passes' : activationPasses i s = true := by
      unfold activationPasses
      rcases whole with rfl | ⟨d, download, complete⟩
      · simp [other, passes]
      · simp [download, complete, passes]
    have waits := setItem_newest (s := beginSwap { rec_ := r, fails := 0, ruling := i.ruling } t) (j := { i with wait := .boot }) b.items b.fresh rfl
    have record_ : s.boot.newRecord (fun r => { r with active := s.targetBank, trial := true, cause := 1 }) = r := shape.symm
    rw [exec_activate h activate first idle allowed, quiet, passes', record_, if_neg Bool.false_ne_true, if_neg (by simp), waits]
    rfl
  case refused =>
    intro s c f t i row h allowed first idle fails
    obtain ⟨activate, quiet⟩ := unsanitized h row
    obtain ⟨-, -, -, -, -, other⟩ := begun_activate h activate
    have fails' : activationPasses i s = false := by
      unfold activationPasses
      rcases fails with image | ⟨fresh, none_⟩
      · simp [image]
      · simp [other, fresh, none_]
    rw [exec_activate h activate first idle allowed, quiet, fails']
    rfl
  case busy =>
    intro s f t i h allowed sanitize first idle
    have activate : isActivate .firmwareActivateImmediate := .inr (.inl rfl)
    obtain ⟨-, -, -, -, immediate, -⟩ := begun_activate h activate
    have runs : s.sanitizeRuns = true := by
      unfold State.sanitizeRuns
      rcases sanitize with ⟨normal, record_⟩ | ⟨o, listed, typ, state⟩
      · simp [normal, Option.isSome_iff_ne_none.2 record_]
      · have runs : s.lops.list.any (fun o => o.typ = 1 && o.state < 3) = true := List.any_eq_true.2 ⟨o, listed, by simp [typ, state]⟩
        rw [runs, Bool.or_true]
    rw [exec_activate h activate first idle allowed, runs, immediate.2 rfl]
    rfl
  case ends =>
    intro s w i on normal calm writes unowed unack found op action
    rw [exec_recordProgrammed on normal calm writes unowed unack found op, activated]
    have normal' : State.recovery { inForce w s with boot := { (inForce w s).boot with dl := none } } = false := normal
    simp only [normal', action, Bool.false_eq_true, ↓reduceIte]
    rfl
  case waits =>
    intro s w i on normal calm writes unowed unack found op action
    have normal' : State.recovery { inForce w s with boot := { (inForce w s).boot with dl := none } } = false := normal
    rw [exec_recordProgrammed on normal calm writes unowed unack found op, activated]
    simp only [normal', action, Bool.false_eq_true, ↓reduceIte]
    exact ⟨_, rfl, rfl, rfl, rfl, rfl⟩
  case restarts =>
    intro s i on activating fetched only waits lops bands normal idle trial rebuild
    obtain ⟨u, w, resumed, image⟩ := restart_onNewImage (s := { s with out := [] }) bands normal idle trial rebuild
    exact ⟨u, w, by rw [exec_firmwareActivationRestart on activating fetched only waits, resumed], image⟩

end Sys2Proof.Proofs
end

section
/-! O33. The commands of the admin class as they begin (chapter 08), and Await Event, Set Time and Power Hint (R218, R225, R226). -/

namespace Sys2Proof.Proofs

open Sys2Proof Sys2Proof.Machine Sys2Proof.Laws

/-! ## Commands of the admin class, as they begin -/

/-- What a command does once it begins, for those of the admin class that return no structure and name no queue (Table 08-1). -/
def adminRun (op : Nat) : Item → State → State :=
  match op with
  | 0x85 => runAwait
  | 0x8A => runSetTime
  | 0x8B => runPowerHint
  | 0x99 => runSelfTest
  | 0x9A => runCalibrate
  | 0x9B => runControl
  | 0xA8 => runEpochCommit
  | 0xA9 => runEpochResolve
  | _ => runChange

/-- Their opcodes. -/
def adminOps : List Nat := [0x85, 0x8A, 0x8B, 0x90, 0x91, 0x92, 0x93, 0x94, 0x95, 0x99, 0x9A, 0x9B, 0xA8, 0xA9]

/-- The item of such a command that begins, and what its admission has left alone. -/
structure AdminBegun (s : State) (f : Fetched) (t : State) (i : Item) : Prop where
  entry : i.entry = f.entry
  narrow : i.narrow = false
  wait : i.wait = .lock
  items : t.nib.items = s.nib.items ++ [i]
  fresh : ∀ j ∈ s.nib.items, j.ruling < i.ruling
  rst : t.rst = s.rst
  strap : t.strap = s.strap
  unit : t.unit = s.unit
  map : t.map = s.map
  log : t.log = s.log
  ftl : t.ftl = s.ftl
  rec_ : t.rec_ = s.rec_
  lops : t.lops = s.lops
  flt : t.flt = s.flt
  lig : t.lig = s.lig
  staged : t.res.staged = s.res.staged

section
variable {s t : State} {f : Fetched} {i : Item} {c : Instr}

theorem adminBegun_of_begins (h : s.Begins c 0 f t i) (admin : Entry.opcode f.entry ∈ adminOps) : AdminBegun s f t i := by
  have plain : Entry.opcode f.entry ≠ 0x98 ∧ Entry.opcode f.entry ≠ 1 ∧ Entry.opcode f.entry ≠ 4 := by
    refine ⟨?_, ?_, ?_⟩ <;> · intro e; rw [e] at admin; exact absurd admin (by decide)
  obtain ⟨sanitize, write_, release⟩ := plain
  obtain ⟨v, e, hd, a, w, p, x, y, z, rfl, entry, ruling, narrow, -, -, wait, -, -, -, -, -, -, rec_, ftl, -, -, fresh, -⟩ := begins_eq h sanitize
  exact ⟨entry, narrow, wait, rfl, ruling ▸ fresh, rfl, rfl, rfl, rfl, rfl, ftl write_ release, rec_ write_, rfl, rfl, rfl, rfl⟩

theorem exec_admin (h : s.Begins c 0 f t i) (b : AdminBegun s f t i) {n : Nat} (op : Entry.opcode f.entry = n) (admin : n ∈ adminOps) :
    exec c s = .next (settleUp (adminRun n i t)) := by
  rw [exec_of_begins h, begin_admits h.2.2, b.entry, op]
  simp only [adminOps, List.mem_cons, List.not_mem_nil, or_false] at admin
  rcases admin with rfl | rfl | rfl | rfl | rfl | rfl | rfl | rfl | rfl | rfl | rfl | rfl | rfl | rfl <;> rfl

theorem admin_of_row {n : Nat} (h : s.Begins c 0 f t i) (row : s.hostRow c = some (0, isOp n)) (admin : n ∈ adminOps) :
    AdminBegun s f t i ∧ exec c s = .next (settleUp (adminRun n i t)) ∧ Entry.opcode i.entry = n := by
  have op := opcode_of_begins h row
  have b := adminBegun_of_begins h (op ▸ admin)
  exact ⟨b, exec_admin h b op admin, b.entry ▸ op⟩

end

namespace AdminBegun

variable {s t : State} {f : Fetched} {i : Item} (b : AdminBegun s f t i)
include b

theorem setItem {j : Item} (same : j.ruling = i.ruling) : Machine.setItem j t = { t with nib := { t.nib with items := s.nib.items ++ [j] } } :=
  setItem_newest b.items b.fresh same

/-- The commands that wait for an event are those of before. -/
theorem awaiting : t.nib.items.filter (fun j => j.wait = .event) = s.nib.items.filter (fun j => j.wait = .event) := by
  rw [b.items, List.filter_append]
  simp [b.wait]

end AdminBegun

/-! ## Await Event (R218) -/

/-- With no event pending there is none to deliver. -/
theorem deliverEvent_none {s : State} (calm : ∀ k < 16, (s.flt.events.getD k Ev.none).pending = false) : deliverEvent s = s := by
  have none_ : (List.range 16).find? (fun k => (s.flt.events.getD k Ev.none).pending) = none :=
    List.find?_eq_none.2 fun k listed => by rw [calm k (List.mem_range.1 listed)]; decide
  unfold deliverEvent
  rw [none_]
  split <;> rfl

/-- The lowest event pending goes to the command that waits. -/
theorem deliverEvent_first {s : State} {l : List Item} {j : Item} {k : Nat} (items : s.nib.items = l ++ [j]) (none_ : ∀ x ∈ l, x.wait ≠ .event)
    (waits : j.wait = .event) (inside : k < 16) (first : ∀ m < k, (s.flt.events.getD m Ev.none).pending = false)
    (pending : (s.flt.events.getD k Ev.none).pending = true) :
    deliverEvent s = succeed j (k + 16 * (s.flt.events.getD k Ev.none).level + 65536 * (s.flt.events.getD k Ev.none).count)
      { s with flt := { s.flt with events := s.flt.events.set k { s.flt.events.getD k Ev.none with pending := false, count := 0 } } } := by
  have oldest : s.nib.items.find? (fun i => i.wait = .event) = some j := by
    rw [items, List.find?_append, List.find?_eq_none.2 fun x listed => by simpa using none_ x listed]
    simp [waits]
  have lowest : (List.range 16).find? (fun k => (s.flt.events.getD k Ev.none).pending) = some k :=
    List.find?_range_eq_some.2 ⟨pending, List.mem_range.2 inside, fun m below => by rw [first m below]; rfl⟩
  unfold deliverEvent
  simp only [oldest, lowest]

/-- Settles O33: what waits and what is pending as an Await Event begins, and the wall time and the hint as their commands set them. -/
theorem eventsTimeAndHints : Obligations.EventsTimeAndHints := by
  refine ⟨?waits, ?pending, ?fifth, ?time, ?hint, ?expiry⟩
  case waits =>
    intro s f t i h noneWaits calm
    obtain ⟨b, exec_, -⟩ := admin_of_row h rfl (by decide)
    have few : t.nib.items.filter (fun j => j.wait = .event) = [] := by
      rw [b.awaiting, List.filter_eq_nil_iff]
      simpa using noneWaits
    rw [exec_, adminRun, runAwait, few, if_neg (by decide), deliverEvent_none (b.flt ▸ calm), b.setItem (j := { i with wait := .event }) rfl]
  case pending =>
    intro s f t i k e h noneWaits inside first found pending
    obtain ⟨b, exec_, -⟩ := admin_of_row h rfl (by decide)
    have few : t.nib.items.filter (fun j => j.wait = .event) = [] := by
      rw [b.awaiting, List.filter_eq_nil_iff]
      simpa using noneWaits
    subst found
    rw [exec_, adminRun, runAwait, few, if_neg (by decide), b.setItem (j := { i with wait := .event }) rfl,
      deliverEvent_first (l := s.nib.items) (k := k) rfl noneWaits rfl inside (b.flt ▸ first) (b.flt ▸ pending)]
    simp only [b.flt]
  case fifth =>
    intro s f t i h four
    obtain ⟨b, exec_, -⟩ := admin_of_row h rfl (by decide)
    rw [exec_, adminRun, runAwait, b.awaiting, if_pos four]
  case time =>
    intro s f t i h noTime
    obtain ⟨b, exec_, -⟩ := admin_of_row h rfl (by decide)
    have uncorrected : wallCorrection (Entry.d2C i.entry) { t with wall := some (Entry.d2C i.entry) } = { t with wall := some (Entry.d2C i.entry) } := by
      unfold wallCorrection
      exact if_pos (b.rec_ ▸ noTime)
    rw [exec_, adminRun, runSetTime]
    dsimp only
    rw [uncorrected, ite_self]
  case hint =>
    intro s f t i h
    obtain ⟨b, exec_, -⟩ := admin_of_row h rfl (by decide)
    rw [exec_, adminRun, runPowerHint]
    simp only [b.narrow, Bool.false_and, Bool.false_eq_true, ↓reduceIte]
  case expiry =>
    intro s runs
    exact answer_onlyIf_true runs

end Sys2Proof.Proofs
end

section
/-! O34. The changes of partitions and protection (R205, R212, R217, R237, R380, R386): the records that a command enters, and those that change nothing. -/

namespace Sys2Proof.Proofs

open Sys2Proof Sys2Proof.Machine Sys2Proof.Laws

/-! ## The changes of each command -/

section
variable {e : Entry} (limit profile ruling : Nat) (m : MapState)

/-- A region in the lowest gap needs no other one to move (R237). -/
theorem changesOf_create (op : Entry.opcode e = 0x90) {base : Nat} (gap : findGap limit (Entry.d2C e) 0 (byBase m.parts) = some base) :
    changesOf limit profile ruling m e = [(4, .create (newPart e ruling base))] := by
  simp only [changesOf, op, placeRegion, gap, ↓reduceIte, List.nil_append]

theorem changesOf_delete (op : Entry.opcode e = 0x91) : changesOf limit profile ruling m e = [(5, .delete (Entry.part e))] := by
  simp only [changesOf, op]

theorem changesOf_cap (op : Entry.opcode e = 0x92) : changesOf limit profile ruling m e = if m.cardFix then [] else
    if Entry.part e = 0 then (if m.cardCap then [] else [(7, .capCard true)])
    else if (m.part? (Entry.part e)).any (fun x => x.capped || x.fixed) then [] else [(7, .capPart (Entry.part e) true)] := by
  simp only [changesOf, op]

theorem changesOf_uncap (op : Entry.opcode e = 0x93) : changesOf limit profile ruling m e =
    if Entry.part e = 0 then (if m.cardCap then [(7, .capCard false)] else [])
    else if (m.part? (Entry.part e)).any (·.capped) then [(7, .capPart (Entry.part e) false)] else [] := by
  simp only [changesOf, op]

theorem changesOf_fix (op : Entry.opcode e = 0x94) : changesOf limit profile ruling m e = if m.cardFix then [] else
    if Entry.part e = 0 then [(7, .fixCard)]
    else if (m.part? (Entry.part e)).any (·.fixed) then [] else [(7, .fixPart (Entry.part e))] := by
  simp only [changesOf, op]

theorem changesOf_access (op : Entry.opcode e = 0x95) : changesOf limit profile ruling m e =
    [(7, .access (Entry.part e) (BitVec.ofNat 64 (Entry.d2C e)) (BitVec.ofNat 64 (Entry.d34 e)))] := by
  simp only [changesOf, op]

end

/-! ## A command that changes them -/

/-- The blocks of a partition that is deleted leave the read cache; any other change leaves it alone (R217, R245). -/
def uncached (i : Item) (s : State) : State :=
  match if Entry.opcode i.entry = 0x91 then s.partOf i else none with
  | some p => { s with ftl := { s.ftl with cache := s.ftl.cache.filter (fun b => b < p.base || p.base + p.size ≤ b) } }
  | none => s

theorem uncached_of_delete {i : Item} {s : State} {p : Part} (op : Entry.opcode i.entry = 0x91) (found : s.partOf i = some p) :
    uncached i s = { s with ftl := { s.ftl with cache := s.ftl.cache.filter (fun b => b < p.base || p.base + p.size ≤ b) } } := by
  unfold uncached
  rw [if_pos op, found]

theorem uncached_of_other {i : Item} {s : State} (op : Entry.opcode i.entry ≠ 0x91) : uncached i s = s := by
  unfold uncached
  rw [if_neg op]

/-- The record of one change, the only one of its group (R246). -/
structure ChangeRec (ruling n : Nat) (chg : Change) (r : MapRec) : Prop where
  typ : r.typ = n
  ruling : r.ruling = ruling
  last : r.last = true
  chg : r.chg = chg

/-- A record of a change is entered: it joins those that wait for a page, and the live map takes the change. -/
def entered (r : MapRec) (s : State) : State :=
  { s with map := r.chg.apply s.map, log := { s.log with buf := s.log.buf ++ [r], nextSeq := (s.log.nextSeq + 1) % 2 ^ 32 } }

theorem addRecs_change {n : Nat} (kind : 4 ≤ n ∧ n ≤ 7) (ruling : Nat) (chg : Change) (s : State) :
    ∃ r, ChangeRec ruling n chg r ∧ addRecs (changeRecs ruling [(n, chg)]) s = entered r s := by
  refine ⟨{ (changeRecs ruling [(n, chg)]).headD (mkRec 0 0 0 .none) with last := true, seq := s.log.nextSeq }, ⟨rfl, rfl, rfl, rfl⟩, ?_⟩
  obtain ⟨low, high⟩ := kind
  interval_cases n <;> rfl

theorem runChange_one {i : Item} {s : State} {n : Nat} {chg : Change} (changes : changesOf s.logicalBlocks s.profile i.ruling s.map i.entry = [(n, chg)])
    (clear : s.changeClear i [(n, chg)] = true) (still : movesOf [(n, chg)] = []) (kind : 4 ≤ n ∧ n ≤ 7) :
    ∃ r, ChangeRec i.ruling n chg r ∧ runChange i s = setItem { i with wait := .persist } (entered r (uncached i s)) := by
  obtain ⟨r, record_, enters⟩ := addRecs_change kind i.ruling chg (uncached i s)
  refine ⟨r, record_, ?_⟩
  rw [← enters]
  unfold runChange
  dsimp only
  rw [changes, clear, still, if_neg (by decide), if_pos rfl, if_neg (List.cons_ne_nil _ _)]
  rfl

theorem runChange_none {i : Item} {s : State} (changes : changesOf s.logicalBlocks s.profile i.ruling s.map i.entry = [])
    (clear : s.changeClear i [] = true) : runChange i s = setItem { i with wait := .persist } (settle i.ruling (uncached i s)) := by
  unfold runChange
  dsimp only
  rw [changes, clear, if_neg (by decide), if_pos (show movesOf [] = [] from rfl), if_pos rfl]
  rfl

theorem runChange_turn {i : Item} {s : State} (behind : s.earlierChange i = true) : runChange i s = setItem { i with wait := .turn } s := by
  unfold runChange State.changeClear
  rw [behind]
  rfl

namespace AdminBegun

variable {s t : State} {f : Fetched} {i : Item} (b : AdminBegun s f t i)
include b

theorem earlierChange_alone (alone : s.nib.items = []) : t.earlierChange i = false := by
  unfold State.earlierChange
  rw [b.items, alone]
  simp

theorem earlierChange_behind {j : Item} (outstanding : j ∈ s.nib.items) (op : Entry.opcode j.entry = 0x90 ∨ Entry.opcode j.entry = 0x91)
    (notYet : j.wait ≠ .persist) : t.earlierChange i = true := by
  unfold State.earlierChange
  rw [b.items]
  exact List.any_eq_true.2 ⟨j, List.mem_append_left _ outstanding, by simp [b.fresh j outstanding, op, notYet]⟩

/-- A change of rights waits for nothing staged. -/
theorem changeClear_rights (alone : s.nib.items = []) (right : 0x92 ≤ Entry.opcode i.entry) (l : List (Nat × Change)) : t.changeClear i l = true := by
  unfold State.changeClear
  rw [b.earlierChange_alone alone]
  split
  · next op => exact absurd (op ▸ right) (by decide)
  · next op => exact absurd (op ▸ right) (by decide)
  · rfl

/-- A creation that moves no region waits for nothing staged (R238). -/
theorem changeClear_create (alone : s.nib.items = []) (op : Entry.opcode i.entry = 0x90) (c : Nat × Change) : t.changeClear i [c] = true := by
  unfold State.changeClear
  simp only [b.earlierChange_alone alone, op]
  rfl

/-- A deletion waits for what is staged of the partition's blocks, and for nothing else (R238). -/
theorem changeClear_delete (alone : s.nib.items = []) (op : Entry.opcode i.entry = 0x91) {p : Part} (found : t.partOf i = some p)
    (unstaged : ∀ x ∈ s.res.staged, x.block < p.base ∨ p.base + p.size ≤ x.block) (l : List (Nat × Change)) : t.changeClear i l = true := by
  have clear : t.clearOf i.ruling p.base p.size = true := by
    unfold State.clearOf
    rw [b.staged, Bool.not_eq_true', List.any_eq_false]
    intro x staged
    have := unstaged x staged
    simp only [Bool.and_eq_true, decide_eq_true_eq]
    omega
  unfold State.changeClear
  simp only [b.earlierChange_alone alone, op, found, clear]
  rfl

/-- The end of a command ruled alone, whose change is entered. -/
theorem setItem_entered (alone : s.nib.items = []) (r : MapRec) (ftl : Ftl) :
    Machine.setItem { i with wait := .persist } (entered r { t with ftl := ftl })
      = { entered r { t with ftl := ftl } with nib := { t.nib with items := [{ i with wait := .persist }] } } := by
  rw [setItem_newest (s := entered r { t with ftl := ftl }) (j := { i with wait := .persist }) b.items b.fresh rfl, alone]
  rfl

end AdminBegun

section
variable {s t : State} {f : Fetched} {i : Item} {c : Instr} {n : Nat}

theorem adminOps_change (change_ : 0x90 ≤ n ∧ n ≤ 0x95) : n ∈ adminOps ∧ adminRun n = runChange := by
  obtain ⟨low, high⟩ := change_
  interval_cases n <;> exact ⟨by decide, rfl⟩

theorem begun_change (h : s.Begins c 0 f t i) (row : s.hostRow c = some (0, isOp n)) (change_ : 0x90 ≤ n ∧ n ≤ 0x95) :
    AdminBegun s f t i ∧ exec c s = .next (settleUp (runChange i t)) ∧ Entry.opcode i.entry = n := by
  obtain ⟨admin, run⟩ := adminOps_change change_
  exact run ▸ admin_of_row h row admin

/-- Behind a Create or Delete Partition that has not taken effect the command waits its turn (R237). -/
theorem exec_change_turn (h : s.Begins c 0 f t i) (row : s.hostRow c = some (0, isOp n)) (change_ : 0x90 ≤ n ∧ n ≤ 0x95) {j : Item} (only : s.nib.items = [j])
    (op : Entry.opcode j.entry = 0x90 ∨ Entry.opcode j.entry = 0x91) (notYet : j.wait ≠ .persist) :
    exec c s = .next (settleUp { t with nib := { t.nib with items := [j, { i with wait := .turn }] } }) := by
  obtain ⟨b, exec_, -⟩ := begun_change h row change_
  rw [exec_, runChange_turn (b.earlierChange_behind (j := j) (by simp [only]) op notYet), b.setItem (j := { i with wait := .turn }) rfl, only]
  rfl

/-- Cap, Uncap, Fix and Set Access, where they change something: one record of type 07h (R386). -/
theorem exec_rights (h : s.Begins c 0 f t i) (row : s.hostRow c = some (0, isOp n)) (right : 0x92 ≤ n ∧ n ≤ 0x95) (alone : s.nib.items = []) (chg : Change)
    (still : movesOf [(7, chg)] = [])
    (changes : ∀ limit profile, Entry.opcode i.entry = n → changesOf limit profile i.ruling s.map i.entry = [(7, chg)]) :
    ∃ u r, exec c s = .next (settleUp u) ∧ u.map = chg.apply s.map ∧ u.log.buf = s.log.buf ++ [r] ∧ r.typ = 7 ∧ r.ruling = i.ruling ∧ r.last = true
      ∧ u.nib = { t.nib with items := [{ i with wait := .persist }] } ∧ u.res = t.res ∧ u.ftl = s.ftl ∧ u.rec_ = s.rec_ := by
  obtain ⟨b, exec_, op⟩ := begun_change h row ⟨by omega, right.2⟩
  obtain ⟨r, record_, runs⟩ := runChange_one (b.map.symm ▸ changes t.logicalBlocks t.profile op) (b.changeClear_rights alone (op ▸ right.1) _) still
    ⟨by decide, by decide⟩
  rw [uncached_of_other (by omega), b.setItem_entered alone r t.ftl] at runs
  rw [runs] at exec_
  exact ⟨_, r, exec_, by rw [← b.map, ← record_.chg]; rfl, by rw [← b.log]; rfl, record_.typ, record_.ruling, record_.last, rfl, rfl, b.ftl, b.rec_⟩

/-- The same where they change nothing: no record, and the ruling is settled (R325). -/
theorem exec_rights_none (h : s.Begins c 0 f t i) (row : s.hostRow c = some (0, isOp n)) (right : 0x92 ≤ n ∧ n ≤ 0x95) (alone : s.nib.items = [])
    (changes : ∀ limit profile, Entry.opcode i.entry = n → changesOf limit profile i.ruling s.map i.entry = []) :
    ∃ u, exec c s = .next (settleUp u) ∧ u.map = s.map ∧ u.log = s.log ∧ i.ruling ∉ u.nib.unsettled ∧ u.nib.items = [{ i with wait := .persist }] := by
  obtain ⟨b, exec_, op⟩ := begun_change h row ⟨by omega, right.2⟩
  have runs := runChange_none (b.map.symm ▸ changes t.logicalBlocks t.profile op) (b.changeClear_rights alone (op ▸ right.1) _)
  rw [uncached_of_other (by omega), setItem_newest (s := settle i.ruling t) (j := { i with wait := .persist }) b.items b.fresh rfl, alone] at runs
  rw [runs] at exec_
  refine ⟨_, exec_, b.map, b.log, ?_, rfl⟩
  change i.ruling ∉ without i.ruling t.nib.unsettled
  simp [without]

end

/-- Settles O34: the changes of each command over the map, one record for one change, and none for none. -/
theorem partitionsAndProtectionAreRecorded : Obligations.PartitionsAndProtectionAreRecorded := by
  refine ⟨?create, ?delete, ?turn, ?rights, ?nothing⟩
  case create =>
    intro s f t i base h alone gap
    obtain ⟨b, exec_, op⟩ := begun_change h rfl ⟨by decide, by decide⟩
    obtain ⟨r, record_, runs⟩ := runChange_one (changesOf_create t.logicalBlocks t.profile i.ruling t.map op (b.map ▸ gap))
      (b.changeClear_create alone op _) rfl ⟨by decide, by decide⟩
    rw [uncached_of_other (by rw [op]; decide), b.setItem_entered alone r t.ftl] at runs
    rw [runs] at exec_
    exact ⟨_, newPart i.entry i.ruling base, r, exec_, by rw [← b.map, entered, record_.chg]; rfl, rfl, rfl, rfl, rfl, rfl, rfl, rfl, rfl, rfl, rfl, rfl,
      by rw [← b.log]; rfl, record_.typ, record_.ruling, record_.last, record_.chg, rfl, rfl, b.ftl⟩
  case delete =>
    intro s f t i p h alone found unstaged
    obtain ⟨b, exec_, op⟩ := begun_change h rfl ⟨by decide, by decide⟩
    have found' : t.partOf i = some p := (congrArg (fun m : MapState => m.part? (Entry.part i.entry)) b.map).trans found
    obtain ⟨r, record_, runs⟩ := runChange_one (changesOf_delete t.logicalBlocks t.profile i.ruling t.map op)
      (b.changeClear_delete alone op found' unstaged _) rfl ⟨by decide, by decide⟩
    rw [uncached_of_delete op found', b.setItem_entered alone r] at runs
    rw [runs] at exec_
    refine ⟨_, r, exec_, by rw [← b.map, entered, record_.chg]; rfl, by rw [← b.log]; rfl, record_.typ, record_.ruling, record_.last, rfl, ?_⟩
    intro x cached
    simpa using (List.mem_filter.1 cached).2
  case turn =>
    rintro s c f t i j (rfl | rfl) h only op notYet
    · exact exec_change_turn h rfl ⟨by decide, by decide⟩ only op notYet
    · exact exec_change_turn h rfl ⟨by decide, by decide⟩ only op notYet
  case rights =>
    intro s c f t i m h alone kind
    rcases kind with ⟨rfl, card, free, uncapped, rfl⟩ | ⟨rfl, card, capped, rfl⟩ | ⟨rfl, card, free, rfl⟩ | ⟨p, found, part, kind⟩
    · exact exec_rights h rfl ⟨by decide, by decide⟩ alone (.capCard true) rfl fun limit profile op => by
        simp [changesOf_cap limit profile _ _ op, card, free, uncapped]
    · exact exec_rights h rfl ⟨by decide, by decide⟩ alone (.capCard false) rfl fun limit profile op => by
        simp [changesOf_uncap limit profile _ _ op, card, capped]
    · exact exec_rights h rfl ⟨by decide, by decide⟩ alone .fixCard rfl fun limit profile op => by
        simp [changesOf_fix limit profile _ _ op, card, free]
    rcases kind with ⟨rfl, free, unfixed, uncapped, rfl⟩ | ⟨rfl, capped, rfl⟩ | ⟨rfl, free, unfixed, rfl⟩ | ⟨rfl, rfl⟩
    · exact exec_rights h rfl ⟨by decide, by decide⟩ alone (.capPart (Entry.part i.entry) true) rfl fun limit profile op => by
        simp [changesOf_cap limit profile _ _ op, part, free, found, unfixed, uncapped]
    · exact exec_rights h rfl ⟨by decide, by decide⟩ alone (.capPart (Entry.part i.entry) false) rfl fun limit profile op => by
        simp [changesOf_uncap limit profile _ _ op, part, found, capped]
    · exact exec_rights h rfl ⟨by decide, by decide⟩ alone (.fixPart (Entry.part i.entry)) rfl fun limit profile op => by
        simp [changesOf_fix limit profile _ _ op, part, free, found, unfixed]
    · exact exec_rights h rfl ⟨by decide, by decide⟩ alone (.access (Entry.part i.entry) _ _) rfl fun limit profile op => changesOf_access limit profile _ _ op
  case nothing =>
    intro s c f t i h alone kind
    rcases kind with ⟨card, ⟨rfl, capped⟩ | ⟨rfl, uncapped⟩⟩ | ⟨rfl | rfl, fixed⟩
      | ⟨p, found, part, ⟨rfl, stands⟩ | ⟨rfl, uncapped⟩ | ⟨rfl, fixed⟩⟩
    · exact exec_rights_none h rfl ⟨by decide, by decide⟩ alone fun limit profile op => by simp [changesOf_cap limit profile _ _ op, card, capped]
    · exact exec_rights_none h rfl ⟨by decide, by decide⟩ alone fun limit profile op => by simp [changesOf_uncap limit profile _ _ op, card, uncapped]
    · exact exec_rights_none h rfl ⟨by decide, by decide⟩ alone fun limit profile op => by simp [changesOf_cap limit profile _ _ op, fixed]
    · exact exec_rights_none h rfl ⟨by decide, by decide⟩ alone fun limit profile op => by simp [changesOf_fix limit profile _ _ op, fixed]
    · exact exec_rights_none h rfl ⟨by decide, by decide⟩ alone fun limit profile op => by simp [changesOf_cap limit profile _ _ op, part, found, stands]
    · exact exec_rights_none h rfl ⟨by decide, by decide⟩ alone fun limit profile op => by simp [changesOf_uncap limit profile _ _ op, part, found, uncapped]
    · exact exec_rights_none h rfl ⟨by decide, by decide⟩ alone fun limit profile op => by simp [changesOf_fix limit profile _ _ op, part, found, fixed]

end Sys2Proof.Proofs
end

section
/-! O58. Epoch Commit and Epoch Resolve as they begin (R235, R433, R442): the checks of a Prepare, and how an epoch closes. -/

namespace Sys2Proof.Proofs

open Sys2Proof Sys2Proof.Machine Sys2Proof.Laws

/-! ## Epoch Commit (R433) -/

/-- A command that commits waits while LRDY is low or a prepare is open. -/
theorem attemptPrepare_waits {i : Item} {s : State} (busy : s.lig.lrdyHigh = false ∨ s.lig.open_ ≠ none) : attemptPrepare i s = s := by
  unfold attemptPrepare
  exact if_pos (by simpa [Option.isSome_iff_ne_none] using busy)

theorem attemptPrepare_checks {i : Item} {s : State} (high : s.lig.lrdyHigh = true) (closed : s.lig.open_ = none) :
    attemptPrepare i s = checkPrepare i s := by
  unfold attemptPrepare
  rw [high, closed]
  rfl

theorem checkPrepare_missing {i : Item} {s : State}
    (missing : BitVec.ofNat 24 (Entry.w30 i.entry) &&& s.lig.joined ≠ BitVec.ofNat 24 (Entry.w30 i.entry)) : checkPrepare i s = failWith i 0x1D s := by
  unfold checkPrepare
  exact if_pos missing

/-- With every participant joined and no entry of the epoch on the card, Prepare and Members go out unless something stands in their way. -/
theorem checkPrepare_fresh {i : Item} {s : State} (joined : BitVec.ofNat 24 (Entry.w30 i.entry) &&& s.lig.joined = BitVec.ofNat 24 (Entry.w30 i.entry))
    (fresh : s.epoch? (Entry.w2C i.entry) = none) : checkPrepare i s =
      if !s.lig.lrdyHigh || s.lig.open_.isSome || s.lig.initiating.isSome then s
      else sendFrame 5 (BitVec.ofNat 24 (Entry.w30 i.entry)).toNat (sendFrame 4 (Entry.w2C i.entry)
        { s with lig := { s.lig with initiating := some (Entry.w2C i.entry, 0) } }) := by
  unfold checkPrepare
  simp only [joined, fresh, ne_eq, not_true_eq_false, ↓reduceIte]

/-! ## The end of an epoch -/

/-- An epoch as its outcome leaves it: committed (5) or rolled back (6) under a ruling. -/
def closeEpoch (k r : Nat) (e : Epoch) : Epoch := { e with state := k, outcomeRuling := r }

/-- The epochs once the open entries of one are closed. -/
def closeEpochs (n k r : Nat) (l : List Epoch) : List Epoch := mapIf (fun e => e.n = n && !e.closed) (closeEpoch k r) l

theorem mem_closeEpochs {n k r : Nat} {l : List Epoch} {e : Epoch} (found : l.find? (fun e => e.n = n && !e.closed) = some e) :
    closeEpoch k r e ∈ closeEpochs n k r l :=
  List.mem_map.2 ⟨e, List.mem_of_find?_eq_some found, if_pos (List.find?_some (p := fun e : Epoch => decide (e.n = n) && !e.closed) found)⟩

theorem closeEpochs_none_open {n k : Nat} (outcome : 5 ≤ k) (r : Nat) (l : List Epoch) :
    (closeEpochs n k r l).find? (fun e => e.n = n && !e.closed) = none := by
  rw [List.find?_eq_none]
  intro x listed
  obtain ⟨e, -, rfl⟩ := List.mem_map.1 listed
  split
  · simp [closeEpoch, Epoch.closed, outcome]
  · next still => exact still

/-- Records entered in order: the live map takes each, and the log and the strokes touched are all else that changes. -/
theorem addRecs_eq (l : List MapRec) (s : State) : ∃ log ftl, addRecs l s = { s with map := l.foldl applyRec s.map, log := log, ftl := ftl } := by
  induction l generalizing s with
  | nil => exact ⟨s.log, s.ftl, rfl⟩
  | cons r l ih =>
    have touched : ∀ u : State, ∃ ftl, touchStrokes r u = { u with ftl := ftl } := fun u => by
      unfold touchStrokes
      split
      · exact ⟨_, rfl⟩
      · exact ⟨u.ftl, rfl⟩
    obtain ⟨ftl, strokes⟩ := touched { addRec { r with last := l = [] } s with map := applyRec s.map r }
    obtain ⟨log, ftl', rest⟩ := ih { addRec { r with last := l = [] } s with map := applyRec s.map r, ftl := ftl }
    exact ⟨log, ftl', (congrArg (addRecs l) strokes).trans rest⟩

/-- A commit closes the epoch, and its pending entries enter the map under the ruling (R429 to R431). -/
theorem commitEpoch_eq {n r : Nat} {s : State} {e : Epoch} (found : s.openEpoch? n = some e) (normal : s.mismatch = false) :
    ∃ log ftl unsettled, commitEpoch n r s = { s with
      map := (commitRecs s.map r e.pend).foldl applyRec s.map, log := log, ftl := ftl
      nib := { s.nib with unsettled := unsettled }, rec_ := { s.rec_ with epochs := closeEpochs n 5 r s.rec_.epochs } } := by
  unfold commitEpoch
  simp only [found, normal, Bool.false_eq_true, ↓reduceIte]
  split
  · next none_ =>
    rw [none_]
    exact ⟨s.log, _, without r s.nib.unsettled, rfl⟩
  · obtain ⟨log, ftl, entered_⟩ := addRecs_eq (commitRecs s.map r e.pend) { s with
      rec_ := { s.rec_ with epochs := closeEpochs n 5 r s.rec_.epochs }
      ftl := { s.ftl with cache := s.ftl.cache.filter (fun b => !e.pend.any (fun d => d.block = b)) } }
    exact ⟨log, ftl, s.nib.unsettled, entered_⟩

/-- A roll back closes the epoch and leaves the map alone (R433, R441). -/
theorem rollBack_eq {n r : Nat} {s : State} (normal : s.mismatch = false) : rollBack n r s = { s with
    nib := { s.nib with unsettled := without r s.nib.unsettled }, rec_ := { s.rec_ with epochs := closeEpochs n 6 r s.rec_.epochs } } := by
  unfold rollBack
  rw [normal]
  rfl

/-! ## Epoch Resolve (R442) -/

/-- The flag of Epoch Resolve on an entry that is open. -/
def resolvedEpoch (e : Epoch) : Epoch := if e.closed then e else { e with resolved := true }

/-- The epochs with that flag. -/
def resolvedEpochs (n : Nat) (l : List Epoch) : List Epoch := mapIf (fun e => e.n = n) resolvedEpoch l

theorem resolvedEpochs_open {n : Nat} {l : List Epoch} {e : Epoch} (found : l.find? (fun e => e.n = n && !e.closed) = some e) :
    (resolvedEpochs n l).find? (fun e => e.n = n && !e.closed) = some { e with resolved := true } := by
  have same : ∀ x : Epoch, (resolvedEpoch x).n = x.n ∧ (resolvedEpoch x).closed = x.closed := fun x => by
    unfold resolvedEpoch
    split <;> exact ⟨rfl, rfl⟩
  have pred : ((fun e : Epoch => decide (e.n = n) && !e.closed) ∘ fun x => if decide (x.n = n) = true then resolvedEpoch x else x)
      = fun e => decide (e.n = n) && !e.closed := by
    funext x
    by_cases own : x.n = n <;> simp [own, same]
  obtain ⟨own, still⟩ : e.n = n ∧ e.closed = false := by simpa using List.find?_some found
  unfold resolvedEpochs mapIf
  rw [List.find?_map, pred, found]
  simp [own, resolvedEpoch, still]

/-- Epoch Resolve of an epoch in doubt, with nothing staged in its way: the epoch is marked, and closes under the command's ruling. -/
theorem runEpochResolve_closes {i : Item} {s : State} {e : Epoch} (joined : s.joinedLig = true) (found : s.openEpoch? (Entry.w2C i.entry) = some e)
    (doubt : e.state = 4) (clear : s.clearOf i.ruling 0 (2 ^ 64) = true) : ∃ lig,
      runEpochResolve i s = (if Entry.b30 i.entry = 1 then commitEpoch else rollBack) (Entry.w2C i.entry) i.ruling (setItem { i with wait := .persist }
        { s with lig := lig, rec_ := { s.rec_ with epochs := resolvedEpochs (Entry.w2C i.entry) s.rec_.epochs } }) := by
  unfold runEpochResolve
  simp only [joined, found, doubt, clear, Bool.not_true, Bool.false_eq_true, ne_eq, not_true_eq_false, ↓reduceIte]
  by_cases asking : s.lig.querying = some (Entry.w2C i.entry)
  · refine ⟨{ s.lig with querying := none, answers := [] }, ?_⟩
    rw [if_pos (show (setItem { i with wait := .persist } (flagEpoch _ _ s)).lig.querying = some (Entry.w2C i.entry) from asking)]
    split <;> rfl
  · refine ⟨s.lig, ?_⟩
    rw [if_neg (show ¬ (setItem { i with wait := .persist } (flagEpoch _ _ s)).lig.querying = some (Entry.w2C i.entry) from asking)]
    split <;> rfl

theorem runEpochResolve_undoubted {i : Item} {s : State} (joined : s.joinedLig = true)
    (settled : ∀ e, s.openEpoch? (Entry.w2C i.entry) = some e → e.state ≠ 4) : runEpochResolve i s = failWith i 6 s := by
  unfold runEpochResolve
  simp only [joined, Bool.not_true, Bool.false_eq_true, ↓reduceIte]
  split
  · rfl
  · next e found => exact if_pos (settled e found)

/-- In a strap mismatch a command that R73 does not accept fails before it begins. -/
theorem normal_of_begins {c : Instr} {q : Nat} {s t : State} {f : Fetched} {i : Item} (h : s.Begins c q f t i) (refused : mismatchAccepts f.entry = false) :
    s.mismatch = false := by
  obtain ⟨-, -, admits⟩ := h
  obtain ⟨_, _, ruled⟩ := ruledBy_eq s f
  have same : (s.ruledBy f).mismatch = s.mismatch := by rw [ruled]; rfl
  have early := admits.early
  unfold State.checkEarly at early
  rw [same, refused] at early
  cases mismatch : s.mismatch with
  | false => rfl
  | true =>
    rw [mismatch] at early
    split at early <;> simp at early

namespace AdminBegun

variable {s t : State} {f : Fetched} {i : Item} (b : AdminBegun s f t i)
include b

theorem joinedLig (joined : s.lig.state = 2) : t.joinedLig = true := by
  unfold State.joinedLig
  rw [b.lig]
  exact decide_eq_true joined

theorem joinedLig_not (apart : s.lig.state ≠ 2) : t.joinedLig = false := by
  unfold State.joinedLig
  rw [b.lig]
  exact decide_eq_false apart

theorem openEpoch? (n : Nat) : t.openEpoch? n = s.openEpoch? n := by
  unfold State.openEpoch?
  rw [b.rec_]

/-- An Epoch Commit that waits for the ligature. -/
theorem runEpochCommit_attempts (joined : s.lig.state = 2) : runEpochCommit i t
    = attemptPrepare { i with wait := .ligature } { t with nib := { t.nib with items := s.nib.items ++ [{ i with wait := .ligature }] } } := by
  unfold runEpochCommit
  rw [b.joinedLig joined, b.setItem (j := { i with wait := .ligature }) rfl]
  rfl

end AdminBegun

/-- Settles O58: the checks of a Prepare in their order, and the end of an epoch in doubt. -/
theorem epochCommandsActThroughTheLigature : Obligations.EpochCommandsActThroughTheLigature := by
  refine ⟨?apart, ?sends, ?missing, ?waits, ?resolves, ?undoubted⟩
  case apart =>
    rintro s c f t i (rfl | rfl) h apart
    · obtain ⟨b, exec_, -⟩ := admin_of_row h rfl (by decide)
      rw [exec_, adminRun, runEpochCommit, b.joinedLig_not apart]
      rfl
    · obtain ⟨b, exec_, -⟩ := admin_of_row h rfl (by decide)
      rw [exec_, adminRun, runEpochResolve, b.joinedLig_not apart]
      rfl
  case sends =>
    rintro s f t i m h joined rfl fresh all high closed free
    obtain ⟨b, exec_, -⟩ := admin_of_row h rfl (by decide)
    have lig := b.lig
    rw [exec_, adminRun, b.runEpochCommit_attempts joined, attemptPrepare_checks (lig ▸ high) (lig ▸ closed),
      checkPrepare_fresh (lig ▸ all) (by rw [State.epoch?, b.rec_]; exact fresh)]
    simp only [lig, high, closed, free]
    unfold sendFrame State.own State.ligAddress State.strapFault State.code
    simp only [b.strap, List.append_assoc]
    rfl
  case missing =>
    rintro s f t i m h joined rfl missing high closed
    obtain ⟨b, exec_, -⟩ := admin_of_row h rfl (by decide)
    have lig := b.lig
    rw [exec_, adminRun, b.runEpochCommit_attempts joined, attemptPrepare_checks (lig ▸ high) (lig ▸ closed), checkPrepare_missing (lig ▸ missing)]
    exact ⟨_, rfl, lig, rfl⟩
  case waits =>
    rintro s f t i m h joined rfl busy
    obtain ⟨b, exec_, -⟩ := admin_of_row h rfl (by decide)
    have lig := b.lig
    rw [exec_, adminRun, b.runEpochCommit_attempts joined]
    by_cases wait : s.lig.lrdyHigh = false ∨ s.lig.open_ ≠ none
    · rw [attemptPrepare_waits (lig ▸ wait)]
    · obtain ⟨high, closed⟩ : s.lig.lrdyHigh = true ∧ s.lig.open_ = none := by simpa using wait
      obtain ⟨fresh, all, other⟩ : s.epoch? (Entry.w2C i.entry) = none ∧ _ ∧ s.lig.initiating ≠ none := by simpa [high, closed] using busy
      rw [attemptPrepare_checks (lig ▸ high) (lig ▸ closed), checkPrepare_fresh (lig ▸ all) (by rw [State.epoch?, b.rec_]; exact fresh),
        if_pos (by simp [lig, Option.isSome_iff_ne_none, other])]
  case resolves =>
    intro s f t i e h joined found doubt unstaged
    obtain ⟨b, exec_, op⟩ := admin_of_row h rfl (by decide)
    have normal : t.mismatch = false := by
      have normal := normal_of_begins h (by unfold mismatchAccepts; rw [← b.entry, op]; decide)
      rwa [State.mismatch, b.strap]
    have clear : t.clearOf i.ruling 0 (2 ^ 64) = true := by
      unfold State.clearOf
      rw [b.staged, unstaged]
      rfl
    have found' := (b.openEpoch? _).trans found
    obtain ⟨lig, runs⟩ := runEpochResolve_closes (b.joinedLig joined) found' doubt clear
    rw [setItem_newest (s := { t with lig := lig, rec_ := _ }) (j := { i with wait := .persist }) b.items b.fresh rfl] at runs
    obtain ⟨own, -⟩ : e.n = Entry.w2C i.entry ∧ e.closed = false := by simpa using List.find?_some found'
    have marked := resolvedEpochs_open found'
    rw [own, exec_, adminRun, runs]
    by_cases commits : Entry.b30 i.entry = 1
    · simp only [if_pos commits]
      obtain ⟨log, ftl, unsettled, committed⟩ := commitEpoch_eq (r := i.ruling) (s := { t with
        lig := lig, nib := { t.nib with items := s.nib.items ++ [{ i with wait := .persist }] }
        rec_ := { t.rec_ with epochs := resolvedEpochs (Entry.w2C i.entry) t.rec_.epochs } }) marked normal
      rw [committed]
      exact ⟨_, rfl, ⟨_, mem_closeEpochs marked, own, rfl, rfl, rfl⟩, closeEpochs_none_open (by decide) _ _, by rw [← b.map], rfl⟩
    · simp only [if_neg commits]
      rw [rollBack_eq (by exact normal)]
      exact ⟨_, rfl, ⟨_, mem_closeEpochs marked, own, rfl, rfl, rfl⟩, closeEpochs_none_open (by decide) _ _, b.map, rfl⟩
  case undoubted =>
    intro s f t i h joined settled
    obtain ⟨b, exec_, -⟩ := admin_of_row h rfl (by decide)
    rw [exec_, adminRun, runEpochResolve_undoubted (b.joinedLig joined) fun e found => settled e ((b.openEpoch? _).symm.trans found)]

end Sys2Proof.Proofs
end

section
/-! SUPPORT. A page of one long operation (R227, R228): how it is found, changed and ended, and what the operations of a test touch (R298 to R301). -/

namespace Sys2Proof.Proofs

open Sys2Proof Sys2Proof.Machine Sys2Proof.Laws

/-! ## A page of one operation -/

/-- The state with one operation in the page. -/
def pageOf (o : LongOp) (s : State) : State := { s with lops := { s.lops with list := [o] } }

section
variable {s : State} {o : LongOp} (only : s.lops.list = [o])
include only

theorem op?_alone : s.op? o.handle = some o := by
  simp [State.op?, only]

theorem runningOp_alone {p : Nat → Bool} (kind : p o.typ = true) (runs : o.state = 1) : s.runningOp p = some o := by
  simp [State.runningOp, only, kind, runs]

theorem modOp_alone (f : LongOp → LongOp) : modOp o.handle f s = pageOf (f o) s := by
  unfold modOp mapIf
  rw [only, List.map_cons, List.map_nil, if_pos (decide_eq_true rfl)]
  rfl

/-- No operation of the page waits in a queue for its type's turn. -/
theorem startQueued_alone (begun : o.state ≠ 0) (typ : Nat) : startQueued typ s = s := by
  have none_ : s.lops.list.find? (fun o => o.typ = typ && o.state = 0) = none := by simp [only, begun]
  unfold startQueued
  rw [none_, ite_self]

theorem rebuildNext_alone (idle : o.state ≠ 1) : rebuildNext s = s := by
  unfold rebuildNext
  rw [only]
  simp [idle]

theorem testWork_idle (idle : o.state ≠ 1) : testWork s = s := by
  unfold testWork
  rw [only]
  simp [idle]

/-- A self-test between two segments begins the next. -/
theorem testWork_begins (test : isSelfTest o.typ = true) (runs : o.state = 1) (free : o.wants = []) (next : o.begun = false) :
    testWork s = beginSegment o s := by
  unfold testWork
  rw [only]
  simp [test, runs, free, next]

/-- The end of the operation, where no rebuild waits for an entry. -/
theorem endOp_alone {state outcome detail : Nat} (final : 3 ≤ state) (open_ : o.state < 3) (quiet : isRebuild o.typ = false ∨ s.lops.queued = []) :
    endOp o.handle state outcome detail s = actUpdate (pageOf (endedOp state outcome detail s o) s) := by
  have notFinal : o.final = false := decide_eq_false (by omega)
  rw [endOp_of_open (op?_alone only) notFinal, modOp_alone only]
  split
  · next rebuild =>
    rw [startQueued_alone (s := pageOf _ s) (o := endedOp state outcome detail s o) rfl (by change state ≠ 0; omega)]
    rcases quiet with other | empty
    · rw [rebuild] at other
      cases other
    · rw [fillRebuilds_of_noneQueued (s := pageOf _ s) empty]
  · rfl

end

/-- The progress of an operation that is no rebuild is what it has recorded (R228). -/
theorem progressOf_recorded {o : LongOp} (kind : isRebuild o.typ = false) (s : State) : s.progressOf o = o.progress := by
  unfold State.progressOf
  rw [if_neg]
  intro rebuild
  unfold isRebuild at kind
  simp [kind] at rebuild

/-- The end of an operation that is no rebuild, alone in its page: its state, its outcome and what they name. -/
theorem endOp_plain {s : State} {o : LongOp} {state outcome detail : Nat} (only : s.lops.list = [o]) (plain : isRebuild o.typ = false) (final : 3 ≤ state)
    (open_ : o.state < 3) : ∃ lands, endOp o.handle state outcome detail s = { pageOf
      { o with state := state, outcome := outcome, detail := detail, wants := [], progress := if state = 3 then 10000 else o.progress } s with lands := lands } := by
  obtain ⟨lands, act⟩ := actUpdate_eq (pageOf (endedOp state outcome detail s o) s)
  refine ⟨lands, ?_⟩
  rw [endOp_alone only final open_ (.inl plain), act, endedOp, progressOf_recorded plain]

/-! ## What the operations of a test touch -/

theorem dies_stored (s : State) (dies : Dies) : Stored s { s with dies := dies } := ⟨s.ftl, s.log, dies, s.res, rfl⟩

theorem startProbe_stored (die band plane cls : Nat) (rd : Option Nat) (test : Bool) (s : State) : Stored s (startProbe die band plane cls rd test s) :=
  (dies_stored s _).trans (enqueue_stored _ _)

theorem testProbes_stored (l : List (Nat × Nat × Nat)) (s : State) : Stored s (testProbes l s) :=
  Stored.foldl (fun t _ => startProbe_stored _ _ _ _ _ _ t) l s

theorem startRd_stored (ruling block slot cls use : Nat) (s : State) : Stored s (startRd ruling block slot cls use s) := by
  unfold startRd startRdOn
  dsimp only
  split
  · exact (dies_stored s _).trans (enqueue_stored _ _)
  split
  · exact (dies_stored s _).trans ((dies_stored _ _).trans (enqueue_stored _ _))
  · exact dies_stored s _

/-- The operations of a segment; the last one also opens a band, with the Opened page before it. -/
theorem issueSegment_stored {k : Nat} (reads : k ≠ 8) (s : State) : Stored s (issueSegment k s) := by
  unfold issueSegment
  split
  · exact testProbes_stored _ s
  · exact Stored.foldl (fun t n => startRd_stored _ _ _ _ _ t) _ s
  · exact testProbes_stored _ s
  · exact absurd rfl reads
  · exact .refl s

theorem shutBand_stored (early : Bool) (n : Nat) (s : State) : Stored s (shutBand early n s) :=
  ((ftl_stored s _).trans (modBand_stored _ _ _)).trans (noteBand_stored _ _)

theorem issueSegment_lops {k : Nat} (reads : k ≠ 8) (s : State) : (issueSegment k s).lops = s.lops := by
  obtain ⟨_, _, _, _, issued⟩ := issueSegment_stored reads s
  rw [issued]

/-- An operation whose segment begins (R298). -/
def begunOp (o : LongOp) : LongOp := { o with begun := true, found := false }

theorem beginSegment_alone {s : State} {o : LongOp} (only : s.lops.list = [o]) (reads : o.segment ≠ 8) :
    beginSegment o s = pageOf (begunOp o) (issueSegment o.segment s) := by
  have only' : (issueSegment o.segment s).lops.list = [o] := (congrArg LongOps.list (issueSegment_lops reads s)).trans only
  unfold beginSegment
  dsimp only
  rw [modOp_alone only']
  simp [reads, begunOp]

/-! ## A test that is stopped -/

/-- An operation as it stops: a test begins its segment or die anew (R301), a rebuild goes on with its next band (R313). -/
def stoppedOp (o : LongOp) : LongOp := { o with begun := isRebuild o.typ && o.begun, found := isRebuild o.typ && o.found }

/-- What a test had begun is given up. -/
theorem dropTests_stored (h : Nat) (s : State) : ∃ u, Stored s u ∧ dropTests h s = modOp h (fun o => { o with begun := false, found := false }) u := by
  have emptied : Stored s { s with
      ftl := { s.ftl with testBand := none, progs := s.ftl.progs.filter (fun p => p.band ∉ s.ftl.testBand.toList.map (·.1)) }
      dies := { s.dies with reads := s.dies.reads.filter (fun r => r.use ≠ 6), probes := s.dies.probes.filter (fun p => !p.test) } } :=
    ⟨_, s.log, _, s.res, rfl⟩
  exact ⟨_, emptied.trans (Stored.foldl (fun t n => (modBand_stored t n _).trans (shutBand_stored true n _)) _ _), rfl⟩

/-- An operation that stops, alone in its page. -/
theorem stopped_alone {s : State} {o : LongOp} (only : s.lops.list = [o]) :
    ∃ u, Stored s u ∧ (if isRebuild o.typ then s else dropTests o.handle s) = pageOf (stoppedOp o) u := by
  cases rebuild : isRebuild o.typ with
  | true =>
    have same : stoppedOp o = o := by
      unfold stoppedOp
      rw [rebuild]
      rfl
    refine ⟨s, .refl s, ?_⟩
    rw [same, if_pos rfl, pageOf, ← only]
  | false =>
    obtain ⟨u, stored, drops⟩ := dropTests_stored o.handle s
    have only' : u.lops.list = [o] := by
      obtain ⟨_, _, _, _, rfl⟩ := stored
      exact only
    refine ⟨u, stored, ?_⟩
    rw [if_neg (by decide), drops, modOp_alone only', stoppedOp, rebuild]
    rfl

end Sys2Proof.Proofs
end

section
/-! O36. Self-test and Calibrate as they begin, the segments of a self-test, and the end of a calibration (R227, R230, R298, R299). -/

namespace Sys2Proof.Proofs

open Sys2Proof Sys2Proof.Machine Sys2Proof.Laws

/-! ## The commands -/

/-- An operation as its command enters it in the page (R227). -/
def newOp (typ target ruling handle : Nat) (s : State) : LongOp :=
  { handle := handle, typ := typ, state := 1, progress := 0, outcome := 0, detail := 0, ruling := ruling, started := s.rst.timeMs, active := 0
    target := target, wants := [], lost := false, total := (s.bandsWith (targetDies typ target)).length, doneDies := [], begun := false, found := false }

theorem runTest_enters {typ target : Nat} {i : Item} {s : State} (empty : s.lops.list = []) (calm : s.sanitizing = false) :
    runTest typ target i s = testWork (succeed i (freeHandle [] 32 s.lops.next) { s with lops := { s.lops with
      next := freeHandle [] 32 s.lops.next + 1, list := [newOp typ target i.ruling (freeHandle [] 32 s.lops.next) s] } }) := by
  unfold runTest createOp
  rw [calm, empty]
  rfl

/-- A test of the kind that is not over, or a Sanitize that has not completed, keeps a new one out (R230). -/
theorem runTest_refused {typ target : Nat} {i : Item} {s : State}
    (busy : s.sanitizing = true ∨ ∃ o ∈ s.lops.list, (if typ = 4 then decide (o.typ = 4) else isSelfTest o.typ) = true ∧ o.state < 3) :
    runTest typ target i s = failWith i 0x1B s := by
  unfold runTest
  refine if_pos (Bool.or_eq_true_iff.2 (busy.imp_right fun ⟨o, listed, kind, open_⟩ => List.any_eq_true.2 ⟨o, listed, ?_⟩))
  have notFinal : o.final = false := decide_eq_false (by omega)
  rw [notFinal]
  split at kind
  · next calibration => simpa [calibration] using kind
  · next other => simpa [other] using kind

/-- Self-test and Calibrate, with the type and the target of the operation that each makes. -/
def testOf (c : Instr) (i : Item) (s : State) (typ target : Nat) : Prop :=
  c = .selfTest ∧ typ = 1 + Entry.b2C i.entry ∧ target = 0xFFFF
    ∨ c = .calibrate ∧ typ = 4 ∧ target = (if Entry.b2C i.entry = 1 then s.nthDie (Entry.b2D i.entry) else 0xFFFF)

theorem exec_test {s t : State} {c : Instr} {f : Fetched} {i : Item} {typ target : Nat} (h : s.Begins c 0 f t i) (test : testOf c i s typ target) :
    AdminBegun s f t i ∧ exec c s = .next (settleUp (runTest typ target i t)) ∧ Entry.opcode i.entry ≠ 0x98 := by
  rcases test with ⟨rfl, rfl, rfl⟩ | ⟨rfl, rfl, rfl⟩
  · obtain ⟨b, exec_, op⟩ := admin_of_row h rfl (by decide)
    exact ⟨b, exec_, by rw [op]; decide⟩
  · obtain ⟨b, exec_, op⟩ := admin_of_row h rfl (by decide)
    refine ⟨b, ?_, by rw [op]; decide⟩
    have groups : t.nthDie = s.nthDie := by
      funext n
      unfold State.nthDie State.groups
      rw [b.unit]
    rw [exec_, adminRun, runCalibrate, groups]

/-- What keeps Sanitize running is as it was before the command. -/
theorem AdminBegun.sanitizing {s t : State} {f : Fetched} {i : Item} (b : AdminBegun s f t i) (other : Entry.opcode i.entry ≠ 0x98) :
    t.sanitizing = s.sanitizing := by
  unfold State.sanitizing State.recovery
  rw [b.rst, b.rec_, b.items, List.any_append]
  simp [other]

/-! ## The segments of a self-test -/

/-- A segment that has ended without success, with its fault where it records one (R298). -/
theorem segmentFault_none {k : Nat} (recorded : k = 3 ∨ k = 4 ∨ 6 ≤ k) (s : State) : segmentFault k s = s := by
  unfold segmentFault
  split
  · omega
  · omega
  · omega
  · rfl

/-- An event that is raised leaves the blotter and the page of operations alone. -/
theorem raiseEvent_frame (cls level seq : Nat) (s : State) :
    (raiseEvent cls level seq s).flt.blotter = s.flt.blotter ∧ (raiseEvent cls level seq s).lops = s.lops := by
  refine ⟨(raiseEvent_quiet cls level seq s).blotter, ?_⟩
  unfold raiseEvent
  obtain ⟨_, delivered⟩ := deliverEvent_concluded { s with flt := { s.flt with events := s.flt.events.set cls _ } }
  exact delivered.lops

/-- With no fault unacknowledged a fault below the safe level stands in the blotter under its own class, and no operation is touched. -/
theorem recordFault_enters {cls base source cause : Nat} {detail : BitVec 64} {s : State} (unack : s.flt.unack = []) (stop : s.flt.stopping = false)
    (low : base < 4) : (∃ b ∈ (recordFault cls base source detail cause s).flt.blotter, b.kind = 1 ∧ b.cls = cls)
      ∧ (recordFault cls base source detail cause s).lops = s.lops := by
  obtain ⟨aon, entered_⟩ := addBlot_front 0x01 cls base (base ≠ base) source detail
    { s with flt := { s.flt with counts := s.flt.counts.set cls (sat 32 (s.flt.counts.getD cls 0 + 1)) }
             health := { s.health with faults := s.health.faults.set cls (sat 32 (s.health.faults.getD cls 0 + 1)) } }
  unfold recordFault recordLevel
  rw [levelFor_of_unack_nil unack]
  dsimp only
  rw [entered_]
  simp only [stop, Bool.false_eq_true, ↓reduceIte, if_neg (show ¬ base = 5 by omega), if_neg (show ¬ base = 4 by omega)]
  obtain ⟨blotter, lops⟩ := raiseEvent_frame cls base s.aon.nextSeq _
  rw [blotter]
  exact ⟨⟨_, List.mem_cons_self, rfl, rfl⟩, lops⟩

/-- The class of a segment's fault: FC7 for the image, FC3 for the DRAM, FC10 for a decoder (Table 10-13). -/
theorem segmentFault_enters {k : Nat} (own : k = 1 ∨ k = 2 ∨ k = 5) {s : State} (unack : s.flt.unack = []) (stop : s.flt.stopping = false) :
    (∃ b ∈ (segmentFault k s).flt.blotter, b.kind = 1 ∧ b.cls = (if k = 1 then 7 else if k = 2 then 3 else 10)) ∧ (segmentFault k s).lops = s.lops := by
  rcases own with rfl | rfl | rfl
  · exact recordFault_enters unack stop (by decide)
  · exact recordFault_enters (s := draw s) unack stop (by decide)
  · exact recordFault_enters unack stop (by decide)

/-- What SELF_TEST_SEGMENT_DONE does to the one self-test that runs. -/
def segmentDone (ok : Bool) (o : LongOp) (s : State) : State :=
  if !o.begun then beginSegment o s
  else if !s.testIdle || o.wants ≠ [] then s
  else if o.found then endOp o.handle 4 (segmentOutcome o.segment) o.segment s
  else if !ok then endOp o.handle 4 (segmentOutcome o.segment) o.segment (segmentFault o.segment s)
  else if testSegments o.typ ≤ o.segment then endOp o.handle 3 0 0 s
  else testWork (modOp o.handle (fun p => { p with progress := 10000 * o.segment / testSegments o.typ, begun := false }) s)

/-- A self-test between a segment that has passed and the next one (R228, R298). -/
def nextSegment (o : LongOp) : LongOp := { o with progress := 10000 * o.segment / testSegments o.typ, begun := false }

theorem segmentDone_begins {ok : Bool} {o : LongOp} {s : State} (fresh : o.begun = false) : segmentDone ok o s = beginSegment o s := by
  unfold segmentDone
  rw [fresh]
  rfl

/-- A segment that found a loss fails when its operations have ended, whether they passed or not. -/
theorem segmentDone_found {ok : Bool} {o : LongOp} {s : State} (begun : o.begun = true) (free : o.wants = []) (idle : s.testIdle = true)
    (found : o.found = true) : segmentDone ok o s = endOp o.handle 4 (segmentOutcome o.segment) o.segment s := by
  simp [segmentDone, begun, free, idle, found]

/-- A segment that does not pass fails, with its fault recorded. -/
theorem segmentDone_failed {o : LongOp} {s : State} (begun : o.begun = true) (free : o.wants = []) (idle : s.testIdle = true) (sound : o.found = false) :
    segmentDone false o s = endOp o.handle 4 (segmentOutcome o.segment) o.segment (segmentFault o.segment s) := by
  simp [segmentDone, begun, free, idle, sound]

/-- A self-test that its present segment fails (Table 10-13). -/
def failedTest (o : LongOp) : LongOp := { o with state := 4, outcome := segmentOutcome o.segment, detail := o.segment, wants := [] }

/-- An operation that ends complete (Table 08-10). -/
def passedOp (o : LongOp) : LongOp := { o with state := 3, outcome := 0, detail := 0, wants := [], progress := 10000 }

theorem plain_of_test {o : LongOp} (test : o.typ = 2 ∨ o.typ = 3) : isRebuild o.typ = false := by
  rcases test with typ | typ <;> · rw [typ]; rfl

section
variable {s : State} {o : LongOp} (only : s.lops.list = [o]) (test : o.typ = 2 ∨ o.typ = 3) (runs : o.state = 1)
include only test runs

theorem exec_selfTestSegmentDone (ok : Bool) : exec (.selfTestSegmentDone ok) s = .next (settleUp (segmentDone ok o { s with out := [] })) := by
  have kind : isSelfTest o.typ = true := by simpa [isSelfTest] using test
  have found := runningOp_alone (s := { s with out := [] }) only kind runs
  change execSelfTestSegmentDone ok s = _
  unfold execSelfTestSegmentDone work answer
  simp only [found]
  rfl

theorem endOp_failed : ∃ lands, endOp o.handle 4 (segmentOutcome o.segment) o.segment s = { pageOf (failedTest o) s with lands := lands } :=
  endOp_plain only (plain_of_test test) (by decide) (by omega)

theorem endOp_passed : ∃ lands, endOp o.handle 3 0 0 s = { pageOf (passedOp o) s with lands := lands } :=
  endOp_plain only (plain_of_test test) (by decide) (by omega)

/-- The last segment that passes ends the test, and another makes way for the next. -/
theorem segmentDone_passes (begun : o.begun = true) (free : o.wants = []) (idle : s.testIdle = true) (sound : o.found = false) :
    segmentDone true o s = if testSegments o.typ ≤ o.segment then endOp o.handle 3 0 0 s
      else beginSegment (nextSegment o) (pageOf (nextSegment o) s) := by
  have kind : isSelfTest o.typ = true := by simpa [isSelfTest] using test
  have next : testWork (modOp o.handle (fun p => { p with progress := 10000 * o.segment / testSegments o.typ, begun := false }) s)
      = beginSegment (nextSegment o) (pageOf (nextSegment o) s) := by
    rw [modOp_alone only]
    exact testWork_begins (s := pageOf (nextSegment o) s) rfl kind runs free rfl
  unfold segmentDone
  simp only [begun, free, idle, sound, Bool.not_true, Bool.false_eq_true, ne_eq, not_true_eq_false, decide_false, Bool.or_self, ↓reduceIte]
  rw [next]

end

/-- The segments without operations of their own (Table 10-13). -/
theorem issueSegment_none {k : Nat} (none_ : k ≤ 3 ∨ k = 5) (s : State) : issueSegment k s = s := by
  unfold issueSegment
  split
  · omega
  · omega
  · omega
  · omega
  · rfl

/-! ## Calibration -/

/-- The table of a die, in place of the one that the module had (R299). -/
def newTable (d : DieTable) (s : State) : State := { s with rec_ := { s.rec_ with tables := s.rec_.tables.filter (fun x => x.die ≠ d.die) ++ [d] } }

theorem tableOf_newTable {s t : State} {d : DieTable} (tables : t.rec_ = (newTable d s).rec_) : t.tableOf d.die = d := by
  have found : t.rec_.tables.find? (fun x => x.die = d.die) = some d := by
    rw [tables, newTable, List.find?_append, List.find?_eq_none.2 fun x listed => by simpa using (List.mem_filter.1 listed).2]
    simp
  unfold State.tableOf
  rw [found]

theorem exec_calibrationComplete {s : State} {o : LongOp} {d : DieTable} (only : s.lops.list = [o]) (kind : o.typ = 4) (runs : o.state = 1) (free : o.wants = [])
    (read : ∀ x ∈ s.scopeDies o, x ∈ o.doneDies) (fits : s.dieFits d.die = true) (scope : o.target = 0xFFFF ∨ o.target = d.die) :
    exec (.calibrationComplete [d]) s = .next (settleUp (endOp o.handle 3 0 0 (newTable d (openMedia { s with out := [] })))) := by
  have found := runningOp_alone (s := { s with out := [] }) (p := (· = 4)) only (by simp [kind]) runs
  have whole : (State.scopeDies { s with out := [] } o).all (· ∈ o.doneDies) = true := List.all_eq_true.2 fun x listed => decide_eq_true (read x listed)
  have mine : [d].filter (fun t => State.dieFits { s with out := [] } t.die && (o.target = 0xFFFF || o.target = t.die)) = [d] := by
    rw [List.filter_cons_of_pos, List.filter_nil]
    have fits' : State.dieFits { s with out := [] } d.die = true := fits
    simpa [fits'] using scope
  change execCalibrationComplete [d] s = _
  unfold execCalibrationComplete work answer
  simp only [found, whole, free, mine]
  rfl

/-- Settles O36: the operation that each command enters, the segment done by what it found and whether it passed, and the tables of a calibration. -/
theorem testsAndCalibrationRun : Obligations.TestsAndCalibrationRun := by
  refine ⟨?enters, ?refused, ?begins, ?found, ?fails, ?faults, ?next_, ?last, ?tables⟩
  case enters =>
    intro s c f t i typ target h empty none_ others test
    obtain ⟨b, exec_, other⟩ := exec_test h test
    have calm : t.sanitizing = false := by
      rw [b.sanitizing other]
      unfold State.sanitizing
      rw [none_, Bool.or_eq_false_iff]
      exact ⟨by simp, List.any_eq_false.2 fun j listed => by simp [others j listed]⟩
    refine ⟨freeHandle [] 32 s.lops.next, ?_, rfl⟩
    rw [exec_, runTest_enters (b.lops ▸ empty) calm, newOp, b.rst, b.lops]
  case refused =>
    intro s c f t i h kind busy
    rcases busy with ⟨o, listed, open_, ⟨rfl, typ, mode⟩ | ⟨rfl, typ⟩⟩ | sanitizing
    · obtain ⟨b, exec_, -⟩ := exec_test h (.inl ⟨rfl, rfl, rfl⟩)
      have notFour : 1 + Entry.b2C i.entry ≠ 4 := by omega
      rw [exec_, runTest_refused (.inr ⟨o, b.lops ▸ listed, by rw [if_neg notFour]; simpa [isSelfTest] using typ, open_⟩)]
    · obtain ⟨b, exec_, -⟩ := exec_test h (.inr ⟨rfl, rfl, rfl⟩)
      rw [exec_, runTest_refused (.inr ⟨o, b.lops ▸ listed, by simpa using typ, open_⟩)]
    have running : s.sanitizing = true := by
      unfold State.sanitizing
      rcases sanitizing with ⟨normal, record_⟩ | ⟨j, listed, op, verdict⟩
      · simp [normal, Option.isSome_iff_ne_none.2 record_]
      · exact Bool.or_eq_true_iff.2 (.inr (List.any_eq_true.2 ⟨j, listed, by simp [op, verdict]⟩))
    obtain ⟨typ, target, test⟩ : ∃ typ target, testOf c i s typ target := by
      rcases kind with rfl | rfl
      · exact ⟨_, _, .inl ⟨rfl, rfl, rfl⟩⟩
      · exact ⟨_, _, .inr ⟨rfl, rfl, rfl⟩⟩
    obtain ⟨b, exec_, other⟩ := exec_test h test
    rw [exec_, runTest_refused (.inl ((b.sanitizing other).trans running))]
  case begins =>
    intro s o ok only test runs fresh reads
    rw [exec_selfTestSegmentDone only test runs, segmentDone_begins fresh, beginSegment_alone (s := { s with out := [] }) only reads]
    obtain ⟨_, _, _, _, issued⟩ := issueSegment_stored reads { s with out := [] }
    rw [issued]
    exact ⟨_, rfl, rfl, rfl, rfl⟩
  case found =>
    intro s o ok only test runs begun found free idle
    obtain ⟨lands, ended⟩ := endOp_failed (s := { s with out := [] }) only test runs
    rw [exec_selfTestSegmentDone only test runs, segmentDone_found (s := { s with out := [] }) begun free idle found, ended]
    exact ⟨_, rfl, rfl, rfl, rfl, rfl⟩
  case fails =>
    intro s o only test runs begun sound free idle recorded
    obtain ⟨lands, ended⟩ := endOp_failed (s := { s with out := [] }) only test runs
    rw [exec_selfTestSegmentDone only test runs, segmentDone_failed (s := { s with out := [] }) begun free idle sound, segmentFault_none recorded, ended]
    exact ⟨_, rfl, rfl, rfl, rfl⟩
  case faults =>
    intro s o running stop unack only test runs begun sound free idle own
    obtain ⟨⟨b, entered_, kind, cls⟩, lops⟩ := segmentFault_enters own (s := { s with out := [] }) unack stop
    obtain ⟨lands, ended⟩ := endOp_failed (s := segmentFault o.segment { s with out := [] }) (by rw [lops]; exact only) test runs
    rw [exec_selfTestSegmentDone only test runs, segmentDone_failed (s := { s with out := [] }) begun free idle sound, ended]
    exact ⟨_, b, rfl, rfl, entered_, kind, cls⟩
  case next_ =>
    intro s o only typ runs begun sound free idle early
    have segments : testSegments o.typ = 5 := by rw [typ]; rfl
    have progress : nextSegment o = { o with progress := 2000 * o.segment, begun := false } := by
      unfold nextSegment
      rw [segments, show 10000 * o.segment / 5 = 2000 * o.segment by omega]
    have after : (nextSegment o).segment = o.segment + 1 := by
      rw [progress]
      unfold LongOp.segment
      simp only [segments]
      omega
    rw [exec_selfTestSegmentDone only (.inl typ) runs, segmentDone_passes (s := { s with out := [] }) only (.inl typ) runs begun free idle sound, segments,
      if_neg (by omega), beginSegment_alone (s := pageOf (nextSegment o) _) rfl (by omega), after, progress]
    refine ⟨_, rfl, rfl, fun quiet => ?_⟩
    rw [issueSegment_none (by omega)]
    exact ⟨rfl, rfl⟩
  case last =>
    intro s o only whole runs begun sound free idle
    have test : o.typ = 2 ∨ o.typ = 3 := whole.imp And.left And.left
    have done_ : testSegments o.typ ≤ o.segment := by
      rcases whole with ⟨typ, last⟩ | ⟨typ, last⟩ <;> · rw [typ]; exact last
    obtain ⟨lands, ended⟩ := endOp_passed (s := { s with out := [] }) only test runs
    rw [exec_selfTestSegmentDone only test runs, segmentDone_passes (s := { s with out := [] }) only test runs begun free idle sound, if_pos done_, ended]
    exact ⟨_, rfl, rfl⟩
  case tables =>
    intro s o d only kind runs free read fits scope
    obtain ⟨log, ceiling, opens⟩ := openMedia_eq { s with out := [] }
    obtain ⟨lands, ended⟩ := endOp_plain (state := 3) (outcome := 0) (detail := 0)
      (s := newTable d { s with out := [], log := log, nib := { s.nib with ceiling := ceiling } }) only (by rw [kind]; rfl) (by decide) (by omega)
    rw [exec_calibrationComplete only kind runs free read fits scope, opens, ended]
    exact ⟨_, rfl, rfl, tableOf_newTable (s := s) rfl, rfl⟩

end Sys2Proof.Proofs
end

section
/-! O37. Operation Control as it begins, the states that it asks for, and the end of a rebuild (R229, R301, R313, R317). -/

namespace Sys2Proof.Proofs

open Sys2Proof Sys2Proof.Machine Sys2Proof.Laws

/-! ## The command -/

theorem takes_operationSuspend {s : State} {f : Fetched} (h : s.Takes .operationSuspend 0 f) :
    Entry.opcode f.entry = 0x9B ∧ Entry.b2E f.entry ≠ 2 ∧ Entry.b2E f.entry ≠ 3 := by
  obtain ⟨k, hk, hf⟩ := h
  obtain ⟨-, rfl⟩ := by simpa [State.hostRow] using hk
  simpa [isOp, and_assoc] using hf

theorem takes_operationResume {s : State} {f : Fetched} (h : s.Takes .operationResume 0 f) : Entry.opcode f.entry = 0x9B ∧ Entry.b2E f.entry = 2 := by
  obtain ⟨k, hk, hf⟩ := h
  obtain ⟨-, rfl⟩ := by simpa [State.hostRow] using hk
  simpa [isOp] using hf

theorem takes_operationCancel {s : State} {f : Fetched} (h : s.Takes .operationCancel 0 f) : Entry.opcode f.entry = 0x9B ∧ Entry.b2E f.entry = 3 := by
  obtain ⟨k, hk, hf⟩ := h
  obtain ⟨-, rfl⟩ := by simpa [State.hostRow] using hk
  simpa [isOp] using hf

section
variable {s t : State} {c : Instr} {f : Fetched} {i : Item}

theorem begun_control (h : s.Begins c 0 f t i) (op : Entry.opcode f.entry = 0x9B) :
    AdminBegun s f t i ∧ exec c s = .next (settleUp (runControl i t)) ∧ Entry.opcode i.entry = 0x9B := by
  have admin : 0x9B ∈ adminOps := by decide
  have b := adminBegun_of_begins h (op ▸ admin)
  exact ⟨b, exec_admin h b op admin, b.entry ▸ op⟩

theorem opcode_control (h : s.Begins c 0 f t i) (control : c = .operationSuspend ∨ c = .operationResume ∨ c = .operationCancel) :
    Entry.opcode f.entry = 0x9B := by
  rcases control with rfl | rfl | rfl
  · exact (takes_operationSuspend h.2.1).1
  · exact (takes_operationResume h.2.1).1
  · exact (takes_operationCancel h.2.1).1

end

/-- No action is allowed for a Sanitize, or for an operation in a final state (R229, Table 08-9). -/
theorem actionAllowed_not {o : LongOp} (shut : o.typ = 1 ∨ 3 ≤ o.state) (action : Nat) : actionAllowed o action = false := by
  have final : o.typ = 1 ∨ o.final = true := shut.imp_right decide_eq_true
  unfold actionAllowed
  dsimp only
  split <;> rcases final with typ | final <;> simp [*]

/-- A running test may be suspended or cancelled (Tables 08-9 and 08-10). -/
theorem actionAllowed_running {o : LongOp} (runs : o.state = 1) (free : o.wants = []) (kind : o.typ = 2 ∨ o.typ = 3 ∨ o.typ = 4) {action : Nat}
    (stops : action = 1 ∨ action = 3) : actionAllowed o action = true := by
  have test : (isSelfTest o.typ || decide (o.typ = 4)) = true := by simpa [isSelfTest, or_assoc] using kind
  have other : o.typ ≠ 1 := by omega
  rcases stops with rfl | rfl <;> simp [actionAllowed, LongOp.final, runs, free, other, test]

/-- A suspended operation may be resumed, whatever its type (Table 08-10). -/
theorem actionAllowed_suspended {o : LongOp} (suspended : o.state = 2) (free : o.wants = []) (other : o.typ ≠ 1) : actionAllowed o 2 = true := by
  simp [actionAllowed, LongOp.final, suspended, free, other]

theorem runControl_unknown {i : Item} {s : State} (unknown : ∀ o ∈ s.lops.list, o.handle ≠ Entry.h2C i.entry) : runControl i s = failWith i 0x1A s := by
  have none_ : s.op? (Entry.h2C i.entry) = none := List.find?_eq_none.2 fun o listed => by simpa using unknown o listed
  unfold runControl
  dsimp only
  rw [none_]

section
variable {i : Item} {s : State} {o : LongOp} (only : s.lops.list = [o]) (handle : o.handle = Entry.h2C i.entry)
include only handle

theorem runControl_refused (refused : actionAllowed o (Entry.b2E i.entry) = false) : runControl i s = failWith i 6 s := by
  unfold runControl
  simp only [← handle, op?_alone only, refused, Bool.not_false, ↓reduceIte]

/-- An operation that is asked for a state, with the command that waits for it. -/
def asked (i : Item) (o : LongOp) (s : State) : State :=
  setItem { i with wait := .turn } (pageOf { o with wants := o.wants ++ [actionState (Entry.b2E i.entry)] } s)

theorem runControl_asks (allowed : actionAllowed o (Entry.b2E i.entry) = true) : runControl i s =
    if o.state = 1 then (if isRebuild o.typ then asked i o s else holdTests (asked i o s)) else reachWanted o.handle (asked i o s) := by
  unfold runControl
  simp only [← handle, op?_alone only, allowed, modOp_alone only, Bool.not_true, Bool.false_eq_true, ↓reduceIte]
  rfl

end

/-- The page and the commands once a command has asked for a state. -/
theorem AdminBegun.asked {s t : State} {f : Fetched} {i : Item} (b : AdminBegun s f t i) (o : LongOp) : Proofs.asked i o t =
    { pageOf { o with wants := o.wants ++ [actionState (Entry.b2E i.entry)] } t with
      nib := { t.nib with items := s.nib.items ++ [{ i with wait := .turn }] } } :=
  setItem_newest (s := pageOf _ t) (j := { i with wait := .turn }) b.items b.fresh rfl

/-! ## The states asked for -/

/-- With no Operation Control waiting there is none to end. -/
theorem endControl_none {s : State} (items : s.nib.items = []) (h state : Nat) : endControl h state s = s := by
  simp [endControl, items]

/-- The command that waits for an operation's state ends with that state's code (R208). -/
theorem endControl_newest {s : State} {l : List Item} {j : Item} {h state : Nat} (items : s.nib.items = l ++ [j]) (others : ∀ x ∈ l, x.wait ≠ .turn)
    (waits : j.wait = .turn) (op : Entry.opcode j.entry = 0x9B) (handle : Entry.h2C j.entry = h) (asks : actionState (Entry.b2E j.entry) = state) :
    endControl h state s = succeed j state s := by
  have found : s.nib.items.find? (fun i => Entry.opcode i.entry = 0x9B && Entry.h2C i.entry = h && i.wait = .turn && actionState (Entry.b2E i.entry) = state)
      = some j := by
    rw [items, List.find?_append, List.find?_eq_none.2 fun x listed => by simp [others x listed]]
    simp [waits, op, handle, asks]
  unfold endControl
  rw [found]

/-- What a state asked for makes of an operation that has stopped (Table 08-10): cancelled, suspended, or running. -/
def tookState (h typ w : Nat) (s : State) : State :=
  match w with
  | 5 => endOp h 5 7 0 s
  | 2 => startQueued typ (modOp h (fun o => { o with state := 2 }) s)
  | w => actUpdate (modOp h (fun o => { o with state := w }) s)

/-- The work of a module whose operation has taken a state. -/
def workOn (typ : Nat) (s : State) : State := if isRebuild typ then rebuildNext s else testWork s

theorem takeWanted_eq (h typ w : Nat) (s : State) :
    takeWanted h typ s w = workOn typ (endControl h w (tookState h typ w (if isRebuild typ then s else dropTests h s))) := rfl

section
variable {s : State} {o : LongOp}

/-- An operation asked for one state takes it. -/
theorem reachWanted_one {w : Nat} (only : s.lops.list = [o]) (asks : o.wants = [w]) :
    reachWanted o.handle s = takeWanted o.handle o.typ (pageOf { o with wants := [] } s) w := by
  unfold reachWanted
  simp only [op?_alone only, asks, modOp_alone only, List.foldl_cons, List.foldl_nil]

/-- A state other than running leaves the page with nothing to begin. -/
theorem workOn_idle {t : State} (only : t.lops.list = [o]) (idle : o.state ≠ 1) (typ : Nat) : workOn typ t = t := by
  rw [workOn, rebuildNext_alone only idle, testWork_idle only idle, ite_self]

theorem takeWanted_suspends (only : s.lops.list = [o]) (items : s.nib.items = []) :
    ∃ u, Stored s u ∧ takeWanted o.handle o.typ s 2 = pageOf { stoppedOp o with state := 2 } u := by
  obtain ⟨u, stored, stops⟩ := stopped_alone only
  have items' : u.nib.items = [] := by obtain ⟨_, _, _, _, rfl⟩ := stored; exact items
  have suspends : tookState o.handle o.typ 2 (pageOf (stoppedOp o) u) = pageOf { stoppedOp o with state := 2 } u :=
    (congrArg (startQueued o.typ) (modOp_alone (s := pageOf (stoppedOp o) u) (o := stoppedOp o) rfl _)).trans
      (startQueued_alone (s := pageOf { stoppedOp o with state := 2 } u) rfl (Nat.succ_ne_zero 1) _)
  refine ⟨u, stored, ?_⟩
  rw [takeWanted_eq, stops, suspends, endControl_none (s := pageOf _ u) items', workOn_idle (t := pageOf _ u) rfl (Nat.succ_ne_self 1)]

/-- A cancelled operation ends with the status aborted (R229, Table 08-10). -/
theorem takeWanted_cancels (only : s.lops.list = [o]) (items : s.nib.items = []) (plain : isRebuild o.typ = false) (open_ : o.state < 3) :
    ∃ u lands, Stored s u ∧ takeWanted o.handle o.typ s 5
      = { pageOf { stoppedOp o with state := 5, outcome := 7, detail := 0, wants := [] } u with lands := lands } := by
  obtain ⟨u, stored, stops⟩ := stopped_alone only
  have items' : u.nib.items = [] := by obtain ⟨_, _, _, _, rfl⟩ := stored; exact items
  obtain ⟨lands, ended⟩ := endOp_plain (s := pageOf (stoppedOp o) u) (o := stoppedOp o) (state := 5) (outcome := 7) (detail := 0) rfl plain (by decide) open_
  have cancels : tookState o.handle o.typ 5 (pageOf (stoppedOp o) u)
      = { pageOf { stoppedOp o with state := 5, outcome := 7, detail := 0, wants := [] } u with lands := lands } := ended
  refine ⟨u, lands, stored, ?_⟩
  rw [takeWanted_eq, stops, cancels, endControl_none (by exact items'),
    workOn_idle (o := { stoppedOp o with state := 5, outcome := 7, detail := 0, wants := [] }) rfl (show 5 ≠ 1 by decide)]

/-- A resumed operation runs, its command ends, and its work goes on (R229). -/
theorem takeWanted_resumes (only : s.lops.list = [o]) {j : Item} {l : List Item} (items : s.nib.items = l ++ [j]) (others : ∀ x ∈ l, x.wait ≠ .turn)
    (waits : j.wait = .turn) (op : Entry.opcode j.entry = 0x9B) (handle : Entry.h2C j.entry = o.handle) (asks : Entry.b2E j.entry = 2) :
    ∃ u lands, Stored s u ∧ takeWanted o.handle o.typ s 1
      = (if isRebuild o.typ then rebuildNext else testWork) (succeed j 1 { pageOf { stoppedOp o with state := 1 } u with lands := lands }) := by
  obtain ⟨u, stored, stops⟩ := stopped_alone only
  have items' : u.nib.items = l ++ [j] := by obtain ⟨_, _, _, _, rfl⟩ := stored; exact items
  obtain ⟨lands, act⟩ := actUpdate_eq (pageOf { stoppedOp o with state := 1 } u)
  have resumes : tookState o.handle o.typ 1 (pageOf (stoppedOp o) u) = { pageOf { stoppedOp o with state := 1 } u with lands := lands } :=
    (congrArg actUpdate (modOp_alone (s := pageOf (stoppedOp o) u) (o := stoppedOp o) rfl _)).trans act
  refine ⟨u, lands, stored, ?_⟩
  rw [takeWanted_eq, stops, resumes, endControl_newest (by exact items') others waits op handle (by rw [asks]; rfl), workOn]
  split <;> rfl

end

/-! ## The rows -/

theorem exec_longOperationSuspended {s : State} {o : LongOp} (only : s.lops.list = [o]) (still : isRebuild o.typ = true ∨ s.testStill = true) :
    exec (.longOperationSuspended o.handle) s = .next (settleUp (reachWanted o.handle { s with out := [] })) := by
  have found := op?_alone (s := { s with out := [] }) only
  have ended : (isRebuild o.typ || State.testStill { s with out := [] }) = true := Bool.or_eq_true_iff.2 still
  change execLongOperationSuspended o.handle s = _
  unfold execLongOperationSuspended work answer
  simp only [found, ended, ↓reduceIte]

/-- The state in which a rebuild that lost nothing ends: its blotter entry is made, and the media records no longer name it (R317). -/
def rebuilt (o : LongOp) (aon : Aon) (s : State) : State :=
  { s with
    flt := { s.flt with blotter := blotOf 6 0xFF 0 false 0xFF (BitVec.ofNat 64 o.handle) s :: s.flt.blotter.take 31, nextSlot := (s.flt.nextSlot + 1) % 32 }
    aon := aon, rec_ := { s.rec_ with rebuilds := s.rec_.rebuilds.filter (fun x => x ≠ (o.typ, o.target)) } }

theorem exec_rebuildComplete {s : State} {o : LongOp} (only : s.lops.list = [o]) (kind : o.typ = 5 ∨ o.typ = 6) (runs : o.state = 1) (whole : o.lost = false)
    (bands : s.ftl.bands = []) : ∃ aon, exec (.rebuildComplete o.handle) s
      = .next (settleUp (rebuildNext (endOp o.handle 3 0 0 (rebuilt o aon { s with out := [] })))) := by
  obtain ⟨aon, noted⟩ := addBlot_front 6 0xFF 0 false 0xFF (BitVec.ofNat 64 o.handle) { s with out := [] }
  refine ⟨aon, ?_⟩
  have found := op?_alone (s := { s with out := [] }) only
  have rebuild : isRebuild o.typ = true := by simpa [isRebuild] using kind
  have none_ : State.bandsWith { s with out := [] } (targetDies o.typ o.target) = [] := by
    unfold State.bandsWith
    rw [show ({ s with out := [] } : State).ftl.bands = [] from bands]
    rfl
  change execRebuildComplete o.handle s = _
  unfold execRebuildComplete work answer
  simp only [found, rebuild, none_, whole, runs, addNote, Nat.zero_mul, Nat.add_zero, List.all_nil, ne_eq, not_true_eq_false, decide_false, Bool.or_self,
    Bool.not_true, Bool.false_eq_true, ↓reduceIte, noted]
  rfl

/-- Settles O37: what each action asks of the one operation, the state that it takes, and the end of a rebuild. -/
theorem longOperationsAreControlled : Obligations.LongOperationsAreControlled := by
  refine ⟨?asks, ?resumes, ?unknown, ?refused, ?suspends, ?cancels, ?rebuild⟩
  case asks =>
    intro s c f t i o w h only handle runs free kind top bottom action
    obtain ⟨b, exec_, -⟩ := begun_control h (opcode_control h (action.imp And.left fun cancel => .inr cancel.1))
    obtain ⟨stops, asks⟩ : (Entry.b2E i.entry = 1 ∨ Entry.b2E i.entry = 3) ∧ actionState (Entry.b2E i.entry) = w := by
      rcases action with ⟨rfl, rfl⟩ | ⟨rfl, rfl⟩
      · obtain ⟨-, noResume, noCancel⟩ := takes_operationSuspend h.2.1
        rw [← b.entry] at noResume noCancel
        have suspend : Entry.b2E i.entry = 1 := by omega
        exact ⟨.inl suspend, by rw [suspend]; rfl⟩
      · obtain ⟨-, cancel⟩ := takes_operationCancel h.2.1
        rw [← b.entry] at cancel
        exact ⟨.inr cancel, by rw [cancel]; rfl⟩
    have plain : isRebuild o.typ = false := by rcases kind with typ | typ | typ <;> · rw [typ]; rfl
    rw [exec_, runControl_asks (b.lops ▸ only) handle (actionAllowed_running runs free kind stops), if_pos runs, plain, if_neg Bool.false_ne_true, b.asked, asks,
      free]
    rfl
  case resumes =>
    intro s f t i o h only handle suspended free format others
    obtain ⟨action, resume⟩ := takes_operationResume h.2.1
    obtain ⟨b, exec_, op⟩ := begun_control h action
    rw [← b.entry] at resume
    have asks : o.wants ++ [actionState (Entry.b2E i.entry)] = [1] := by rw [free, resume]; rfl
    have same : ({ o with wants := [] } : LongOp) = o := by rw [show ([] : List Nat) = o.wants from free.symm]
    obtain ⟨u, lands, stored, takes⟩ := takeWanted_resumes (o := o) (l := s.nib.items) (j := { i with wait := .turn })
      (s := { pageOf o t with nib := { t.nib with items := s.nib.items ++ [{ i with wait := .turn }] } }) rfl rfl others rfl op handle.symm resume
    have reaches := reachWanted_one (o := { o with wants := [1] }) (w := 1)
      (s := { pageOf { o with wants := [1] } t with nib := { t.nib with items := s.nib.items ++ [{ i with wait := .turn }] } }) rfl rfl
    rw [exec_, runControl_asks (b.lops ▸ only) handle (resume ▸ actionAllowed_suspended suspended free format), if_neg (by omega), b.asked, asks]
    obtain ⟨_, _, _, _, rfl⟩ := stored
    have resumed := reaches.trans ((congrArg (fun p => takeWanted o.handle o.typ (pageOf p { pageOf o t with
      nib := { t.nib with items := s.nib.items ++ [{ i with wait := .turn }] } }) 1) same).trans takes)
    exact ⟨_, congrArg (fun t => Host.Outcome.next (settleUp t)) resumed, rfl, rfl, b.map⟩
  case unknown =>
    intro s c f t i control h unknown
    obtain ⟨b, exec_, -⟩ := begun_control h (opcode_control h control)
    rw [exec_, runControl_unknown (b.lops ▸ unknown)]
  case refused =>
    intro s c f t i o control h only handle shut
    obtain ⟨b, exec_, -⟩ := begun_control h (opcode_control h control)
    rw [exec_, runControl_refused (b.lops ▸ only) handle (actionAllowed_not shut _)]
  case suspends =>
    intro s o only items asks still
    obtain ⟨u, stored, takes⟩ := takeWanted_suspends (s := pageOf { o with wants := [] } { s with out := [] }) (o := { o with wants := [] }) rfl items
    rw [exec_longOperationSuspended only still, reachWanted_one (s := { s with out := [] }) only asks]
    obtain ⟨_, _, _, _, rfl⟩ := stored
    exact ⟨_, congrArg (fun t => Host.Outcome.next (settleUp t)) takes, rfl, rfl⟩
  case cancels =>
    intro s o only items asks open_ plain still
    obtain ⟨u, lands, -, takes⟩ := takeWanted_cancels (s := pageOf { o with wants := [] } { s with out := [] }) (o := { o with wants := [] }) rfl items
      plain open_
    rw [exec_longOperationSuspended only (.inr still), reachWanted_one (s := { s with out := [] }) only asks]
    refine ⟨_, congrArg (fun t => Host.Outcome.next (settleUp t)) takes, ?_⟩
    unfold stoppedOp
    simp only [plain, Bool.false_and]
    rfl
  case rebuild =>
    intro s o only queued kind runs whole bands
    obtain ⟨aon, exec_⟩ := exec_rebuildComplete only kind runs whole bands
    obtain ⟨lands, act⟩ := actUpdate_eq (pageOf (endedOp 3 0 0 (rebuilt o aon { s with out := [] }) o) (rebuilt o aon { s with out := [] }))
    rw [exec_, endOp_alone (s := rebuilt o aon { s with out := [] }) only (by decide) (by omega) (.inr queued), act,
      rebuildNext_alone (o := endedOp 3 0 0 (rebuilt o aon { s with out := [] }) o) rfl (show 3 ≠ 1 by decide)]
    exact ⟨_, _, rfl, rfl, rfl, List.mem_cons_self, rfl, rfl, rfl⟩

end Sys2Proof.Proofs
end

section
/-! O5. What is permanent stays through every step (R267, R308, R359). -/

namespace Sys2Proof.Proofs

open Sys2Proof Sys2Proof.Machine Sys2Proof.Laws

/-- The unit's factory data, worn read-only, and the dies and channels recorded as failed stay from `a` to `t`. -/
structure Lasts (a t : State) : Prop where
  unit : t.unit = a.unit
  worn : a.rec_.worn = true → t.rec_.worn = true
  dies : ∀ d ∈ a.rec_.failedDies, d ∈ t.rec_.failedDies
  channels : ∀ c ∈ a.rec_.failedChannels, c ∈ t.rec_.failedChannels

theorem lasts_of_ok {a t : State} (h : Ok a t) : Lasts a t := ⟨h.unit, h.worn, h.dies, h.channels⟩

/-- A row keeps them; a reset release by way of the run that it begins, whose record is that of the state before it. -/
theorem exec_lasts {c : Instr} {s t : State} (e : exec c s = .next t) : Lasts s t := by
  by_cases release : ∃ high cores decoders, c = .resetRelease high cores decoders
  · obtain ⟨high, cores, decoders, rfl⟩ := release
    obtain ⟨unit, worn, dies, channels⟩ := lasts_of_ok (resetRelease_ok high cores decoders t e)
    exact ⟨unit, worn, dies, channels⟩
  · exact lasts_of_ok (exec_ok c (fun high cores decoders h => release ⟨high, cores, decoders, h⟩) (Ok.refl s) t e)

/-- Settles O5: a millisecond and every row keep what is permanent. -/
theorem failuresAndWearArePermanent : Obligations.FailuresAndWearArePermanent := by
  intro s t e
  unfold step at e
  have lasts : Lasts s t := by
    split at e
    · cases e
      exact lasts_of_ok (passMillisecond_ok (out_ok [] (Ok.refl s)))
    · next c rest _ =>
      obtain ⟨unit, worn, dies, channels⟩ := exec_lasts e
      exact ⟨unit, worn, dies, channels⟩
  exact ⟨lasts.unit, lasts.worn, lasts.dies, lasts.channels⟩

end Sys2Proof.Proofs
end

section
/-! O48. A band closed early by a failed program whose records' sequence passes FFFF_FFFFh (R246, R278, R334): its erase begins at once, which the clause on a
program that fails leaves out. -/

namespace Sys2Proof.Proofs

open Sys2Proof Sys2Proof.Machine Sys2Proof.Laws

/-! ## A state that no settling work leaves -/

/-- The row of Table 17-5 that applies on a link that is up has not been told (R452). -/
def rowUntold (s : State) : Bool := s.rst.face = .pcie && s.pcie.speed ≠ 0 && s.pwr.ltr ≠ s.ltrRow

/-- The last of the settling work tells the row. -/
theorem untold_ltrUpdate (s : State) : rowUntold (ltrUpdate s) = false := by
  unfold ltrUpdate
  split
  · have told : rowUntold { s with pwr := { s.pwr with ltr := s.ltrRow } } = false := by
      have row : State.ltrRow { s with pwr := { s.pwr with ltr := s.ltrRow } } = s.ltrRow := rfl
      simp [rowUntold, row]
    dsimp only
    split
    · exact told
    · exact told
  · next quiet => exact Bool.eq_false_iff.2 quiet

/-- Where the row stands untold after the settling work, there was none: the nib has stopped, or the module does not run. -/
theorem settleUp_of_untold {s : State} (h : rowUntold (settleUp s) = true) : settleUp s = s := by
  unfold settleUp at h ⊢
  split at h
  · exact absurd h (by rw [untold_ltrUpdate]; exact Bool.false_ne_true)
  · next off => exact if_neg off

/-! ## The module -/

/-- The program of swatch A of band 20 on die 0. -/
def swatchProg : Prog := { id := 0, band := 20, wl := swatchA, tlc := true, cls := 2, wait := [0], begun := true, slots := [] }

/-- The operation of that program. -/
def swatchOp : DieOp := { die := 0, cls := 2, kind := .program 0, minRun := false }

/-- Band 20, just opened, with its blocks on die 0. -/
def youngBand : Band :=
  { n := 20, tlc := true, st := .opened, chans := [0], nextPos := 0, nextWl := 0, erases := 0, cache := false, closedAt := 0, stamps := []
    blks := (List.range 4).map (fun k => { key := k, no := 20, st := .opened, tlc := true, nextWl := 0, wear := 0, reads := 0, zones := [] })
    refresh := none, soft := [], softBefore := [], retireAfter := [], eraseWait := [] }

/-- A module on its PCI Express face with that program under way. Every ruling is settled, and two records may still be entered below the turn of the sequence. The
nib has stopped, which the clause does not rule out, so that the step leaves no settling work and its effect stands as the program made it. -/
def turning : State := { State.reset with
  rst := { Rst.init with phase := .run, imageRuns := true, recovered := true, admin := true, io := true, face := .pcie }
  pcie := { Pcie.init with speed := 4 }
  nib := { Nib.init with ceiling := 1000, stopped := true }
  log := { MapLog.init with nextSeq := 2 ^ 32 - 2, needOpened := false }
  ftl := { Ftl.init with bands := [youngBand], progs := [swatchProg], nextProg := 1 }
  dies := { Dies.init with dies := [{ Die.idle 0 with active := some swatchOp }] } }

/-- The step leaves the row untold, and band 20 being erased. -/
def erases (o : Host.Outcome State Fault Refusal) : Bool :=
  match o with | .next t => rowUntold t && t.ftl.bands.any (fun b => b.n = 20 && b.st = .erasing) | _ => false

/-- The records of the block retired and of the band closed are the last two below the turn, so none of them lies before the record at which the band's
copies were logged: the band counts as emptied, and its erase begins. -/
theorem turning_erases : erases (exec (.dieProgramComplete 0 false false false 0) turning) = true := by decide +kernel

/-- Refutes O48: by the clause on a program that fails the band stays closed early, where its erase begins in the same step. -/
theorem not_programsAndErasesEnd : ¬ Obligations.ProgramsAndErasesEnd := by
  unfold Obligations.ProgramsAndErasesEnd
  rintro ⟨-, -, fails, -⟩
  obtain ⟨u, exec_, -, -, -, early, -⟩ := fails turning 0 swatchOp false false false 0 swatchProg (by decide) (by decide +kernel) rfl (by decide +kernel) (.inl rfl)
    (by decide +kernel) rfl rfl rfl rfl rfl
  have left := turning_erases
  rw [exec_, erases, Bool.and_eq_true] at left
  obtain ⟨untold, erasing⟩ := left
  rw [settleUp_of_untold untold] at erasing
  obtain ⟨b, mem, band⟩ := List.any_eq_true.1 erasing
  simp only [Bool.and_eq_true, decide_eq_true_eq] at band
  exact BandSt.noConfusion (band.2.symm.trans (early b mem band.1))

end Sys2Proof.Proofs
end

section
/-! SUPPORT. Copies that begin, and bands that are emptied (R261, R334): what they touch, and the bands that stay listed as being emptied. -/

namespace Sys2Proof.Proofs

open Sys2Proof Sys2Proof.Machine Sys2Proof.Laws

/-! ## Die reads -/

theorem startRdOn_gathered (d ruling block slot cls use : Nat) (s : State) : Gathered s (startRdOn d ruling block slot cls use s) := by
  unfold startRdOn
  dsimp only
  split
  · exact (listed_gathered _ _ s).trans (enqueue_gathered _ _)
  split
  · exact (listed_gathered _ _ s).trans (startPeers_gathered _ _)
  · exact listed_gathered _ _ s

/-- The read of a page is listed under its die, whether the die serves it or reconstruction does (R307, R309). -/
theorem startRdOn_lists (d ruling block slot cls use : Nat) (s : State) : ∃ r ∈ (startRdOn d ruling block slot cls use s).dies.reads,
    r.slot = slot ∧ r.die = d ∧ r.use = use ∧ r.cls = cls ∧ r.done = false := by
  unfold startRdOn
  dsimp only
  split
  · exact ⟨_, (enqueue_gathered _ _).reads (List.mem_append_right _ (List.mem_singleton.2 rfl)), by split <;> exact ⟨rfl, rfl, rfl, rfl, rfl⟩⟩
  split
  · exact ⟨_, (startPeers_gathered _ _).reads (List.mem_append_right _ (List.mem_singleton.2 rfl)), by split <;> exact ⟨rfl, rfl, rfl, rfl, rfl⟩⟩
  · exact ⟨_, List.mem_append_right _ (List.mem_singleton.2 rfl), by split <;> exact ⟨rfl, rfl, rfl, rfl, rfl⟩⟩

theorem foldl_startRdOn_lists (ruling block cls use : Nat) (l : List (Nat × Nat)) (s : State) :
    Gathered s (l.foldl (fun s x => startRdOn x.2 ruling block x.1 cls use s) s)
    ∧ ∀ x ∈ l, ∃ r ∈ (l.foldl (fun s x => startRdOn x.2 ruling block x.1 cls use s) s).dies.reads,
      r.slot = x.1 ∧ r.die = x.2 ∧ r.use = use ∧ r.cls = cls ∧ r.done = false := by
  induction l generalizing s with
  | nil => exact ⟨.refl s, by simp⟩
  | cons x l ih =>
    obtain ⟨gathered, lists⟩ := ih (startRdOn x.2 ruling block x.1 cls use s)
    refine ⟨(startRdOn_gathered _ _ _ _ _ _ s).trans gathered, List.forall_mem_cons.2 ⟨?_, lists⟩⟩
    obtain ⟨r, listed, fields⟩ := startRdOn_lists x.2 ruling block x.1 cls use s
    exact ⟨r, gathered.reads listed, fields⟩

/-! ## Copies -/

/-- What copies that begin make of a state: they join the others, and die reads are added. -/
structure Copies (a t : State) : Prop where
  eq : ∃ (dies : Dies) (cache : List Nat) (moves : List Move), t = { a with dies := dies, ftl := { a.ftl with cache := cache, moves := moves } }

theorem Copies.refl (a : State) : Copies a a := ⟨a.dies, a.ftl.cache, a.ftl.moves, rfl⟩

theorem Copies.trans {a b c : State} (h : Copies a b) (k : Copies b c) : Copies a c := by
  obtain ⟨_, _, _, rfl⟩ := h
  obtain ⟨_, _, _, rfl⟩ := k
  exact ⟨_, _, _, rfl⟩

theorem Copies.foldl {α : Type} {f : State → α → State} (h : ∀ s x, Copies s (f s x)) (l : List α) (s : State) : Copies s (l.foldl f s) := by
  induction l generalizing s with
  | nil => exact .refl s
  | cons x l ih => exact (h s x).trans (ih _)

section
variable {a t : State} (h : Copies a t)
include h

theorem Copies.map : t.map = a.map := by obtain ⟨_, _, _, rfl⟩ := h; rfl
theorem Copies.slots : t.ftl.slots = a.ftl.slots := by obtain ⟨_, _, _, rfl⟩ := h; rfl
theorem Copies.emptying : t.ftl.emptying = a.ftl.emptying := by obtain ⟨_, _, _, rfl⟩ := h; rfl

end

theorem startMove_copies (slot cls : Nat) (stroke : Option Nat) (block : Nat) (s : State) : Copies s (startMove slot cls stroke block s) := by
  unfold startMove
  split
  · exact .refl s
  · obtain ⟨_, _, _, _, _, e, -⟩ := startRd_gathered 0 0 slot cls (if stroke.isSome then 3 else 1)
      { s with ftl := { s.ftl with moves := s.ftl.moves ++ [{ old := slot, new := none, cls := cls, stroke := stroke, block := block }] } }
    dsimp only
    rw [e]
    exact ⟨_, _, _, rfl⟩

/-- A slot is copied once. -/
theorem startMove_moves (slot cls : Nat) (stroke : Option Nat) (block : Nat) (s : State) : (startMove slot cls stroke block s).ftl.moves
    = if s.ftl.moves.any (fun m => m.old = slot) then s.ftl.moves
      else s.ftl.moves ++ [{ old := slot, new := none, cls := cls, stroke := stroke, block := block }] := by
  unfold startMove
  split
  · rfl
  · obtain ⟨_, _, _, _, _, e, -⟩ := startRd_gathered 0 0 slot cls (if stroke.isSome then 3 else 1)
      { s with ftl := { s.ftl with moves := s.ftl.moves ++ [{ old := slot, new := none, cls := cls, stroke := stroke, block := block }] } }
    dsimp only
    rw [e]

theorem startCopies_copies (n cls : Nat) (slots : List Nat) (s : State) : Copies s (startCopies n cls slots s) := by
  unfold startCopies
  dsimp only
  exact (Copies.foldl (fun t _ => Copies.foldl (fun t _ => startMove_copies _ _ _ _ t) _ t) _ s).trans
    (Copies.foldl (fun t _ => startMove_copies _ _ _ _ t) _ _)

/-- Every copy under way is of a stroke, and waits for its read. -/
def CopiesStroke (k : Nat) (s : State) : Prop := ∀ m ∈ s.ftl.moves, m.stroke = some k ∧ m.new = none

theorem startMove_copiesStroke {k : Nat} {s : State} (slot cls block : Nat) (h : CopiesStroke k s) :
    CopiesStroke k (startMove slot cls (some k) block s) ∧ ∃ m ∈ (startMove slot cls (some k) block s).ftl.moves, m.old = slot := by
  unfold CopiesStroke
  rw [startMove_moves]
  split
  · next found =>
    obtain ⟨m, mem, old⟩ := List.any_eq_true.1 found
    exact ⟨h, m, mem, of_decide_eq_true old⟩
  · refine ⟨fun m mem => ?_, _, List.mem_append_right _ (List.mem_singleton.2 rfl), rfl⟩
    rcases List.mem_append.1 mem with mem | new
    · exact h m mem
    · rw [List.mem_singleton.1 new]
      exact ⟨rfl, rfl⟩

theorem mem_startMove_moves {m : Move} {s : State} (slot cls : Nat) (stroke : Option Nat) (block : Nat) (h : m ∈ s.ftl.moves) :
    m ∈ (startMove slot cls stroke block s).ftl.moves := by
  rw [startMove_moves]
  split
  · exact h
  · exact List.mem_append_left _ h

/-- The copies of a stroke's blocks, each with its slot, begin (R241). -/
theorem foldl_startMove_stroke {k : Nat} (cls : State → Nat) (l : List (Nat × Nat)) {s : State} (h : CopiesStroke k s) :
    Copies s (l.foldl (fun s y => startMove y.2 (cls s) (some k) y.1 s) s)
    ∧ CopiesStroke k (l.foldl (fun s y => startMove y.2 (cls s) (some k) y.1 s) s)
    ∧ (∀ m ∈ s.ftl.moves, m ∈ (l.foldl (fun s y => startMove y.2 (cls s) (some k) y.1 s) s).ftl.moves)
    ∧ ∀ y ∈ l, ∃ m ∈ (l.foldl (fun s y => startMove y.2 (cls s) (some k) y.1 s) s).ftl.moves, m.old = y.2 := by
  induction l generalizing s with
  | nil => exact ⟨.refl s, h, fun _ mem => mem, by simp⟩
  | cons y l ih =>
    obtain ⟨stroke, m, mem, old⟩ := startMove_copiesStroke y.2 (cls s) y.1 h
    obtain ⟨copies, strokes, kept, begun⟩ := ih stroke
    exact ⟨(startMove_copies _ _ _ _ s).trans copies, strokes, fun m mem => kept m (mem_startMove_moves _ _ _ _ mem),
      List.forall_mem_cons.2 ⟨⟨m, kept m mem, old⟩, begun⟩⟩

/-! ## Bands that are emptied -/

/-- What of a band being emptied stays until its erase has ended: the band, the kind of work, and whether the settled view was waited for. -/
def emptyTag (e : Emptying) : Nat × Nat × Bool := (e.band, e.kind, e.waited)

/-- What the end of the copies touches: the bands being emptied are logged, and bands are erased. -/
structure Clears (a t : State) : Prop where
  eq : ∃ (dies : Dies) (bands : List Band) (emptying : List Emptying), t = { a with dies := dies, ftl := { a.ftl with bands := bands, emptying := emptying } }
    ∧ emptying.map emptyTag = a.ftl.emptying.map emptyTag

theorem Clears.refl (a : State) : Clears a a := ⟨a.dies, a.ftl.bands, a.ftl.emptying, rfl, rfl⟩

theorem Clears.trans {a b c : State} (h : Clears a b) (k : Clears b c) : Clears a c := by
  obtain ⟨_, _, _, rfl, tags⟩ := h
  obtain ⟨_, _, _, rfl, tags'⟩ := k
  exact ⟨_, _, _, rfl, tags'.trans tags⟩

theorem Clears.foldl {α : Type} {f : State → α → State} (h : ∀ s x, Clears s (f s x)) (l : List α) (s : State) : Clears s (l.foldl f s) := by
  induction l generalizing s with
  | nil => exact .refl s
  | cons x l ih => exact (h s x).trans (ih _)

section
variable {a t : State} (h : Clears a t)
include h

theorem Clears.map : t.map = a.map := by obtain ⟨_, _, _, rfl, -⟩ := h; rfl
theorem Clears.slots : t.ftl.slots = a.ftl.slots := by obtain ⟨_, _, _, rfl, -⟩ := h; rfl
theorem Clears.log : t.log = a.log := by obtain ⟨_, _, _, rfl, -⟩ := h; rfl
theorem Clears.nib : t.nib = a.nib := by obtain ⟨_, _, _, rfl, -⟩ := h; rfl
theorem Clears.tags : t.ftl.emptying.map emptyTag = a.ftl.emptying.map emptyTag := by obtain ⟨_, _, _, rfl, tags⟩ := h; exact tags

end

theorem noteLogged_clears (s : State) : Clears s (noteLogged s) := by
  refine ⟨s.dies, s.ftl.bands, _, rfl, ?_⟩
  unfold mapIf
  rw [List.map_map]
  refine List.map_congr_left fun e _ => ?_
  dsimp only [Function.comp]
  split <;> rfl

theorem startErase_clears (n cls : Nat) (s : State) : Clears s (startErase n cls s) := by
  unfold startErase
  split
  · exact .refl s
  · exact ⟨_, _, s.ftl.emptying, rfl, rfl⟩

theorem eraseReady_clears (s : State) : Clears s (eraseReady s) := by
  unfold eraseReady
  refine Clears.foldl (fun t e => ?_) _ s
  split
  · split
    · exact startErase_clears _ _ t
    · exact .refl t
  · exact .refl t

theorem emptied_clears (s : State) : Clears s (emptied s) := (noteLogged_clears s).trans (eraseReady_clears _)

/-- A band that begins to be emptied is listed with its kind of work; no slot and no entry of the map has moved yet (R261). -/
theorem emptied_startEmptying {n kind cls : Nat} {s : State} (new : s.ftl.emptying.any (fun e => e.band = n) = false) :
    ∃ e ∈ (emptied (startEmptying n kind cls s)).ftl.emptying, e.band = n ∧ e.kind = kind
      ∧ (emptied (startEmptying n kind cls s)).ftl.slots = s.ftl.slots ∧ (emptied (startEmptying n kind cls s)).map = s.map := by
  have clears := emptied_clears (startEmptying n kind cls s)
  have begins : ∃ e : Emptying, emptyTag e = (n, kind, false)
      ∧ Copies { s with ftl := { s.ftl with emptying := s.ftl.emptying ++ [e] } } (startEmptying n kind cls s) := by
    unfold startEmptying
    rw [if_neg (by rw [new]; exact Bool.false_ne_true)]
    exact ⟨_, by rfl, startCopies_copies _ _ _ _⟩
  obtain ⟨e, tag, copies⟩ := begins
  have listed : (n, kind, false) ∈ (emptied (startEmptying n kind cls s)).ftl.emptying.map emptyTag := by
    rw [clears.tags, copies.emptying, ← tag]
    exact List.mem_map_of_mem (List.mem_append_right _ (List.mem_singleton.2 rfl))
  obtain ⟨x, mem, same⟩ := List.mem_map.1 listed
  simp only [emptyTag, Prod.mk.injEq] at same
  exact ⟨x, mem, same.1, same.2.1, clears.slots.trans copies.slots, clears.map.trans copies.map⟩

end Sys2Proof.Proofs
end

section
/-! SUPPORT. The rows of the map log (R247, R248, R326, R327, R333): a page filled, a page verified, and a checkpoint begun. -/

namespace Sys2Proof.Proofs

open Sys2Proof Sys2Proof.Machine Sys2Proof.Laws

section
variable {s : State}

/-! ## Pages filled -/

/-- Where the Opened page stands, no other goes before a change of the media (R332). -/
theorem openMedia_of_stands (h : s.log.needOpened = false) : openMedia s = s := by
  unfold openMedia
  rw [h]
  rfl

theorem exec_logPageFill (on : s.logOn = true) (due : s.pageDue = true) (free : s.pageWaits = false) (stands : s.log.needOpened = false) :
    exec .logPageFill s = .next (settleUp (fillPage { s with out := [] })) := by
  change work (onlyIf _ _) s = _
  rw [work_onlyIf_true (by rw [on, due, free]; rfl), openMedia_of_stands (s := { s with out := [] }) stands]

theorem exec_logPageFill_idle (h : s.pageDue = false ∨ s.pageWaits = true) : exec .logPageFill s = .next (settleUp { s with out := [] }) := by
  change work (onlyIf _ _) s = _
  refine work_onlyIf_false ?_
  rcases h with h | h <;> simp [h]

theorem pageDue_iff : s.pageDue = true ↔ 496 ≤ s.log.buf.length ∨ s.persistDue = true := by
  simp [State.pageDue]

/-- The ceiling of a page never falls (R329). -/
theorem ceiling_le_pageCeiling : s.nib.ceiling ≤ s.pageCeiling := by
  unfold State.pageCeiling
  split
  · exact Nat.le_add_right _ _
  · exact Nat.le_refl _

/-- The settled ruling never falls from one page to the next (R326). -/
theorem settled_le_settledFor (page rest : List MapRec) : s.settled ≤ s.settledFor page rest := Nat.le_max_left _ _

/-! ## Pages verified -/

theorem exec_logPageVerified (on : s.logOn = true) (there : s.pageThere = true) :
    exec .logPageVerified s = .next (settleUp (pageVerified { s with out := [] })) := by
  change work (onlyIf _ _) s = _
  exact work_onlyIf_true (by rw [on, there]; rfl)

theorem exec_logPageVerified_idle (none_ : s.pageThere = false) : exec .logPageVerified s = .next (settleUp { s with out := [] }) := by
  change work (onlyIf _ _) s = _
  exact work_onlyIf_false (by rw [none_, Bool.and_false])

/-- The consequences of a verified page leave the pages, the ceiling and the map alone, and the rulings that it covers need no more settling. -/
theorem afterPage_frame (s : State) : (afterPage s).log.pages = s.log.pages ∧ (afterPage s).log.inflight = s.log.inflight
    ∧ (afterPage s).nib.ceiling = s.nib.ceiling ∧ (afterPage s).map = s.map ∧ (afterPage s).nib.unsettled = s.nib.unsettled.filter (fun r => s.settled < r) := by
  have clears : Clears (checkpointValid (completePersistent (settleCovered s))) (afterPage s) := (noteLogged_clears _).trans (eraseReady_clears _)
  obtain ⟨_, _, valid⟩ := checkpointValid_eq (completePersistent (settleCovered s))
  obtain ⟨_, _, _, _, _, _, _, _, _, _, _, _, completes, -⟩ := completePersistent_concluded (settleCovered s)
  rw [clears.log, clears.nib, clears.map, valid, completes]
  exact ⟨rfl, rfl, rfl, rfl, rfl⟩

/-- The settled ruling is the highest that a verified page carries. -/
theorem settled_append {t : State} {p : LogPage} (h : t.log.pages = s.log.pages ++ [p]) : t.settled = max s.settled p.settled := by
  unfold State.settled
  rw [h, List.map_append, List.foldl_append]
  rfl

/-- The oldest page under way has joined the log, and what follows from it is still to be done (R327). -/
def pageJoined (p : LogPage) (rest : List LogPage) (s : State) : State := { s with
  log := { s.log with inflight := rest, pages := s.log.pages ++ [p], progs := s.log.progs.filter (fun x => x.1 ≠ p.seq) }
  nib := { s.nib with ceiling := max s.nib.ceiling p.ceiling } }

theorem pageVerified_eq {p : LogPage} {rest : List LogPage} (under : s.log.inflight = p :: rest) :
    pageVerified s = afterPage (pageJoined p rest s) := by
  unfold pageVerified
  rw [under]
  rfl

theorem pageVerified_joins {p : LogPage} {rest : List LogPage} (under : s.log.inflight = p :: rest) :
    (pageVerified s).log.pages = s.log.pages ++ [p] ∧ (pageVerified s).log.inflight = rest
      ∧ (pageVerified s).nib.ceiling = max s.nib.ceiling p.ceiling ∧ (pageVerified s).settled = max s.settled p.settled
      ∧ (∀ r ∈ (pageVerified s).nib.unsettled, (pageVerified s).settled < r) ∧ (pageVerified s).map = s.map := by
  rw [pageVerified_eq under]
  obtain ⟨pages, inflight, ceiling, map, unsettled⟩ := afterPage_frame (pageJoined p rest s)
  refine ⟨pages, inflight, ceiling, settled_append pages, fun r open_ => ?_, map⟩
  rw [unsettled] at open_
  rw [settled_append pages, ← settled_append (t := pageJoined p rest s) rfl]
  exact of_decide_eq_true (List.mem_filter.1 open_).2

/-! ## Checkpoints -/

theorem exec_checkpointStart (on : s.logOn = true) (stands : s.log.needOpened = false) (free : s.log.cpWriting = none) (due : s.checkpointDue = true) :
    exec .checkpointStart s = .next (settleUp (beginCheckpoint { s with out := [] })) := by
  change work (onlyIf _ _) s = _
  rw [work_onlyIf_true (by rw [on, free, due]; rfl), openMedia_of_stands (s := { s with out := [] }) stands]

theorem exec_checkpointStart_idle (early : s.checkpointDue = false) : exec .checkpointStart s = .next (settleUp { s with out := [] }) := by
  change work (onlyIf _ _) s = _
  exact work_onlyIf_false (by rw [early, Bool.and_false])

/-- A checkpoint is taken of the settled view, between its two records (R248, R286, R287, R333). -/
theorem beginCheckpoint_writes (s : State) : ∃ c a b, (beginCheckpoint s).log.cpWriting = some c ∧ c.cs = s.settled ∧ c.map = s.settledMap
    ∧ c.start = s.log.nextSeq ∧ c.valid = false ∧ c.aging = s.dies.aging.map (· / 2 ^ 32) ∧ c.tables = s.ftl.bands.map Band.tables
    ∧ (beginCheckpoint s).log.buf = s.log.buf ++ [a, b] ∧ a.typ = 8 ∧ b.typ = 9 ∧ (beginCheckpoint s).map = s.map :=
  ⟨_, _, _, rfl, rfl, rfl, rfl, rfl, rfl, rfl, List.append_assoc _ _ _, rfl, rfl, rfl⟩

end

end Sys2Proof.Proofs
end

section
/-! SUPPORT. The rows of the module's own work on its bands (R241, R255, R260, R261, R263, R334). -/

namespace Sys2Proof.Proofs

open Sys2Proof Sys2Proof.Machine Sys2Proof.Laws

/-- The first member in an order is a member. -/
theorem mem_of_firstBy {α : Type} {before : α → α → Bool} {l : List α} {x : α} (h : firstBy before l = some x) : x ∈ l := by
  have listed : ∀ y, firstBy before l = some y → y ∈ l := by
    unfold firstBy
    refine List.foldlRecOn l _ (motive := fun acc => ∀ y, acc = some y → y ∈ l) nofun fun acc ih z mem y first => ?_
    split at first
    · exact Option.some.inj first ▸ mem
    · next best =>
      split at first
      · exact Option.some.inj first ▸ mem
      · exact ih y first
  exact listed x h

section
variable {s : State}

/-- A band that can be emptied is not being emptied. -/
theorem notEmptying_of_canEmpty {b : Band} (h : s.canEmpty b = true) : s.ftl.emptying.any (fun e => e.band = b.n) = false := by
  simp only [State.canEmpty, Bool.and_eq_true, Bool.not_eq_true'] at h
  exact h.2

/-! ## Collection (R260) -/

theorem victim_canEmpty {b : Band} (h : s.victim = some b) : s.canEmpty b = true := by
  have listed := (List.mem_filter.1 (mem_of_firstBy h)).2
  simp only [Bool.and_eq_true] at listed
  exact listed.1.1

theorem exec_garbageCollectionStart {b : Band} (own : s.ownWork = true) (free : s.deferred = false) (victim : (collectUpdate s).victim = some b)
    (collects : (collectUpdate s).ftl.collecting = true) :
    exec .garbageCollectionStart s = .next (settleUp (emptied (startEmptying b.n 0 3 (collectUpdate { s with out := [] })))) := by
  have victim' : (collectUpdate { s with out := [] }).victim = some b := victim
  change work (onlyIf _ _) s = _
  rw [work_onlyIf_true (by rw [own, free]; rfl)]
  dsimp only
  rw [victim']
  exact congrArg (fun t => Host.Outcome.next (settleUp t)) (if_pos collects)

/-! ## Folding (R255) -/

theorem exec_foldStart {b : Band} (own : s.ownWork = true) (hybrid : s.hybrid = true) (free : s.deferred = false) (due : s.foldDue = true)
    (only : s.ftl.bands = [b]) (cache : b.cache = true) (can : s.canEmpty b = true) :
    exec .foldStart s = .next (settleUp (emptied (startEmptying b.n 1 3 { s with out := [] }))) := by
  have oldest : s.ftl.bands.filter (fun b => s.canEmpty b && b.cache) = [b] := by rw [only]; simp [can, cache]
  have oldest' : s.ftl.bands.filter (fun b => State.canEmpty { s with out := [] } b && b.cache) = [b] := oldest
  change work (onlyIf _ _) s = _
  rw [work_onlyIf_true (by rw [own, hybrid, free, due]; rfl)]
  dsimp only
  rw [oldest']
  rfl

theorem exec_foldStart_idle (early : s.foldDue = false) : exec .foldStart s = .next (settleUp { s with out := [] }) := by
  change work (onlyIf _ _) s = _
  exact work_onlyIf_false (by rw [early, Bool.and_false])

/-! ## Wear levelling (R263) -/

/-- The erase counts of two host bands, the first the least worn of all. -/
theorem eraseCounts_pair {a b : Band} (pair : s.ftl.bands = [a, b]) (hostA : s.isHostBand a.n = true) (hostB : s.isHostBand b.n = true)
    (stA : a.st ≠ .dissolved) (stB : b.st ≠ .dissolved) :
    s.eraseCounts = a.erases :: b.erases :: (if 2 < s.hostBands then [s.ftl.freshErases] else []) := by
  simp [State.eraseCounts, pair, hostA, hostB, stA, stB]

theorem exec_wearLevelling {a b : Band} (own : s.ownWork = true) (pair : s.ftl.bands = [a, b]) (hostA : s.isHostBand a.n = true)
    (hostB : s.isHostBand b.n = true) (can : s.canEmpty a = true) (stA : a.st ≠ .dissolved) (stB : b.st ≠ .dissolved)
    (fresh : s.hostBands ≤ 2 ∨ a.erases ≤ s.ftl.freshErases) (apart : a.erases + 1000 ≤ b.erases) :
    exec .wearLevelling s = .next (settleUp (emptied (startEmptying a.n 2 3 { s with out := [] }))) := by
  have counts := eraseCounts_pair pair hostA hostB stA stB
  have least : s.eraseCounts.foldl min (s.eraseCounts.headD 0) = a.erases := by
    rw [counts]
    split
    · have := fresh.resolve_left (by omega)
      simp only [List.headD_cons, List.foldl_cons, List.foldl_nil]
      omega
    · simp only [List.headD_cons, List.foldl_cons, List.foldl_nil]
      omega
  have most : a.erases + 1000 ≤ s.eraseCounts.foldl max 0 := by
    rw [counts]
    split <;> simp only [List.foldl_cons, List.foldl_nil] <;> omega
  have first : s.ftl.bands.find? (fun x => s.canEmpty x && x.erases = a.erases) = some a := by
    rw [pair]
    exact List.find?_cons_of_pos (by simp [can])
  have least' : (State.eraseCounts { s with out := [] }).foldl min ((State.eraseCounts { s with out := [] }).headD 0) = a.erases := least
  have first' : s.ftl.bands.find? (fun x => State.canEmpty { s with out := [] } x && x.erases = a.erases) = some a := first
  change work (onlyIf _ _) s = _
  rw [work_onlyIf_true own]
  dsimp only
  rw [least', first']
  exact congrArg (fun t => Host.Outcome.next (settleUp t)) (if_pos most)

/-! ## The wait on the settled view (R334) -/

/-- The copies of what the settled view names in a band begin; the band waits no second time. -/
def copySettled (view : MapState) (s : State) (e : Emptying) : State :=
  let s := modEmptying e.band (fun x => { x with logged := false, waited := true }) s
  ((s.ftl.slots.filter (fun x => bandOfSlot x.n = e.band && !x.cw.pad && (view.blockOfSlot x.n).isSome)).map (·.n)).foldl
    (fun s n => startMove n e.cls none (s.blockAt n) s) s

theorem copySettled_copies (view : MapState) (s : State) (e : Emptying) :
    Copies (modEmptying e.band (fun x => { x with logged := false, waited := true }) s) (copySettled view s e) :=
  Copies.foldl (fun t _ => startMove_copies _ _ _ _ t) _ _

theorem exec_settledWaitExpiry {e : Emptying} (own : s.ownWork = true) (only : s.ftl.emptying = [e]) (logged : e.logged = true) (fresh : e.waited = false)
    (durable : s.durableTo e.logSeq = true) (stale : s.settled < e.dueStale) :
    exec .settledWaitExpiry s = .next (settleUp (emptied (copySettled s.settledMap { s with out := [] } e))) := by
  have late : s.ftl.emptying.filter (fun e => e.logged && s.durableTo e.logSeq && s.settled < e.dueStale && !e.waited) = [e] := by
    rw [only]
    simp [logged, fresh, durable, stale]
  have late' : s.ftl.emptying.filter (fun e => e.logged && State.durableTo { s with out := [] } e.logSeq
    && State.settled { s with out := [] } < e.dueStale && !e.waited) = [e] := late
  change work (onlyIf _ _) s = _
  rw [work_onlyIf_true own]
  dsimp only
  rw [late']
  rfl

/-- The band is still the one being emptied, and has waited. -/
theorem emptied_copySettled {e : Emptying} (only : s.ftl.emptying = [e]) (view : MapState) :
    ∃ x, (emptied (copySettled view s e)).ftl.emptying = [x] ∧ x.band = e.band ∧ x.waited = true ∧ (emptied (copySettled view s e)).map = s.map
      ∧ (emptied (copySettled view s e)).ftl.slots = s.ftl.slots := by
  have copies := copySettled_copies view s e
  have clears := emptied_clears (copySettled view s e)
  have tags := clears.tags
  rw [copies.emptying, modEmptying_ftl] at tags
  simp only [only, mapIf, List.map_cons, List.map_nil, decide_true, ↓reduceIte] at tags
  obtain ⟨x, alone, tag⟩ := List.map_eq_singleton_iff.1 tags
  simp only [emptyTag, Prod.mk.injEq] at tag
  exact ⟨x, alone, tag.1, tag.2.2, clears.map.trans copies.map, clears.slots.trans copies.slots⟩

/-! ## Demotion (R241) -/

/-- The blocks of a stroke that have a slot, each with it. -/
def strokeSlots (s : State) (k : Nat) : List (Nat × Nat) :=
  (List.range 32).filterMap (fun i => (s.map.lookup (32 * k + i)).map (fun n => (32 * k + i, n)))

theorem mem_strokeSlots {k i n : Nat} (below : i < 32) (slot : s.map.lookup (32 * k + i) = some n) : (32 * k + i, n) ∈ strokeSlots s k :=
  List.mem_filterMap.2 ⟨i, List.mem_range.2 below, by rw [slot]; rfl⟩

theorem exec_demotion {k : Nat} {x : Stroke} (own : s.ownWork = true) (hair : s.strokeOnly = false) (free : s.deferred = false)
    (stroke : s.map.stroke? k = some x) (kind : 2 ≤ x.kind) (due : s.demotionDue k = true) (some_ : strokeSlots s k ≠ []) (idle : s.ftl.moves = []) :
    exec (.demotion k) s = .next (settleUp ((strokeSlots s k).foldl (fun s y => startMove y.2 (if s.hairAbove 60 then 2 else 3) (some k) y.1 s)
      { s with out := [], ftl := { s.ftl with demoting := s.demotes } })) := by
  have goes : ¬ (!s.demotionDue k || x.kind < 2 || strokeSlots s k = [] || s.ftl.moves.any (fun m => m.stroke = some k
      || (strokeSlots s k).any (fun y => y.2 = m.old))) = true := by
    simp [due, some_, idle]
    omega
  change work (onlyIf _ _) s = _
  rw [work_onlyIf_true (by rw [own, hair, free]; rfl)]
  dsimp only
  rw [stroke]
  exact congrArg (fun t => Host.Outcome.next (settleUp t)) (if_neg goes)

end

end Sys2Proof.Proofs
end

section
/-! SUPPORT. The patrol of a band (R292, R296), the aging clocks (R286), and the reads of an older rule epoch (R385). -/

namespace Sys2Proof.Proofs

open Sys2Proof Sys2Proof.Machine Sys2Proof.Laws

/-! ## Patrol -/

/-- The module wakes for a patrol (R448). -/
def patrolAwake (s : State) : State := if s.awake then s else wake s

theorem patrolAwake_ps (s : State) : (patrolAwake s).pwr.ps < 2 := by
  unfold patrolAwake
  split
  · next awake => exact of_decide_eq_true awake
  · show (if 2 ≤ s.effectiveStep then 1 else 0) < 2
    split <;> decide

theorem patrolAwake_frame (s : State) (b : Band) : (patrolAwake s).map = s.map ∧ (patrolAwake s).codewords b = s.codewords b := by
  unfold patrolAwake
  split <;> exact ⟨rfl, rfl⟩

/-- What the probes of a sweep leave alone. -/
def besideSweep (s : State) : List Rd × Pwr × MapState := (s.dies.reads, s.pwr, s.map)

theorem besideSweep_sweepDie (d : Nat) (s : State) : besideSweep (sweepDie d s) = besideSweep s := by
  unfold sweepDie
  split
  · rfl
  split <;> rfl

theorem besideSweep_addSweep (l : List (Nat × Nat × Nat)) (s : State) : besideSweep (addSweep l s) = besideSweep s := by
  unfold addSweep sweepDies
  exact List.foldlRecOn _ _ (motive := fun t => besideSweep t = besideSweep s) rfl fun t kept d _ => (besideSweep_sweepDie d t).trans kept

theorem Gathered.pwr {a u : State} (h : Gathered a u) : u.pwr = a.pwr := by obtain ⟨_, _, _, _, _, rfl, _⟩ := h; rfl

/-- The codewords read, and the probes of the blocks. -/
def patrolled (b : Band) (s : State) : State := addSweep b.probed ((s.codewords b).foldl (fun s x => startRdOn x.2 0 0 x.1 3 2 s) s)

theorem exec_patrol {s : State} {n : Nat} {b : Band} (own : s.ownWork = true) (found : s.band? n = some b) (holds : s.liveSlots n ≠ [] ∨ s.isSystem n = true) :
    exec (.patrol n) s = .next (settleUp (patrolled b (patrolAwake { s with out := [] }))) := by
  have found' : State.band? { s with out := [] } n = some b := found
  have goes : ¬ (s.liveSlots n = [] && !s.isSystem n) = true := by
    rcases holds with h | h <;> simp [h]
  change work (onlyIf _ _) s = _
  rw [work_onlyIf_true own]
  dsimp only
  rw [found']
  exact congrArg (fun t => Host.Outcome.next (settleUp t)) (if_neg goes)

theorem patrolled_reads (b : Band) (s : State) : (patrolled b s).pwr = s.pwr ∧ (patrolled b s).map = s.map
    ∧ ∀ x ∈ s.codewords b, ∃ r ∈ (patrolled b s).dies.reads, r.slot = x.1 ∧ r.die = x.2 ∧ r.use = 2 ∧ r.cls = 3 ∧ r.done = false := by
  obtain ⟨gathered, lists⟩ := foldl_startRdOn_lists 0 0 3 2 (s.codewords b) s
  unfold patrolled
  generalize (s.codewords b).foldl (fun s x => startRdOn x.2 0 0 x.1 3 2 s) s = t at gathered lists ⊢
  have swept := besideSweep_addSweep b.probed t
  simp only [besideSweep, Prod.mk.injEq] at swept
  obtain ⟨reads, pwr, map⟩ := swept
  rw [reads, pwr, map]
  exact ⟨gathered.pwr, gathered.map, lists⟩

/-! ## The aging clocks -/

theorem getD_map_range {α : Type} (f : Nat → α) (n d : Nat) (z : α) : ((List.range n).map f).getD d z = if d < n then f d else z := by
  rw [List.getD_eq_getElem?_getD, List.getElem?_map]
  split
  · next below => rw [List.getElem?_range below]; rfl
  · next above => rw [List.getElem?_eq_none (by rw [List.length_range]; omega)]; rfl

section
variable (s : State) (l : List Int)

/-- What a second at the temperatures `l` adds to the aging clock of a die. -/
def aged (d : Nat) : Nat := match l[d]? with | some t => if s.dieFits d then agingStep t else 0 | none => 0

/-- The dies after that second. -/
def ticked : State := { s with dies := { s.dies with
  aging := (List.range s.dies.aging.length).map (fun d => s.dies.aging.getD d 0 + aged s l d)
  temps := (List.range s.dies.temps.length).map (fun d => l.getD d (s.dies.temps.getD d 250)) } }

theorem exec_agingClockTick (on : s.running = true) : exec (.agingClockTick l) s = .next (ticked { s with out := [] } l) := by
  change answer s (onlyIf _ _) = _
  exact answer_onlyIf_true on

theorem ticked_aging (d : Nat) : (ticked s l).dies.aging.getD d 0 = if d < s.dies.aging.length then s.dies.aging.getD d 0 + aged s l d else 0 :=
  getD_map_range _ _ _ _

theorem ticked_aging_length : (ticked s l).dies.aging.length = s.dies.aging.length := by
  show ((List.range _).map _).length = _
  rw [List.length_map, List.length_range]

/-- A clock never goes back. -/
theorem le_ticked_aging (d : Nat) : s.dies.aging.getD d 0 ≤ (ticked s l).dies.aging.getD d 0 := by
  rw [ticked_aging]
  split
  · exact Nat.le_add_right _ _
  · next above => rw [List.getD_eq_default _ _ (Nat.le_of_not_lt above)]

variable {s l} {d : Nat} {t : Int}

theorem ticked_aging_fits (below : d < s.dies.aging.length) (temp : l[d]? = some t) (fits : s.dieFits d = true) :
    (ticked s l).dies.aging.getD d 0 = s.dies.aging.getD d 0 + agingStep t := by
  rw [ticked_aging, if_pos below, aged, temp]
  dsimp only
  rw [if_pos fits]

theorem ticked_temps (below : d < s.dies.temps.length) (temp : l[d]? = some t) : (ticked s l).dies.temps[d]? = some t := by
  show ((List.range _).map _)[d]? = _
  rw [List.getElem?_map, List.getElem?_range below, Option.map_some, List.getD_eq_getElem?_getD, temp]
  rfl

end

/-! ## Rule epochs -/

/-- A read of the module's own that is under way under an older rule epoch than `e` (R385). -/
def older (e : Nat) (r : Rd) : Prop := r.use ≠ 0 ∧ r.done = false ∧ r.epoch < e

/-- The reads `old` go on under the present epoch. -/
def renew (old : List Rd) (s : State) : State := old.foldl (fun s r => modRd r.id (fun x => { x with epoch := s.nib.epoch }) s) s

/-- The reads `again` are dispatched again. -/
def redispatch (again : List Rd) (s : State) : State := again.foldl (fun s r =>
  enqueue [{ die := r.die, cls := r.cls, kind := .read r.id, minRun := false }] (modRd r.id (fun x => { x with staged := false }) s)) s

/-- The reads of older epochs are those of `old`; once these are renewed, there is none. -/
theorem renew_spec (old : List Rd) {s : State} (all : ∀ r ∈ s.dies.reads, older s.nib.epoch r → ∃ o ∈ old, o.id = r.id) :
    Stored s (renew old s) ∧ ∀ r ∈ (renew old s).dies.reads, ¬ older s.nib.epoch r := by
  induction old generalizing s with
  | nil => exact ⟨.refl s, fun r mem late => by obtain ⟨_, none_, -⟩ := all r mem late; cases none_⟩
  | cons o old ih =>
    obtain ⟨same, current⟩ := ih (s := modRd o.id (fun x => { x with epoch := s.nib.epoch }) s) fun r mem late => by
      obtain ⟨x, listed, rfl⟩ := List.mem_map.1 mem
      split at late
      · exact absurd late.2.2 (Nat.lt_irrefl _)
      · next other =>
        obtain ⟨p, among, id⟩ := all x listed late
        rcases List.mem_cons.1 among with rfl | among
        · exact absurd (decide_eq_true id.symm) other
        · rw [if_neg other]
          exact ⟨p, among, id⟩
    exact ⟨(dies_stored s _).trans same, current⟩

theorem redispatch_spec (again : List Rd) {e : Nat} {s : State} (current : ∀ r ∈ s.dies.reads, ¬ older e r) :
    Stored s (redispatch again s) ∧ ∀ r ∈ (redispatch again s).dies.reads, ¬ older e r := by
  induction again generalizing s with
  | nil => exact ⟨.refl s, current⟩
  | cons o again ih =>
    obtain ⟨same, kept⟩ := ih (s := enqueue [{ die := o.die, cls := o.cls, kind := .read o.id, minRun := false }]
        (modRd o.id (fun x => { x with staged := false }) s)) fun r mem late => by
      obtain ⟨x, listed, rfl⟩ := List.mem_map.1 mem
      split at late <;> exact current x listed late
    exact ⟨((dies_stored s _).trans (enqueue_stored _ _)).trans same, kept⟩

/-- The reads of the module's own under way that carry an older rule epoch. -/
def olderReads (s : State) : List Rd := s.dies.reads.filter (fun r => r.use ≠ 0 && !r.done && r.epoch < s.nib.epoch)

/-- These reads are dispatched again under the present epoch. -/
def drainOlder (s : State) : State := redispatch ((olderReads s).filter (fun r => r.staged && !r.recon && r.step ≠ 9 && !r.bad)) (renew (olderReads s) s)

theorem exec_ruleEpochDrainLimit {s : State} (on : s.running = true) : exec .ruleEpochDrainLimit s = .next (settleUp (drainOlder { s with out := [] })) := by
  change work (onlyIf _ _) s = _
  rw [work_onlyIf_true on]
  rfl

/-- Every read of the module's own that is under way then carries the present epoch (R385). -/
theorem drainOlder_current (s : State) : (drainOlder s).map = s.map ∧ (drainOlder s).nib = s.nib
    ∧ ∀ r ∈ (drainOlder s).dies.reads, r.use ≠ 0 → r.done = false → s.nib.epoch ≤ r.epoch := by
  obtain ⟨renewed, current⟩ := renew_spec (olderReads s) (s := s) fun r mem ⟨own, open_, late⟩ =>
    ⟨r, List.mem_filter.2 ⟨mem, by simp [own, open_, late]⟩, rfl⟩
  obtain ⟨again, kept⟩ := redispatch_spec ((olderReads s).filter (fun r => r.staged && !r.recon && r.step ≠ 9 && !r.bad)) current
  obtain ⟨map, nib⟩ : (drainOlder s).map = s.map ∧ (drainOlder s).nib = s.nib := by
    obtain ⟨_, _, _, _, e⟩ := renewed.trans again
    unfold drainOlder
    rw [e]
    exact ⟨rfl, rfl⟩
  exact ⟨map, nib, fun r mem own open_ => Nat.le_of_not_lt fun late => kept r mem ⟨own, open_, late⟩⟩

end Sys2Proof.Proofs
end

section
/-! O51. The statement on log pages, checkpoints, and the module's own work on bands (R241, R247, R248, R255, R260, R261, R263, R286, R296, R326, R333, R334, R385). -/

namespace Sys2Proof.Proofs

open Sys2Proof Sys2Proof.Machine Sys2Proof.Laws

/-- Settles O51: each row by its answer, and by what the work that it begins touches. -/
theorem logAndBandsMoveOn : Obligations.LogAndBandsMoveOn := by
  refine ⟨?fill, ?noFill, ?verified, ?noVerified, ?checkpoint, ?noCheckpoint, ?collection, ?fold, ?noFold, ?wear, ?settledWait, ?demotion, ?patrol, ?aging, ?epochs⟩
  case fill =>
    intro s on stands due free
    exact ⟨s.assemble false false s.sup.draining (s.log.buf.take 496) (s.log.buf.drop 496), exec_logPageFill on (pageDue_iff.2 due) free stands, rfl, rfl,
      ceiling_le_pageCeiling, settled_le_settledFor _ _, rfl, rfl⟩
  case noFill =>
    rintro s (⟨few, unasked⟩ | waits)
    · refine exec_logPageFill_idle (.inl (Bool.eq_false_iff.2 fun due => ?_))
      rcases pageDue_iff.1 due with many | asked
      · omega
      · exact absurd (unasked.symm.trans asked) Bool.false_ne_true
    · exact exec_logPageFill_idle (.inr waits)
  case verified =>
    intro s p rest on under there
    exact ⟨_, exec_logPageVerified on there, pageVerified_joins (s := { s with out := [] }) under⟩
  case noVerified =>
    intro s none_
    exact exec_logPageVerified_idle none_
  case checkpoint =>
    intro s on stands free due
    obtain ⟨c, first, last, written⟩ := beginCheckpoint_writes { s with out := [] }
    exact ⟨_, c, first, last, exec_checkpointStart on stands free due, written⟩
  case noCheckpoint =>
    intro s early
    exact exec_checkpointStart_idle early
  case collection =>
    intro s b own free victim collects
    obtain ⟨e, listed, band, kind, slots, map⟩ := emptied_startEmptying (n := b.n) (kind := 0) (cls := 3) (s := collectUpdate { s with out := [] })
      (notEmptying_of_canEmpty (victim_canEmpty victim))
    exact ⟨_, e, exec_garbageCollectionStart own free victim collects, listed, band, kind, slots, map⟩
  case fold =>
    intro s b own hybrid free due only cache closed host noProg noEmptying
    have can : s.canEmpty b = true := by simp [State.canEmpty, State.programming, host, closed, noProg, noEmptying]
    obtain ⟨e, listed, band, kind, slots, map⟩ := emptied_startEmptying (n := b.n) (kind := 1) (cls := 3) (s := { s with out := [] })
      (notEmptying_of_canEmpty can)
    have foldDue : s.foldDue = true := by simpa [State.foldDue] using due
    exact ⟨_, e, exec_foldStart own hybrid free foldDue only cache can, listed, band, kind, slots, map⟩
  case noFold =>
    intro s small recent
    exact exec_foldStart_idle (by simp [State.foldDue, small, recent])
  case wear =>
    intro s a b own pair _ hostA hostB closed there noProg noEmptying fresh apart
    have can : s.canEmpty a = true := by simp [State.canEmpty, State.programming, hostA, closed, noProg, noEmptying]
    obtain ⟨e, listed, band, kind, slots, -⟩ := emptied_startEmptying (n := a.n) (kind := 2) (cls := 3) (s := { s with out := [] })
      (notEmptying_of_canEmpty can)
    exact ⟨_, e, exec_wearLevelling own pair hostA hostB can (by rw [closed]; decide) there fresh apart, listed, band, kind, slots⟩
  case settledWait =>
    intro s e own only logged fresh durable stale
    obtain ⟨x, alone, band, waited, map, slots⟩ := emptied_copySettled (s := { s with out := [] }) only s.settledMap
    exact ⟨_, x, exec_settledWaitExpiry own only logged fresh durable stale, alone, band, waited, map, slots⟩
  case demotion =>
    intro s k x own hair free stroke kind due ⟨i, below, stored⟩ idle
    obtain ⟨n, slot⟩ := Option.ne_none_iff_exists'.1 stored
    have demoted : s.demotionDue k = true := by
      unfold State.demotionDue
      rcases due with many | ⟨old, items, fetched⟩
      · simp [many]
      · simp [old, items, fetched]
    obtain ⟨copies, strokes, -, begun⟩ := foldl_startMove_stroke (k := k) (fun s => if s.hairAbove 60 then 2 else 3) (strokeSlots s k)
      (s := { s with out := [], ftl := { s.ftl with demoting := s.demotes } }) (fun m mem => by rw [show _ = [] from idle] at mem; cases mem)
    refine ⟨_, exec_demotion own hair free stroke kind demoted (List.ne_nil_of_mem (mem_strokeSlots below slot)) idle, copies.map, fun j within m names => ?_⟩
    obtain ⟨copy, mem, old⟩ := begun _ (mem_strokeSlots within names)
    exact ⟨copy, mem, old, strokes copy mem⟩
  case patrol =>
    intro s n b own found holds
    obtain ⟨map, words⟩ := patrolAwake_frame { s with out := [] } b
    obtain ⟨pwr, map', reads⟩ := patrolled_reads b (patrolAwake { s with out := [] })
    rw [words] at reads
    exact ⟨_, exec_patrol own found holds, by rw [pwr]; exact patrolAwake_ps _, map'.trans map, reads⟩
  case aging =>
    intro s l on
    exact ⟨_, exec_agingClockTick s l on, ticked_aging_length _ l, le_ticked_aging _ l, rfl, rfl, rfl, fun _ _ => ticked_aging_fits, fun _ _ => ticked_temps⟩
  case epochs =>
    intro s on
    exact ⟨_, exec_ruleEpochDrainLimit on, drainOlder_current { s with out := [] }⟩

end Sys2Proof.Proofs
end

section
/-! SUPPORT. Work on the flash that begins (R26, R251, R261, R297, R312): it changes the tables of the bands, lists die reads and queues operations, and leaves alone the
dies, the reads listed before, and all else. -/

namespace Sys2Proof.Proofs

open Sys2Proof Sys2Proof.Machine Sys2Proof.Laws

/-- What work on the flash that begins touches: the tables of the bands, the reads that it adds, and the operations queued. -/
structure FlashWork (a t : State) : Prop where
  eq : ∃ (ftl : Ftl) (reads : List Rd) (queue : List DieOp) (next : Nat) (hostAt : List (Nat × Nat)),
    t = { a with ftl := ftl
                 dies := { a.dies with reads := a.dies.reads ++ reads, queue := queue, nextRd := next, hostAt := hostAt } }

theorem FlashWork.refl (a : State) : FlashWork a a := ⟨a.ftl, [], a.dies.queue, a.dies.nextRd, a.dies.hostAt, by simp⟩

theorem FlashWork.trans {a b c : State} (h : FlashWork a b) (k : FlashWork b c) : FlashWork a c := by
  obtain ⟨_, reads, _, _, _, rfl⟩ := h
  obtain ⟨ftl, reads', queue, next, hostAt, rfl⟩ := k
  exact ⟨ftl, reads ++ reads', queue, next, hostAt, by simp⟩

theorem FlashWork.ite {c : Prop} [Decidable c] {a t u : State} (h : FlashWork a t) (k : FlashWork a u) : FlashWork a (if c then t else u) := by
  split
  · exact h
  · exact k

theorem FlashWork.foldl {α : Type} {f : State → α → State} (h : ∀ s x, FlashWork s (f s x)) (l : List α) (s : State) : FlashWork s (l.foldl f s) := by
  induction l generalizing s with
  | nil => exact .refl s
  | cons x l ih => exact (h s x).trans (ih _)

theorem Gathered.flashWork {a t : State} (h : Gathered a t) : FlashWork a t := by
  obtain ⟨cache, reads, queue, next, hostAt, rfl, -⟩ := h
  exact ⟨_, reads, _, next, hostAt, rfl⟩

section
variable {a t : State} (h : FlashWork a t)
include h

theorem FlashWork.rec_ : t.rec_ = a.rec_ := by obtain ⟨_, _, _, _, _, rfl⟩ := h; rfl
theorem FlashWork.flt : t.flt = a.flt := by obtain ⟨_, _, _, _, _, rfl⟩ := h; rfl
theorem FlashWork.map : t.map = a.map := by obtain ⟨_, _, _, _, _, rfl⟩ := h; rfl
theorem FlashWork.nib : t.nib = a.nib := by obtain ⟨_, _, _, _, _, rfl⟩ := h; rfl
theorem FlashWork.rst : t.rst = a.rst := by obtain ⟨_, _, _, _, _, rfl⟩ := h; rfl
theorem FlashWork.dies : t.dies.dies = a.dies.dies := by obtain ⟨_, _, _, _, _, rfl⟩ := h; rfl
theorem FlashWork.chHeld : t.dies.chHeld = a.dies.chHeld := by obtain ⟨_, _, _, _, _, rfl⟩ := h; rfl
theorem FlashWork.probes : t.dies.probes = a.dies.probes := by obtain ⟨_, _, _, _, _, rfl⟩ := h; rfl

/-- A read listed before is found as it was. -/
theorem FlashWork.rd? {id : Nat} {r : Rd} (found : a.rd? id = some r) : t.rd? id = some r := by
  obtain ⟨_, _, _, _, _, rfl⟩ := h
  unfold State.rd? at found ⊢
  rw [List.find?_append, found, Option.some_or]

end

section
variable (s : State)

theorem ftl_flashWork (ftl : Ftl) : FlashWork s { s with ftl := ftl } := ⟨ftl, [], s.dies.queue, s.dies.nextRd, s.dies.hostAt, by simp⟩

theorem queue_flashWork (queue : List DieOp) : FlashWork s { s with dies := { s.dies with queue := queue } } :=
  ⟨s.ftl, [], queue, s.dies.nextRd, s.dies.hostAt, by simp⟩

theorem enqueue_flashWork (ops : List DieOp) : FlashWork s (enqueue ops s) := (enqueue_gathered ops s).flashWork

theorem modBand_flashWork (n : Nat) (f : Band → Band) : FlashWork s (modBand n f s) := ftl_flashWork s _

/-! ## Stripes closed -/

theorem launch_flashWork (n wl cls : Nat) (slots : List Slot) : FlashWork s (launch n wl cls slots s) := by
  unfold launch
  split
  · exact .refl s
  · exact (ftl_flashWork s _).trans (enqueue_flashWork _ _)

theorem padTo_flashWork (n lo hi : Nat) : FlashWork s (padTo n lo hi s) := by
  unfold padTo
  split
  · exact .refl s
  · exact .foldl (fun t _ => .ite (ftl_flashWork t _) (.refl t)) _ s

theorem programWordline_flashWork (n wl cls : Nat) : FlashWork s (programWordline n wl cls s) := by
  unfold programWordline
  split
  · exact .refl s
  · exact ((ftl_flashWork s _).trans (modBand_flashWork _ _ _)).trans (launch_flashWork _ _ _ _ _)

theorem closeBandStripes_flashWork (n cls : Nat) : FlashWork s (closeBandStripes n cls s) := by
  unfold closeBandStripes
  split
  · exact .refl s
  · exact .ite ((padTo_flashWork s _ _ _).trans (programWordline_flashWork _ _ _ _)) (.refl s)

theorem closeStripes_flashWork : FlashWork s (closeStripes s) := .foldl (fun t n => closeBandStripes_flashWork t n 2) _ s

/-! ## Copies, erases and refresh -/

theorem startMove_flashWork (slot cls : Nat) (stroke : Option Nat) (block : Nat) : FlashWork s (startMove slot cls stroke block s) := by
  unfold startMove
  split
  · exact .refl s
  · exact (ftl_flashWork s _).trans (startRd_gathered _ _ _ _ _ _).flashWork

theorem startCopies_flashWork (n cls : Nat) (slots : List Nat) : FlashWork s (startCopies n cls slots s) := by
  unfold startCopies
  exact (FlashWork.foldl (fun t _ => .foldl (fun t _ => startMove_flashWork t _ _ _ _) _ t) _ s).trans
    (.foldl (fun t _ => startMove_flashWork t _ _ _ _) _ _)

theorem startEmptying_flashWork (n kind cls : Nat) : FlashWork s (startEmptying n kind cls s) := by
  unfold startEmptying
  exact .ite (.refl s) ((ftl_flashWork s _).trans (startCopies_flashWork _ _ _ _))

theorem startErase_flashWork (n cls : Nat) : FlashWork s (startErase n cls s) := by
  unfold startErase
  split
  · exact .refl s
  · exact ((modBand_flashWork s _ _).trans (modBand_flashWork _ _ _)).trans (enqueue_flashWork _ _)

theorem eraseReady_flashWork : FlashWork s (eraseReady s) := by
  unfold eraseReady
  refine .foldl (fun t e => ?_) _ s
  split
  · exact .ite (startErase_flashWork t _ _) (.refl t)
  · exact .refl t

theorem rebuildNext_flashWork : FlashWork s (rebuildNext s) := by
  unfold rebuildNext
  refine .ite ?_ (.refl s)
  split
  · exact ((startEmptying_flashWork s _ 4 3).trans (ftl_flashWork _ _)).trans (eraseReady_flashWork _)
  · exact .refl s

theorem raiseRefresh_flashWork (n cls : Nat) : FlashWork s (raiseRefresh n cls s) :=
  (queue_flashWork s _).trans ((ftl_flashWork _ _).trans (ftl_flashWork _ _))

/-- A refresh that is asked for begins at once, goes on at a higher class, or waits (R297). -/
theorem refreshBand_flashWork (n cls : Nat) : FlashWork s (refreshBand n cls s) := by
  unfold refreshBand
  refine .ite (.refl s) ?_
  dsimp only
  split
  · exact (modBand_flashWork s n _).trans (.ite (raiseRefresh_flashWork _ _ _) (.refl _))
  · exact (modBand_flashWork s n _).trans (.ite (startEmptying_flashWork _ _ _ _) (.refl _))
  · exact modBand_flashWork s n _

theorem countRead_flashWork (n key k : Nat) : FlashWork s (countRead n key k s) := by
  unfold countRead
  dsimp only
  split
  · exact (modBand_flashWork s n _).trans (.ite (refreshBand_flashWork _ _ _) (.refl _))
  · exact modBand_flashWork s n _

theorem reachedLast_flashWork (r : Rd) : FlashWork s (reachedLast r s) := by
  unfold reachedLast
  exact .ite ((modBand_flashWork s _ _).trans (refreshBand_flashWork _ _ _)) (.refl s)

end

end Sys2Proof.Proofs
end

section
/-! SUPPORT. A fault that does not stop the module (R395, R398, R407): the blotter entry that stands in front, also at the safe level, and what of failures it leaves alone. -/

namespace Sys2Proof.Proofs

open Sys2Proof Sys2Proof.Machine Sys2Proof.Laws

/-- The failures of dies and channels as the media records and the dies hold them (R308, R309, R311). -/
def failures (s : State) : List Nat × List Nat × List (Nat × Nat) × List Die × List Nat :=
  (s.rec_.failedDies, s.rec_.failedChannels, s.rec_.rebuilds, s.dies.dies, s.dies.chHeld)

theorem FlashWork.failures {a t : State} (h : FlashWork a t) : failures t = Proofs.failures a := by
  unfold Proofs.failures
  rw [h.rec_, h.dies, h.chHeld]

theorem Concluded.failures {a t : State} (h : Concluded a t) : failures t = Proofs.failures a := by
  obtain ⟨_, _, _, _, _, _, _, _, _, _, _, _, rfl, -⟩ := h
  rfl

/-- All content of the reservoir is programmed (R407): the collector gets the ruling to reach, and stripes are closed. -/
theorem programAll_flashWork (s : State) : FlashWork { s with flt := { s.flt with raiseTo := s.nib.next - 1 } } (programAll s) := closeStripes_flashWork _

/-- The safe level leaves the blotter and the failures alone. -/
theorem enterSafe_frame (c : SafeCause) (s : State) : (enterSafe c s).flt.blotter = s.flt.blotter ∧ failures (enterSafe c s) = failures s := by
  have work := programAll_flashWork { s with flt := { s.flt with safe := if c ∈ s.flt.safe then s.flt.safe else s.flt.safe ++ [c] } }
  exact ⟨(congrArg Flt.blotter work.flt :), (work.failures :)⟩

theorem raiseEvent_failures (cls level seq : Nat) (s : State) : failures (raiseEvent cls level seq s) = failures s := by
  unfold raiseEvent
  obtain ⟨_, delivered⟩ := deliverEvent_concluded { s with flt := { s.flt with events := s.flt.events.set cls _ } }
  exact delivered.failures

/-- A fault that does not stop the module is the blotter's newest entry, and touches no failure. -/
theorem recordLevel_front {cls base level source cause : Nat} {detail : BitVec 64} {s : State} (stop : s.flt.stopping = false) (low : level < 5) :
    failures (recordLevel cls base level source detail cause s) = failures s
    ∧ ∃ b rest, (recordLevel cls base level source detail cause s).flt.blotter = b :: rest ∧ b.kind = 1 ∧ b.cls = cls := by
  obtain ⟨aon, entered⟩ := addBlot_front 0x01 cls level (level ≠ base) source detail
    { s with flt := { s.flt with counts := s.flt.counts.set cls (sat 32 (s.flt.counts.getD cls 0 + 1)) }
             health := { s.health with faults := s.health.faults.set cls (sat 32 (s.health.faults.getD cls 0 + 1)) } }
  unfold recordLevel
  dsimp only
  rw [entered]
  simp only [stop, Bool.false_eq_true, ↓reduceIte, if_neg (Nat.ne_of_lt low)]
  split
  · rw [(enterSafe_frame _ _).1, (enterSafe_frame _ _).2, (raiseEvent_frame _ _ _ _).1, raiseEvent_failures]
    exact ⟨rfl, _, _, rfl, rfl, rfl⟩
  · rw [(raiseEvent_frame _ _ _ _).1, raiseEvent_failures]
    exact ⟨rfl, _, _, rfl, rfl, rfl⟩

theorem recordFault_front {cls base source cause : Nat} {detail : BitVec 64} {s : State} (unack : s.flt.unack = []) (stop : s.flt.stopping = false) (low : base < 5) :
    failures (recordFault cls base source detail cause s) = failures s
    ∧ ∃ b rest, (recordFault cls base source detail cause s).flt.blotter = b :: rest ∧ b.kind = 1 ∧ b.cls = cls := by
  unfold recordFault
  rw [levelFor_of_unack_nil unack]
  exact recordLevel_front stop low

end Sys2Proof.Proofs
end

section
/-! SUPPORT. Die reads that end, decodes, and the read-retry ladder (R289, R293, R295, R306). -/

namespace Sys2Proof.Proofs

open Sys2Proof Sys2Proof.Machine Sys2Proof.Laws

/-! ## Die reads that end -/

/-- The end of a die's operation touches the dies alone. -/
theorem endDieOp_eq (d : Nat) (s : State) : ∃ l, endDieOp d s = { s with dies := { s.dies with dies := l } } := by
  have resumed : ∀ t, resumeDie d t = t ∨ ∃ x, resumeDie d t = setDie x t := fun t => by
    unfold resumeDie
    dsimp only
    split
    · exact (ite_eq_or_eq _ _ _).imp_right fun e => ⟨_, e⟩
    · exact .inl rfl
  unfold endDieOp
  dsimp only
  generalize ended : setDie _ s = t
  rcases resumed t with e | ⟨x, e⟩ <;> rw [e, ← ended] <;> exact ⟨_, rfl⟩

section
variable {s : State} {d e id : Nat} {a : DieOp} (on : s.running = true) (active : (s.die d).active = some a)
include on active

/-- A codeword read puts its codeword in staging, and counts for its block (R289, Table 10-11). -/
theorem exec_dieReadComplete_read {r : Rd} (kind : a.kind = .read id) (found : s.rd? id = some r) : ∃ l,
    exec (.dieReadComplete d e) s = .next (settleUp (countRead (bandOfSlot r.slot) r.key (stepSenses r.step).length
      (modRd id (fun x => { x with staged := true }) { s with out := [], dies := { s.dies with dies := l } }))) := by
  obtain ⟨l, ended⟩ := endDieOp_eq d { s with out := [] }
  obtain ⟨die, cls, _, minRun, since, raised⟩ := a
  obtain rfl : _ = OpKind.read id := kind
  refine ⟨l, (work_onlyIf_true (by simp [State.mediaOn, on])).trans (congrArg (Host.Outcome.next ∘ settleUp) ?_)⟩
  have active' : (State.die { s with out := [] } d).active = _ := active
  have found' : State.rd? { s with out := [], dies := { s.dies with dies := l } } id = some r := found
  simp only [active', ended, found']

/-- A swatch read is one of its probe's (R290). -/
theorem exec_dieReadComplete_probe {p : Probe} (kind : a.kind = .probe id) (only : s.dies.probes = [p]) (own : p.id = id) : ∃ l,
    exec (.dieReadComplete d e) s = .next (settleUp (probeRead p e (countRead p.band (4 * p.die + p.plane) 1
      { s with out := [], dies := { s.dies with dies := l } }))) := by
  obtain ⟨l, ended⟩ := endDieOp_eq d { s with out := [] }
  obtain ⟨die, cls, _, minRun, since, raised⟩ := a
  obtain rfl : _ = OpKind.probe id := kind
  refine ⟨l, (work_onlyIf_true (by simp [State.mediaOn, on])).trans (congrArg (Host.Outcome.next ∘ settleUp) ?_)⟩
  have active' : (State.die { s with out := [] } d).active = _ := active
  simp only [active', ended, only, List.find?_cons, own, decide_true]

end

/-- A probe with classes left to read goes on with the next one. -/
theorem probeRead_next {p : Probe} {x y : Nat} {l : List Nat} (todo : p.todo = x :: y :: l) (e : Nat) (s : State) : probeRead p e s =
    enqueue [{ die := p.die, cls := p.cls, kind := .probe p.id, minRun := false }]
      { s with dies := { s.dies with probes := s.dies.probes.filter (fun q => q.id ≠ p.id) ++ [{ p with todo := y :: l, found := p.found ++ [(x, e)] }] } } := by
  unfold probeRead
  rw [todo]
  rfl

/-! ## The ladder -/

theorem nextStep_range {k : Nat} (low : k < 8) (c best : Nat) (tried : List Nat) : k < (nextStep c best tried k).1 ∧ (nextStep c best tried k).1 ≤ 8 := by
  unfold nextStep
  split
  · next j found =>
    have above := List.find?_some found
    have listed := List.mem_of_find?_eq_some found
    simp only [Bool.and_eq_true, decide_eq_true_eq] at above
    simp only [List.mem_cons, List.not_mem_nil, or_false] at listed
    exact ⟨above.1, by omega⟩
  · exact ⟨by omega, by omega⟩

/-- A read that goes to reconstruction is at the last step, and its stripe's other pages are listed as reads behind those that stood (R306). -/
theorem reconstruct_work (r : Rd) (gone : Bool) (s : State) : ∃ staged, FlashWork
    (modRd r.id (fun x => { x with step := 9, staged := staged, recon := gone, cls := 0 }) s) (reconstruct r gone s) := by
  unfold reconstruct
  split
  · exact ⟨false, (startPeers_gathered r _).flashWork⟩
  · exact ⟨true, .refl _⟩

theorem rd?_modRd_of {s : State} {id : Nat} {r : Rd} (found : s.rd? id = some r) {f : Rd → Rd} (number : ∀ x, (f x).id = x.id) :
    (modRd id f s).rd? id = some (f r) := by
  rw [rd?_modRd number, found]
  rfl

/-- A read that is written as it stands is found as it was. -/
theorem rd?_modRd_self {s : State} {r : Rd} (found : s.rd? r.id = some r) : (modRd r.id (fun _ => r) s).rd? r.id = some r := by
  have same : (fun x : Rd => decide (x.id = r.id)) ∘ (fun x => if decide (x.id = r.id) = true then r else x) = fun x => decide (x.id = r.id) := by
    funext x
    by_cases own : x.id = r.id <;> simp [own]
  unfold State.rd? at found ⊢
  rw [modRd, mapIf, List.find?_map, same, found, Option.map_some, ite_self]

section
variable {s : State} {r : Rd} (found : s.rd? r.id = some r)
include found

/-- A read that goes to reconstruction is at the last step. -/
theorem reconstruct_rd? (gone : Bool) : ∃ x, (reconstruct r gone s).rd? r.id = some x ∧ x.step = 9 ∧ x.slot = r.slot := by
  obtain ⟨staged, work⟩ := reconstruct_work r gone s
  exact ⟨_, work.rd? (rd?_modRd_of found (by exact fun _ => rfl)), rfl, rfl⟩

/-- A read climbs to a later step, and no more than the media's work is touched (R293, R307). -/
theorem climb_step (low : r.step < 9) (own : r.use ≠ 4) : (climb r s).2 = false ∧ (climb r s).1.nib = s.nib ∧ (climb r s).1.map = s.map
    ∧ ∃ x, (climb r s).1.rd? r.id = some x ∧ r.step < x.step ∧ x.step ≤ 9 ∧ x.slot = r.slot := by
  unfold climb
  dsimp only
  rw [if_neg (by simp [own])]
  split
  · obtain ⟨staged, work⟩ := reconstruct_work r (s.dieAway r.die) s
    obtain ⟨x, listed, step, slot⟩ := reconstruct_rd? found (s.dieAway r.die)
    exact ⟨rfl, work.nib, work.map, x, listed, by omega, by omega, slot⟩
  next here =>
  have low' : r.step < 8 := by simp [own] at here; omega
  split
  · next first =>
    exact ⟨rfl, rfl, rfl, _, rd?_modRd_of (f := fun x => { x with step := 1, staged := false, cls := 0 }) found (by exact fun _ => rfl),
      first ▸ Nat.one_pos, Nat.succ_le_succ (Nat.zero_le 8), rfl⟩
  · generalize (if 7 ≤ r.step then _ else _ : Nat) = best
    obtain ⟨above, below⟩ := nextStep_range low' (r.tried.headD 0) best r.tried
    exact ⟨rfl, rfl, rfl, _, rd?_modRd_of (s := draw s) (f := fun x => { x with
      step := (nextStep (r.tried.headD 0) best r.tried r.step).1, staged := false
      tried := x.tried ++ [(nextStep (r.tried.headD 0) best r.tried r.step).2], cls := 0 }) found (by exact fun _ => rfl), above, Nat.le_succ_of_le below, rfl⟩

end

/-! ## Decodes -/

section
variable {s : State} {id dec : Nat} {r : Rd} (on : s.running = true) (there : dec ∈ s.dies.decoders) (found : s.rd? id = some r) (staged : r.staged = true)
  (open_ : r.done = false)
include on there found staged open_

/-- A decode of a codeword in staging. -/
theorem exec_ldpcDecodeComplete {n : Option Nat} {crc : Bool} {u : State} (ends : decoded r dec n crc { s with out := [] } = u) :
    exec (.ldpcDecodeComplete id dec n crc) s = .next (settleUp u) := by
  have found' : State.rd? { s with out := [] } id = some r := found
  refine (work_onlyIf_true (by simp [on, there])).trans (congrArg (Host.Outcome.next ∘ settleUp) ?_)
  simp only [found', staged, open_, Bool.not_false, Bool.and_self, ↓reduceIte, ends]

end

theorem id_of_rd? {s : State} {id : Nat} {r : Rd} (found : s.rd? id = some r) : r.id = id := by
  simpa using List.find?_some found

/-- A decode without a codeword takes a read below the last step up the ladder (R293). -/
theorem decoded_none {s : State} {r : Rd} (found : s.rd? r.id = some r) (low : r.step < 9) (own : r.use ≠ 4) (dec : Nat) (crc : Bool) :
    decoded r dec none crc s = (climb r (modRd r.id (fun _ => r) s)).1 := by
  have climbs := (climb_step (rd?_modRd_self found) low own).1
  unfold decoded
  rw [ite_self]
  simp only [Option.isSome_none, Bool.false_and, Bool.false_eq_true, ↓reduceIte, if_neg (Nat.not_le.2 low), climbs]

/-- The first step up is a probe of the block's swatch, of class 0 (R290, R293). -/
theorem climb_first {s : State} {r : Rd} (first : r.step = 0) (own : r.use ≠ 4) (here : s.dieAway r.die = false) :
    (climb r s).1 = startProbe r.die (bandOfSlot r.slot) (r.key % 4) 0 (some r.id) false (modRd r.id (fun x => { x with step := 1, staged := false, cls := 0 }) s) := by
  unfold climb
  simp [first, own, here]

/-- The last step up reads the stripe's other pages, where their dies serve (R306). -/
theorem climb_last {s : State} {r : Rd} (last : r.step = 8) (own : r.use ≠ 4) (there : s.peersThere r.slot r.die = true) (some_ : s.peerDies r.slot r.die ≠ []) :
    (climb r s).1 = startPeers r (modRd r.id (fun x => { x with step := 9, staged := false, recon := s.dieAway r.die, cls := 0 }) s) := by
  have away : (reconstruct r (s.dieAway r.die) s) = _ := if_pos (by simp [there, some_])
  unfold climb
  simp [last, own, away]

/-- A read of every other page of the stripe is listed, with its operation in the queue. -/
theorem startPeers_lists {s : State} {r : Rd} {d : Nat} (peer : d ∈ s.peerDies r.slot r.die) : ∃ y q, y ∈ (startPeers r s).dies.reads ∧ y.parent = some r.id
    ∧ y.die = d ∧ y.slot = r.slot ∧ y.cls = 0 ∧ y.step = 0 ∧ q ∈ (startPeers r s).dies.queue ∧ q.die = d ∧ q.cls = 0 ∧ q.kind = .read y.id := by
  obtain ⟨k, below, rfl⟩ := List.getElem_of_mem peer
  have die : (s.peerDies r.slot r.die).getD k 0 = (s.peerDies r.slot r.die)[k] := by simp [below]
  have listed : k ∈ List.range (s.peerDies r.slot r.die).length := List.mem_range.2 below
  unfold startPeers enqueue
  refine ⟨_, _, List.mem_append_right _ (List.mem_map_of_mem listed), rfl, die, rfl, rfl, rfl,
    List.mem_append_right _ (List.mem_map_of_mem (List.mem_map_of_mem listed)), die, rfl, rfl⟩

/-! ## A codeword in hand -/

theorem Quiet.ite {c : Prop} [Decidable c] {a t u : State} (h : Quiet a t) (k : Quiet a u) : Quiet a (if c then t else u) := by
  split
  · exact h
  · exact k

/-- What follows once a command has its codewords leaves the map and the bands alone, and lists no read (R185). -/
theorem readsDone_quiet (r : Nat) (s : State) : Quiet s (readsDone r s) := by
  unfold readsDone
  split
  · exact .refl s
  refine .ite (.refl s) ?_
  split
  · exact .refl s
  split
  · exact failData_quiet _ _ s
  · exact .ite (finish_quiet _ _ _ s) (.ite (.ite ⟨rfl, rfl, rfl, rfl, rfl, rfl, fun _ h => h⟩ (.refl s)) (.refl s))

/-- The codeword of a host command is in hand, and no read of its number is open any more (R28). -/
theorem codewordDone_host {r : Rd} (use : r.use = 0) (s : State) : (∀ x ∈ (codewordDone r s).dies.reads, x.id = r.id → x.done = true)
    ∧ (codewordDone r s).map = s.map ∧ (codewordDone r s).ftl.bands = s.ftl.bands := by
  have closed : ∀ x ∈ (modRd r.id (fun x => { x with done := true }) s).dies.reads, x.id = r.id → x.done = true := fun x listed own => by
    obtain ⟨y, -, rfl⟩ := List.mem_map.1 listed
    split
    · rfl
    · next other => rw [if_neg other] at own; exact absurd (decide_eq_true own) other
  unfold codewordDone
  simp only [use]
  split
  · next i _ =>
    have filled : ∀ t : State, (fillCache i r t).dies = t.dies ∧ (fillCache i r t).map = t.map ∧ (fillCache i r t).ftl.bands = t.ftl.bands := fun t => by
      unfold fillCache
      dsimp only
      split <;> exact ⟨rfl, rfl, rfl⟩
    obtain ⟨dies, map, bands⟩ := filled (modRd r.id (fun x => { x with done := true }) s)
    have quiet := readsDone_quiet r.ruling (fillCache i r (modRd r.id (fun x => { x with done := true }) s))
    exact ⟨fun x listed => closed x (dies ▸ quiet.reads x listed), quiet.map.trans map, (congrArg Ftl.bands quiet.ftl).trans bands⟩
  · exact ⟨fun x listed => closed x (List.mem_filter.1 listed).1, rfl, rfl⟩

/-! ## A codeword that is lost -/

/-- A command that returns data, or has data to write, fails: it leaves the nib, and the error log has its failure. -/
theorem failData_spec {f : Fail} (failed : f.status ≠ 0) (i : Item) (s : State) : (failData i f s).nib.items = s.nib.items.filter (fun j => j.ruling ≠ i.ruling)
    ∧ (failData i f s).flt = s.flt ∧ (failData i f s).map = s.map
    ∧ ∃ x ∈ (failData i f s).elog.list, x.status = f.status ∧ x.ruling = i.ruling ∧ x.cls = f.cls := by
  have removed : Answered (removeItem i (f.status ≠ 0) (undefineBuffer i s)) (failData i f s) := complete_answered _ _ _ _
  have logged : (failData i f s).elog = (logError ((Ending.ofItem i).err f) (removeItem i (f.status ≠ 0) (undefineBuffer i s))).elog := complete_elog failed _ _ _
  obtain ⟨_, _, _, _, _, _, _, undefined⟩ := undefineBuffer_answered i s
  obtain ⟨_, _, _, _, _, _, _, answered⟩ := removed
  refine ⟨?_, ?_, ?_, by rw [logged]; exact ⟨_, List.mem_cons_self, rfl, rfl, rfl⟩⟩ <;>
  · rw [answered, undefined, removeItem, if_pos (by simpa using failed)]
    rfl

/-- The last step's failure is FC4, and fails the command that asked for the block (R295). -/
theorem readLost_command {s : State} {r : Rd} {i : Item} {p : Part} (use : r.use = 0 ∨ r.use = 5) (items : s.nib.items = [i]) (own : i.ruling = r.ruling)
    (waits : i.wait ≠ .event) (part : s.partOf i = some p) (unack : s.flt.unack = []) (stop : s.flt.stopping = false) :
    (readLost r s).nib.items = [] ∧ (∃ b rest, (readLost r s).flt.blotter = b :: rest ∧ b.kind = 1 ∧ b.cls = 4 ∧ b.level = 3)
    ∧ (∃ e ∈ (readLost r s).elog.list, e.status = 0x0B ∧ e.ruling = r.ruling ∧ e.cls = 4) ∧ (readLost r s).map = s.map := by
  obtain ⟨flt, aon, health, b, rest, recorded, front, -, kind, cls, level, -⟩ := recordLevel_waits (cls := 4) (base := 3) (level := 3) (source := 0x40 + r.die)
    (cause := 2) (detail := BitVec.ofNat 64 (s.blockRead r)) stop (by decide) (by simp [items, waits])
  have fault : mediaFault r s = { s with flt := flt, aon := aon, health := health } := by
    rw [mediaFault, recordFault, levelFor_of_unack_nil unack, recorded]
  have found : State.item? { s with flt := flt, aon := aon, health := health } r.ruling = some i := own ▸ item?_only (s := { s with flt := flt, aon := aon, health := health }) items
  have part' : State.partOf { s with flt := flt, aon := aon, health := health } i = some p := part
  have lost : readLost r s = failData i { status := 0x0B, detail := 0, cls := 4, block := some (hostBlock p i.entry (r.block - p.base)) }
      { s with flt := flt, aon := aon, health := health } := by
    unfold readLost
    rcases use with use | use <;> simp only [use, fault, found, part']
  obtain ⟨left, flt', map, logged⟩ := failData_spec (f := { status := 0x0B, detail := 0, cls := 4, block := some (hostBlock p i.entry (r.block - p.base)) })
    (show (0x0B : Nat) ≠ 0 by decide) i { s with flt := flt, aon := aon, health := health }
  rw [lost, left, flt', map, ← own]
  exact ⟨by simp [items], ⟨b, rest, front, kind, cls, level⟩, logged, rfl⟩

/-- At the last step a decode without a codeword loses the block. -/
theorem decoded_lost {s : State} {r : Rd} (last : r.step = 9) (dec : Nat) (crc : Bool) :
    decoded r dec none crc s = readLost r (reachedLast r (modRd r.id (fun _ => r) s)) := by
  unfold decoded
  rw [ite_self]
  simp [last]

end Sys2Proof.Proofs
end

section
/-! O49. The statement on reads that are decoded, climb the ladder, or fail (R289, R293, R295, R319). -/

namespace Sys2Proof.Proofs

open Sys2Proof Sys2Proof.Machine Sys2Proof.Laws

/-- A decoder that times out leaves the pool, with FC10 (R319). -/
theorem removeDecoder_spec {s : State} {dec other : Nat} (left : other ∈ s.dies.decoders) (ne : other ≠ dec) (unack : s.flt.unack = []) (stop : s.flt.stopping = false)
    (noAwait : ∀ i ∈ s.nib.items, i.wait ≠ .event) (source : Nat) : (removeDecoder dec source s).dies.decoders = s.dies.decoders.filter (fun x => x ≠ dec)
    ∧ ∃ b rest, (removeDecoder dec source s).flt.blotter = b :: rest ∧ b.kind = 1 ∧ b.cls = 10 ∧ b.level = 2 ∧ b.source = source := by
  obtain ⟨flt, aon, health, b, rest, recorded, front, -, fields⟩ := recordLevel_waits (cls := 10) (base := 2) (level := 2) (source := source) (cause := 2)
    (detail := 0xFF) (s := { s with dies := { s.dies with decoders := without dec s.dies.decoders } }) stop (by decide) noAwait
  have some_ : without dec s.dies.decoders ≠ [] := List.ne_nil_of_mem (List.mem_filter.2 ⟨left, by simpa using ne⟩)
  have removed : removeDecoder dec source s = _ := if_neg some_
  rw [removed, recordFault, levelFor_of_unack_nil (by exact unack), recorded]
  exact ⟨rfl, b, rest, front, fields⟩

/-- Settles O49: each row by its answer; a decode by the codeword in hand, the step that the read climbs, or the block that is lost. -/
theorem readsAreDecodedOrClimb : Obligations.ReadsAreDecodedOrClimb := by
  refine ⟨?read, ?probe, ?match_, ?climbs, ?first, ?peers, ?lost, ?decoder⟩
  case read =>
    intro s d e id a r on active kind found
    obtain ⟨l, exec_⟩ := exec_dieReadComplete_read on active kind found
    have staged := rd?_modRd_of (s := { s with out := [], dies := { s.dies with dies := l } }) found (f := fun x => { x with staged := true }) (by exact fun _ => rfl)
    exact ⟨_, _, exec_, (countRead_flashWork _ _ _ _).rd? staged, rfl, rfl, rfl, rfl⟩
  case probe =>
    intro s d e id x y a p l on active kind only own todo
    obtain ⟨dies, exec_⟩ := exec_dieReadComplete_probe (e := e) on active kind only own
    have work := countRead_flashWork { s with out := [], dies := { s.dies with dies := dies } } p.band (4 * p.die + p.plane) 1
    rw [probeRead_next todo] at exec_
    refine ⟨_, _, exec_, ?_, work.map, List.mem_append_right _ (List.mem_singleton.2 rfl), rfl, rfl, rfl⟩
    show List.filter _ _ ++ _ = _
    rw [work.probes, show _ = [p] from only]
    simp
  case match_ =>
    intro s id dec n r on there found staged open_ bad step sure use few cls unack
    obtain rfl := id_of_rd? found
    have first := decoded_first (s := { s with out := [] }) on unack bad step sure few cls dec
    exact ⟨_, exec_ldpcDecodeComplete on there found staged open_ first, codewordDone_host use _⟩
  case climbs =>
    intro s id dec r on there found staged open_ low own
    obtain rfl := id_of_rd? found
    obtain ⟨-, nib, map, x, listed, above, below, slot⟩ := climb_step (rd?_modRd_self (s := { s with out := [] }) found) low own
    have climbs := decoded_none (s := { s with out := [] }) found low own dec true
    exact ⟨_, x, exec_ldpcDecodeComplete on there found staged open_ climbs, listed, above, below, slot, congrArg Nib.items nib, map⟩
  case first =>
    intro s id dec r on there found staged open_ step own here
    obtain rfl := id_of_rd? found
    have climbs := decoded_none (s := { s with out := [] }) found (by omega) own dec true
    rw [climb_first step own (by exact here)] at climbs
    exact ⟨_, _, _, exec_ldpcDecodeComplete on there found staged open_ climbs, List.mem_append_right _ (List.mem_singleton.2 rfl), rfl, rfl, rfl, rfl, rfl,
      List.mem_append_right _ (List.mem_singleton.2 rfl), rfl, rfl, rfl⟩
  case peers =>
    intro s id dec d r on there found staged open_ step own serve peer
    obtain rfl := id_of_rd? found
    have climbs := decoded_none (s := { s with out := [] }) found (by omega) own dec true
    rw [climb_last step own (by exact serve) (by exact List.ne_nil_of_mem peer)] at climbs
    obtain ⟨y, q, lists⟩ := startPeers_lists (r := r) (d := d) (s := modRd r.id (fun x => { x with
      step := 9, staged := false, recon := (modRd r.id (fun _ => r) { s with out := [] }).dieAway r.die, cls := 0 }) (modRd r.id (fun _ => r) { s with out := [] })) peer
    exact ⟨_, y, q, exec_ldpcDecodeComplete on there found staged open_ climbs, lists⟩
  case lost =>
    intro s id dec r i p on there found staged open_ step items own waits part unack stop
    have work := reachedLast_flashWork (modRd r.id (fun _ => r) { s with out := [] }) r
    obtain ⟨use, wait⟩ : (r.use = 0 ∨ r.use = 5) ∧ i.wait ≠ .event := by
      rcases waits with ⟨use, wait⟩ | ⟨use, wait⟩ <;> simp [use, wait]
    have lost := decoded_lost (s := { s with out := [] }) step dec true
    obtain ⟨left, ⟨b, rest, front, kind, cls, level⟩, logged, map⟩ := readLost_command use ((congrArg Nib.items work.nib).trans items) own wait
      (by unfold State.partOf; rw [work.map]; exact part) ((congrArg Flt.unack work.flt).trans unack) ((congrArg Flt.stopping work.flt).trans stop)
    exact ⟨_, b, rest, exec_ldpcDecodeComplete on there found staged open_ lost, left, front, kind, cls, level, logged, map.trans work.map⟩
  case decoder =>
    intro s dec on there ⟨other, left, ne⟩ unack stop items
    obtain ⟨decoders, b, rest, fields⟩ := removeDecoder_spec (s := { s with out := [] }) left ne unack stop (noAwait_nil items) 0x0C
    exact ⟨_, b, rest, work_onlyIf_true (by simp [on, there]), decoders, fields⟩

end Sys2Proof.Proofs
end

section
/-! SUPPORT. Dies and channels that fail (R281, R308, R309, R311): what a die found failed leaves where no band is formed, what the record of a failure adds, and the
reads that a slow die leaves to reconstruction. -/

namespace Sys2Proof.Proofs

open Sys2Proof Sys2Proof.Machine Sys2Proof.Laws

/-! ## Dies -/

/-- A filter that treats all entries of a die alike keeps the first of them, or none. -/
theorem find?_die_filter {d : Nat} {q : Die → Bool} {b : Bool} (alike : ∀ y, y.n = d → q y = b) (l : List Die) :
    (l.filter q).find? (fun y => y.n = d) = if b then l.find? (fun y => y.n = d) else none := by
  have same : (fun y : Die => decide (q y = true ∧ decide (y.n = d) = true)) = fun y => b && decide (y.n = d) := by
    funext y
    by_cases own : y.n = d
    · simp [own, alike y own]
    · simp [own]
  rw [List.find?_filter, same]
  cases b
  · simp
  · simp

/-- Another die stays as it was. -/
theorem die_setDie_of_ne {x : Die} {d : Nat} (other : d ≠ x.n) (s : State) : (setDie x s).die d = s.die d := by
  have rest := find?_die_filter (d := d) (q := fun y => y.n ≠ x.n) (b := true) (fun y own => by simpa [own] using other) s.dies.dies
  have found : (setDie x s).dies.dies.find? (fun y => y.n = d) = s.dies.dies.find? (fun y => y.n = d) := by
    unfold setDie
    dsimp only
    split
    · exact rest
    · have low := find?_die_filter (d := d) (q := fun y => y.n < x.n) (b := decide (d < x.n)) (fun y own => by rw [own]) (s.dies.dies.filter (fun y => y.n ≠ x.n))
      have high := find?_die_filter (d := d) (q := fun y => x.n < y.n) (b := decide (x.n < d)) (fun y own => by rw [own]) (s.dies.dies.filter (fun y => y.n ≠ x.n))
      rw [List.find?_append, List.find?_cons_of_neg (by simpa using other.symm), low, high, rest]
      rcases Nat.lt_or_gt_of_ne other with below | above
      · simp [below, Nat.not_lt.2 (Nat.le_of_lt below)]
      · simp [above, Nat.not_lt.2 (Nat.le_of_lt above)]
  unfold State.die
  rw [found]

theorem die_modDie_of_ne {c d : Nat} {f : Die → Die} {s : State} (number : (f (s.die c)).n = c) (other : d ≠ c) : (modDie c f s).die d = s.die d :=
  die_setDie_of_ne (number.symm ▸ other) s

/-! ## A die found failed -/

/-- The state in which a die is out of service: its failure is held back, and nothing is queued for it (R309). -/
def withoutDie (d : Nat) (s : State) : State :=
  let t := setDie { Die.idle d with failed := true, holdback := true } s
  { t with dies := { t.dies with queue := t.dies.queue.filter (fun q => q.die ≠ d), probes := t.dies.probes.filter (fun p => p.die ≠ d)
                                 sweep := t.dies.sweep.filter (fun x => x.1 ≠ d) } }

/-- Its reads are left to reconstruction, and a record names it. -/
def dieLeft (d : Nat) (s : State) : State :=
  addRec (mkRec 0 0x0A 0 (.die d)) ((s.dies.reads.filter (fun r => r.die = d && !r.done)).foldl (fun s r => leaveDie r s) (withoutDie d s))

/-- The bands that it belongs to close early, those of the system region first. -/
def rescueBands (d : Nat) (s : State) : State :=
  let bands := (s.ftl.bands.filter (fun b => d ∈ b.dies && (b.st = .opened || s.programming b.n))).map (·.n)
  (bands.filter s.isSystem ++ bands.filter (fun n => !s.isSystem n)).foldl (fun s n => rescueBand d n s) s

/-- Erases that wait for the die wait for it no more. -/
def endErases (d : Nat) (bands : List Nat) (s : State) : State :=
  bands.foldl (fun s n =>
    let s := modBand n (fun b => { b with eraseWait := b.eraseWait.filter (· ≠ d) }) s
    match s.band? n with | some b => if b.eraseWait = [] then erased n s else s | none => s) s

theorem dieFound_eq (d : Nat) (s : State) : dieFound d s =
    endErases d ((s.ftl.bands.filter (fun b => b.st = .erasing && d ∈ b.eraseWait)).map (·.n)) (rescueBands d (dieLeft d s)) := rfl

section
variable {s : State} (bands : s.ftl.bands = [])
include bands

/-- Without bands no stripe has other pages to read: a read of the die stands ready to be found lost (R306). -/
theorem leaveDie_of_noBands (r : Rd) : ∃ reads, leaveDie r s = { s with dies := { s.dies with reads := reads } } := by
  have none_ : s.peerDies r.slot r.die = [] := by simp [State.peerDies, State.band?, bands]
  unfold leaveDie reconstruct
  rw [none_]
  simp only [ne_eq, not_true_eq_false, decide_false, Bool.and_false, Bool.false_eq_true, ↓reduceIte]
  split
  · exact ⟨_, rfl⟩
  split
  · exact ⟨s.dies.reads, rfl⟩
  · exact ⟨_, rfl⟩

theorem foldl_leaveDie_of_noBands (l : List Rd) : ∃ reads, l.foldl (fun s r => leaveDie r s) s = { s with dies := { s.dies with reads := reads } } := by
  induction l generalizing s with
  | nil => exact ⟨s.dies.reads, rfl⟩
  | cons r l ih =>
    obtain ⟨reads, left⟩ := leaveDie_of_noBands bands r
    obtain ⟨reads', rest⟩ := ih (s := { s with dies := { s.dies with reads := reads } }) bands
    exact ⟨reads', by rw [List.foldl_cons, left, rest]⟩

/-- A die found failed, of no band: it is out of service, nothing is queued for it, and a record names it (R309). -/
theorem dieFound_of_noBands (d : Nat) : ∃ reads, dieFound d s = addRec (mkRec 0 0x0A 0 (.die d)) { withoutDie d s with
    dies := { (withoutDie d s).dies with reads := reads } } := by
  obtain ⟨reads, leaves⟩ := foldl_leaveDie_of_noBands (s := withoutDie d s) bands (s.dies.reads.filter (fun r => r.die = d && !r.done))
  have left : dieLeft d s = addRec (mkRec 0 0x0A 0 (.die d)) { withoutDie d s with dies := { (withoutDie d s).dies with reads := reads } } :=
    congrArg (addRec _) leaves
  have none_ : (dieLeft d s).ftl.bands = [] := by rw [left]; exact bands
  refine ⟨reads, ?_⟩
  rw [dieFound_eq, bands, ← left, rescueBands, none_]
  rfl

end

/-! ## The record of a failure -/

/-- What a die found failed touches, of no band: the dies, their queue, and the record that names it. -/
theorem dieFound_frame {s : State} (bands : s.ftl.bands = []) (d : Nat) : ∃ dies log, dieFound d s = { s with dies := dies, log := log }
    ∧ dies.chHeld = s.dies.chHeld := by
  obtain ⟨reads, found⟩ := dieFound_of_noBands bands d
  exact ⟨_, _, found, rfl⟩

/-- A failure's hold-back ends; the die has failed as before. -/
theorem foldl_endHoldback (l : List Nat) (s : State) :
    ∃ dies, l.foldl (fun s x => modDie x (fun y => { y with holdback := false }) s) s = { s with dies := { s.dies with dies := dies } }
      ∧ ∀ d, (State.die { s with dies := { s.dies with dies := dies } } d).failed = (s.die d).failed := by
  induction l generalizing s with
  | nil => exact ⟨s.dies.dies, rfl, fun _ => rfl⟩
  | cons x l ih =>
    obtain ⟨dies, rest, kept⟩ := ih (modDie x (fun y => { y with holdback := false }) s)
    refine ⟨dies, rest, fun d => (kept d).trans ?_⟩
    by_cases own : d = x
    · rw [own, die_modDie (by exact die_n s x)]
    · rw [die_modDie_of_ne (by exact die_n s x) own]

theorem mem_withNat (x : Nat) (l : List Nat) : x ∈ withNat x l := by
  unfold withNat
  split
  · assumption
  · simp

/-- Dies that are marked failed owe nothing any more. -/
theorem markFailed_frame (cls c : Nat) (l : List Nat) (s : State) : ∃ dies, markFailed cls c l s = { s with
      rec_ := { s.rec_ with failedDies := l.foldl (fun l x => withNat x l) s.rec_.failedDies
                            failedChannels := if cls = 6 then withNat c s.rec_.failedChannels else s.rec_.failedChannels }
      dies := { s.dies with dies := dies } }
    ∧ ∀ d, ((markFailed cls c l s).die d).failed = (s.die d).failed := by
  obtain ⟨dies, ends, kept⟩ := foldl_endHoldback l { s with rec_ := { s.rec_ with
      failedDies := l.foldl (fun l x => withNat x l) s.rec_.failedDies
      failedChannels := if cls = 6 then withNat c s.rec_.failedChannels else s.rec_.failedChannels } }
  exact ⟨dies, ends, fun d => (congrArg (fun t => (State.die t d).failed) ends).trans (kept d)⟩

/-- The record of a failure: its die or channel is permanent, and has its rebuild (R308, R311). -/
theorem enterFailure_spec (cls d : Nat) (s : State) : (enterFailure cls d s).flt = s.flt ∧ (enterFailure cls d s).dies.chHeld = s.dies.chHeld
    ∧ (∀ e, ((enterFailure cls d s).die e).failed = (s.die e).failed)
    ∧ (cls = 5 → d ∈ (enterFailure cls d s).rec_.failedDies ∧ (5, d) ∈ (enterFailure cls d s).rec_.rebuilds)
    ∧ (cls = 6 → dieChannel d ∈ (enterFailure cls d s).rec_.failedChannels) := by
  obtain ⟨log, ceiling, opens⟩ := openMedia_eq s
  obtain ⟨dies, marked, kept⟩ := markFailed_frame cls (dieChannel d) (if cls = 6 then (List.range s.groups).map (fun g => dieOf (dieChannel d) g) else [d])
    (openMedia s)
  have failed : ∀ e, ((openMedia s).die e).failed = (s.die e).failed := fun e => by rw [opens]; rfl
  refine ⟨?_, ?_, fun e => (kept e).trans (failed e), fun die => ?_, fun channel => ?_⟩ <;>
  · unfold enterFailure
    dsimp only
    rw [marked]
    simp [mem_withNat, *]

end Sys2Proof.Proofs
end

section
/-! SUPPORT. The fault of a failure and its rebuild (R308, R309, R314, R315): what they leave of the failures, and the entry in the blotter. -/

namespace Sys2Proof.Proofs

open Sys2Proof Sys2Proof.Machine Sys2Proof.Laws

/-- The blotter's newest entry is that of FC5 or FC6. -/
def FailureNewest (s : State) : Prop := ∃ b rest, s.flt.blotter = b :: rest ∧ b.kind = 1 ∧ (b.cls = 5 ∨ b.cls = 6)

/-- The fault of a failure touches no failure, and is the blotter's newest entry. -/
theorem failureFault_newest {s : State} (unack : s.flt.unack = []) (stop : s.flt.stopping = false) (cls d : Nat) (few : Bool) :
    failures (failureFault cls d few s) = failures s ∧ FailureNewest (failureFault cls d few s) := by
  have front : ∀ {k base source cause : Nat} {detail : BitVec 64}, base < 5 → (k = 5 ∨ k = 6) →
      failures (recordFault k base source detail cause s) = failures s ∧ FailureNewest (recordFault k base source detail cause s) := fun low own => by
    obtain ⟨kept, b, rest, newest, kind, same⟩ := recordFault_front unack stop low
    exact ⟨kept, b, rest, newest, kind, same.symm ▸ own⟩
  unfold failureFault
  dsimp only
  split
  · exact front (by decide) (.inr rfl)
  split
  · exact front (by decide) (.inr rfl)
  · exact front (by decide) (.inl rfl)

/-- A note touches no failure, and of the blotter it pushes out only the oldest entry. -/
theorem addNote_frame (kind : Nat) (detail : BitVec 64) (s : State) : failures (addNote kind detail s) = failures s
    ∧ ∃ b, (addNote kind detail s).flt.blotter = b :: s.flt.blotter.take 31 := by
  obtain ⟨aon, noted⟩ := addBlot_front kind 0xFF 0 false 0xFF detail s
  unfold addNote
  rw [noted]
  exact ⟨rfl, _, rfl⟩

/-- Whether the module is worn is no failure, and its note leaves the blotter's newest entry in it. -/
theorem checkWorn_frame (s : State) : failures (checkWorn s) = failures s ∧ ∀ b rest, s.flt.blotter = b :: rest → b ∈ (checkWorn s).flt.blotter := by
  unfold checkWorn
  split
  · obtain ⟨kept, note, noted⟩ := addNote_frame 0x05 0 { s with rec_ := { s.rec_ with worn := true } }
    have work := programAll_flashWork (addNote 0x05 0 { s with rec_ := { s.rec_ with worn := true } })
    have blotter : (aliveUpdate (programAll (addNote 0x05 0 { s with rec_ := { s.rec_ with worn := true } }))).flt.blotter = note :: s.flt.blotter.take 31 :=
      (congrArg Flt.blotter work.flt).trans noted
    exact ⟨work.failures.trans kept, fun b rest front => by rw [blotter, front]; simp⟩
  · exact ⟨rfl, fun b rest front => front ▸ List.mem_cons_self⟩

/-- The rebuild of a failure that begins touches no failure. -/
theorem beginRebuild_frame (cls d : Nat) (s : State) : failures (beginRebuild cls d s) = failures s
    ∧ ∀ b rest, s.flt.blotter = b :: rest → b ∈ (beginRebuild cls d s).flt.blotter := by
  obtain ⟨lops, created⟩ := (createRebuild_lopsMoved cls (if cls = 6 then dieChannel d else d) (narrowFree s)).eq
  have work := rebuildNext_flashWork (createRebuild cls (if cls = 6 then dieChannel d else d) (narrowFree s))
  obtain ⟨kept, stays⟩ := checkWorn_frame (rebuildNext (createRebuild cls (if cls = 6 then dieChannel d else d) (narrowFree s)))
  have flt : (rebuildNext (createRebuild cls (if cls = 6 then dieChannel d else d) (narrowFree s))).flt = s.flt := by rw [work.flt, created]; rfl
  refine ⟨kept.trans (work.failures.trans (by rw [created]; rfl)), fun b rest front => stays b rest ?_⟩
  rw [flt, front]

/-- A failure that is recorded: the failures are those of its record, and its fault is in the blotter (R308). -/
theorem recordFailure_spec {s : State} (unack : s.flt.unack = []) (stop : s.flt.stopping = false) (cls d : Nat) :
    failures (recordFailure cls d s) = failures (enterFailure cls d s)
    ∧ ∃ b ∈ (recordFailure cls d s).flt.blotter, b.kind = 1 ∧ (b.cls = 5 ∨ b.cls = 6) := by
  have flt := (enterFailure_spec cls d s).1
  obtain ⟨kept, b, rest, newest, own⟩ := failureFault_newest (s := enterFailure cls d s) (flt.symm ▸ unack) (flt.symm ▸ stop) cls d
    (enterFailure cls d s).fewChannels
  unfold recordFailure
  dsimp only
  split
  · obtain ⟨begun, stays⟩ := beginRebuild_frame cls d (failureFault cls d (enterFailure cls d s).fewChannels (enterFailure cls d s))
    exact ⟨begun.trans kept, b, stays b rest newest, own⟩
  · exact ⟨kept, b, newest ▸ List.mem_cons_self, own⟩

section
variable {s t : State} (same : failures t = failures s)
include same

theorem die_of_failures (d : Nat) : t.die d = s.die d := by
  have dies : t.dies.dies = s.dies.dies := congrArg (fun f => f.2.2.2.1) same
  unfold State.die
  rw [dies]

theorem failedDies_of_failures : t.rec_.failedDies = s.rec_.failedDies := congrArg (fun f => f.1) same
theorem failedChannels_of_failures : t.rec_.failedChannels = s.rec_.failedChannels := congrArg (fun f => f.2.1) same
theorem rebuilds_of_failures : t.rec_.rebuilds = s.rec_.rebuilds := congrArg (fun f => f.2.2.1) same
theorem chHeld_of_failures : t.dies.chHeld = s.dies.chHeld := congrArg (fun f => f.2.2.2.2) same

end

end Sys2Proof.Proofs
end

section
/-! SUPPORT. Reads diverted from a slow die, dies found failed, and channels that fail their training (R281, R309, R313). -/

namespace Sys2Proof.Proofs

open Sys2Proof Sys2Proof.Machine Sys2Proof.Laws

/-! ## Reads of a slow die -/

/-- The reads of `l` have gone to reconstruction: no other read has changed, and the peers' reads have numbers of their own. -/
structure Diverted (l : List Rd) (a t : State) : Prop where
  dies : t.dies.dies = a.dies.dies
  next : a.dies.nextRd ≤ t.dies.nextRd
  queue : ∀ q ∈ t.dies.queue, q ∈ a.dies.queue ∨ ∃ n, q.kind = .read n ∧ a.dies.nextRd ≤ n
  reads : ∀ y ∈ t.dies.reads, y.use = 4 ∨ (y.recon = true ∧ y.step = 9) ∨ (y ∈ a.dies.reads ∧ ∀ r ∈ l, y.id ≠ r.id)

theorem Diverted.refl (a : State) : Diverted [] a a := ⟨rfl, Nat.le_refl _, fun _ h => .inl h, fun _ h => .inr (.inr ⟨h, by simp⟩)⟩

theorem Diverted.cons {r : Rd} {l : List Rd} {a b t : State} (h : Diverted [r] a b) (k : Diverted l b t) : Diverted (r :: l) a t where
  dies := k.dies.trans h.dies
  next := Nat.le_trans h.next k.next
  queue q listed := (k.queue q listed).elim (h.queue q) (fun ⟨n, kind, above⟩ => .inr ⟨n, kind, Nat.le_trans h.next above⟩)
  reads y listed := by
    rcases k.reads y listed with peer | gone | ⟨stood, others⟩
    · exact .inl peer
    · exact .inr (.inl gone)
    rcases h.reads y stood with peer | gone | ⟨stood, other⟩
    · exact .inl peer
    · exact .inr (.inl gone)
    · exact .inr (.inr ⟨stood, List.forall_mem_cons.2 ⟨other r (List.mem_singleton.2 rfl), others⟩⟩)

/-- The read itself is at the last step, and stays to be reconstructed. -/
theorem modRd_diverted {f : Rd → Rd} (gone : ∀ x, (f x).recon = true ∧ (f x).step = 9) (r : Rd) (s : State) : Diverted [r] s (modRd r.id f s) where
  dies := rfl
  next := Nat.le_refl _
  queue _ listed := .inl listed
  reads y listed := by
    obtain ⟨x, stood, rfl⟩ := List.mem_map.1 listed
    split
    · exact .inr (.inl (gone x))
    · next other => exact .inr (.inr ⟨stood, by simpa using other⟩)

theorem startPeers_diverted (r : Rd) (s : State) : Diverted [] s (startPeers r s) where
  dies := rfl
  next := Nat.le_add_right _ _
  queue q listed := by
    refine (List.mem_append.1 listed).imp_right fun new => ?_
    simp only [List.map_map, List.mem_map, Function.comp_apply] at new
    obtain ⟨k, -, rfl⟩ := new
    exact ⟨_, rfl, Nat.le_add_right _ _⟩
  reads y listed := by
    rcases List.mem_append.1 listed with stood | new
    · exact .inr (.inr ⟨stood, by simp⟩)
    · obtain ⟨k, -, rfl⟩ := List.mem_map.1 new
      exact .inl rfl

/-- A read goes to reconstruction (R306). -/
theorem reconstruct_diverted (r : Rd) (s : State) : Diverted [r] s (reconstruct r true s) := by
  unfold reconstruct
  split
  · exact (modRd_diverted (by exact fun _ => ⟨rfl, rfl⟩) r s).cons (startPeers_diverted r _)
  · exact modRd_diverted (by exact fun _ => ⟨rfl, rfl⟩) r s

theorem foldl_reconstruct_diverted (l : List Rd) (s : State) : Diverted l s (l.foldl (fun s r => reconstruct r true s) s) := by
  induction l generalizing s with
  | nil => exact .refl s
  | cons r l ih => exact (reconstruct_diverted r s).cons (ih _)

/-- The reads, other than peers, that wait for a die at class 0. -/
def readsAtDie (d : Nat) (s : State) : List Rd :=
  s.dies.reads.filter (fun r => r.id ∈ s.dies.queue.filterMap (fun q =>
    if q.die = d && q.cls = 0 then (match q.kind with | .read r => some r | _ => none) else none) && r.use ≠ 4)

theorem divert_eq (d : Nat) (s : State) : divert d s = (readsAtDie d s).foldl (fun s r => reconstruct r true s)
    { s with dies := { s.dies with queue := s.dies.queue.filter (fun q => !(readsAtDie d s).any (fun r => q.kind = .read r.id)) } } := rfl

theorem mem_readsAtDie {d : Nat} {s : State} {q : DieOp} {r : Rd} (queued : q ∈ s.dies.queue) (own : q.die = d) (cls : q.cls = 0) (kind : q.kind = .read r.id)
    (listed : r ∈ s.dies.reads) (use : r.use ≠ 4) : r ∈ readsAtDie d s :=
  List.mem_filter.2 ⟨listed, Bool.and_eq_true_iff.2 ⟨decide_eq_true (List.mem_filterMap.2 ⟨q, queued, by simp [own, cls, kind]⟩), decide_eq_true use⟩⟩

/-- The reads that wait for a slow die at class 0 leave its queue for reconstruction (R309). -/
theorem divert_spec (d : Nat) (s : State) : (divert d s).dies.dies = s.dies.dies
    ∧ (∀ q ∈ (divert d s).dies.queue, q.die = d → q.cls = 0 → ∀ r ∈ s.dies.reads, q.kind = .read r.id → r.use = 4 ∨ s.dies.nextRd ≤ r.id)
    ∧ (∀ q ∈ s.dies.queue, ∀ id, q.die = d → q.cls = 0 → q.kind = .read id → ∀ r ∈ (divert d s).dies.reads, r.id = id →
      r.use = 4 ∨ (r.recon = true ∧ r.step = 9)) := by
  obtain ⟨dies, -, queue, reads⟩ := foldl_reconstruct_diverted (readsAtDie d s)
    { s with dies := { s.dies with queue := s.dies.queue.filter (fun q => !(readsAtDie d s).any (fun r => q.kind = .read r.id)) } }
  rw [divert_eq]
  refine ⟨dies, fun q listed own cls r stood kind => ?_, fun q queued id own cls kind r listed same => ?_⟩
  · by_contra open_
    obtain ⟨use, below⟩ := not_or.1 open_
    rcases queue q listed with left | ⟨n, kind', above⟩
    · obtain ⟨queued, stays⟩ := List.mem_filter.1 left
      simp only [Bool.not_eq_true', List.any_eq_false, decide_eq_true_eq] at stays
      exact stays r (mem_readsAtDie queued own cls kind stood use) kind
    · obtain rfl : n = r.id := by simpa [kind] using kind'.symm
      exact below above
  · rcases reads r listed with peer | gone | ⟨stood, others⟩
    · exact .inl peer
    · exact .inr gone
    · by_contra open_
      have waits := mem_readsAtDie (r := r) queued own cls (by rw [kind, same]) stood (not_or.1 open_).1
      exact others r waits rfl

end Sys2Proof.Proofs
end

section
/-! SUPPORT. A die that is found failed, of no band (R281, R308): it is out of service whether its channel goes with it or not. -/

namespace Sys2Proof.Proofs

open Sys2Proof Sys2Proof.Machine Sys2Proof.Laws

section
variable {s : State} (bands : s.ftl.bands = []) (d : Nat)
include bands

/-- The die is out of service, its failure held back; another die stays as it was. -/
theorem die_dieFound : (dieFound d s).die d = { Die.idle d with failed := true, holdback := true } ∧ ∀ e, e ≠ d → (dieFound d s).die e = s.die e := by
  obtain ⟨reads, found⟩ := dieFound_of_noBands bands d
  rw [found]
  exact ⟨die_setDie { Die.idle d with failed := true, holdback := true } s,
    fun e other => die_setDie_of_ne (x := { Die.idle d with failed := true, holdback := true }) other s⟩

/-- Nothing waits for the die any more, and a record names it. -/
theorem dieFound_leaves : (∀ q ∈ (dieFound d s).dies.queue, q.die ≠ d) ∧ ∃ x ∈ (dieFound d s).log.buf, x.typ = 0x0A ∧ x.chg = .die d := by
  obtain ⟨reads, found⟩ := dieFound_of_noBands bands d
  rw [found]
  exact ⟨fun q left => by simpa using (List.mem_filter.1 left).2, _, List.mem_append_right _ (List.mem_singleton.2 rfl), rfl, rfl⟩

/-- A die of whose channel another is not held back fails alone (R308). -/
theorem dieFails_alone (other : ∃ g < s.groups, dieOf (dieChannel d) g ≠ d ∧ (s.die (dieOf (dieChannel d) g)).holdback = false) :
    dieFails d s = dieFound d s := by
  obtain ⟨g, below, ne, serves⟩ := other
  obtain ⟨dies, log, found, -⟩ := dieFound_frame bands d
  have groups : (dieFound d s).groups = s.groups := by rw [found]; rfl
  refine if_neg fun all => ?_
  have held := List.all_eq_true.1 all g (List.mem_range.2 (groups.symm ▸ below))
  rw [(die_dieFound bands d).2 _ ne, serves] at held
  exact Bool.false_ne_true held

theorem die_dieFails_failed (unack : s.flt.unack = []) (stop : s.flt.stopping = false) : ((dieFails d s).die d).failed = true := by
  obtain ⟨dies, log, found, -⟩ := dieFound_frame bands d
  have flt : (dieFound d s).flt = s.flt := by rw [found]
  have failed : ((dieFound d s).die d).failed = true := by rw [(die_dieFound bands d).1]
  unfold dieFails
  dsimp only
  split
  · rw [die_of_failures (recordFailure_spec (by rw [flt, unack]) (by rw [flt, stop]) 6 d).1, (enterFailure_spec 6 d _).2.2.1, failed]
  · exact failed

end

/-! ## Dies of a channel -/

/-- A channel's dies that are dropped touch no more than the dies and the map log. -/
theorem foldl_dropDies_frame (c : Nat) (l : List Nat) {s : State} (bands : s.ftl.bands = []) : ∃ dies log,
    l.foldl (fun s g => if (s.die (dieOf c g)).failed then s else dieFound (dieOf c g) s) s = { s with dies := dies, log := log }
    ∧ dies.chHeld = s.dies.chHeld := by
  induction l generalizing s with
  | nil => exact ⟨s.dies, s.log, rfl, rfl⟩
  | cons g l ih =>
    have first : ∃ dies log, (if (s.die (dieOf c g)).failed then s else dieFound (dieOf c g) s) =
        { s with dies := dies, log := log } ∧ dies.chHeld = s.dies.chHeld := by
      split
      · exact ⟨s.dies, s.log, rfl, rfl⟩
      · exact dieFound_frame bands _
    obtain ⟨dies, log, dropped, held⟩ := first
    obtain ⟨dies', log', rest, held'⟩ := ih (s := { s with dies := dies, log := log }) bands
    exact ⟨dies', log', by rw [List.foldl_cons, dropped, rest], held'.trans held⟩

/-- A channel that is failed is recorded so, and held in reset (R281). -/
theorem failChannel_spec {s : State} (recovered : s.rst.recovered = true) (bands : s.ftl.bands = []) (unack : s.flt.unack = []) (stop : s.flt.stopping = false)
    (c : Nat) : c ∈ (failChannel c s).rec_.failedChannels ∧ c ∈ (failChannel c s).dies.chHeld := by
  obtain ⟨dies, log, dropped, held⟩ := foldl_dropDies_frame c (List.range s.groups)
    (s := { s with dies := { s.dies with chHeld := withNat c s.dies.chHeld } }) bands
  have channel : dieChannel (dieOf c 0) = c := by simp [dieChannel, dieOf]
  have dropped' : dropChannel c { s with dies := { s.dies with chHeld := withNat c s.dies.chHeld } } = _ := dropped
  unfold failChannel
  simp only [recovered, Bool.not_true, Bool.false_eq_true, ↓reduceIte, dropped']
  have mem : c ∈ dies.chHeld := held ▸ mem_withNat c _
  split
  · next known => exact ⟨known, mem⟩
  · obtain ⟨same, -⟩ := recordFailure_spec (s := { s with dies := dies, log := log }) unack stop 6 (dieOf c 0)
    obtain ⟨-, held', -, -, failed⟩ := enterFailure_spec 6 (dieOf c 0) { s with dies := dies, log := log }
    have entered := failed rfl
    rw [channel] at entered
    rw [failedChannels_of_failures same, chHeld_of_failures same, held']
    exact ⟨entered, mem⟩

/-! ## The identification read -/

/-- What a group's identification read does. -/
def checkDie (c : Nat) (ids : List Nat) (s : State) (g : Nat) : State :=
  if ids[g]?.all (· = s.unit.dieIds.getD (dieOf c g) 0) || s.dieDead (dieOf c g) || !s.running then s else dieFails (dieOf c g) s

theorem checkIds_eq (c : Nat) (ids : List Nat) (s : State) : checkIds c ids s = (List.range s.groups).foldl (checkDie c ids) s := rfl

/-- Dies whose identification is as the factory recorded it stay as they were. -/
theorem foldl_checkDie_agree {c : Nat} {ids l : List Nat} {s : State} (agree : ∀ k ∈ l, ∀ y, ids[k]? = some y → y = s.unit.dieIds.getD (dieOf c k) 0) :
    l.foldl (checkDie c ids) s = s := by
  refine List.foldlRecOn l (checkDie c ids) (motive := (· = s)) rfl fun t same k listed => ?_
  have reads : ids[k]?.all (· = s.unit.dieIds.getD (dieOf c k) 0) = true := by
    cases read : ids[k]? with
    | none => rfl
    | some y => exact decide_eq_true (agree k listed y read)
  rw [same]
  exact if_pos (by rw [reads, Bool.true_or, Bool.true_or])

/-- A channel whose dies all read as the factory recorded them stays as it was. -/
theorem checkIds_agree {c : Nat} {ids : List Nat} {s : State} (agree : ∀ g < s.groups, ∀ y, ids[g]? = some y → y = s.unit.dieIds.getD (dieOf c g) 0) :
    checkIds c ids s = s :=
  foldl_checkDie_agree fun k listed => agree k (List.mem_range.1 listed)

/-- The one die whose identification disagrees is found failed (R281). -/
theorem checkIds_one {c g x : Nat} {ids : List Nat} {s : State} (on : s.running = true) (below : g < s.groups) (read : ids[g]? = some x)
    (differs : x ≠ s.unit.dieIds.getD (dieOf c g) 0) (others : ∀ k < s.groups, k ≠ g → ∀ y, ids[k]? = some y → y = s.unit.dieIds.getD (dieOf c k) 0)
    (serves : s.dieDead (dieOf c g) = false) : checkIds c ids s = dieFails (dieOf c g) s := by
  obtain ⟨before, after, split⟩ := List.append_of_mem (List.mem_range.2 below)
  have nodup := split ▸ List.nodup_range (n := s.groups)
  have range : ∀ k, k ∈ before ∨ k ∈ after → k < s.groups ∧ k ≠ g := fun k listed => by
    refine ⟨List.mem_range.1 (split ▸ by simpa using listed.elim .inl (fun h => .inr (.inr h))), ?_⟩
    rintro rfl
    obtain ⟨-, own, apart⟩ := List.nodup_append.1 nodup
    rcases listed with early | late
    · exact apart _ early _ List.mem_cons_self rfl
    · exact (List.nodup_cons.1 own).1 late
  have unit : (dieFails (dieOf c g) s).unit = s.unit := (dieFails_ok (dieOf c g) (Ok.refl s)).unit
  have fails : checkDie c ids s g = dieFails (dieOf c g) s := if_neg (by simpa [read, serves, on] using differs)
  rw [checkIds_eq, split, List.foldl_append, foldl_checkDie_agree (fun k early => others k (range k (.inl early)).1 (range k (.inl early)).2),
    List.foldl_cons, fails]
  exact foldl_checkDie_agree fun k late => unit.symm ▸ others k (range k (.inr late)).1 (range k (.inr late)).2

end Sys2Proof.Proofs
end

section
/-! O50. The statement on timeouts, slow dies, and the failure of dies and channels (R281, R308, R309, R313). -/

namespace Sys2Proof.Proofs

open Sys2Proof Sys2Proof.Machine Sys2Proof.Laws

/-! ## The rows -/

section
variable {s : State} {d : Nat} {a : DieOp} (on : s.running = true) (active : (s.die d).active = some a)
include on active

/-- A busy die that is not being reset times out (R281). -/
theorem exec_dieReadyTimeout (awake : (s.die d).resetWait = false) : exec (.dieReadyTimeout d) s = .next (settleUp
    (if (s.die d).timeouts = 0 then modDie d (fun x => { x with resetWait := true, timeouts := 1 }) { s with out := [] } else dieFails d { s with out := [] })) :=
  work_onlyIf_true (show (s.running && (s.die d).active.isSome && !(s.die d).resetWait) = true by simp [on, active, awake])

theorem exec_dieReadyTimeout_first (awake : (s.die d).resetWait = false) (zero : (s.die d).timeouts = 0) : exec (.dieReadyTimeout d) s = .next (settleUp
    (modDie d (fun x => { x with resetWait := true, timeouts := 1 }) { s with out := [] })) := by
  rw [exec_dieReadyTimeout on active awake, if_pos zero]

theorem exec_dieReadyTimeout_again (awake : (s.die d).resetWait = false) (again : (s.die d).timeouts ≠ 0) :
    exec (.dieReadyTimeout d) s = .next (settleUp (dieFails d { s with out := [] })) := by
  rw [exec_dieReadyTimeout on active awake, if_neg again]

theorem exec_dieSlowDiversion : exec (.dieSlowDiversion d) s = .next (divert d (modDie d (fun x => { x with slow := true }) { s with out := [] })) :=
  answer_onlyIf_true (show (s.running && ((s.die d).active.isSome || (s.die d).resetWait)) = true by simp [on, active])

end

/-- A hold-back that ends where another die of the channel is not held back: the die alone has failed (R308). -/
theorem exec_failureHoldbackExpiry_alone {s : State} {d : Nat} (on : s.running = true) (held : (s.die d).holdback = true)
    (other : ∃ g < s.groups, (s.die (dieOf (dieChannel d) g)).holdback = false) :
    exec (.failureHoldbackExpiry d) s = .next (settleUp (recordFailure 5 d { s with out := [] })) := by
  obtain ⟨g, below, serves⟩ := other
  have notAll : ¬ (List.range s.groups).all (fun g => (s.die (dieOf (dieChannel d) g)).holdback) = true := fun all =>
    Bool.false_ne_true (serves ▸ List.all_eq_true.1 all g (List.mem_range.2 below))
  have alone : (if (List.range s.groups).all (fun g => (s.die (dieOf (dieChannel d) g)).holdback) then 6 else 5 : Nat) = 5 := if_neg notAll
  exact (work_onlyIf_true (show (s.running && (s.die d).holdback) = true by rw [on, held, Bool.and_self])).trans
    (congrArg (fun cls => Host.Outcome.next (settleUp (recordFailure cls d { s with out := [] }))) alone)

section
variable {s : State} {c : Nat} (on : s.running = true) (below : c < 16) (up : s.channelUp c = true) (ids : List Nat)
include on below up

/-- A channel's training ends (R281, R402). -/
theorem exec_interfaceTrainingComplete (ok : Bool) : exec (.interfaceTrainingComplete c ok ids) s = .next (settleUp (
    if ok then checkIds c ids (ackReaction 10 (0x20 + c) { s with out := [], dies := { s.dies with trainFailed := s.dies.trainFailed.filter (fun x => x ≠ c) } })
    else if c ∉ s.dies.trainFailed then { s with out := [], dies := { s.dies with trainFailed := s.dies.trainFailed ++ [c] } }
    else failChannel c { s with out := [] })) :=
  work_onlyIf_true (by simp [on, below, up])

/-- A training that succeeds: the identification is read. -/
theorem exec_interfaceTrainingComplete_ok (unack : s.flt.unack = []) : exec (.interfaceTrainingComplete c true ids) s = .next (settleUp (checkIds c ids
    { s with out := [], dies := { s.dies with trainFailed := s.dies.trainFailed.filter (fun x => x ≠ c) } })) := by
  rw [exec_interfaceTrainingComplete on below up, if_pos rfl, ackReaction_none (by exact unack)]

end

/-- Settles O50: each row by its answer; a die found failed by what it leaves, a failure by its record and its fault. -/
theorem failingDiesAreTakenOut : Obligations.FailingDiesAreTakenOut := by
  refine ⟨?reset, ?second, ?again, ?slow, ?holdback, fun s c ids on below up unack => ⟨?agree, ?differs, ?first, ?twice⟩⟩
  case reset =>
    intro s d a on active awake zero
    have die : (modDie d (fun x => { x with resetWait := true, timeouts := 1 }) { s with out := [] }).die d = { s.die d with resetWait := true, timeouts := 1 } :=
      die_modDie (by exact die_n s d)
    exact ⟨_, exec_dieReadyTimeout_first on active awake zero, by rw [die], by rw [die], by rw [die]; exact active, rfl⟩
  case second =>
    intro s d a on active awake again bands other
    have alone := dieFails_alone (s := { s with out := [] }) bands d other
    obtain ⟨queue, named⟩ := dieFound_leaves (s := { s with out := [] }) bands d
    have die := (die_dieFound (s := { s with out := [] }) bands d).1
    exact ⟨_, alone ▸ exec_dieReadyTimeout_again on active awake again, by rw [die], by rw [die], by rw [die]; rfl, queue, named⟩
  case again =>
    intro s d a on active
    have die : (modDie d (fun x => { x with resetWait := false }) { s with out := [] }).die d = { s.die d with resetWait := false } :=
      die_modDie (by exact die_n s d)
    exact ⟨_, answer_onlyIf_true (by exact on), by rw [die], by rw [die]; exact active, rfl, rfl⟩
  case slow =>
    intro s d a on active
    obtain ⟨dies, queue, reads⟩ := divert_spec d (modDie d (fun x => { x with slow := true }) { s with out := [] })
    have die : (modDie d (fun x => { x with slow := true }) { s with out := [] }).die d = { s.die d with slow := true } := die_modDie (by exact die_n s d)
    refine ⟨_, exec_dieSlowDiversion on active, ?_, queue, reads⟩
    rw [State.die, dies]
    exact congrArg Die.slow die
  case holdback =>
    intro s d on held normal unack stop items ⟨g, below, serves⟩
    obtain ⟨same, fault⟩ := recordFailure_spec (s := { s with out := [] }) unack stop 5 d
    obtain ⟨-, -, -, entered, -⟩ := enterFailure_spec 5 d { s with out := [] }
    obtain ⟨failed, rebuild⟩ := entered rfl
    refine ⟨_, exec_failureHoldbackExpiry_alone on held ⟨g, below, serves⟩, ?_, ?_, fault⟩
    · rw [failedDies_of_failures same]; exact failed
    · rw [rebuilds_of_failures same]; exact rebuild
  case agree =>
    intro agree
    rw [exec_interfaceTrainingComplete_ok on below up ids unack, checkIds_agree (by exact agree)]
  case differs =>
    intro g x inside read differs others serves bands stop
    have one := checkIds_one (s := { s with out := [], dies := { s.dies with trainFailed := s.dies.trainFailed.filter (fun x => x ≠ c) } })
      on inside read differs others serves
    exact ⟨_, (exec_interfaceTrainingComplete_ok on below up ids unack).trans (congrArg (Host.Outcome.next ∘ settleUp) one),
      die_dieFails_failed (by exact bands) (dieOf c g) unack stop⟩
  case first =>
    intro never
    rw [exec_interfaceTrainingComplete on below up, if_neg Bool.false_ne_true, if_pos never]
  case twice =>
    intro once normal recovered bands stop items
    refine ⟨_, ?_, failChannel_spec (s := { s with out := [] }) recovered bands unack stop c⟩
    rw [exec_interfaceTrainingComplete on below up, if_neg Bool.false_ne_true, if_neg (not_not.2 once)]

end Sys2Proof.Proofs
end
